-- ==== Sys2Proof/Word.lean ====
section
/-! DEFINITION. The word types of the model and their plainest arithmetic (R5 to R7).
Bit vectors hold what the manual treats as bits; counts and indices are Nat or Fin. -/

namespace Sys2Proof

/-- One byte. -/
abbrev Byte := BitVec 8
/-- A string of bytes, lowest address first (R6: multi-byte fields are little-endian). -/
abbrev Bytes := List (BitVec 8)
/-- A 64-bit control word (R13, R458). -/
abbrev Word := BitVec 64
/-- A beat count, 48 bits wide (R33). -/
abbrev Beat := BitVec 48
/-- One table entry as a little-endian value; the widest entry is 32 bytes (R129). -/
abbrev Entry := BitVec 256
/-- A sparse map by number: strictly rising keys, no value equal to the default of its key. -/
abbrev SMap (α : Type) := List (Nat × α)

end Sys2Proof
end

