-- ==== Sys2Proof/Config.lean ====
section
/-! DEFINITION. What an implementation fixes and the values the manual leaves open.
Every constant here that has no body is a free value: no proof can see what it is (log entry 5). -/

namespace Sys2Proof.Config

/-- The ordering codes of the part (R4, R461). -/
inductive OrderCode where
  | ma | es
  deriving DecidableEq, Repr, Inhabited

/-- ORDER_CODE of this part ("Per part", R461). Free value (log entry 5). -/
opaque orderCode : OrderCode
/-- STEPPING of this part ("Per part", R461). Free value (log entry 5). -/
opaque stepping : BitVec 8
/-- SERIAL of this part ("Per part", R461). Free value (log entry 5). -/
opaque serial : BitVec 64
/-- Psizil's manufacturer code in IDCODE, stated in a file outside the manual (R484). Free value. -/
opaque manufacturerCode : BitVec 11
/-- Expected MISR of a test partition ("Per stepping", R382, R401). Free value. -/
opaque bistMisr : Nat → BitVec 64
/-- Expected PATTERNS of TP-95 (R382; R378 gives no count for it). Free value. -/
opaque bistPatterns : BitVec 32
/-- Whether a core rail setpoint that is no multiple of 5 mV is sent as the next higher code (R363, R476). Free value. -/
opaque vreqRoundsUp : Nat → Bool
/-- Whether a learned beat length that is no multiple of 0.25 ns is taken as the next higher one (R32, R43): by the sum of
the lengths and their number. Free value (log entry 5). -/
opaque learnedRoundsUp : Int → Nat → Bool
/-- Bus characteristics and device characteristics registers of the I3C target: the manual names the
CCCs that return them (R428) and no value. Free values. -/
opaque i3cBcr : BitVec 8
opaque i3cDcr : BitVec 8
/-- The status that GETSTATUS returns (R428 gives no layout). Free value, by draw. -/
opaque i3cStatus : Nat → BitVec 16
/-- PID bits [47:32] of the I3C provisional ID: R428 gives [31:16] and [15:0] only. Free value. -/
opaque i3cPidHigh : BitVec 16
/-- A byte of fabric memory that nothing has written since power-on (R455 "Undefined"), by power-on
number and offset. Free value (log entry 6). -/
opaque memByte : Nat → Nat → BitVec 8
/-- The running disparity a receiver sets from a code group that has neither 4, 5 nor 6 ones (R298 and R299 give those
three counts only), by the code group and the disparity before it. Free value (log entry 5). -/
opaque rdAfterBadCode : BitVec 10 → Bool → Bool
/-- The first image handle the module tries for the n-th image opened (R100: a 32-bit handle, no
value given). Free value (log entry 8). -/
opaque imageHandle : Nat → BitVec 32
/-- The payload of a stomped flit that stands for a flit that has not come, or for one that is not passed on (R125 and R147 give
its header and its CRC), by draw. Free value (log entry 59). -/
opaque stompPayload : Nat → BitVec 1920
/-- A fresh open value: the n-th draw (log entry 5). -/
opaque free64 : Nat → BitVec 64

end Sys2Proof.Config
end

