-- ==== Sys2Proof/Syntax.lean ====
section
/-! DEFINITION. The commands of the block: one constructor per row of spec/opcode_table.json, and the
types of their operands. The table gives the rows no bits; the operands are the model's (log entry 1). -/

namespace Sys2Proof

/-- A physical port, P0 to P63 (R11). -/
abbrev Port := Fin 64
/-- A logical port, LP0 to LP127 (R11). -/
abbrev Lp := Fin 128
/-- A traffic class (R11). -/
abbrev Tc := Fin 8
/-- A lane of one direction: 0 to 7 for D0 to D7, 8 for SP, 9 for CK (R104). -/
abbrev Lane := Fin 10

/-- The four command sources, in the codes of SRC_KIND (R59). -/
inductive Src where
  | pcie | tc7 | i3c | sb
  deriving DecidableEq, Repr

/-- The direction of a port, in the codes of DIR (R104). -/
inductive Dir where
  | tx | rx
  deriving DecidableEq, Repr

/-- The stripes of a port (R325). -/
inductive Side where
  | a | b
  deriving DecidableEq, Repr

/-- The parts of an accepted command packet that its execution and its reply need (R59); `index` is the ring number of a
PCIe command (R72), zero for the other sources, and `echo` holds bytes 8 and 9 of the packet as its reply echoes them (R61). -/
structure Cmd where
  src : Src
  origin : Nat
  seq : BitVec 32
  auth : Bool
  keySlot : Nat
  echo : BitVec 16
  correl : Word
  index : Nat
  deriving DecidableEq, Repr

/-- TARGET_SPEC with its reserved bits zero (R94). -/
structure TargetSpec where
  next : Bool
  latePol : Bool
  notify : Bool
  target : Beat
  deriving DecidableEq, Repr

/-- The 96-bit flit header by field (R121). -/
structure Hdr where
  pos : BitVec 2
  tc : BitVec 3
  ftype : BitVec 4
  flits : BitVec 5
  thl : BitVec 4
  stomp : BitVec 4
  rsvd : BitVec 2
  lastBytes : BitVec 8
  dest : BitVec 16
  src : BitVec 16
  fseq : BitVec 16
  link : BitVec 16
  deriving DecidableEq, Repr

/-- An error that the ECC of a shared-buffer bank reports when a cell of a frame is read: the flit that the cell holds, the bank, and
whether it is uncorrectable (R133, R393). -/
structure CellErr where
  flit : Nat
  bank : Nat
  uncorrected : Bool
  deriving DecidableEq, Repr

/-- A frame as far as it has arrived: the header of its head flit, the 240 payload bytes of each flit in order, how many
flits have arrived, the stomp code if its last arrived flit was stomped, whether the flits break R122, and what the ECC of the
buffer will report of its cells (R131, R133). -/
structure InFrame where
  hdr : Hdr
  content : Bytes
  arrived : Nat
  stomp : Option (BitVec 4)
  badFormat : Bool
  cells : List CellErr
  deriving DecidableEq, Repr

/-- The four levels of a PAM4 symbol, level 0 the lowest (R289). -/
inductive Level where
  | l0 | l1 | l2 | l3
  deriving DecidableEq, Repr

/-- A Sideband Chain frame after its start byte and CRC (R421, R422). -/
structure SbFrame where
  ftype : BitVec 8
  addr : BitVec 8
  flags : BitVec 8
  hops : BitVec 8
  attnMap : BitVec 32
  payload : Bytes
  /-- bytes 10 and 11, reserved. -/
  rsvd : BitVec 16 := 0
  deriving DecidableEq, Repr

/-- What the chain's wire carries: so many 1 bits, and the bytes after them (R421). -/
structure SbWire where
  idle : Nat
  bytes : Bytes
  deriving DecidableEq, Repr

/-- A LANE message (R350). -/
structure LaneMsg where
  lane : BitVec 8
  hitless : Bool
  restore : Bool
  stripeB : Bool
  width : BitVec 8
  first : BitVec 8
  next : BitVec 12
  deriving DecidableEq, Repr

/-- A training record by field (R331), with the result of its CRC check. -/
structure TrainRec where
  version : BitVec 8
  phase : BitVec 8
  laneId : BitVec 8
  split : Bool
  rxAligned : Bool
  replayValid : Bool
  ckOnSp : Bool
  tSyms : Bool
  background : Bool
  reservedZero : Bool
  blockCount : BitVec 16
  localEpoch : BitVec 16
  peerEpoch : BitVec 16
  rxNext : BitVec 12
  rxLanes : BitVec 8
  spWant : BitVec 8
  rxWidth : BitVec 8
  rxFirst : BitVec 8
  stamp : BitVec 32
  echoStamp : BitVec 32
  turn : BitVec 32
  crcGood : Bool
  deriving DecidableEq, Repr

/-- What a partition's test sequencer has done since it last reported (R378, R380, R382): the words that entered the MISR, the
patterns or march operations, the lanes that have failed in loopback (bit k lane k), the number of banks of a memory half whose
march has ended, and which of them failed. -/
structure TestEnd where
  words : List Word
  patterns : BitVec 32
  txFail : BitVec 10
  rxFail : BitVec 10
  banks : Nat
  badBanks : List Nat
  deriving DecidableEq, Repr

/-- What holds a word that was found uncorrectable while its bank was copied (R394 step 4): a buffer frame, or a slot group or page of
the Drey. -/
inductive CopyErr where
  | frame (id : Nat)
  | group (sid : Nat) (chunk : Nat) (group : Nat) (page : Bool)
  deriving DecidableEq, Repr

/-- A bank that has been copied, and the words of it that were uncorrectable (R394). -/
structure BankCopy where
  bank : Nat
  poisoned : List CopyErr
  deriving DecidableEq, Repr

/-- The error severity a stack reports for the sectors of one access (R211): the numbers of the
uncorrected and of the corrected sectors (offset / 64). -/
structure EccReport where
  uncorrected : List Nat
  corrected : List Nat
  deriving DecidableEq, Repr

/-- The kinds of spare that SPARE_BRING_IN names with KIND 2 to 4 (R113). -/
inductive SpareKind where
  | cluster | buffer | drey
  deriving DecidableEq, Repr

/-- What has damaged a slot group or a page (R277): a residue check, or an ECC error of a Drey bank. -/
inductive DamageKind where
  | residue (cluster : Nat) | slotEcc (bank : Nat) | pageEcc (bank : Nat)
  deriving DecidableEq, Repr

/-- The rails of R441. -/
inductive Rail where
  | vaux | vmpp | vmdd | vmq | vcore | vsa | vst
  deriving DecidableEq, Repr

/-- The instructions of the test access port (R484), by their codes. -/
abbrev TapCode := BitVec 8

/-- The commands of the block: first the rows with operands in the order of opcode_table.json, then the rows without. -/
inductive Instr where
  -- lands, straps and the power-on sequence
  | porNRise (trayPos : Fin 4) (bistStrap : Bool) (lowLongEnough : Bool)
  | rstNRelease (trayPos : Fin 4) (bistStrap : Bool)
  | powerOnSelfTestDone (results : List (Nat × TestEnd))
  | stackTrainingDone (failed : List Nat)
  | tapBypass (code : TapCode)
  | tapInstructionRelease (code : TapCode)
  -- beat and agenda
  | beatBoundary (detectorsLow : Bool)
  | markerReceived (port : Port) (arrival : Int) (start : BitVec 10) (groups : List (BitVec 10))
  | tableApply (entry : Fin 256)
  | agendaCwWrite (entry : Fin 256)
  | powerStep (entry : Fin 256)
  | bistStop (entry : Fin 256)
  | bistStart (entry : Fin 256)
  | beatRoot (entry : Fin 256)
  | beatPeriod (entry : Fin 256)
  | mark (entry : Fin 256)
  -- the management controller and its buses
  | pcieCmdFetch (slotBytes : Bytes)
  | cmdTailWrite (value : Word)
  | replyDoneWrite (value : Word)
  | ringCfgWrite (value : Word)
  | ringBaseWrite (reply : Bool) (value : Word)
  | bar0Write (offset : BitVec 12) (value : Word)
  | tc7CmdFrame (lp : Lp) (foreign : Bool) (frame : InFrame)
  | i3cCommand (xfer : Byte) (packet : Bytes)
  | i3cSelect (seq : BitVec 32)
  | i3cPrivateRead (endsEarly : Bool)
  | entdaa (addr : BitVec 7)
  | setdasa (static : BitVec 7) (addr : BitVec 7)
  | setmwl (length : BitVec 16)
  | setmrl (length : BitVec 16)
  | rstact (action : Byte)
  | sbEnumSurvey (wire : SbWire)
  | sbEnumAssign (wire : SbWire)
  | sbEnumCommit (wire : SbWire)
  | sbEnumClear (wire : SbWire)
  | sbCmd (wire : SbWire)
  | sbRead (wire : SbWire)
  | sbSelect (wire : SbWire)
  | sbSeqQuery (wire : SbWire)
  | sbPoll (wire : SbWire)
  | sbFrameForward (wire : SbWire)
  -- cartridges
  | cartPresChange (bus : Fin 8) (seated : Bool)
  | mmbInt (bus : Fin 8) (cables : Option Byte)
  | presencePoll (bus : Fin 8) (cables : Option Byte)
  | mmbTransferTimeout (bus : Fin 8)
  | mmbRetry (bus : Fin 8) (cables : Option Byte)
  | retimerPoll (port : Port) (statuses : List (Option Byte))
  | cartIdentityRead (port : Port) (page0 : Option Bytes) (page : Option Bytes) (acks : List Bool)
  -- links and lanes
  | rxClockLock (port : Port)
  | ckOnSpTimeout (port : Port)
  | laneHeaderLock (port : Port) (side : Side) (lane : Fin 9) (laneId : BitVec 4)
  | tLaneWaitExpiry (port : Port) (side : Side)
  | trainingRecord (port : Port) (side : Side) (lane : Fin 9) (record : TrainRec) (arrival : BitVec 32)
  | alignConfirmed (port : Port) (side : Side)
  | stripeUp (port : Port) (side : Side)
  | tHuntExpiry (port : Port) (side : Side)
  | tAlignExpiry (port : Port) (side : Side)
  | tExchangeExpiry (port : Port) (side : Side)
  | backoffEnd (port : Port) (side : Side)
  | energyDetected (port : Port)
  | presenceSettled (port : Port)
  | laneLockLoss (port : Port) (lane : Lane)
  | rxBlock (port : Port) (side : Side) (lanes : List (List Level)) (clock : List Level)
  | laneReqSpare (port : Port) (msg : LaneMsg)
  | laneReady (port : Port) (msg : LaneMsg)
  | laneReqWidth (port : Port) (msg : LaneMsg)
  | laneAsk (port : Port) (msg : LaneMsg)
  | laneSwitched (port : Port) (msg : LaneMsg)
  | laneDone (port : Port) (msg : LaneMsg)
  | laneRefuse (port : Port) (msg : LaneMsg)
  | laneMsgRepeat (port : Port) (side : Side)
  | swapTimeout (port : Port) (dir : Dir)
  | hitlessSwitch (port : Port)
  | hitlessAbandon (port : Port) (dir : Dir)
  | flitReceived (lp : Lp) (flit : BitVec 2048)
  | flitCrcError (lp : Lp)
  | nakRepeat (lp : Lp)
  | nakReceived (lp : Lp) (ackSeq : BitVec 12) (next : BitVec 12)
  | replayStartReceived (lp : Lp) (ackSeq : BitVec 12) (start : BitVec 12)
  | ackReceived (lp : Lp) (ackSeq : BitVec 12)
  | ackTimeout (lp : Lp)
  | ackDue (lp : Lp)
  | creditFlitReceived (lp : Lp) (init : Bool) (counts : List (BitVec 16))
  | sleepFlitWake (port : Port)
  | sleepFlitSleep (port : Port)
  | sleepFlitRefuse (port : Port)
  | txSleepEnter (port : Port)
  | txAutoWake (port : Port)
  | txWakeSettled (port : Port)
  | wakePreambleEnd (port : Port)
  | rxWakeAlignTimeout (port : Port)
  | rxWakeSyncTimeout (port : Port)
  | sleepReqTimeout (port : Port)
  -- switch and recovery
  | frameHeadIngress (lp : Lp) (frame : InFrame)
  | creditIssue (lp : Lp)
  | creditFlush (lp : Lp)
  | egressMergeSelect (lp : Lp)
  | underrun (lp : Lp)
  | portDown (port : Port) (cause : Fin 16)
  | holdExpiry (port : Port)
  | fenceNoticeRepeat (fence : Fin 4096)
  | fenceAckReceived (lp : Lp) (frame : InFrame)
  | fenceDrained (fence : Fin 4096)
  | fenceRelease (fence : Fin 4096)
  -- fabric memory
  | memReqRead (lp : Lp) (foreign : Bool) (frame : InFrame)
  | memReqWrite (lp : Lp) (foreign : Bool) (frame : InFrame)
  | memReqMcastRead (lp : Lp) (foreign : Bool) (frame : InFrame)
  | memReqFadd (lp : Lp) (foreign : Bool) (frame : InFrame)
  | memReqAdd (lp : Lp) (foreign : Bool) (frame : InFrame)
  | memReqCswap (lp : Lp) (foreign : Bool) (frame : InFrame)
  | memRequestEntry (lp : Lp) (ecc : EccReport)
  | memFragmentRead (lp : Lp) (tag : BitVec 16) (ecc : EccReport)
  | stackPoll (stack : Fin 13) (temp : Byte) (corrected : BitVec 32) (uncorrected : Byte)
  | stackUnresponsive (stack : Fin 13)
  | refreshManagementRequest (stack : Fin 13)
  | migrationGranuleCopied (uncorrected : List (Fin 64))
  -- collectives
  | collDescReceived (lp : Lp) (foreign : Bool) (frame : InFrame)
  | collDataReceived (lp : Lp) (foreign : Bool) (frame : InFrame)
  | abortAckReceived (lp : Lp) (foreign : Bool) (frame : InFrame)
  | nextEpochDescTakeUp (sid : Fin 4096)
  | collEntryAdmit (lp : Lp)
  | chunkFinish (sid : Fin 4096) (chunk : BitVec 32)
  | resultFramePassed (lp : Lp)
  | resultResend (lp : Lp)
  | chunkCommit (sid : Fin 4096) (chunk : BitVec 32)
  | slotGroupDamaged (sid : Fin 4096) (chunk : BitVec 32) (group : Nat) (kind : DamageKind)
  | stallTimeout (sid : Fin 4096)
  -- power
  | powerSample (watts : Nat)
  -- self-test and spares
  | bistPartitionDone (part : Fin 96) (result : TestEnd)
  | bistSlotDeadline (ends : List (Nat × TestEnd))
  | bistRestore (part : Fin 96)
  | bankCopyDone (kind : SpareKind) (copy : BankCopy)
  | spareAutoBringIn (kind : SpareKind) (unit : Nat)
  -- counters
  | windowClose (bank : Fin 65)
  | ctrSelectApply (counter : Fin 1280)
  | windowSetApply (bank : Fin 65)
  | sampleCapture (bank : Byte) (index : Byte)
  -- resets
  -- completions of deferred commands
  | sealComplete (handle : BitVec 32)
  | eyeScanComplete (port : Port) (lane : Lane) (counts : List (BitVec 16))
  | cartTransferDone (bus : Fin 8) (acked : Bool) (data : Bytes)
  | memCmdComplete (ecc : EccReport)
  -- opcodes 0x00xx
  | identityRead (c : Cmd)
  | cwRead (c : Cmd) (addr : BitVec 32) (count : BitVec 16)
  | cwWrite (c : Cmd) (addr : BitVec 32) (count : BitVec 16) (spec : TargetSpec) (values : List Word)
  | cwModify (c : Cmd) (addr : BitVec 32) (mask : Word) (value : Word)
  | noticeRead (c : Cmd) (max : Byte)
  -- opcodes 0x01xx
  | tableImageOpen (c : Cmd) (table : Byte) (length : BitVec 32)
  | tableImageWrite (c : Cmd) (handle : BitVec 32) (offset : BitVec 32) (data : Bytes)
  | tableImageSeal (c : Cmd) (handle : BitVec 32)
  | tableStage (c : Cmd) (handle : BitVec 32) (spec : TargetSpec)
  | tableImageDiscard (c : Cmd) (handle : BitVec 32)
  | tableRead (c : Cmd) (table : Byte) (first : BitVec 32) (count : BitVec 16)
  | tableStatus (c : Cmd) (table : Byte)
  | tableImageList (c : Cmd) (first : Byte) (max : Byte)
  | hold (c : Cmd) (kind : Byte) (id : Byte)
  | release (c : Cmd) (kind : Byte) (id : Byte)
  -- opcodes 0x02xx
  | beatStatusRead (c : Cmd)
  | beatRootSet (c : Cmd) (root : Byte) (spec : TargetSpec)
  | beatPeriodSet (c : Cmd) (period : Byte) (spec : TargetSpec)
  | agendaStageCwWrite (c : Cmd) (spec : TargetSpec) (paramA : Word) (paramB : Word)
  | agendaStagePowerStep (c : Cmd) (spec : TargetSpec) (paramA : Word) (paramB : Word)
  | agendaStageBistStop (c : Cmd) (spec : TargetSpec) (paramA : Word) (paramB : Word)
  | agendaStageBistStart (c : Cmd) (spec : TargetSpec) (paramA : Word) (paramB : Word)
  | agendaStageMark (c : Cmd) (spec : TargetSpec) (paramA : Word) (paramB : Word)
  | agendaCancel (c : Cmd) (entry : BitVec 16) (order : BitVec 16)
  | agendaRead (c : Cmd) (first : BitVec 16) (count : BitVec 16)
  -- opcodes 0x03xx
  | portStatus (c : Cmd) (port : Byte)
  | portAdminDisable (c : Cmd) (port : Byte) (mode : Byte)
  | portAdminEnable (c : Cmd) (port : Byte) (mode : Byte)
  | portAdminRetrain (c : Cmd) (port : Byte) (mode : Byte)
  | portSleep (c : Cmd) (port : Byte) (dirs : Byte)
  | portWake (c : Cmd) (port : Byte) (dirs : Byte)
  | laneStatus (c : Cmd) (port : Byte)
  | eyeScan (c : Cmd) (port : Byte) (lane : Byte) (hSteps : Byte) (vSteps : Byte) (dwell : Byte)
  | eqOverride (c : Cmd) (port : Byte) (lane : Byte) (ctle : Byte)
  | spareSwap (c : Cmd) (port : Byte) (dir : Byte) (lane : Byte)
  | spareRestore (c : Cmd) (port : Byte) (dir : Byte) (lane : Byte)
  | cartRead (c : Cmd) (bus : Byte) (dev : Byte) (page : Byte) (offset : BitVec 16) (count : BitVec 16)
  | cartWrite (c : Cmd) (bus : Byte) (dev : Byte) (page : Byte) (offset : BitVec 16) (count : BitVec 16) (data : Bytes)
  -- opcodes 0x04xx
  | switchStatus (c : Cmd)
  | voqRead (c : Cmd) (inLp : Byte) (outLp : Byte) (classes : Byte)
  | creditRead (c : Cmd) (lp : Byte)
  | portDrain (c : Cmd) (lp : Byte) (classes : Byte) (timeout : BitVec 16)
  | heldDiscard (c : Cmd) (port : Byte)
  -- opcodes 0x05xx
  | memStatus (c : Cmd)
  | memAlloc (c : Cmd) (size : Word) (owner : Word)
  | memFree (c : Cmd) (offset : Word)
  | memFill (c : Cmd) (offset : Word) (size : Word) (pattern : Word)
  | memRead (c : Cmd) (offset : Word) (count : BitVec 16)
  | memWrite (c : Cmd) (offset : Word) (count : BitVec 16) (data : Bytes)
  | eccLogRead (c : Cmd) (max : Byte)
  -- opcodes 0x06xx
  | sessionOpen (c : Cmd) (sid : BitVec 16) (mg : BitVec 16) (flags : Byte) (members : BitVec 128) (quota : BitVec 32)
  | sessionClose (c : Cmd) (sid : BitVec 16)
  | sessionCloseForce (c : Cmd) (sid : BitVec 16)
  | sessionStatus (c : Cmd) (sid : BitVec 16)
  | sessionList (c : Cmd) (first : BitVec 16)
  | engineStatus (c : Cmd)
  -- opcodes 0x07xx
  | powerStatus (c : Cmd)
  | ceilingSet (c : Cmd) (cap : BitVec 16)
  | hostRequestSet (c : Cmd) (cap : BitVec 16)
  | telemetryRead (c : Cmd) (flags : Byte)
  -- opcodes 0x08xx
  | bistRun (c : Cmd) (parts : BitVec 96) (spec : TargetSpec)
  | bistResult (c : Cmd) (part : Byte)
  | bistAbort (c : Cmd) (part : Byte)
  | spareStatus (c : Cmd)
  | spareBringInStack (c : Cmd) (unit : BitVec 16)
  | spareBringIn (c : Cmd) (kind : Byte) (unit : BitVec 16)
  -- opcodes 0x09xx
  | ctrRead (c : Cmd) (bank : Byte) (first : BitVec 16) (count : BitVec 16)
  | ctrSelect (c : Cmd) (bank : Byte) (index : BitVec 16) (event : BitVec 16)
  | ctrWindowSet (c : Cmd) (bank : Byte) (window : BitVec 32)
  | sampleConfig (c : Cmd) (bank : Byte) (index : BitVec 16) (period : Word) (enable : Byte)
  | sampleRead (c : Cmd) (max : Byte)
  -- opcodes 0x0Axx
  | keyLoad (c : Cmd) (slot : Byte) (mask : Byte) (flags : Byte) (epoch : BitVec 48) (key : BitVec 256)
  | keyClear (c : Cmd) (slot : Byte)
  | keyStatus (c : Cmd)
  | authReqSet (c : Cmd) (bits : Byte)
  | tc7AllowSet (c : Cmd) (allow : BitVec 128)
  | authFailRead (c : Cmd)
  -- opcodes 0x0Fxx
  | resetPort (c : Cmd) (unit : Byte)
  | resetSwitch (c : Cmd) (unit : Byte)
  | resetMemory (c : Cmd) (unit : Byte)
  | resetCollective (c : Cmd) (unit : Byte)
  | resetManagement (c : Cmd) (unit : Byte)
  | resetModule (c : Cmd) (unit : Byte)
  | resetStatus (c : Cmd)
  -- the last three rows of the table
  | rxWakeBlockAlignment (port : Port)
  | railLeavesRegulation (rail : Rail) (belowTenPercent : Bool)
  -- the rows without operands
  | porNFall
  | rstNAssert
  | fuseReadDone
  | managementReady
  | trstNAssert
  | tapExtest
  | tapIdcode
  | tapSamplePreload
  | tapClamp
  | tapHighz
  | tapScanAccess
  | thermtrip
  | perstNAssert
  | vreqFrame
  | vreqFault
  | vreqFaultClear
  | railSettled
  | boundarySteps
  | beatFollowUpdate
  | lockAcquired
  | holdoverEntry
  | drift
  | freerunEntry
  | commandDispatch
  | i3cSeqQuery
  | enec
  | disec
  | rstdaa
  | getmwl
  | getmrl
  | getpid
  | getbcr
  | getdcr
  | getstatus
  | ibiRaise
  | bmcAbsent
  | sbFrameDiscard
  | chainLost
  | ingressHoldRelease
  | superCellTime
  | multicastRelease
  | ceWindowEnd
  | migrationAutoStart
  | migrationComplete
  | beatSyncRelease
  | droopLightTrip
  | droopHeavyTrip
  | droopFurtherStep
  | bistSlotRetry
  | slotWaitExpiry
  | bistSlotEnd
  | bistNextSlot
  | fuseBlow
  | resetStart
  | resetMarkerWaitExpiry
  | resetEnd
  | portDrainTest
  | spareBringInComplete
  | replyIrqHoldoffEnd
  deriving DecidableEq, Repr

end Sys2Proof
end

