-- ==== Sys2Proof/Decode.lean ====
section
/-! DEFINITION. The command that a word spells by the bits of opcode_table.json. No row of that table gives bits, so no
word spells a command. -/

namespace Sys2Proof

/-- The command spelled by the word w of nbits bits: the table gives no row any bits. -/
def decodeTableWord (nbits w : Nat) : Option Instr :=
  match nbits, w with
  | _, _ => none

end Sys2Proof
end

