-- ==== Sys2Proof/Machine/Bits.lean ====
section
/-! DEFINITION. Bit fields, byte order (R6), sparse maps and the CRCs of the manual. -/

namespace Sys2Proof.Machine

/-! ## Sparse maps -/

/-- The value of key k, d when it is not listed. -/
def sget {α : Type} : SMap α → Nat → α → α
  | [], _, d => d
  | (k', v) :: r, k, d => if k' = k then v else sget r k d

/-- The map with v written at key k, between the smaller keys and the larger. -/
def splace {α : Type} : SMap α → Nat → α → SMap α
  | [], k, v => [(k, v)]
  | (k', v') :: r, k, v =>
    if k < k' then (k, v) :: (k', v') :: r else if k = k' then (k, v) :: r else (k', v') :: splace r k v

/-- The map without an entry at key k. -/
def serase {α : Type} (m : SMap α) (k : Nat) : SMap α := m.filter fun e => e.1 != k

/-- The map with v at key k, in canonical form for the default d of that key. -/
def sput {α : Type} [DecidableEq α] (m : SMap α) (k : Nat) (v d : α) : SMap α := if v = d then serase m k else splace m k v

/-- The keys are strictly rising and all above lo. -/
def risingFrom {α : Type} : Nat → SMap α → Bool
  | _, [] => true
  | lo, (k, _) :: r => decide (lo ≤ k) && risingFrom (k + 1) r

/-- The keys of the map are strictly rising. -/
def rising {α : Type} (m : SMap α) : Bool := risingFrom 0 m

/-- The sorted list with n in it once. -/
def addSorted : List Nat → Nat → List Nat
  | [], n => [n]
  | a :: r, n => if n < a then n :: a :: r else if n = a then a :: r else a :: addSorted r n

/-- Insertion of x by the order le, after equal elements. -/
def insertBy {α : Type} (le : α → α → Bool) (x : α) : List α → List α
  | [] => [x]
  | a :: r => if le a x then a :: insertBy le x r else x :: a :: r

/-- Stable sort by insertion. -/
def sortBy {α : Type} (le : α → α → Bool) : List α → List α
  | l => l.foldl (fun acc x => insertBy le x acc) []

/-! ## Bytes and fields -/

/-- The value of bytes in little-endian order (R6). -/
def leNat : Bytes → Nat
  | [] => 0
  | b :: r => b.toNat + 256 * leNat r

/-- The n bytes of v in little-endian order (R6). -/
def leBytes : Nat → Nat → Bytes
  | 0, _ => []
  | n + 1, v => BitVec.ofNat 8 (v % 256) :: leBytes n (v / 256)

/-- Bytes off to off + n - 1; missing bytes are left out. -/
def slice (b : Bytes) (off n : Nat) : Bytes := (b.drop off).take n

/-- The little-endian field of n bytes at offset off. -/
def byteField (b : Bytes) (off n : Nat) : Nat := leNat (slice b off n)

/-- The byte at offset off, 0 where there is none. -/
def byteAt (b : Bytes) (off : Nat) : Byte := b.getD off 0

/-- n zero bytes. -/
def zeros (n : Nat) : Bytes := List.replicate n 0

/-- The bytes with v written at offset off. -/
def patch (b : Bytes) (off : Nat) (v : Bytes) : Bytes := b.take off ++ v ++ b.drop (off + v.length)

/-- Bits hi to lo of n. -/
def bitsAt (n hi lo : Nat) : Nat := (n >>> lo) % 2 ^ (hi - lo + 1)

/-- Bit i of n. -/
def bitAt (n i : Nat) : Bool := (n >>> i) % 2 == 1

/-- 1 for true. -/
def b2n (b : Bool) : Nat := if b then 1 else 0

/-- A word that holds v in bits hi to lo. -/
def fld (hi lo v : Nat) : Word := BitVec.ofNat 64 ((v % 2 ^ (hi - lo + 1)) <<< lo)

/-- A word that holds b in bit i. -/
def flg (i : Nat) (b : Bool) : Word := BitVec.ofNat 64 (b2n b <<< i)

/-- Bits hi to lo of a word. -/
def wbits (w : Word) (hi lo : Nat) : Nat := bitsAt w.toNat hi lo

/-- Bit i of a word. -/
def wbit (w : Word) (i : Nat) : Bool := bitAt w.toNat i

/-- The numbers below n whose bit is set in m, ascending. -/
def bitList (n m : Nat) : List Nat := (List.range n).filter fun i => bitAt m i

/-- How many bits of m below n are set. -/
def popCount (n m : Nat) : Nat := (bitList n m).length

/-- Sum of 2^i over the list, each number once. -/
def maskOf (l : List Nat) : Nat := l.foldl (fun m i => m ||| (1 <<< i)) 0

/-- a + n, at most the limit. -/
def satAdd (limit a n : Nat) : Nat := min limit (a + n)

/-- The least number below n that satisfies p. -/
def firstBelow (n : Nat) (p : Nat → Bool) : Option Nat := (List.range n).find? p

/-- The two's-complement value of the low w bits of n. -/
def signedOf (w n : Nat) : Int := if n % 2 ^ w < 2 ^ (w - 1) then (n % 2 ^ w : Nat) else ((n % 2 ^ w : Nat) : Int) - 2 ^ w

/-- x modulo 2^w as a number. -/
def wrapInt (w : Nat) (x : Int) : Nat := (x % (2 ^ w : Nat)).toNat

/-! ## CRCs -/

/-- n shifts of a CRC register that shifts to its most significant bit, width 16 (R39). -/
def crc16Bits : Nat → Nat → Nat
  | 0, r => r
  | n + 1, r => crc16Bits n (if bitAt r 15 then ((r <<< 1) % 65536) ^^^ 0x1021 else (r <<< 1) % 65536)

/-- CRC-16 of R39 over the bytes in the order given. -/
def crc16 (b : Bytes) : Nat := b.foldl (fun r x => crc16Bits 8 (r ^^^ (x.toNat <<< 8))) 0xFFFF

/-- n shifts of a reflected CRC register with the reflected polynomial p. -/
def crcDown (p : Nat) : Nat → Nat → Nat
  | 0, r => r
  | n + 1, r => crcDown p n (if bitAt r 0 then (r >>> 1) ^^^ p else r >>> 1)

/-- CRC-32C: the parameters R120 names, over the bytes in ascending order. -/
def crc32c (b : Bytes) : Nat :=
  (b.foldl (fun r x => crcDown 0x82F63B78 8 (r ^^^ x.toNat)) 0xFFFFFFFF) ^^^ 0xFFFFFFFF

/-- CRC-64/XZ over the bytes in ascending order (R235). -/
def crc64 (b : Bytes) : Nat :=
  (b.foldl (fun r x => crcDown 0xC96C5795D7870F42 8 (r ^^^ x.toNat)) 0xFFFFFFFFFFFFFFFF) ^^^ 0xFFFFFFFFFFFFFFFF

end Sys2Proof.Machine
end

