-- ==== Sys2Proof/Machine/Aes.lean ====
section
/-! DEFINITION. AES-256-GCM with an empty plaintext (R84). The manual names the algorithm; its steps are those of the
public standard (log entry 12, PRESUMED). -/

namespace Sys2Proof.Machine

/-- Doubling in the byte field of AES. -/
def gfDouble (a : Nat) : Nat := if a < 128 then 2 * a else (2 * a - 256) ^^^ 0x1B

/-- Product of two bytes in the field of AES, by n low bits of b. -/
def gfMulAux : Nat → Nat → Nat → Nat → Nat
  | 0, _, _, acc => acc
  | n + 1, a, b, acc => gfMulAux n (gfDouble a) (b / 2) (if b % 2 = 1 then acc ^^^ a else acc)

def gfMul (a b : Nat) : Nat := gfMulAux 8 a b 0

/-- a to the power 254, the inverse in the field. -/
def gfInv (a : Nat) : Nat :=
  let a2 := gfMul a a
  let a4 := gfMul a2 a2
  let a8 := gfMul a4 a4
  let a16 := gfMul a8 a8
  let a32 := gfMul a16 a16
  let a64 := gfMul a32 a32
  let a128 := gfMul a64 a64
  gfMul a128 (gfMul a64 (gfMul a32 (gfMul a16 (gfMul a8 (gfMul a4 a2)))))

/-- A byte rotated left by n. -/
def rotByte (b n : Nat) : Nat := ((b <<< n) % 256) ||| (b >>> (8 - n))

/-- The substitution of AES. -/
def sboxOf (x : Nat) : Nat :=
  let b := gfInv x
  b ^^^ rotByte b 1 ^^^ rotByte b 2 ^^^ rotByte b 3 ^^^ rotByte b 4 ^^^ 0x63

/-- A word of four bytes, after substitution. -/
def subWord (w : List Nat) : List Nat := w.map sboxOf

/-- Bytewise exclusive or. -/
def xorList (a b : List Nat) : List Nat := List.zipWith (· ^^^ ·) a b

/-- The next key-schedule words, newest first: n more words after the i-th. -/
def expandKey : Nat → Nat → Nat → List (List Nat) → List (List Nat)
  | 0, _, _, ws => ws
  | n + 1, i, rcon, ws =>
    let prev := ws.getD 0 []
    let old := ws.getD 7 []
    if i % 8 = 0 then
      let t := xorList (subWord (prev.drop 1 ++ prev.take 1)) [rcon, 0, 0, 0]
      expandKey n (i + 1) (gfDouble rcon) (xorList old t :: ws)
    else if i % 8 = 4 then expandKey n (i + 1) rcon (xorList old (subWord prev) :: ws)
    else expandKey n (i + 1) rcon (xorList old prev :: ws)

/-- A list cut into pieces of four, n pieces. -/
def fours : Nat → List Nat → List (List Nat)
  | 0, _ => []
  | n + 1, l => l.take 4 :: fours n (l.drop 4)

/-- The 60 words of the schedule of a 32-byte key, in order. -/
def keySchedule (key : List Nat) : List (List Nat) := (expandKey 52 8 1 (fours 8 key).reverse).reverse

/-- The row shift of AES on a state listed by columns. -/
def shiftRows (s : List Nat) : List Nat :=
  [0, 5, 10, 15, 4, 9, 14, 3, 8, 13, 2, 7, 12, 1, 6, 11].map fun i => s.getD i 0

/-- One column of the column mix. -/
def mixColumn (c : List Nat) : List Nat :=
  let a := c.getD 0 0
  let b := c.getD 1 0
  let d := c.getD 2 0
  let e := c.getD 3 0
  [gfDouble a ^^^ gfMul b 3 ^^^ d ^^^ e, a ^^^ gfDouble b ^^^ gfMul d 3 ^^^ e,
   a ^^^ b ^^^ gfDouble d ^^^ gfMul e 3, gfMul a 3 ^^^ b ^^^ d ^^^ gfDouble e]

/-- The round key of round r. -/
def roundKey (ks : List (List Nat)) (r : Nat) : List Nat := ((ks.drop (4 * r)).take 4).flatten

/-- n middle rounds from round r. -/
def aesRounds (ks : List (List Nat)) : Nat → Nat → List Nat → List Nat
  | 0, _, s => s
  | n + 1, r, s =>
    let t := ((fours 4 (shiftRows (s.map sboxOf))).map mixColumn).flatten
    aesRounds ks n (r + 1) (xorList t (roundKey ks r))

/-- AES-256 of one block under a key schedule. -/
def aesBlock (ks : List (List Nat)) (blk : List Nat) : List Nat :=
  let s := aesRounds ks 13 1 (xorList blk (roundKey ks 0))
  xorList (shiftRows (s.map sboxOf)) (roundKey ks 14)

/-- The number whose most significant byte comes first. -/
def beNat (l : List Nat) : Nat := l.foldl (fun a b => a * 256 + b) 0

/-- The n bytes of v, most significant first. -/
def beList : Nat → Nat → List Nat
  | 0, _ => []
  | n + 1, v => (v / 256 ^ n) % 256 :: beList n v

/-- Product in the field of GCM: bit 127 - i of x selects v. -/
def ghashMul : Nat → Nat → Nat → Nat → Nat
  | 0, _, _, z => z
  | n + 1, x, v, z =>
    ghashMul n x (if v % 2 = 1 then (v / 2) ^^^ (0xE1 <<< 120) else v / 2) (if bitAt x n then z ^^^ v else z)

/-- GHASH over n blocks of 16 bytes. -/
def ghashBlocks (h : Nat) : Nat → List Nat → Nat → Nat
  | 0, _, y => y
  | n + 1, l, y => ghashBlocks h n (l.drop 16) (ghashMul 128 (y ^^^ beNat (l.take 16)) h 0)

/-- The tag of AES-256-GCM for a 32-byte key, a 12-byte IV, additional data aad and an empty plaintext (R84). -/
def gcmTag (key iv aad : Bytes) : Bytes :=
  let ks := keySchedule (key.map BitVec.toNat)
  let h := beNat (aesBlock ks (List.replicate 16 0))
  let a := aad.map BitVec.toNat
  let nb := (a.length + 15) / 16
  let y := ghashBlocks h nb (a ++ List.replicate (16 * nb - a.length) 0) 0
  let s := ghashMul 128 (y ^^^ ((8 * a.length) <<< 64)) h 0
  let e := beNat (aesBlock ks (iv.map BitVec.toNat ++ [0, 0, 0, 1]))
  (beList 16 (s ^^^ e)).map (BitVec.ofNat 8)

end Sys2Proof.Machine
end

