-- ==== Sys2Proof/Machine/State.lean ====
section
/-! DEFINITION. The state of the KR-6412 as plain data, and State.reset.
Every field's docstring says its width or shape, the rule that names it (with the chapter's file number) and its
reset value. "log 4" marks a field that has no control word and no reset value in the manual. -/

namespace Sys2Proof.Machine

/-- Why the block stops with a fault. -/
inductive Fault where
  /-- Raised by POR_N_RISE after a low pulse shorter than 1 us: "has undefined effect" (R444). Safe: the hardware goes on in
  some way the manual does not give. -/
  | undefinedPorPulse
  deriving DecidableEq, Repr

/-- Why the block refuses a command. -/
inductive Refusal where
  /-- The command has no meaning yet. Safe. -/
  | notModelled (mnemonic : String)
  deriving DecidableEq, Repr

/-! ## Replies, packets and notices -/

/-- A reply (R61). -/
structure Reply where
  /-- 16 bits; R61 (03); echo of the command's OPCODE. -/
  opcode : BitVec 16
  /-- the header of the command that is echoed; R61 (03). -/
  cmd : Cmd
  /-- 8-bit code; R15 (00). -/
  status : BitVec 8
  /-- flag bit [9] of STATUS; R16 (00). -/
  replayed : Bool
  /-- 16 bits; R62 (03). -/
  detail : BitVec 16
  /-- 48 bits; R61 (03); zero while PENDING. -/
  doneBeat : Beat
  /-- reply data; R61 (03). -/
  data : Bytes
  /-- the 16-byte tag, empty without AUTH; R85 (03). -/
  tag : Bytes
  deriving DecidableEq, Repr

/-- A reply in a reply store: its pair (0 PCIe, 1 I3C, 2 Sideband Chain, 3 + LP for TC7, as NOTICE_Q_k) whether a bus
read has returned it, and whether it answers a packet outside the sequence window (R65, R69, R70). -/
structure Stored where
  pair : Nat
  reply : Reply
  read : Bool
  dup : Bool
  deriving DecidableEq, Repr

/-- A reply slot of the PCIe reply ring: the command number and the reply as written (R75, R76). -/
structure RingSlot where
  index : Nat
  reply : Reply
  phase : Bool
  deriving DecidableEq, Repr

/-- A command packet that has arrived and waits (R66, R67). `index` is the ring number of a PCIe command. -/
structure Packet where
  pair : Nat
  index : Nat
  tooLong : Bool
  bytes : Bytes
  deriving DecidableEq, Repr

/-- What a deferred command waits for (R66): each opcode marked D in the catalogue, with its parameters. -/
inductive Work where
  | seal (handle : BitVec 32)
  | sleep (port : Nat) (dirs : Nat) (wake : Bool) (since : Beat)
  | eyeScan (port lane h v dwell : Nat)
  | spare (port : Nat) (dir : Dir) (lane : Nat) (restore : Bool)
  | cart (bus dev page offset count : Nat) (write : Bool) (data : Bytes)
  | drain (lp : Nat) (classes : Nat) (since : Nat) (timeout : Nat)
  | memFill (offset size : Nat) (pattern : Word)
  | memRead (offset count : Nat)
  | memWrite (offset : Nat) (data : Bytes)
  | close (sid : Nat)
  | bistRun (parts : BitVec 96)
  | bistAbort (parts : List Nat)
  | stackBringIn (stack : Nat) (done : Option Beat)
  | bringIn (kind : SpareKind) (unit : Nat) (done : Option Beat)
  deriving DecidableEq, Repr

/-- An outstanding deferred command (R66). -/
structure Deferred where
  cmd : Cmd
  opcode : BitVec 16
  /-- whether the slot the command was authenticated under is still the same (R97). -/
  keyKept : Bool
  work : Work
  /-- a bus transfer that has been put on its bus (R436). -/
  served : Bool := false
  deriving DecidableEq, Repr

/-- A notice record (R96). -/
structure Notice where
  entry : Nat
  order : BitVec 16
  action : Nat
  state : Nat
  status : BitVec 16
  doneBeat : Beat
  detail : BitVec 16
  paramA : Word
  deriving DecidableEq, Repr

/-- A notice queue (R96). -/
structure NoticeQueue where
  /-- at most 16 records, oldest first; R96 (04). -/
  records : List Notice
  /-- 8 bits, saturating; R96 (04). -/
  lost : Nat
  deriving DecidableEq, Repr

/-! ## What leaves at the lands -/

/-- The fields of a training record that a stripe sends, apart from TR_VERSION, LANE_ID, BACKGROUND and the CRC, which the lane
adds (R331). -/
structure SentRec where
  phase : Nat
  split : Bool
  rxAligned : Bool
  replayValid : Bool
  ckOnSp : Bool
  tSyms : Bool
  localEpoch : BitVec 16
  peerEpoch : BitVec 16
  rxNext : Nat
  rxLanes : Nat
  spWant : Nat
  rxWidth : Nat
  rxFirst : Nat
  blockCount : BitVec 16
  stamp : BitVec 32
  echoStamp : BitVec 32
  turn : BitVec 32
  deriving DecidableEq, Repr

/-- What the module sends at its lands, in order (log entry 11). `flit` is a flit as it enters the flit stream of its logical port,
and `lanes` what the TX lanes of a port carry in one block time, by physical lane (R300, R305); the frame and flit names beside
them say what those bits are. -/
inductive Emission where
  | msix (vector : Nat)
  | ibi (cause : Byte)
  | i3cReply (reply : Reply)
  | i3cBytes (bytes : Bytes)
  | i3cNack
  | i3cAck
  | sbReply (frame : SbFrame) (reply : Option Reply) (wire : Bytes)
  | sbFrame (frame : SbFrame) (wire : Bytes)
  | frame (lp : Nat) (hdr : Hdr) (content : Bytes)
  | stomped (lp : Nat) (hdr : Hdr) (content : Bytes) (code : BitVec 4)
  | flit (lp : Nat) (bits : BitVec 2048)
  | lanes (port : Nat) (symbols : List (Nat × List Level))
  | credit (lp : Nat) (init : Bool) (counts : List Nat)
  | ack (lp : Nat) (ackSeq : Nat)
  | nak (lp : Nat) (next : Nat)
  | replayStart (lp : Nat) (start : Nat)
  | lane (port : Nat) (msg : Nat) (body : LaneMsg)
  | sleepFlit (port : Nat) (action : Nat)
  | marker (port : Nat) (word : BitVec 96)
  | syncBlock (port : Nat) (side : Side)
  | sleepBlock (port : Nat)
  | wakePreamble (port : Nat)
  | trainingBlocks (port : Nat) (side : Side) (record : SentRec)
  | lanesPower (port : Nat) (dir : Dir) (on : Bool)
  | vreq (frame : BitVec 16)
  | mmbWrite (bus dev reg : Nat) (value : Byte)
  | mmbRead (bus dev page offset count : Nat)
  | mmbClear (bus : Nat)
  | fuse (kind : Nat) (unit : Nat)
  | thermtrip (asserted : Bool)
  | sbFwd (high : Bool)
  deriving DecidableEq, Repr

/-! ## Beat unit and agenda (02) -/

/-- States of the beat unit (R45). -/
inductive BeatSt where
  | seek | locked | holdover | freerun | root
  deriving DecidableEq, Repr

/-- A usable marker of the current beat (R42, R43): its port, its estimate e in 0.25 ns units, its count and period. -/
structure Marker where
  port : Nat
  est : Int
  count : Beat
  period : Nat
  deriving DecidableEq, Repr

/-- The beat unit. -/
structure BeatUnit where
  /-- 3-bit code; R45, R57 (02); reset SEEK 0. -/
  st : BeatSt
  /-- 1 bit DRIFT; R46, R57 (02); reset 0. -/
  drift : Bool
  /-- 1 bit ROOT_CONFLICT, W1C; R42, R57 (02); reset 0. -/
  rootConflict : Bool
  /-- 1 bit OUTLIER, W1C; R43, R57 (02); reset 0. -/
  outlier : Bool
  /-- 1 bit FREERUN_SEEN, W1C; R46, R57 (02); reset 0. -/
  freerunSeen : Bool
  /-- 3-bit PERIOD code; R32, R57 (02); reset 2. -/
  period : Nat
  /-- 8-bit configured ROOT_ADDR; R35, R57 (02); reset 0xFF. -/
  rootAddr : BitVec 8
  /-- 17-bit HOLD_BEATS, saturating; R46, R57 (02); reset 0. -/
  holdBeats : Nat
  /-- 7-bit VALID_PORTS; R57 (02); reset 0. -/
  validPorts : Nat
  /-- signed PHASE_ERR in 0.25 ns units; R43, R57 (02); reset 0. -/
  phaseErr : Int
  /-- 48-bit beat COUNT; R33, R57 (02); reset 0. -/
  count : Beat
  /-- 17-bit DRIFT_THRESH; R46, R57 (02); reset 0x0800. -/
  driftThresh : Nat
  /-- 64-bit BEAT_TAG in force, AGD; R461 (17); reset 0. -/
  tag : Word
  /-- beats without a usable marker; R43 (02); reset 0 (DESIGN CHOICE, log 4). -/
  missed : Nat
  /-- consecutive beats with |m| at most 20 ns; R45 (02); reset 0 (DESIGN CHOICE, log 4). -/
  lockRun : Nat
  /-- the last 64 beat lengths, newest first, in 0.25 ns units, whose mean is learned_length; R43 (02); reset none (DESIGN
  CHOICE, log 4). -/
  lengths : List Int
  /-- learned_length in 0.25 ns units; R36, R43 (02); reset the period, 16,384 (DESIGN CHOICE, log 4). -/
  learned : Int
  /-- length of the current beat in 0.25 ns units; R43 (02); reset the period, 16,384 (DESIGN CHOICE, log 4). -/
  length : Int
  /-- the count to adopt at the end of the beat, when a step is due; R43, R47 (02); reset none (DESIGN CHOICE, log 4). -/
  stepTo : Option Beat
  /-- usable markers received in the current beat, in order of arrival; R42, R43 (02); reset none (DESIGN CHOICE, log 4). -/
  markers : List Marker
  /-- whether R43 has run for the current beat; R43 (02); reset false (DESIGN CHOICE, log 4). -/
  followed : Bool
  /-- whether the beat unit has ever been LOCKED or ROOT since reset; R36 (02); reset false (DESIGN CHOICE, log 4). -/
  everLocked : Bool
  /-- COMMIT made this module root from the next boundary; R427 (15); reset false (DESIGN CHOICE, log 4). -/
  rootNext : Bool
  /-- steps 2 to 6 of R53 of the last boundary have still to run; R68 (03); reset false (DESIGN CHOICE, log 4). -/
  stepsDue : Bool
  /-- number of local boundaries since reset, for intervals of full beats; R46 (02); reset 0 (DESIGN CHOICE, log 4). -/
  localBeats : Nat
  deriving DecidableEq, Repr

/-- Entry states (R48). -/
inductive EntrySt where
  | free | pending | applied | expired | superseded | cancelled | failed
  deriving DecidableEq, Repr

/-- An agenda entry (R48). -/
structure AgEntry where
  /-- 4-bit STATE; R48 (02); reset FREE. -/
  st : EntrySt
  /-- 4-bit ACTION; R49 (02); reset 0. -/
  action : Nat
  /-- 1 bit LATEPOL; R48 (02); reset 0. -/
  latePol : Bool
  /-- 1 bit NOTIFY; R48 (02); reset 0. -/
  notify : Bool
  /-- 2-bit SRC; R48 (02); reset 0. -/
  src : Src
  /-- the staging origin, to which the notice goes; R79, R96 (03, 04); reset 0 (DESIGN CHOICE, log 4). -/
  origin : Nat
  /-- 48-bit TARGET; R48 (02); reset 0. -/
  target : Beat
  /-- staging order number, of which ORDER is the value modulo 2^16; R48 (02); reset 0. -/
  order : Nat
  /-- 48-bit DONE_BEAT; R48 (02); reset 0. -/
  doneBeat : Beat
  /-- 64-bit PARAM_A; R48 (02); reset 0. -/
  paramA : Word
  /-- 64-bit PARAM_B; R48 (02); reset 0. -/
  paramB : Word
  /-- it acts at the next boundary: staged with NEXT = 1, or past-due with LATEPOL = 1; R50, R51 (02); reset false (DESIGN
  CHOICE, log 4). -/
  next : Bool
  /-- its boundary has come, and its steps of R53 have still to run; R53, R68 (02, 03); reset false (DESIGN CHOICE, log 4). -/
  due : Bool
  deriving DecidableEq, Repr

/-- The agenda. -/
structure Agenda where
  /-- 256 entries AGENDA_ENTRY_e; R48 (02); reset all zero. -/
  entries : SMap AgEntry
  /-- the staging order counter, NEXT_ORDER modulo 2^16; R48, R461 (02, 17); reset 0. -/
  nextOrder : Nat
  deriving DecidableEq, Repr

/-! ## Management controller (03, 04) -/

/-- A key slot (R83). -/
structure KeySlot where
  /-- 1 bit STATE; R83 (03); reset EMPTY. -/
  loaded : Bool
  /-- 4-bit SOURCE_MASK; R83 (03); reset 0. -/
  mask : BitVec 4
  /-- 1 bit KEY_ADMIN; R83 (03); reset 0. -/
  admin : Bool
  /-- 48-bit KEY_EPOCH; R83 (03); reset 0. -/
  epoch : BitVec 48
  /-- 256-bit key, write-only; R83 (03); reset 0 (zeroised, R384). -/
  key : BitVec 256
  deriving DecidableEq, Repr

/-- The PCIe ring words of BAR0 and the ring's own state (R71). -/
structure Ring where
  /-- 64-bit CMD_BASE; R71 (03); reset 0. -/
  cmdBase : Word
  /-- 64-bit REPLY_BASE; R71 (03); reset 0. -/
  replyBase : Word
  /-- 1 bit ENABLE; R71 (03); reset 0. -/
  enable : Bool
  /-- 1 bit OVERRUN, W1C; R71 (03); reset 0. -/
  overrun : Bool
  /-- 1 bit CFG_ERR, W1C; R71 (03); reset 0. -/
  cfgErr : Bool
  /-- 2-bit REPLY_SLOT; R71 (03); reset 1. -/
  replySlot : Nat
  /-- 2-bit CMD_SLOT; R71 (03); reset 1. -/
  cmdSlot : Nat
  /-- 4-bit SLOTS_LOG2; R71 (03); reset 6. -/
  slotsLog2 : Nat
  /-- 32-bit TAIL; R71 (03); reset 0. -/
  tail : BitVec 32
  /-- 32-bit HEAD; R71 (03); reset 0. -/
  head : BitVec 32
  /-- 32-bit DONE; R71 (03); reset 0. -/
  done : BitVec 32
  /-- 16-bit HOLDOFF; R71 (03); reset 0. -/
  holdoff : BitVec 16
  /-- 1 bit IRQ_EN; R71 (03); reset 0. -/
  irqEn : Bool
  /-- the reply slots as the module last wrote them, by slot number; R75, R76 (03); reset none (DESIGN CHOICE, log 4). -/
  slots : SMap RingSlot
  /-- a holdoff gap runs; R71 (03); reset false (DESIGN CHOICE, log 4). -/
  gapRuns : Bool
  /-- a reply has completed during the gap; R71 (03); reset false (DESIGN CHOICE, log 4). -/
  irqWaits : Bool
  deriving DecidableEq, Repr

/-- States of a table image (R100). -/
inductive ImageSt where
  | opened | sealing | sealed | staged | failed
  deriving DecidableEq, Repr

/-- A table image in the image store (R86, R88). -/
structure Image where
  handle : BitVec 32
  table : Nat
  length : Nat
  /-- the bytes written, by offset; an offset not listed holds 0 (log entry 7). -/
  bytes : SMap Byte
  st : ImageSt
  deriving DecidableEq, Repr

/-- A staged or running reset (R119, R451): its scope, its port, the setter, the beat at which it starts, whether it waits for a
running reset to end (R452), and the number of local boundaries before the one at which it starts. -/
structure ResetReq where
  scope : Nat
  unit : Nat
  setter : BitVec 16
  start : Beat
  waits : Bool
  since : Nat
  deriving DecidableEq, Repr

/-- The management controller. -/
structure Mgmt where
  /-- LAST_SEQ of each pair, present when set; R64 (03); reset unset. -/
  lastSeq : SMap (Option (BitVec 32))
  /-- packets that have arrived and wait, oldest first; R66, R67 (03); reset none (DESIGN CHOICE, log 4). -/
  arrivals : List Packet
  /-- outstanding deferred commands, oldest first; R66 (03); reset none. -/
  deferred : List Deferred
  /-- the reply stores of TC7 (16 per origin), I3C (8) and Sideband Chain (4), oldest first; R69 (03); reset none. -/
  stores : List Stored
  /-- the source served last, for the rotation; R67 (03); reset TC7 (DESIGN CHOICE, log 4). -/
  lastSource : Src
  /-- the TC7 origin served last; R67 (03); reset 127 (DESIGN CHOICE, log 4). -/
  lastOrigin : Nat
  /-- the SEQ that an I3C SELECT named for the next read, and whether it is in the store; R78, R429 (03, 15); reset none. -/
  i3cSelect : Option (BitVec 32)
  /-- the next I3C read returns the sequence state; R429 (15); reset false. -/
  i3cQuery : Bool
  /-- the SEQ that a Sideband Chain SELECT named for the next READ; R78, R423 (03, 15); reset none. -/
  sbSelect : Option (BitVec 32)
  /-- key slots KS-0 to KS-7; R83 (03); reset EMPTY. -/
  keys : SMap KeySlot
  /-- 48-bit LAST_EPOCH of each slot; R117 (04); reset 0. -/
  lastEpoch : SMap (BitVec 48)
  /-- 4-bit AUTH_REQ; R82, R462 (03, 17); reset 0x2. -/
  authReq : BitVec 4
  /-- 128-bit TC7_ALLOW; R77, R462 (03, 17); reset 0. -/
  tc7Allow : BitVec 128
  /-- authentication failure counts by SRC_KIND, 32 bits, saturating; R82, R462 (03, 17); reset 0. -/
  authFails : SMap Nat
  /-- holds on tables by table ID: SRC_KIND and ORIGIN of the holder; R79, R80 (03); reset unheld. -/
  tableHolds : SMap (Option (Src × Nat))
  /-- holds on control-word blocks by block number; R79, R80 (03); reset unheld. -/
  blockHolds : SMap (Option (Src × Nat))
  /-- the holder of the rack power ceiling; R80, R366 (03, 12); reset none. -/
  ceilingHold : Option (Src × Nat)
  /-- the holder of the host power request; R79, R366 (03, 12); reset none. -/
  hostHold : Option (Src × Nat)
  /-- the image store, at most 64 images and 4 MiB, oldest first; R88 (03); reset empty. -/
  images : List Image
  /-- images opened so far, the index of the next handle draw; R100 (04); reset 0 (model's own, log 8). -/
  imagesOpened : Nat
  /-- notice queues by pair; R96 (04); reset empty. -/
  notices : SMap NoticeQueue
  /-- 64-bit SCRATCH; R461 (17); reset 0. -/
  scratch : Word
  /-- LAST_SCOPE of RESET_STATUS; R463 (17); reset 6. -/
  lastScope : Nat
  /-- CAUSE of RESET_STATUS; R463 (17); reset 0 after power-on, 1 after a reset land. -/
  cause : Nat
  /-- SETTER of RESET_STATUS, 16 bits; R453, R463 (16, 17); reset 0xFFFF. -/
  setter : BitVec 16
  /-- BEAT of RESET_STATUS, 48 bits; R453, R463 (16, 17); reset 0. -/
  resetBeat : Beat
  /-- staged resets, oldest first; R119, R452 (04, 16); reset none. -/
  resets : List ResetReq
  /-- the running resets; R451, R452 (16); reset none. -/
  running : List ResetReq
  /-- the collective part of a reset waits for its markers to leave; R451 (16); reset false. -/
  markerWait : Bool
  deriving DecidableEq, Repr

/-! ## Tables (03, 05, 10 to 14) -/

/-- The nine live tables (R25, R87), their generation and last-apply words (R463). -/
structure Tables where
  /-- 8,192 entries of 8 bytes ROUTE; R127 (05); reset 0. -/
  route : SMap Entry
  /-- 4,096 entries of 32 bytes MCAST; R129 (05); reset 0. -/
  mcast : SMap Entry
  /-- 1,024 entries of 8 bytes CLASS; R128 (05); reset per R128. -/
  cls : SMap Entry
  /-- 272 entries of 4 bytes LINECODE; R294, R295 (10); reset the 8b/10b code. -/
  linecode : SMap Entry
  /-- 64 entries of 8 bytes EQ_PRESET; R311 (10); reset per R311. -/
  eq : SMap Entry
  /-- 16 entries of 4 bytes TRAIN_TIMING; R327, R328 (11); reset per R328. -/
  timing : SMap Entry
  /-- 16 entries of 8 bytes POWER_CURVE; R363 (12); reset per R363. -/
  curve : SMap Entry
  /-- 96 entries of 8 bytes BIST_STAGGER; R386, R387 (13); reset per R387. -/
  stagger : SMap Entry
  /-- 1,280 entries of 8 bytes COUNTER_EVENT; R403, R405 (14); reset per R405. -/
  events : SMap Entry
  /-- 32-bit TABLE_GEN by table ID; R86, R463 (03, 17); reset 0. -/
  gen : SMap (BitVec 32)
  /-- status of the last TABLE_APPLY by table ID; R463 (17); reset 0. -/
  lastStatus : SMap (BitVec 8)
  /-- beat of the last TABLE_APPLY by table ID; R100 (04); reset 0 (DESIGN CHOICE, log 4). -/
  lastBeat : SMap Beat
  /-- DETAIL of the last TABLE_APPLY by table ID; R100 (04); reset 0 (DESIGN CHOICE, log 4). -/
  lastDetail : SMap (BitVec 16)
  deriving DecidableEq, Repr

/-! ## Switch core (05) -/

/-- A frame diverted to a local agent: its LP, whether its route was FOREIGN, the frame, and its number in order of admission,
by which a fence tells it from the frames admitted after its acknowledgement (R20, R175, R194). -/
structure Diverted where
  lp : Nat
  foreign : Bool
  frame : InFrame
  id : Nat
  deriving DecidableEq, Repr

/-- Where the flits of a frame that is still arriving on an input LP go (R131, R146, R165). -/
inductive Arriving where
  | none
  /-- the frame was discarded or stomped: its remaining flits are dropped. -/
  | dropping
  /-- the frame is admitted under this number. -/
  | admitted (id : Nat)
  /-- the frame is diverted; it is handed over once complete (R20). -/
  | diverted (d : Diverted)
  /-- the frame is the last of this LP among the frames whose head waits at ingress (R54, R131). -/
  | waiting
  deriving DecidableEq, Repr

/-- A frame in the shared buffer (R138): its VOQ (input, output, class; output = input for multicast), its number in
arrival order (by which a fence tells frames admitted after its acknowledgement, the pass mark of R175), how many flits have
arrived and passed their CRC, how many have crossed to the egress, and its forwarding mode. -/
structure QFrame where
  id : Nat
  inLp : Nat
  outLp : Nat
  tc : Nat
  hdr : Hdr
  content : Bytes
  arrived : Nat
  crossed : Nat
  saf : Bool
  /-- what the ECC will report of the cells that have not crossed (R133). -/
  cells : List CellErr := []
  deriving DecidableEq, Repr

/-- Flits waiting in a slot FIFO or the multicast staging FIFO of an LP (R142, R148): frame number, input and output LP, header,
payload bytes of the flits in order, and a stomp code that is to end it, with the payload of the stomped flit. -/
structure Staged where
  id : Nat
  inLp : Nat
  outLp : Nat
  hdr : Hdr
  flits : List Bytes
  fault : Option (BitVec 4)
  last : Bytes
  deriving DecidableEq, Repr

/-- A locked pair of slots (R140): input slot, output slot and the frame. -/
structure SlotLock where
  inSlot : Nat
  outSlot : Nat
  id : Nat
  deriving DecidableEq, Repr

/-- Frames that local agents have waiting toward an LP (R146, R165): 0 memory, 1 collective, 2 management. -/
structure AgentFrame where
  agent : Nat
  lp : Nat
  hdr : Hdr
  content : Bytes
  /-- for a result frame: session, epoch, chunk, failures so far (R276). -/
  sid : Nat
  epoch : BitVec 32
  chunk : Nat
  fails : Nat
  /-- a COLL_RESULT frame that must pass its CRC at egress (R271). -/
  result : Bool
  deriving DecidableEq, Repr

/-- The frame in progress on an egress merge (R146): its source (0, 1 slot FIFOs, 2 multicast, 3 memory, 4 collective,
5 management), its flits that wait, how many flits have left and their bytes, and the agent frame it is. -/
structure Current where
  source : Nat
  st : Staged
  sent : Nat
  bytes : Bytes
  agent : Option AgentFrame
  deriving DecidableEq, Repr

/-- The switch core. -/
structure Switch where
  /-- frames in the shared buffer in arrival order, the 131,072 VOQs together; R133, R138 (05); reset none. -/
  frames : List QFrame
  /-- number of the next frame admitted; reset 0 (model's own, log 4). -/
  nextId : Nat
  /-- what becomes of the flits arriving on each input LP; R122, R131 (05); reset none (DESIGN CHOICE, log 4). -/
  arriving : SMap Arriving
  /-- frames whose head waits at ingress, in arrival order: LP, whether a lookup hold made it wait, frame; R54, R131 (02, 05);
  reset none. -/
  heads : List (Nat × Bool × InFrame)
  /-- frames diverted to local agents and not yet taken, in arrival order; R20, R194 (01, 07); reset none (DESIGN CHOICE,
  log 4). -/
  diverted : List Diverted
  /-- the slot FIFOs by output slot 0 to 127, 64 flits each; R142 (05); reset empty. -/
  slotFifo : SMap (List Staged)
  /-- the multicast staging FIFOs by LP, 36 flits each; R148 (05); reset empty. -/
  mcFifo : SMap (List Staged)
  /-- frames of local agents waiting for the egress merge, in order; R146 (05); reset none. -/
  agentOut : List AgentFrame
  /-- the source each LP's merge served last (0, 1 slot FIFOs, 2 multicast, 3 memory, 4 collective, 5 management); R146 (05);
  reset 5. -/
  served : SMap Nat
  /-- the frame in progress on each LP's merge; R146, R147 (05); reset none. -/
  current : SMap (Option Current)
  /-- result frames that have left and whose CRC report is awaited, oldest first; R271, R276 (09); reset none. -/
  checking : List AgentFrame
  /-- next-hop credits by LP x 8 + class; R137 (05); reset 0. -/
  credits : SMap Nat
  /-- credits received beyond 65,535 in a class and ignored, by LP x 8 + class: the count that R137 asks for, which no register
  shows; R137 (05); reset 0 (DESIGN CHOICE, log 4). -/
  creditExcess : SMap Nat
  /-- an INIT credit flit has been received on the LP; R137 (05); reset false. -/
  initSeen : SMap Bool
  /-- flits not yet sent of frames for which next-hop credits are reserved, by LP x 8 + class; R142, R146, R148 (05);
  reset 0. -/
  reserved : SMap Nat
  /-- cells held by frames by input LP x 8 + class, part of A(i,c); R134 (05); reset 0. -/
  held : SMap Nat
  /-- credits outstanding at the sender by input LP x 8 + class, part of A(i,c); R134 (05); reset 0. -/
  granted : SMap Nat
  /-- issued credits not yet sent in a CREDIT flit by input LP x 8 + class; R136 (05); reset 0. -/
  pendingCredit : SMap Nat
  /-- guarantee in force minus the table's GUAR where owed, by input LP x 8 + class: the cells owed; R135 (05); reset 0. -/
  owed : SMap Nat
  /-- free shared cells; R134, R135 (05); reset 405,504 (524,288 less the sum of the reset GUAR). -/
  sharedFree : Int
  /-- gptr[j]; R143 (05); reset 0. -/
  gptr : SMap Nat
  /-- aptr[i]; R143 (05); reset 0. -/
  aptr : SMap Nat
  /-- cptr[i][j] by i x 128 + j; R143 (05); reset 0. -/
  cptr : SMap Nat
  /-- mptr[i]; R148 (05); reset 0. -/
  mptr : SMap Nat
  /-- the input served last by the replicator; R148 (05); reset 127 (DESIGN CHOICE, log 4). -/
  mcLast : Nat
  /-- PACE(j) in 1/256 flit; R142 (05); reset 2,048. -/
  pace : SMap Nat
  /-- locked slot pairs; R140 (05); reset none. -/
  locks : List SlotLock
  /-- 48-bit STOMPED, saturating; R147, R461 (05, 17); reset 0. -/
  stomped : Nat
  /-- 48-bit HELD_AT_BOUNDARY, saturating; R54, R461 (02, 17); reset 0. -/
  heldAtBoundary : Nat
  /-- table IDs whose lookups are held; R54 (02); reset none. -/
  lookupHold : List Nat
  /-- super-cell times run since the switch reset; R144 (05); reset 0 (DESIGN CHOICE, log 4). -/
  superCells : Nat
  deriving DecidableEq, Repr

/-! ## Recovery (06) -/

/-- Hold states of a logical port (R181). -/
inductive HoldSt where
  | idle | up | holding | ended
  deriving DecidableEq, Repr

/-- PORT_RECOV_n (R181). -/
structure PortRecov where
  /-- 2-bit HOLD_STATE_A; R181 (06); reset 0. -/
  stA : HoldSt
  /-- 2-bit HOLD_STATE_B; R181 (06); reset 0. -/
  stB : HoldSt
  /-- 2-bit LAST_RETURN; R181 (06); reset 0. -/
  lastReturn : Nat
  /-- 1 bit EXPIRED, W1C; R181 (06); reset 0. -/
  expired : Bool
  /-- the last HOLD_END, of which the word shows the low 32 bits; R166, R181 (06); reset 0. -/
  holdEnd : Beat
  /-- HOLD_END of the last hold of LP2n and of LP2n+1, which may go down in different beats (R342); R166 (06); reset 0. -/
  endA : Beat
  endB : Beat
  /-- 16-bit HOLD_BEATS; R166, R181 (06); reset 0x0032. -/
  holdBeats : BitVec 16
  deriving DecidableEq, Repr

/-- States of a fence entry (R181). -/
inductive FenceSt where
  | free | active | draining
  deriving DecidableEq, Repr

/-- A fence entry (R173, R181). -/
structure Fence where
  /-- 2-bit STATE; R181 (06); reset FREE. -/
  st : FenceSt
  /-- 1 bit WILDCARD; R181 (06); reset 0. -/
  wildcard : Bool
  /-- 1 bit MCAST; R181 (06); reset 0. -/
  mcast : Bool
  /-- 3-bit TC; R181 (06); reset 0. -/
  tc : Nat
  /-- 7-bit SOURCE_LP; R181 (06); reset 0. -/
  source : Nat
  /-- 7-bit TARGET_LP; R181 (06); reset 0. -/
  target : Nat
  /-- 16-bit DEST; R181 (06); reset 0. -/
  dest : BitVec 16
  /-- 16-bit FIRST_LOST; R181 (06); reset 0. -/
  firstLost : BitVec 16
  /-- 8-bit REASON; R179, R181 (06); reset 0. -/
  reason : Nat
  /-- 48-bit BEAT; R181 (06); reset 0. -/
  beat : Beat
  /-- 8-bit REPEATS, saturating; R181 (06); reset 0. -/
  repeats : Nat
  /-- the notice waits because the source LP is down; R176 (06); reset false. -/
  waits : Bool
  /-- the notice that waits is a repeat; R176 (06); reset false. -/
  again : Bool
  /-- beat of the last notice; R176 (06); reset 0. -/
  noticed : Beat
  /-- number of the next frame admitted when the entry was acknowledged: frames from it on carry the pass mark; R175, R178
  (06); reset 0 (DESIGN CHOICE, log 4). -/
  ackAt : Nat
  deriving DecidableEq, Repr

/-- The recovery unit. -/
structure Recov where
  /-- PORT_RECOV_n by port; R181 (06); reset per field. -/
  ports : SMap PortRecov
  /-- FENCE_ENTRY_n, 4,096 entries; R181 (06); reset FREE. -/
  fences : SMap Fence
  /-- 16-bit FENCE_RETRY; R181 (06); reset 0x0100. -/
  fenceRetry : BitVec 16
  /-- 8-bit LP_FENCE_LIMIT; R181 (06); reset 0x40. -/
  fenceLimit : BitVec 8
  /-- 1 bit FULL_SEEN, W1C; R181 (06); reset 0. -/
  fullSeen : Bool
  /-- 1 bit LIMIT_SEEN, W1C; R181 (06); reset 0. -/
  limitSeen : Bool
  /-- 16-bit BAD_ACKS, RC, saturating; R181 (06); reset 0. -/
  badAcks : Nat
  deriving DecidableEq, Repr

/-! ## Fabric memory (07) -/

/-- Roles of a stack (R218). -/
inductive StackRole where
  | inService | spare | source | target | retired
  deriving DecidableEq, Repr

/-- MEM_STACK_n (R218). -/
structure Stack where
  /-- 4-bit ROLE; R218 (07); reset IN_SERVICE, MS-12 SPARE. -/
  role : StackRole
  /-- 8-bit TEMP; R218 (07); reset 0. -/
  temp : Byte
  /-- 8-bit UE_COUNT, saturating; R218 (07); reset 0. -/
  ue : Nat
  /-- 32-bit CE_WINDOW; R218 (07); reset 0. -/
  ce : Nat
  /-- CE_WINDOW has exceeded CE_THRESH within a window; R213 (07); reset false. -/
  ceDue : Bool
  /-- the stack has stopped answering; R213 (07); reset false. -/
  dead : Bool
  deriving DecidableEq, Repr

/-- Migration states (R218). -/
inductive MigSt where
  | idle | copying | done | nocopyDone
  deriving DecidableEq, Repr

/-- An allocation: first granule, granules, OWNER (R191). -/
structure Alloc where
  first : Nat
  count : Nat
  owner : Word
  deriving DecidableEq, Repr

/-- An ECC log record (R107, R212). -/
structure EccRecord where
  stack : Nat
  uncorrected : Bool
  offset : Nat
  beat : Beat
  deriving DecidableEq, Repr

/-- A memory request at the agent (R195): the LP it came on, its class and the cells its frame holds until it enters the
ordering stage (R201), its frame's SRC, DEST and number in order of admission (R175), and the request fields. -/
structure MemReq where
  lp : Nat
  tc : Nat
  cells : Nat
  src : BitVec 16
  dest : BitVec 16
  id : Nat
  op : Nat
  ack : Bool
  respTc : Nat
  tag : BitVec 16
  atype : Nat
  count : Nat
  offset : Nat
  length : Nat
  mg : Nat
  data : Bytes
  deriving DecidableEq, Repr

/-- A read in progress after its first fragment (R200, R206): the next fragment, and for a multicast read the targets
skipped and whether a fragment was uncorrected. -/
structure MemRead where
  req : MemReq
  next : Nat
  skipped : List Nat
  bad : Bool
  deriving DecidableEq, Repr

/-- The fabric memory. -/
structure FabMem where
  /-- the bytes written since power-on, by offset below 864 GiB, strictly rising; R188, R455 (07, 16); reset none listed
  (log entry 6). -/
  cells : List Host.Cell
  /-- number of the power-on, the index of the open contents; reset 0 (model's own, log 6). -/
  powerOns : Nat
  /-- allocations by rising first granule, at most 16,384; R191 (07); reset none. -/
  allocs : List Alloc
  /-- requests waiting at the agent's entry, in order; R201 (07); reset none. -/
  waiting : List MemReq
  /-- reads whose later fragments are still to be read, in order; R200 (07); reset none. -/
  reads : List MemRead
  /-- slot map: stack of each of 12 slots; R190, R218 (07); reset slot k to MS-k. -/
  slotMap : List Nat
  /-- MEM_STACK_n; R218 (07); reset per field. -/
  stackRegs : SMap Stack
  /-- AUTO_MIGRATE; R218 (07); reset 1. -/
  autoMigrate : Bool
  /-- MIGRATE_NOCOPY; R218 (07); reset 0. -/
  noCopy : Bool
  /-- 2-bit MIGRATE_SHARE; R218 (07); reset 1. -/
  share : BitVec 2
  /-- 16-bit CE_THRESH; R218 (07); reset 0x1000. -/
  ceThresh : BitVec 16
  /-- 8-bit UE_THRESH; R218 (07); reset 4. -/
  ueThresh : BitVec 8
  /-- migration STATE; R218 (07); reset IDLE. -/
  migSt : MigSt
  /-- the running migration makes no copy; R216 (07); reset false. -/
  migNoCopy : Bool
  /-- migration CAUSE; R218 (07); reset 0. -/
  migCause : Bool
  /-- migration SLOT; R218 (07); reset 0. -/
  migSlot : Nat
  /-- migration FROM; R218 (07); reset 0. -/
  migFrom : Nat
  /-- migration TO; R218 (07); reset 0xC. -/
  migTo : Nat
  /-- 25-bit PROGRESS; R218 (07); reset 0. -/
  progress : Nat
  /-- poisoned sectors, rising, at most 4,096; R211 (07); reset none. -/
  poison : List Nat
  /-- POISON_FULL, W1C; R218 (07); reset 0. -/
  poisonFull : Bool
  /-- LOST_SEEN, W1C; R218 (07); reset 0. -/
  lostSeen : Bool
  /-- slots of which every granule was marked LOST; R216, R448 (07, 16); reset none. -/
  lostSlots : List Nat
  /-- 4 KiB granules of those slots whose mark has been cleared, rising; R216 (07); reset none. -/
  lostCleared : List Nat
  /-- single 4 KiB granules marked LOST, rising; R216 (07); reset none. -/
  lostGranules : List Nat
  /-- the ECC log, at most 256 records, oldest first; R212 (07); reset none. -/
  eccLog : List EccRecord
  /-- 8-bit ECC_LOG_LOST, RC, saturating; R218 (07); reset 0. -/
  eccLost : Nat
  /-- CORRECTED of MEM_STATUS, 32 bits; R107 (04); reset 0 (DESIGN CHOICE, log 4). -/
  corrected : Nat
  /-- UNCORRECTED of MEM_STATUS, 32 bits; R107 (04); reset 0 (DESIGN CHOICE, log 4). -/
  uncorrected : Nat
  deriving DecidableEq, Repr

/-! ## Collective engine (08, 09) -/

/-- Session states (R222). -/
inductive SessSt where
  | free | idle | gathering | running | closing | aborted
  deriving DecidableEq, Repr

/-- A descriptor (R230). -/
structure Desc where
  op : Nat
  red : Nat
  inFmt : Nat
  outFmt : Nat
  rmode : Nat
  cpm : Nat
  ceLog2 : Nat
  root : Nat
  epoch : BitVec 32
  seed : BitVec 32
  total : Nat
  deriving DecidableEq, Repr

/-- A member of a session: its LP; its flow (SRC, DEST and class of its descriptor frame) once one has come (R236, R266);
whether its descriptor of the current epoch is accepted (R235); the next frame R263 expects (chunk, contribution, offset)
and whether none is left; whether it has acknowledged an abort (R283); and the uncommitted chunks of which it has received
a result frame (R282). -/
structure Member where
  lp : Nat
  known : Bool
  src : BitVec 16
  dest : BitVec 16
  tc : Nat
  accepted : Bool
  nextChunk : Nat
  nextContrib : Nat
  nextOffset : Nat
  finished : Bool
  acked : Bool
  got : List Nat
  deriving DecidableEq, Repr

/-- A chunk open in the Drey (R271): its accumulator slots by element (initial value when not listed) and the elements to
which an infinity was contributed (R254); the bytes so far of portions that are not whole, by rank x 8 + contribution; the
portions received whole; the staged portions of BROADCAST and ALL_GATHER by rank; the retained contributions by rank x 8 +
contribution (R269); whether every portion is in, whether it is released (R286) and its results are formed; its flags; the
result frames still to pass; and the logical ports that receive a portion. -/
structure Chunk where
  num : Nat
  slots : SMap (BitVec 288)
  infs : List Nat
  parts : List (Nat × Bytes)
  portions : Nat
  staged : List (Nat × Bytes)
  retained : List (Nat × Bytes)
  complete : Bool
  released : Bool
  finished : Bool
  flags : BitVec 8
  toPass : Nat
  targets : List Nat
  deriving DecidableEq, Repr

/-- A session (R225, R288). -/
structure Session where
  /-- 4-bit STATE; R222, R225 (08); reset FREE. -/
  st : SessSt
  /-- EARLY_USE; R225 (08); reset 0. -/
  early : Bool
  /-- BEAT_SYNC; R225 (08); reset 0. -/
  beatSync : Bool
  /-- OPENER_SRC; R225 (08); reset 0. -/
  openerSrc : Src
  /-- OPENER_ORIGIN; R225 (08); reset 0. -/
  openerOrigin : Nat
  /-- 12-bit MG; R225 (08); reset 0. -/
  mg : Nat
  /-- 128-bit MEMBERS; R225 (08); reset 0. -/
  members : BitVec 128
  /-- 17-bit DREY_QUOTA in KiB; R225 (08); reset 0. -/
  quota : Nat
  /-- 32-bit EPOCH; R223, R225 (08); reset 0. -/
  epoch : BitVec 32
  /-- 8-bit DESC_SEEN; R225 (08); reset 0. -/
  descSeen : Nat
  /-- 7-bit REF_LP; R225 (08); reset 0. -/
  refLp : Nat
  /-- REF_VALID; R225 (08); reset 0. -/
  refValid : Bool
  /-- 64-bit REF_HASH; R225 (08); reset 0. -/
  refHash : Word
  /-- 8-bit EPOCH_FLAGS; R225 (08); reset 0. -/
  epochFlags : BitVec 8
  /-- LAST_STATUS; R288 (09); reset 0. -/
  lastStatus : BitVec 16
  /-- DETAIL; R288 (09); reset 0. -/
  detail : BitVec 16
  /-- CHUNKS_COMMITTED since SESSION_OPEN; R288 (09); reset 0. -/
  committedAll : Nat
  /-- RETRACTIONS since SESSION_OPEN; R288 (09); reset 0. -/
  retractions : Nat
  /-- the reference descriptor of the epoch; R235 (08); reset none. -/
  desc : Option Desc
  /-- the members by rank; R221 (08); reset none. -/
  roster : List Member
  /-- the open chunks, ascending; R271 (09); reset none. -/
  chunks : List Chunk
  /-- the lowest chunk not committed; R271 (09); reset 0. -/
  low : Nat
  /-- pipeline depth D; R269 (09); reset 0. -/
  depth : Nat
  /-- Drey need of one chunk in KiB; R269 (09); reset 0. -/
  need : Nat
  /-- the epoch retains its operands; R269 (09); reset false. -/
  retain : Bool
  /-- a barrier or a chunk waits for beat-synchronous release of EPOCH_DONE; R286 (09); reset false. -/
  barrierWaits : Bool
  /-- beat of the last accepted frame of the epoch; R287 (09); reset 0. -/
  lastAccept : Nat
  deriving DecidableEq, Repr

/-- The collective engine. -/
structure Coll where
  /-- SESSION_n, 4,096 entries; R225 (08); reset FREE. -/
  sessions : SMap Session
  /-- RETAIN; R287 (09); reset 1. -/
  retain : Bool
  /-- 4-bit SYNC_LOG2; R287 (09); reset 0. -/
  syncLog2 : BitVec 4
  /-- 16-bit STALL_BEATS; R287 (09); reset 0. -/
  stallBeats : BitVec 16
  /-- 17-bit STAGE_KIB; R287 (09); reset 0x1000. -/
  stageKib : Nat
  /-- UE_SEEN, W1C; R287 (09); reset 0. -/
  ueSeen : Bool
  /-- RESIDUE_SEEN, W1C; R287 (09); reset 0. -/
  residueSeen : Bool
  /-- RESENDS, RC, 16 bits saturating; R287 (09); reset 0. -/
  resends : Nat
  /-- RECOMPUTES, RC, 16 bits saturating; R287 (09); reset 0. -/
  recomputes : Nat
  /-- BAD_ACKS, RC, 16 bits saturating; R287 (09); reset 0. -/
  badAcks : Nat
  /-- DISCARDED, RC, 16 bits saturating; R287 (09); reset 0. -/
  discarded : Nat
  /-- frames waiting at the engine's entry, in order of arrival; R224, R270 (08, 09); reset none. -/
  entry : List Diverted
  /-- clusters whose residue check has failed: they take no further passes; R277 (09); reset none. -/
  residueBad : List Nat
  deriving DecidableEq, Repr

/-! ## Ports and lanes (10, 11) -/

/-- States of a stripe (R325). -/
inductive StripeSt where
  | disabled | absent | send | align | exchange | up | backoff
  deriving DecidableEq, Repr

/-- A sequenced flit kept for replay (R345): number, header, payload, stomped. -/
structure TxFlit where
  seq : Nat
  hdr : Hdr
  payload : Bytes
  stomped : Bool
  deriving DecidableEq, Repr

/-- What waits for the TX lanes of a stripe: an /S/ block, a flit, or the /Z/ block of a sleep (R303, R304, R317). -/
inductive LineItem where
  | sync
  | flit (bits : BitVec 2048)
  | sleep
  deriving DecidableEq, Repr

/-- What has come out of the received blocks of a stripe and is not yet handled: a whole flit, or a code error or alignment slip
that the link layer is to repair (R303, R304, R346). -/
inductive RxItem where
  | flit (bits : BitVec 2048)
  | fault
  deriving DecidableEq, Repr

/-- A stripe and the link layer of its LP (R325, R338, R345 to R347). -/
structure Stripe where
  /-- 4-bit STATE; R325, R354 (11); reset DISABLED. -/
  st : StripeSt
  /-- TX width TXW; R354 (11); reset 0. -/
  txw : Nat
  /-- RX width RXW; R354 (11); reset 0. -/
  rxw : Nat
  /-- first logical lane of the RX stripe; R331, R339 (11); reset 0. -/
  rxFirst : Nat
  /-- first logical lane of the TX stripe; R339 (11); reset 0. -/
  txFirst : Nat
  /-- LINK_DELAY in 0.25 ns units; R337, R354 (11); reset 0. -/
  linkDelay : Nat
  /-- whether LINK_DELAY has been measured; R42, R337 (02, 11); reset false. -/
  delayKnown : Bool
  /-- LOCAL_EPOCH; R331, R338 (11); reset 0 (DESIGN CHOICE, log 4). -/
  localEpoch : BitVec 16
  /-- PEER_EPOCH last recorded, 0xFFFF none; R331 (11); reset 0xFFFF. -/
  peerEpoch : BitVec 16
  /-- the partner's LOCAL_EPOCH in its last record; R331, R338 (11); reset 0 (DESIGN CHOICE, log 4). -/
  seenEpoch : BitVec 16
  /-- the partner's RX_WIDTH in its last record; R331, R339 (11); reset 0 (DESIGN CHOICE, log 4). -/
  peerWidth : Nat
  /-- the partner's RX_FIRST in its last record; R331, R339 (11); reset 0 (DESIGN CHOICE, log 4). -/
  peerFirst : Nat
  /-- replay state kept, REPLAY_VALID; R326 (11); reset false. -/
  replayValid : Bool
  /-- energy seen on RX.CK during the attempt; R340 (11); reset false. -/
  energySeen : Bool
  /-- RX lanes with header lock, 9 bits D0 to D7 and SP; R333 (11); reset none. -/
  locked : BitVec 9
  /-- the RX asks the spare for this lane (15 none); R331, R334 (11); reset 15. -/
  spWant : Nat
  /-- RX_ALIGNED: the RX has left ALIGN; R331 (11); reset false. -/
  aligned : Bool
  /-- round trips measured in EXCHANGE, in 0.25 ns units; R337 (11); reset none. -/
  rtts : List Nat
  /-- the last ECHO_STAMP used; R337 (11); reset none. -/
  lastEcho : Option (BitVec 32)
  /-- READY records received; R339 (11); reset 0. -/
  readySeen : Nat
  /-- the partner's last record shows RX_ALIGNED; R339 (11); reset false. -/
  peerAligned : Bool
  /-- the return decided from the partner's records: resumed; R338 (11); reset false. -/
  resumed : Bool
  /-- the partner's RX_NEXT from its records; R338, R339 (11); reset 0. -/
  peerNext : Nat
  /-- consecutive blocks with a majority of /T/ headers while UP; R348 (11); reset 0. -/
  trainRun : Nat
  /-- the last block was a sleep block; R320 (10); reset false. -/
  zSeen : Bool
  /-- tx_next, 12 bits; R347 (11); reset 0. -/
  txNext : Nat
  /-- acked, 12 bits; R347 (11); reset 0. -/
  acked : Nat
  /-- replay buffer, oldest first, at most 1,024 or 512; R345 (11); reset empty. -/
  replay : List TxFlit
  /-- no_progress; R347 (11); reset 0. -/
  noProgress : Nat
  /-- rx_next, 12 bits; R346 (11); reset 0. -/
  rxNext : Nat
  /-- discarding; R346 (11); reset false. -/
  discarding : Bool
  /-- skip; R346 (11); reset 0. -/
  skip : Nat
  /-- RX_NEXT has changed since a flit last carried it; R345 (11); reset false. -/
  ackOwed : Bool
  /-- bytes of the flit being received from blocks; R303 (10); reset none. -/
  partFlit : Bytes
  /-- flits received whole from blocks, and the faults between them, not yet handled; R303, R346 (10, 11); reset none. -/
  flits : List RxItem
  /-- flits and marks that wait for the TX lanes, oldest first; R303, R304 (10); reset none. -/
  txLine : List LineItem
  /-- bytes of the flit on the TX lanes still to be sent; R303 (10); reset none. -/
  txPart : Bytes
  /-- BLOCK_COUNT of the next block sent; R331 (11); reset 0 (DESIGN CHOICE, log 4). -/
  blocks : BitVec 16
  /-- last STAMP received from the partner; R331 (11); reset 0 (DESIGN CHOICE, log 4). -/
  stampIn : BitVec 32
  /-- when the header that carried it arrived, in 0.25 ns units; R331 (11); reset 0 (DESIGN CHOICE, log 4). -/
  stampAt : BitVec 32
  /-- the partner's last record shows T_SYMS; R330 (11); reset false. -/
  peerTSyms : Bool
  /-- when each lane in ALIGN last delivered a record, as (lane, BLOCK_COUNT, time in 0.25 ns units); R335 (11); reset none. -/
  arrivals : List (Nat × BitVec 16 × BitVec 32)
  /-- an INIT credit flit is still to be sent; R136, R345 (05, 11); reset false. -/
  initOwed : Bool
  /-- the identity pages are still to be read before this attempt sends; R435 (15); reset false. -/
  readOwed : Bool
  /-- re-timers are still to be restarted before this attempt sends; R435 (15); reset false. -/
  rtOwed : Bool
  /-- the identity pages have been read for the attempt that comes next; R435 (15); reset false. -/
  identFresh : Bool
  deriving DecidableEq, Repr

/-- A lane change under way in one direction of a port (R350 to R353). -/
structure LaneJob where
  /-- the stripe it concerns. -/
  side : Side
  /-- the lane (9 clock). -/
  lane : Nat
  hitless : Bool
  restore : Bool
  /-- the request last sent and still unanswered, by its code (R350), 0 none. -/
  sent : Nat
  body : LaneMsg
  /-- the spare or returning lane has header lock. -/
  locked : Bool
  /-- both lanes carry the data (hitless step 2). -/
  doubled : Bool
  deriving DecidableEq, Repr

/-- Receive state of one lane (R104, R299, R309). -/
structure LaneSt where
  /-- running disparity at the receiver: present once a code group has been decoded, true positive; R299 (10); reset none. -/
  rd : Option Bool
  /-- ERRORS, 16 bits saturating; R104, R299 (04, 10); reset 0. -/
  errors : Nat
  /-- CTLE override, when one is set; R313 (10); reset none. -/
  ctle : Option (BitVec 5)
  /-- consecutive header errors; R302, R348 (10, 11); reset 0. -/
  hdrErrs : Nat
  /-- code errors of the last LOCK_ERR_BLOCKS blocks, newest first; R348 (11); reset none. -/
  recent : List Nat
  deriving DecidableEq, Repr

/-- A port. -/
structure PortSt where
  /-- enabled by PORT_ADMIN; R105, R455 (04, 16); reset false. -/
  enabled : Bool
  /-- split mode; R104 (04); reset x8 false. -/
  split : Bool
  /-- stripe A; R325 (11); reset per field. -/
  a : Stripe
  /-- stripe B; R325 (11); reset per field. -/
  b : Stripe
  /-- 4-bit BACKOFF_EXP; R340, R354 (11); reset 0. -/
  backoffExp : Nat
  /-- LAST_FAIL; R354, R355 (11); reset 0. -/
  lastFail : Nat
  /-- TX_SP_FOR, 15 idle; R354 (11); reset 15. -/
  txSp : Nat
  /-- RX_SP_FOR, 15 idle; R354 (11); reset 15. -/
  rxSp : Nat
  /-- RX takes its clock from the spare, CK_ON_SP; R332 (11); reset false. -/
  ckOnSp : Bool
  /-- RX.CK, or RX.SP in its role, is locked; R332 (11); reset false. -/
  clockLocked : Bool
  /-- TRAIN_ATTEMPTS, 32 bits saturating; R104, R340 (04, 11); reset 0. -/
  attempts : Nat
  /-- STATE_BEAT; R354 (11); reset 0. -/
  stateBeat : Beat
  /-- REPLAYS of PORT_STATUS, cumulative, 32 bits; R104, R354 (04, 11); reset 0. -/
  replaysAll : Nat
  /-- REPLAYS of PORT_LINK_ERR_n, RC, 16 bits; R354 (11); reset 0. -/
  replays : Nat
  /-- NAKS_SENT, RC, 16 bits; R354 (11); reset 0. -/
  naks : Nat
  /-- LOCK_LOSSES, RC, 8 bits; R354 (11); reset 0. -/
  lockLosses : Nat
  /-- SWAPS, RC, 8 bits; R354 (11); reset 0. -/
  swaps : Nat
  /-- WIDTH_DROPS, RC, 8 bits; R354 (11); reset 0. -/
  widthDrops : Nat
  /-- TRAIN_FAILS, RC, 8 bits; R354 (11); reset 0. -/
  trainFails : Nat
  /-- PRESET_USED; R323 (10); reset 0. -/
  presetUsed : Nat
  /-- the preset entry's values as latched; R312 (10); reset entry 0 of R311 (DESIGN CHOICE, log 4). -/
  preset : Entry
  /-- CART_MEDIA; R323 (10); reset 0. -/
  cartMedia : Nat
  /-- CART_CLASS; R323 (10); reset 0. -/
  cartClass : Nat
  /-- CART_LEN; R323 (10); reset 0. -/
  cartLen : Nat
  /-- CART_VALID; R323 (10); reset 0. -/
  cartValid : Bool
  /-- TX_ASLEEP; R323 (10); reset 0. -/
  txAsleep : Bool
  /-- RX_ASLEEP; R323 (10); reset 0. -/
  rxAsleep : Bool
  /-- the TX direction is going to sleep; R317 (10); reset false. -/
  txSleeping : Bool
  /-- the partner has asked for the sleep that is under way; R321 (10); reset false. -/
  peerSleep : Bool
  /-- SLEEP flits that wait to be sent, by ACTION; R321, R344 (10, 11); reset none. -/
  sleepOut : List Nat
  /-- LANE messages that wait for the TX direction to wake, by code; R318, R350 (10, 11); reset none. -/
  laneOut : List (Nat × LaneMsg)
  /-- stage of a TX wake: 0 none, 1 lanes powering, 2 preamble; R319 (10); reset 0. -/
  txWaking : Nat
  /-- stage of an RX wake: 0 none, 1 energy detected, 2 aligned; R320 (10); reset 0. -/
  rxWaking : Nat
  /-- SLEEP_REQ_FAIL, W1C; R323 (10); reset 0. -/
  sleepReqFail : Bool
  /-- WAKE_FAIL, W1C; R323 (10); reset 0. -/
  wakeFail : Bool
  /-- AUTO_WAKES, RC, 8 bits; R323 (10); reset 0. -/
  autoWakes : Nat
  /-- MARKER_ERRS, RC, 8 bits; R323 (10); reset 0. -/
  markerErrs : Nat
  /-- SLIPS, RC, 8 bits; R323 (10); reset 0. -/
  slips : Nat
  /-- receive lanes by lane code 0 to 9; R104 (04); reset per field. -/
  rxLanes : SMap LaneSt
  /-- lane change of the RX direction; R351 (11); reset none. -/
  rxJob : Option LaneJob
  /-- lane change of the TX direction; R351 (11); reset none. -/
  txJob : Option LaneJob
  /-- lanes replaced or dropped since the stripe last entered SEND, TX 10 bits; R352 (11); reset none. -/
  txDropped : BitVec 10
  /-- the same for RX; R352 (11); reset none. -/
  rxDropped : BitVec 10
  /-- running disparity of each TX lane, 1 positive: D0 to D7, SP, CK; R298 (10); reset negative. -/
  txRd : BitVec 10
  /-- code groups that wait for the clock-lane stream, by table entry, oldest first; R305, R306 (10); reset none. -/
  ckOut : List Nat
  /-- TX.SP has been powered down because the partner's records ask nothing of it; R334 (11); reset false. -/
  spOff : Bool
  /-- running eye scans: lanes; R314, R315 (10); reset none. -/
  scans : List Nat
  /-- identity page of the cable as last read: RT_COUNT and the ten re-timer bytes; R434, R435 (15); reset none. -/
  cable : Option Bytes
  deriving DecidableEq, Repr

/-! ## Power (12, 18) -/

/-- A telemetry window (R373). -/
structure Telem where
  /-- 16-bit AVG; R373, R375 (12); reset 0. -/
  avg : Nat
  /-- 16-bit PEAK; R373, R375 (12); reset 0. -/
  peak : Nat
  /-- 32-bit BLOCKS, saturating; R375 (12); reset 0. -/
  blocks : Nat
  /-- sum of the samples of the running block; R373 (12); reset 0. -/
  sum : Nat
  /-- samples in the running block; R373 (12); reset 0. -/
  n : Nat
  deriving DecidableEq, Repr

/-- What the power unit keeps of one beat (R369, R370): its highest sample, how many samples it had, whether one exceeded the
effective cap, whether every one did with K_EFF = 8 and the rail at entry 0, and whether K_CAP was lowered. -/
structure BeatPower where
  max : Nat
  samples : Nat
  above : Bool
  unmet : Bool
  cut : Bool
  deriving DecidableEq, Repr

/-- The power unit. -/
structure Power where
  /-- source cycles of the core clock run, modulo 1,280; R360, R407 (12, 14); reset 0 (DESIGN CHOICE, log 4). -/
  cycle : Nat
  /-- time of the reference clock in 0.25 ns units, modulo 2^32, to which training records refer; R331, R337 (11); reset 0 (DESIGN
  CHOICE, log 4). -/
  time : BitVec 32
  /-- DROOP_EN; R375 (12); reset 1. -/
  droopEn : Bool
  /-- 4-bit DECAF_STEP; R375 (12); reset 2. -/
  decafStep : Nat
  /-- 8-bit DROOP_LIGHT_MV; R375 (12); reset 0x1E. -/
  lightMv : Nat
  /-- 8-bit DROOP_HEAVY_MV; R375 (12); reset 0x3C. -/
  heavyMv : Nat
  /-- 8-bit CAP_HEADROOM; R375 (12); reset 0x19. -/
  headroom : Nat
  /-- 16-bit RAISE_HOLD; R375 (12); reset 0x10. -/
  raiseHold : Nat
  /-- K_CAP; R359, R375 (12); reset 16. -/
  kCap : Nat
  /-- K_RAIL; R359, R375 (12); reset 16. -/
  kRail : Nat
  /-- K_DROOP; R359, R375 (12); reset 16. -/
  kDroop : Nat
  /-- CURVE_TARGET; R365, R375 (12); reset 8. -/
  curveTarget : Nat
  /-- RAIL_ENTRY; R364, R375 (12); reset 8. -/
  railEntry : Nat
  /-- RAIL_MOVING; R364, R375 (12); reset 0. -/
  railMoving : Bool
  /-- CAP_UNMET, W1C; R370, R375 (12); reset 0. -/
  capUnmet : Bool
  /-- DROOP_LIGHT_SEEN, W1C; R375 (12); reset 0. -/
  lightSeen : Bool
  /-- DROOP_HEAVY_SEEN, W1C; R375 (12); reset 0. -/
  heavySeen : Bool
  /-- RAISE_REFUSED, W1C; R372, R375 (12); reset 0. -/
  raiseRefused : Bool
  /-- DESIGN_LIMIT_SEEN, W1C; R358, R375 (12); reset 0. -/
  designSeen : Bool
  /-- 16-bit POWER_NOW; R367, R375 (12); reset 0. -/
  now : Nat
  /-- overrun accumulator in nJ (sample excess in W x 1,024 ns), of which OVERRUN shows whole mJ; R371 (12); reset 0. -/
  overrun : Nat
  /-- CAP_CUTS, RC, 16 bits; R375 (12); reset 0. -/
  capCuts : Nat
  /-- DROOP_TRIPS, RC, 16 bits; R375 (12); reset 0. -/
  droopTrips : Nat
  /-- TELEM_0 to TELEM_3; R373, R375 (12); reset 0. -/
  telem : List Telem
  /-- the ceiling, 0 none; R366 (12); reset none. -/
  ceiling : Nat
  /-- SRC_KIND that set the ceiling; R111 (04); reset I3C (DESIGN CHOICE, log 4). -/
  ceilingSrc : Src
  /-- the host request, 0 none; R366 (12); reset none. -/
  hostReq : Nat
  /-- SRC_KIND that set the host request; R111 (04); reset PCIe (DESIGN CHOICE, log 4). -/
  hostSrc : Src
  /-- the last 16,384 samples, newest first; R358 (12); reset none. -/
  samples : List Nat
  /-- what the running beat has had so far; R369, R370 (12); reset no sample and no lowering (DESIGN CHOICE, log 4). -/
  beat : BeatPower
  /-- what the beat just ended had, for the power work that follows step 5 of its boundary; R369, R370 (12); reset no sample and
  no lowering (DESIGN CHOICE, log 4). -/
  ended : BeatPower
  /-- a droop detector was below DROOP_LIGHT_MV in the running beat; R362 (12); reset false. -/
  droopBeat : Bool
  /-- full beats since the last lowering of K_CAP under R368; R369 (12); reset 0 (DESIGN CHOICE, log 4). -/
  sinceCut : Nat
  /-- CODE of the last voltage-request frame; R477 (18); reset 50. -/
  code : Nat
  /-- VREQ_FAULT_N is low, or has been high for less than 1 ms; R478 (18); reset false. -/
  vreqFault : Bool
  deriving DecidableEq, Repr

/-! ## Badger and Burrow (13) -/

/-- Roles of clusters and banks (R400). -/
inductive Role where
  | inService | spare | out | unusable
  deriving DecidableEq, Repr

/-- BIST_RESULT_n (R382, R461). -/
structure BistRes where
  /-- 64-bit MISR; R380, R461 (13, 17); reset 0. -/
  misr : Word
  /-- 32-bit PATTERNS; R461 (17); reset 0. -/
  patterns : BitVec 32
  /-- 16-bit TOKEN; R381, R461 (13, 17); reset 0. -/
  token : BitVec 16
  /-- OUTCOME; R382 (13); reset 0. -/
  outcome : Nat
  /-- STOP; R383 (13); reset 0. -/
  stop : Nat
  /-- DETAIL; R382 (13); reset 0. -/
  detail : Nat
  /-- 48-bit BEAT; R461 (17); reset 0. -/
  beat : Beat
  deriving DecidableEq, Repr

/-- The active run (R388): the latched stagger entries of the partitions it names, those that have ended, the current
slot with its limit, and whether the slot waits, runs, or the next one is due. -/
structure Run where
  parts : List (Nat × Entry)
  ended : List Nat
  /-- BIST_START of the first slot has come. -/
  begun : Bool
  slot : Nat
  /-- the slot runs. -/
  slotOn : Bool
  /-- the slot waits for headroom. -/
  waiting : Bool
  /-- beat at which it began to wait for headroom. -/
  waitFrom : Beat
  /-- the beat at which the next slot is due. -/
  nextDue : Beat
  startBeat : Beat
  /-- local beats when a member last ended. -/
  endedAt : Nat
  /-- local beats when the slot at hand was last tried. -/
  triedAt : Nat
  deriving DecidableEq, Repr

/-- The sequencer of a partition under test (R378, R380, R394): its MISR, the patterns or march operations so far, and for a memory
half the bank at hand, whether that bank is still being copied, the banks that follow, and the banks newly found failing. -/
structure TestSeq where
  misr : Word
  count : BitVec 32
  bank : Option Nat
  copying : Bool
  left : List Nat
  found : Nat
  deriving DecidableEq, Repr

/-- Badger and Burrow. -/
structure Bist where
  /-- sequencers of the partitions under test; R378, R380 (13); reset none. -/
  seqs : SMap TestSeq
  /-- 16-bit SLOT_WAIT; R401 (13); reset 0x100. -/
  slotWait : BitVec 16
  /-- 16-bit GAP_BEATS; R401 (13); reset 4. -/
  gapBeats : BitVec 16
  /-- 6-bit SLOT; R401 (13); reset 0. -/
  slot : Nat
  /-- ZEROISED, W1C; R384, R401 (13); reset 0. -/
  zeroised : Bool
  /-- DROOP_STOP_SEEN, W1C; R401 (13); reset 0. -/
  droopSeen : Bool
  /-- CAP_STOP_SEEN, W1C; R401 (13); reset 0. -/
  capSeen : Bool
  /-- 48-bit SLOT_BEAT; R401 (13); reset 0. -/
  slotBeat : Beat
  /-- partitions under test, BIST_ACTIVE; R401 (13); reset none. -/
  active : List Nat
  /-- partitions stopped or finished whose saved state is not yet restored; R379 (13); reset none. -/
  restoring : List Nat
  /-- clusters under test and what each was before: 0 in service with no stand-in, 1 in service with a spare standing in, 2
  spare; R391, R394 (13); reset none. -/
  standIn : List (Nat × Nat)
  /-- BIST_RESULT_n; R461 (17); reset NOT_RUN. -/
  results : SMap BistRes
  /-- the active run; R388 (13); reset none. -/
  run : Option Run
  /-- AUTO_SPARE; R401 (13); reset 1. -/
  autoSpare : Bool
  /-- 8-bit BUF_UE_THRESH; R401 (13); reset 4. -/
  bufThresh : BitVec 8
  /-- 8-bit DREY_UE_THRESH; R401 (13); reset 4. -/
  dreyThresh : BitVec 8
  /-- uncorrectable ECC errors of each buffer bank since it came into service; R393 (13); reset 0 (DESIGN CHOICE, log 4). -/
  bufUe : SMap Nat
  /-- uncorrectable ECC errors of each Drey bank since it came into service; R393 (13); reset 0 (DESIGN CHOICE, log 4). -/
  dreyUe : SMap Nat
  /-- MODULE_SUSPECT; R398 (13); reset 0. -/
  suspect : Bool
  /-- roles of RC-0 to RC-25; R400, R401 (13); reset 0 to 23 IN_SERVICE, 24 and 25 SPARE. -/
  rc : SMap Role
  /-- roles of buffer banks 0 to 131; R376, R401 (13); reset 128 to 131 SPARE. -/
  buf : SMap Role
  /-- roles of Drey banks 0 to 98; R376, R401 (13); reset 96 to 98 SPARE. -/
  drey : SMap Role
  /-- banks in the SPARE role that are flagged untested: kind 3 buffer, 4 Drey; R394 (13); reset none. -/
  untested : List (Nat × Nat)
  /-- bank copies under way: kind, outgoing bank, spare, and whether the outgoing unit becomes UNUSABLE; R394 (13); reset
  none. -/
  copies : List (SpareKind × Nat × Nat × Bool)
  /-- ports marked UNUSABLE; R397, R400 (13); reset none. -/
  portUnusable : BitVec 64
  /-- TX_BAD marks by port; R397, R401 (13); reset 0. -/
  txBad : SMap (BitVec 10)
  /-- RX_BAD marks by port; R397, R401 (13); reset 0. -/
  rxBad : SMap (BitVec 10)
  /-- ports to retrain when their test's restore ends, because a lane was marked; R397 (13); reset none. -/
  retrain : List Nat
  /-- LAST_CHANGE; R400 (13); reset 0. -/
  lastChange : Beat
  /-- CHANGES, 16 bits saturating; R400 (13); reset 0. -/
  changes : Nat
  /-- marks waiting to be blown at the next boundary: kind (1 stack, 2 cluster, 3 buffer, 4 Drey, 5 port) and unit; R395
  (13); reset none. -/
  toBlow : List (Nat × Nat)
  /-- marks in the fuse array; R395 (13); reset none (a new part, log 2). -/
  fuses : List (Nat × Nat)
  deriving DecidableEq, Repr

/-! ## Counters (14) -/

/-- The context of a sample record (R415, R416): a flit, a memory request or a cluster pass. -/
inductive SampleCtx where
  | flit (lp : Nat) (hdr : Hdr)
  | memory (stack op offset lp : Nat)
  | engine (sid cluster chunk : Nat)
  deriving DecidableEq, Repr

/-- A counter (R402, R410). -/
structure Counter where
  /-- 48-bit running count; R402 (14); reset 0. -/
  run : BitVec 48
  /-- frozen VALUE of the last closed window; R413 (14); reset 0. -/
  frozen : BitVec 48
  /-- WRAP; R411 (14); reset 0. -/
  wrap : Bool
  /-- REPROG; R411 (14); reset 0. -/
  reprog : Bool
  /-- PARTIAL of the frozen window; R414 (14); reset 0. -/
  partialWin : Bool
  /-- the running window will report PARTIAL; R414 (14); reset 1 until the first close (DESIGN CHOICE, log 4). -/
  startedLate : Bool
  /-- a pending CTR_SELECT; R412 (14); reset none. -/
  select : Option (BitVec 16)
  /-- ENABLE of CTR_SAMPLE_n; R415 (14); reset 0. -/
  armed : Bool
  /-- PERIOD of CTR_SAMPLE_n; R415 (14); reset 0. -/
  period : BitVec 48
  /-- sampling countdown; R415 (14); reset 0. -/
  countdown : Nat
  /-- the expiries of the countdown whose record is still to be captured, oldest first, each with its context once that has come;
  R415 (14); reset none. -/
  due : List (Option SampleCtx)
  deriving DecidableEq, Repr

/-- A sample record (R416). -/
structure Sample where
  bank : Nat
  kind : Nat
  index : Nat
  event : BitVec 16
  skidUnit : Nat
  skidMax : Nat
  beat : Beat
  value : Word
  context : Option SampleCtx
  deriving DecidableEq, Repr

/-- A bank's window (R413, R419). -/
structure Window where
  /-- pending WINDOW of CTR_WINDOW_SET; R419 (14); reset none. -/
  pending : Option Nat
  /-- WINDOW in force; R413, R419 (14); reset 0x100. -/
  window : Nat
  /-- beat of the last close; R419 (14); reset 0. -/
  lastClose : Beat
  /-- the running window reports PARTIAL as a whole: FREEZE was 1 during it, or the beat count stepped or wrapped; R414, R467
  (14, 17); reset false. -/
  spoiled : Bool
  /-- a close fell due while TP-94 was under test; R418 (14); reset false. -/
  late : Bool
  /-- it ends at the boundary whose steps have still to run; R53, R413 (02, 14); reset false (DESIGN CHOICE, log 4). -/
  due : Bool
  deriving DecidableEq, Repr

/-- The counters. -/
structure Counters where
  /-- 1,280 counters, numbered as the table entries of R403; R402 (14); reset 0. -/
  counters : SMap Counter
  /-- CTR_WINDOW_b; R419 (14); reset per field. -/
  windows : SMap Window
  /-- sample buffer, at most 256 records, oldest first; R417 (14); reset none. -/
  samples : List Sample
  /-- SAMPLE_IRQ_LEVEL; R419 (14); reset 0x40. -/
  irqLevel : Nat
  /-- SAMPLES_LOST, RC, 16 bits; R419 (14); reset 0. -/
  lost : Nat
  /-- FREEZE in force; R461, R467 (17); reset 0. -/
  freeze : Bool
  deriving DecidableEq, Repr

/-! ## Sideband, cartridges and the board controller (15) -/

/-- An MMB bus (R433, R440). -/
structure Mmb where
  /-- CART_PRESENT; R440 (15); reset 0. -/
  seated : Bool
  /-- ID_VALID; R440 (15); reset 0. -/
  idValid : Bool
  /-- BUS_FAULT, W1C; R440 (15); reset 0. -/
  busFault : Bool
  /-- RT_FAULT, W1C; R440 (15); reset 0. -/
  rtFault : Bool
  /-- CABLES; R440 (15); reset 0. -/
  cables : Byte
  /-- NAKS, RC, 16 bits; R440 (15); reset 0. -/
  naks : Nat
  /-- TRANSFERS, RC, 16 bits; R440 (15); reset 0. -/
  transfers : Nat
  /-- time-outs in a row; R433 (15); reset 0. -/
  timeouts : Nat
  deriving DecidableEq, Repr

/-- The sideband block. -/
structure Sideband where
  /-- CHAIN_ADDR; R440 (15); reset 0xFF. -/
  chainAddr : BitVec 8
  /-- FABRIC_ID; R440 (15); reset 0xFFFF. -/
  fabricId : BitVec 16
  /-- CHAIN_LOST, W1C; R440 (15); reset 0. -/
  chainLost : Bool
  /-- CLEAR_REFUSED, W1C; R440 (15); reset 0. -/
  clearRefused : Bool
  /-- FRAME_ERRS, RC, 16 bits; R440 (15); reset 0. -/
  frameErrs : Nat
  /-- DYN_ADDR; R440 (15); reset 0. -/
  dynAddr : BitVec 7
  /-- STATIC_ADDR, 0x30 + TRAY_POS; R428, R440 (15); reset per strap (0x30, log 2). -/
  staticAddr : BitVec 7
  /-- IBI_EN; R440 (15); reset 0xFD. -/
  ibiEn : BitVec 8
  /-- XFER_ERRS, RC, 8 bits; R440 (15); reset 0. -/
  xferErrs : Nat
  /-- in-band interrupts enabled by ENEC; R428, R430 (15); reset true (DESIGN CHOICE, log 4). -/
  ibiOn : Bool
  /-- a cause has gone from clear to set and its interrupt is to be raised; R430 (15); reset false. -/
  ibiDue : Bool
  /-- local beats since the last interrupt, up to 16; R430 (15); reset 16 (DESIGN CHOICE, log 4). -/
  sinceIbi : Nat
  /-- BMC_ABSENT; R437, R440 (15); reset 0. -/
  bmcAbsent : Bool
  /-- ABSENT_SEEN, W1C; R440 (15); reset 0. -/
  absentSeen : Bool
  /-- WDOG_BEATS; R440 (15); reset 0x3_D090. -/
  wdogBeats : Nat
  /-- beat boundaries since the last I3C command that passed step 3; R437 (15); reset 0. -/
  wdogCount : Nat
  /-- ATTN_CAUSE, W1C; R431, R440 (15); reset 0. -/
  attn : BitVec 8
  /-- SB_LINK_CHANGE, W1C; R440 (15); reset 0. -/
  linkChange : Word
  /-- SB_PRES_CHANGE, W1C; R440 (15); reset 0. -/
  presChange : Word
  /-- MMB_STATUS_b; R440 (15); reset per field. -/
  mmb : SMap Mmb
  deriving DecidableEq, Repr

/-! ## Lands, power-on and the test access port (16, 18) -/

/-- Where the module stands between power-off and management ready (R444 to R450, R485, R489). -/
inductive Phase where
  /-- POR_N low. -/
  | por
  /-- RST_N low. -/
  | rst
  /-- step 1 of R447: the fuse array is read. -/
  | fuses
  /-- steps 2 and 3 of R447: self-test and stack training, with the one that has ended. -/
  | testing (bistDone trainDone : Bool)
  /-- step 4 of R447 and after: management ready. -/
  | ready
  deriving DecidableEq, Repr

/-- The package: phase, straps, test access port, thermal trip. -/
structure Pkg where
  /-- power-on phase; R444 to R447 (16); reset ready (log 2). -/
  phase : Phase
  /-- the running power-on sequence followed a reset land (CAUSE 1); R445 (16); reset false. -/
  fromLand : Bool
  /-- the roles of the stacks have been taken from the fuse array since the last power-on; R395, R447 (13, 16); reset true (log
  2). -/
  rolesTaken : Bool
  /-- TRAY_POS strap as sampled; R446 (16); reset 0 (log 2). -/
  trayPos : Nat
  /-- BIST_STRAP as sampled; R446 (16); reset 0 (log 2). -/
  bistStrap : Bool
  /-- instruction register of the test access port; R484 (18); reset IDCODE 0x01 (PRESUMED, log 4). -/
  tap : BitVec 8
  /-- RST_N land is low; R445 (16); reset false. -/
  rstLow : Bool
  /-- POR_N land is low; R444 (16); reset false. -/
  porLow : Bool
  /-- THERMTRIP_N asserted; R489 (18); reset false. -/
  tripped : Bool
  /-- SB_FWD; R420, R450 (15, 16); reset high (log 2). -/
  sbFwd : Bool
  /-- stacks held in self-refresh by RST_N, a trip or the memory scope; R185, R445 (07, 16); reset false. -/
  selfRefresh : Bool
  deriving DecidableEq, Repr

/-- The state of the module. -/
structure State where
  pkg : Pkg
  beat : BeatUnit
  agenda : Agenda
  mgmt : Mgmt
  ring : Ring
  tables : Tables
  sw : Switch
  recov : Recov
  mem : FabMem
  coll : Coll
  /-- the 64 ports; R11, R325 (00, 11); reset per field. -/
  ports : SMap PortSt
  power : Power
  bist : Bist
  ctr : Counters
  side : Sideband
  /-- what the module has sent at its lands, oldest first; reset none (model's own, log 11). -/
  out : List Emission
  /-- draws of free values made so far; reset 0 (model's own, DESIGN CHOICE, log 5). -/
  draws : Nat
  /-- the commands that wait, first in first out; reset empty (model's own, log 3). -/
  pending : List Instr
  deriving DecidableEq, Repr

/-! ## Reset (R455, R456; log entries 2 and 4) -/

/-- The beat unit after a land or a power-on (R32, R57, R455). -/
def resetBeat : BeatUnit :=
  { st := .seek, drift := false, rootConflict := false, outlier := false, freerunSeen := false, period := 2,
    rootAddr := 0xFF, holdBeats := 0, validPorts := 0, phaseErr := 0, count := 0, driftThresh := 0x800, tag := 0,
    missed := 0, lockRun := 0, lengths := [], learned := 16384, length := 16384, stepTo := none, markers := [], followed := false,
    everLocked := false, rootNext := false, stepsDue := false, localBeats := 0 }

/-- The agenda at reset (R48, R461). -/
def resetAgenda : Agenda := { entries := [], nextOrder := 0 }

/-- The PCIe ring words at reset (R71). -/
def resetRing : Ring :=
  { cmdBase := 0, replyBase := 0, enable := false, overrun := false, cfgErr := false, replySlot := 1, cmdSlot := 1,
    slotsLog2 := 6, tail := 0, head := 0, done := 0, holdoff := 0, irqEn := false, slots := [], gapRuns := false,
    irqWaits := false }

/-- The management controller after a power-on (R455, R462, R463). -/
def resetMgmt : Mgmt :=
  { lastSeq := [], arrivals := [], deferred := [], stores := [], lastSource := .tc7, lastOrigin := 127,
    i3cSelect := none, i3cQuery := false, sbSelect := none, keys := [], lastEpoch := [], authReq := 2, tc7Allow := 0,
    authFails := [], tableHolds := [], blockHolds := [], ceilingHold := none, hostHold := none, images := [],
    imagesOpened := 0, notices := [], scratch := 0, lastScope := 6, cause := 0, setter := 0xFFFF, resetBeat := 0,
    resets := [], running := [], markerWait := false }

/-- The nine tables at their reset contents (R455): nothing differs from the reset entry of its index. -/
def resetTables : Tables :=
  { route := [], mcast := [], cls := [], linecode := [], eq := [], timing := [], curve := [], stagger := [],
    events := [], gen := [], lastStatus := [], lastBeat := [], lastDetail := [] }

/-- The switch core at reset (R134 to R148, R455). -/
def resetSwitch : Switch :=
  { frames := [], nextId := 0, arriving := [], diverted := [], slotFifo := [], mcFifo := [], agentOut := [],
    served := [], current := [], checking := [], heads := [], held := [], credits := [], creditExcess := [], initSeen := [], reserved := [], granted := [],
    pendingCredit := [], owed := [], sharedFree := 405504, gptr := [], aptr := [], cptr := [], mptr := [],
    mcLast := 127, pace := [], locks := [], stomped := 0, heldAtBoundary := 0, lookupHold := [], superCells := 0 }

/-- The recovery unit at reset (R181). -/
def resetRecov : Recov :=
  { ports := [], fences := [], fenceRetry := 0x100, fenceLimit := 0x40, fullSeen := false, limitSeen := false,
    badAcks := 0 }

/-- The fabric memory after the first power-on of a new part (R190, R218, R455). -/
def resetMem : FabMem :=
  { cells := [], powerOns := 0, allocs := [], waiting := [], reads := [], slotMap := List.range 12, stackRegs := [],
    autoMigrate := true, noCopy := false, share := 1, ceThresh := 0x1000, ueThresh := 4, migSt := .idle,
    migNoCopy := false, migCause := false, migSlot := 0, migFrom := 0, migTo := 12, progress := 0, poison := [],
    poisonFull := false, lostSeen := false, lostSlots := [], lostCleared := [], lostGranules := [], eccLog := [],
    eccLost := 0, corrected := 0, uncorrected := 0 }

/-- The collective engine at reset (R225, R287). -/
def resetColl : Coll :=
  { sessions := [], retain := true, syncLog2 := 0, stallBeats := 0, stageKib := 0x1000, ueSeen := false,
    residueSeen := false, resends := 0, recomputes := 0, badAcks := 0, discarded := 0, entry := [],
    residueBad := [] }

/-- A beat without samples or lowerings (R369, R370). -/
def freshBeat : BeatPower := { max := 0, samples := 0, above := false, unmet := true, cut := false }

/-- The power unit at reset (R363, R366, R375). -/
def resetPower : Power :=
  { cycle := 0, time := 0, droopEn := true, decafStep := 2, lightMv := 0x1E, heavyMv := 0x3C, headroom := 0x19, raiseHold := 0x10,
    kCap := 16, kRail := 16, kDroop := 16, curveTarget := 8, railEntry := 8, railMoving := false, capUnmet := false,
    lightSeen := false, heavySeen := false, raiseRefused := false, designSeen := false, now := 0, overrun := 0,
    capCuts := 0, droopTrips := 0,
    telem := List.replicate 4 { avg := 0, peak := 0, blocks := 0, sum := 0, n := 0 },
    ceiling := 0, ceilingSrc := .i3c, hostReq := 0, hostSrc := .pcie, samples := [], beat := freshBeat,
    ended := freshBeat, droopBeat := false, sinceCut := 0, code := 50, vreqFault := false }

/-- Badger and Burrow of a new part at reset (R400, R401). -/
def resetBist : Bist :=
  { slotWait := 0x100, gapBeats := 4, slot := 0, zeroised := false, droopSeen := false, capSeen := false,
    slotBeat := 0, active := [], restoring := [], standIn := [], results := [], run := none, autoSpare := true,
    seqs := [], bufThresh := 4, dreyThresh := 4, bufUe := [], dreyUe := [], suspect := false, rc := [], buf := [], drey := [], untested := [],
    copies := [], portUnusable := 0, txBad := [], rxBad := [], retrain := [], lastChange := 0, changes := 0,
    toBlow := [], fuses := [] }

/-- The counters at reset (R413, R419). -/
def resetCtr : Counters :=
  { counters := [], windows := [], samples := [], irqLevel := 0x40, lost := 0, freeze := false }

/-- The sideband block at reset, with the I3C static address of the TRAY_POS strap (R428, R440). -/
def resetSide (trayPos : Nat) : Sideband :=
  { chainAddr := 0xFF, fabricId := 0xFFFF, chainLost := false, clearRefused := false, frameErrs := 0, dynAddr := 0,
    staticAddr := BitVec.ofNat 7 (0x30 + trayPos), ibiEn := 0xFD, xferErrs := 0, ibiOn := true, ibiDue := false,
    sinceIbi := 16, bmcAbsent := false, absentSeen := false, wdogBeats := 0x3D090, wdogCount := 0, attn := 0,
    linkChange := 0, presChange := 0, mmb := [] }

/-- The package of a module at management ready after a power-on with both straps low (R446, R447; log entry 2). -/
def resetPkg : Pkg :=
  { phase := .ready, fromLand := false, rolesTaken := true, trayPos := 0, bistStrap := false, tap := 1, rstLow := false, porLow := false,
    tripped := false, sbFwd := true, selfRefresh := false }

/-- The machine right after reset: management ready after the power-on of a new part (R447 step 4, R455). -/
def State.reset : State :=
  { pkg := resetPkg, beat := resetBeat, agenda := resetAgenda, mgmt := resetMgmt, ring := resetRing,
    tables := resetTables, sw := resetSwitch, recov := resetRecov, mem := resetMem, coll := resetColl, ports := [],
    power := resetPower, bist := resetBist, ctr := resetCtr, side := resetSide 0, out := [], draws := 0,
    pending := [] }

end Sys2Proof.Machine
end

