-- ==== Sys2Proof/Machine/Flags.lean ====
section
/-! DEFINITION. The status codes of replies (R15), the rank of a source (R79) and the flag computations of control words
(R13). -/

namespace Sys2Proof.Machine

def stOk : BitVec 8 := 0x00
def stPending : BitVec 8 := 0x01
def stBadOpcode : BitVec 8 := 0x10
def stBadParam : BitVec 8 := 0x11
def stBadLength : BitVec 8 := 0x12
def stDeniedAuth : BitVec 8 := 0x20
def stDeniedPrecedence : BitVec 8 := 0x21
def stDeniedState : BitVec 8 := 0x22
def stBusyTest : BitVec 8 := 0x30
def stNoResource : BitVec 8 := 0x31
def stTableCrc : BitVec 8 := 0x32
def stMismatch : BitVec 8 := 0x40
def stAborted : BitVec 8 := 0x41
def stRetracted : BitVec 8 := 0x42
def stSuperseded : BitVec 8 := 0x50
def stInternalFault : BitVec 8 := 0x7F

/-- SRC_KIND of a source (R59). -/
def srcCode : Src → Nat
  | .pcie => 0
  | .tc7 => 1
  | .i3c => 2
  | .sb => 3

/-- The source of a SRC_KIND, from its low two bits (R59). -/
def srcOf (n : Nat) : Src :=
  match n % 4 with
  | 0 => .pcie
  | 1 => .tc7
  | 2 => .i3c
  | _ => .sb

/-- The rank of a source (R79). -/
def srcRank : Src → Nat
  | .pcie => 1
  | .tc7 => 0
  | .i3c => 2
  | .sb => 3

/-- The pair number of a source and origin, as NOTICE_Q_k numbers pairs (R463). -/
def pairOf (src : Src) (origin : Nat) : Nat :=
  match src with
  | .pcie => 0
  | .i3c => 1
  | .sb => 2
  | .tc7 => 3 + origin

/-- HOLDER as R100 codes it. -/
def holderCode : Option (Src × Nat) → Nat
  | none => 0x8000
  | some (src, origin) => srcCode src + 4 * origin

/-- Whether (src, origin) may change an object with this holder (R79). -/
def mayChange (holder : Option (Src × Nat)) (src : Src) (origin : Nat) : Bool :=
  match holder with
  | none => true
  | some (h, o) => (decide (h = src) && decide (o = origin)) || decide (srcRank h < srcRank src)

/-- The value of a W1C flag after a write of b (R13). -/
def w1c (old b : Bool) : Bool := old && !b

/-- The value of a W1C field after a write (R13). -/
def w1cBits {w : Nat} (old v : BitVec w) : BitVec w := old &&& ~~~v

/-- The data of CW_MODIFY: old with the masked bits of value (R99). -/
def maskMerge (old mask value : Word) : Word := (old &&& ~~~mask) ||| (value &&& mask)

end Sys2Proof.Machine
end

