-- ==== Sys2Proof/Machine/Ops.lean ====
section
/-! DEFINITION. The named operations over the registers of the state that every family shares: reading and writing of
indexed registers with their reset values, units in reset or under test, event counting, attention, notices and replies. -/

namespace Sys2Proof.Machine

/-- What every command answers. -/
abbrev Out := Host.Outcome State Fault Refusal

/-! ## Reset values of indexed registers -/

def defaultKey : KeySlot := { loaded := false, mask := 0, admin := false, epoch := 0, key := 0 }
def defaultAgEntry : AgEntry :=
  { st := .free, action := 0, latePol := false, notify := false, src := .pcie, origin := 0, target := 0, order := 0,
    doneBeat := 0, paramA := 0, paramB := 0, next := false, due := false }
def defaultQueue : NoticeQueue := { records := [], lost := 0 }
def defaultRecov : PortRecov :=
  { stA := .idle, stB := .idle, lastReturn := 0, expired := false, holdEnd := 0, endA := 0, endB := 0, holdBeats := 0x32 }
def defaultFence : Fence :=
  { st := .free, wildcard := false, mcast := false, tc := 0, source := 0, target := 0, dest := 0, firstLost := 0,
    reason := 0, beat := 0, repeats := 0, waits := false, again := false, noticed := 0, ackAt := 0 }
/-- MEM_STACK_n at reset: MS-12 is the spare (R218). -/
def defaultStack (n : Nat) : Stack :=
  { role := if n = 12 then .spare else .inService, temp := 0, ue := 0, ce := 0, ceDue := false, dead := false }
def defaultSession : Session :=
  { st := .free, early := false, beatSync := false, openerSrc := .pcie, openerOrigin := 0, mg := 0, members := 0,
    quota := 0, epoch := 0, descSeen := 0, refLp := 0, refValid := false, refHash := 0, epochFlags := 0,
    lastStatus := 0, detail := 0, committedAll := 0, retractions := 0, desc := none, roster := [], chunks := [],
    low := 0, depth := 0, need := 0, retain := false, barrierWaits := false, lastAccept := 0 }
/-- A stripe that is DISABLED and keeps nothing (R325, R455). -/
def defaultStripe : Stripe :=
  { st := .disabled, txw := 0, rxw := 0, rxFirst := 0, txFirst := 0, linkDelay := 0,
    delayKnown := false, localEpoch := 0, peerEpoch := 0xFFFF, seenEpoch := 0, peerWidth := 0, peerFirst := 0, replayValid := false, energySeen := false, locked := 0,
    spWant := 15, aligned := false, rtts := [], lastEcho := none, readySeen := 0, peerAligned := false,
    resumed := false, peerNext := 0, trainRun := 0, zSeen := false, txNext := 0, acked := 0, replay := [], noProgress := 0,
    rxNext := 0, discarding := false, skip := 0, ackOwed := false, partFlit := [], flits := [], txLine := [], txPart := [],
    blocks := 0, stampIn := 0, stampAt := 0, peerTSyms := false, arrivals := [], initOwed := false
    readOwed := false, rtOwed := false, identFresh := false }
def defaultLane : LaneSt := { rd := none, errors := 0, ctle := none, hdrErrs := 0, recent := [] }
/-- Entry 0 of the equalisation preset table at reset (R311). -/
def presetReset : Entry :=
  BitVec.ofNat 256 ((1 <<< 63) + (0xFF <<< 52) + (0xFF <<< 36) + (12 <<< 27) + (4 <<< 20) + (6 <<< 16) + (10 <<< 12))
/-- A port at reset (R323, R354, R455). -/
def defaultPort : PortSt :=
  { enabled := false, split := false, a := defaultStripe, b := defaultStripe, backoffExp := 0, lastFail := 0, txSp := 15, rxSp := 15,
    ckOnSp := false, clockLocked := false, attempts := 0, stateBeat := 0, replaysAll := 0, replays := 0, naks := 0,
    lockLosses := 0, swaps := 0, widthDrops := 0, trainFails := 0, presetUsed := 0, preset := presetReset,
    cartMedia := 0, cartClass := 0, cartLen := 0, cartValid := false, txAsleep := false, rxAsleep := false,
    txSleeping := false, peerSleep := false, sleepOut := [], laneOut := [], txWaking := 0, rxWaking := 0, sleepReqFail := false, wakeFail := false, autoWakes := 0,
    markerErrs := 0, slips := 0, rxLanes := [], rxJob := none, txJob := none, txDropped := 0, rxDropped := 0,
    txRd := 0, ckOut := [], spOff := false, scans := [], cable := none }
def defaultBistRes : BistRes :=
  { misr := 0, patterns := 0, token := 0, outcome := 0, stop := 0, detail := 0, beat := 0 }
def defaultCounter : Counter :=
  { run := 0, frozen := 0, wrap := false, reprog := false, partialWin := false, startedLate := true, select := none,
    armed := false, period := 0, countdown := 0, due := [] }
def defaultWindow : Window := { pending := none, window := 0x100, lastClose := 0, spoiled := false, late := false, due := false }
def defaultMmb : Mmb :=
  { seated := false, idValid := false, busFault := false, rtFault := false, cables := 0, naks := 0, transfers := 0,
    timeouts := 0 }
/-- The role of a unit of a kind with its first spare at `spare` (R400). -/
def defaultRole (spare n : Nat) : Role := if spare ≤ n then .spare else .inService

/-! ## Reads and writes of indexed registers -/

def State.port (s : State) (n : Nat) : PortSt := sget s.ports n defaultPort
def State.setPort (s : State) (n : Nat) (p : PortSt) : State := { s with ports := sput s.ports n p defaultPort }
def State.updPort (s : State) (n : Nat) (f : PortSt → PortSt) : State := s.setPort n (f (s.port n))
def State.key (s : State) (n : Nat) : KeySlot := sget s.mgmt.keys n defaultKey
def State.setKey (s : State) (n : Nat) (k : KeySlot) : State :=
  { s with mgmt := { s.mgmt with keys := sput s.mgmt.keys n k defaultKey } }
def State.agEntry (s : State) (e : Nat) : AgEntry := sget s.agenda.entries e defaultAgEntry
def State.setAgEntry (s : State) (e : Nat) (x : AgEntry) : State :=
  { s with agenda := { s.agenda with entries := sput s.agenda.entries e x defaultAgEntry } }
def State.recovOf (s : State) (n : Nat) : PortRecov := sget s.recov.ports n defaultRecov
def State.setRecov (s : State) (n : Nat) (r : PortRecov) : State :=
  { s with recov := { s.recov with ports := sput s.recov.ports n r defaultRecov } }
def State.fence (s : State) (n : Nat) : Fence := sget s.recov.fences n defaultFence
def State.setFence (s : State) (n : Nat) (f : Fence) : State :=
  { s with recov := { s.recov with fences := sput s.recov.fences n f defaultFence } }
def State.stack (s : State) (n : Nat) : Stack := sget s.mem.stackRegs n (defaultStack n)
def State.setStack (s : State) (n : Nat) (x : Stack) : State :=
  { s with mem := { s.mem with stackRegs := sput s.mem.stackRegs n x (defaultStack n) } }
def State.session (s : State) (n : Nat) : Session := sget s.coll.sessions n defaultSession
def State.setSession (s : State) (n : Nat) (x : Session) : State :=
  { s with coll := { s.coll with sessions := sput s.coll.sessions n x defaultSession } }
/-- The role of a cluster, a buffer bank, a Drey bank (R376, R400). -/
def State.rcRole (s : State) (n : Nat) : Role := sget s.bist.rc n (defaultRole 24 n)
def State.bufRole (s : State) (n : Nat) : Role := sget s.bist.buf n (defaultRole 128 n)
def State.dreyRole (s : State) (n : Nat) : Role := sget s.bist.drey n (defaultRole 96 n)
def State.setRcRole (s : State) (n : Nat) (r : Role) : State :=
  { s with bist := { s.bist with rc := sput s.bist.rc n r (defaultRole 24 n) } }
def State.setBufRole (s : State) (n : Nat) (r : Role) : State :=
  { s with bist := { s.bist with buf := sput s.bist.buf n r (defaultRole 128 n) } }
def State.setDreyRole (s : State) (n : Nat) (r : Role) : State :=
  { s with bist := { s.bist with drey := sput s.bist.drey n r (defaultRole 96 n) } }
/-- An uncorrectable ECC error of a bank (R393). -/
def State.bankUe (s : State) (kind : SpareKind) (n : Nat) : State :=
  match kind with
  | .cluster => s
  | .buffer => { s with bist := { s.bist with bufUe := sput s.bist.bufUe n (sget s.bist.bufUe n 0 + 1) 0 } }
  | .drey => { s with bist := { s.bist with dreyUe := sput s.bist.dreyUe n (sget s.bist.dreyUe n 0 + 1) 0 } }
def State.result (s : State) (n : Nat) : BistRes := sget s.bist.results n defaultBistRes
def State.setResult (s : State) (n : Nat) (r : BistRes) : State :=
  { s with bist := { s.bist with results := sput s.bist.results n r defaultBistRes } }
def State.counter (s : State) (n : Nat) : Counter := sget s.ctr.counters n defaultCounter
def State.setCounter (s : State) (n : Nat) (c : Counter) : State :=
  { s with ctr := { s.ctr with counters := sput s.ctr.counters n c defaultCounter } }
def State.window (s : State) (b : Nat) : Window := sget s.ctr.windows b defaultWindow
def State.setWindow (s : State) (b : Nat) (w : Window) : State :=
  { s with ctr := { s.ctr with windows := sput s.ctr.windows b w defaultWindow } }
def State.mmb (s : State) (b : Nat) : Mmb := sget s.side.mmb b defaultMmb
def State.setMmb (s : State) (b : Nat) (m : Mmb) : State :=
  { s with side := { s.side with mmb := sput s.side.mmb b m defaultMmb } }
def PortSt.lane (p : PortSt) (k : Nat) : LaneSt := sget p.rxLanes k defaultLane
def PortSt.setLane (p : PortSt) (k : Nat) (l : LaneSt) : PortSt :=
  { p with rxLanes := sput p.rxLanes k l defaultLane }
def PortSt.stripe (p : PortSt) : Side → Stripe
  | .a => p.a
  | .b => p.b
def PortSt.setStripe (p : PortSt) (sd : Side) (x : Stripe) : PortSt :=
  match sd with
  | .a => { p with a := x }
  | .b => { p with b := x }

/-- Append to what has left at the lands (log entry 11). -/
def State.emit (s : State) (e : Emission) : State := { s with out := s.out ++ [e] }

/-- The next fresh open value (log entry 5). -/
def State.draw (s : State) : Word × State := (Config.free64 s.draws, { s with draws := s.draws + 1 })

/-! ## Logical ports (R11, R150) -/

def lpPort (lp : Nat) : Nat := lp / 2
def lpSide (lp : Nat) : Side := if lp % 2 = 0 then .a else .b
def lpOf (port : Nat) (sd : Side) : Nat :=
  match sd with
  | .a => 2 * port
  | .b => 2 * port + 1

/-- Whether the logical port exists in the port's mode (R150). -/
def State.lpExists (s : State) (lp : Nat) : Bool := lp % 2 == 0 || (s.port (lpPort lp)).split
/-- The stripe of a logical port. -/
def State.lpStripe (s : State) (lp : Nat) : Stripe := (s.port (lpPort lp)).stripe (lpSide lp)
def State.setLpStripe (s : State) (lp : Nat) (x : Stripe) : State :=
  s.updPort (lpPort lp) fun p => p.setStripe (lpSide lp) x
/-- Whether the stripe of the logical port is UP. -/
def State.lpUp (s : State) (lp : Nat) : Bool := s.lpExists lp && decide ((s.lpStripe lp).st = .up)
/-- The stripes of a port in its mode. -/
def PortSt.sides (p : PortSt) : List Side := if p.split then [.a, .b] else [.a]
/-- Every stripe of the port is UP. -/
def PortSt.allUp (p : PortSt) : Bool := p.sides.all fun sd => decide ((p.stripe sd).st = .up)
/-- Some stripe of the port is UP. -/
def PortSt.anyUp (p : PortSt) : Bool := p.sides.any fun sd => decide ((p.stripe sd).st = .up)
/-- The logical ports of a port in its mode. -/
def State.lpsOf (s : State) (port : Nat) : List Nat := (s.port port).sides.map (lpOf port)

/-! ## Units in reset, under test, or without power -/

/-- The module has reached management ready and no land holds it (R444, R445, R447, R489). -/
def State.live (s : State) : Bool :=
  decide (s.pkg.phase = .ready) && !s.pkg.tripped && !s.pkg.porLow && !s.pkg.rstLow

/-- A running reset has one of these scopes (R451). -/
def State.scopeRuns (s : State) (l : List Nat) : Bool := s.mgmt.running.any fun r => l.contains r.scope
def State.portInReset (s : State) (n : Nat) : Bool :=
  s.scopeRuns [2, 6] || s.mgmt.running.any fun r => r.scope == 1 && r.unit == n
def State.switchInReset (s : State) : Bool := s.scopeRuns [2, 6]
def State.memInReset (s : State) : Bool := s.scopeRuns [3, 6]
def State.collInReset (s : State) : Bool := s.scopeRuns [2, 4, 6]
def State.mgmtInReset (s : State) : Bool := s.scopeRuns [5, 6]

/-- The partition is under test until its restore has ended (R379, R391). -/
def State.underTest (s : State) (tp : Nat) : Bool := s.bist.active.contains tp || s.bist.restoring.contains tp

/-! ## Event counting (R403 to R406, R410 to R415, R467) -/

/-- EVENT of counter entry n at reset (R405). -/
def eventReset (n : Nat) : Nat :=
  if n < 1024 then
    [0x0101, 0x0102, 0x0105, 0x0106, 0x0107, 0x0108, 0x0109, 0x010B, 0x010C, 0x010D, 0x0200, 0x0201, 0x0202, 0x0203,
     0x0204, 0x0111].getD (n % 16) 0
  else
    [0x3100, 0x3101, 0x3102, 0x3103, 0x3104, 0x3105, 0x2100, 0x2101, 0x2102, 0x2103, 0x2104, 0x1001, 0x1002, 0x3007,
     0x2007, 0x4004].getD (n - 1024) 0

/-- Entry n of the counter event table at reset (R403, R405). -/
def eventEntryReset (n : Nat) : Entry :=
  BitVec.ofNat 256 ((eventReset n <<< 48) + (0xFF <<< 40) + (0xFF <<< 24))

def State.eventEntry (s : State) (n : Nat) : Nat := (sget s.tables.events n (eventEntryReset n)).toNat

/-- The counter after n more of its events (R411, R415). -/
def Counter.bump (c : Counter) (n : Nat) : Counter :=
  { c with
    run := BitVec.ofNat 48 (c.run.toNat + n)
    wrap := c.wrap || decide (2 ^ 48 ≤ c.run.toNat + n)
    due := if c.armed ∧ c.countdown ≤ n then
        c.due ++ List.replicate (1 + (n - c.countdown) / max 1 c.period.toNat) none
      else c.due
    countdown := if !c.armed then c.countdown
      else if n < c.countdown then c.countdown - n
      else c.period.toNat - (n - c.countdown) % max 1 c.period.toNat }

/-- Whether the entry counts an event of this code, class and argument on this half of the port (R403). -/
def entryCounts (e code : Nat) (lpHalf cls arg : Option Nat) : Bool :=
  bitsAt e 63 48 == code
    && (match cls with | some c => bitAt e (40 + c) | none => true)
    && (match lpHalf with
        | some h => bitsAt e 39 38 == 0 || bitsAt e 39 38 == h + 1
        | none => true)
    && (bitsAt e 31 24 == 0xFF
        || (match arg with | some a => bitsAt e 31 24 == a | none => true))

/-- Count n events at the listed counters whose entry selects them; nothing counts under FREEZE (R467). -/
def State.countAt (s : State) (l : List Nat) (code : Nat) (lpHalf cls arg : Option Nat) (n : Nat) : State :=
  if s.ctr.freeze || n == 0 then s
  else l.foldl (fun s k =>
    if entryCounts (s.eventEntry k) code lpHalf cls arg then s.setCounter k ((s.counter k).bump n) else s) s

/-! ## The context of samples (R415) -/

/-- CTX_KIND, SKID_UNIT and SKID_MAX of an event (R415). -/
def skidOf (event : Nat) : Nat × Nat × Nat :=
  let g := event / 0x1000
  if g ≤ 1 then (1, 0, 32) else if g = 2 then (2, 1, 64) else if g = 3 then (3, 1, 64) else (0, 1, 0)

/-- A port event is counted where the LP receives; the others where it sends (R406, R415; log entry 65). -/
def rxPoint (event : Nat) : Bool :=
  [0x0101, 0x0103, 0x0105, 0x0107, 0x0108, 0x010A, 0x010C, 0x010F, 0x0110, 0x0111, 0x0112, 0x0113, 0x1006].contains event

/-- The expired countdowns of the counters of some units take this context, unless they have one (R415). -/
def State.noteCtx (s : State) (unit : Nat → Bool) (x : SampleCtx) : State :=
  (s.ctr.counters.filter fun e => e.2.due.contains none && unit e.1).foldl (fun s e =>
    s.setCounter e.1 { s.counter e.1 with due := (s.counter e.1).due.map fun y => some (y.getD x) }) s

/-- A frame's flit passes on an LP, where it is received or where it is sent (R415). -/
def State.ctxFlit (s : State) (lp : Nat) (rx : Bool) (h : Hdr) : State :=
  s.noteCtx (fun n =>
    let e := s.eventEntry n
    let code := bitsAt e 63 48
    (skidOf code).1 == 1 && rxPoint code == rx
      && (decide (1024 ≤ n) || (n / 16 == lpPort lp && (bitsAt e 39 38 == 0 || bitsAt e 39 38 == lp % 2 + 1)))) (.flit lp h)

/-- ARG of a memory or engine event is its stack or cluster (R406). -/
def argIsUnit (event : Nat) : Bool := event == 0x2001 || event == 0x2002 || 0x100 ≤ event % 0x1000

/-- An event of the memory or of the engine on a unit gives the context of the counters of that kind that watch it (R415). -/
def State.ctxUnit (s : State) (kind unit : Nat) (x : SampleCtx) : State :=
  s.noteCtx (fun n =>
    let e := s.eventEntry n
    let code := bitsAt e 63 48
    (skidOf code).1 == kind && (!argIsUnit code || bitsAt e 31 24 == 0xFF || bitsAt e 31 24 == unit)) x

/-- Count a port event of a logical port; a port under test counts nothing (R418). -/
def State.countLp (s : State) (lp code : Nat) (cls arg : Option Nat) (n : Nat) : State :=
  if s.underTest (lpPort lp) then s
  else s.countAt ((List.range 16).map (16 * lpPort lp + ·)) code (some (lp % 2)) cls arg n

/-- Count a port event that belongs to no logical port. -/
def State.countPort (s : State) (port code : Nat) (arg : Option Nat) (n : Nat) : State :=
  if s.underTest port then s
  else s.countAt ((List.range 16).map (16 * port + ·)) code none none arg n

/-- The global counters whose entry is not NONE: 0 to 15 and those the table lists (R405). -/
def State.globalCounters (s : State) : List Nat :=
  (List.range 16).map (1024 + ·) ++ (s.tables.events.map (·.1)).filter fun k => decide (1040 ≤ k)

/-- Count a global event; nothing counts while TP-94 is under test (R418). -/
def State.countGlobal (s : State) (code : Nat) (cls arg : Option Nat) (n : Nat) : State :=
  if s.underTest 94 then s else s.countAt s.globalCounters code none cls arg n

/-- An egress slot that carried a flit: its heading and SLOTS_TOTAL (R407; log entry 15). -/
def State.countSlots (s : State) (lp heading : Nat) (arg : Option Nat) (n : Nat) : State :=
  (s.countLp lp heading none arg n).countLp lp 0x0200 none none n

/-! ## Attention and interrupts (R417, R430, R431) -/

/-- Set causes in ATTN_CAUSE; a cause enabled in IBI_EN that goes from clear to set makes an interrupt due (R430, R431). -/
def State.attend (s : State) (m : BitVec 8) : State :=
  { s with side := { s.side with
      attn := s.side.attn ||| m
      ibiDue := s.side.ibiDue || decide (m &&& ~~~s.side.attn &&& s.side.ibiEn ≠ 0) } }

/-- MSI-X vector v when IRQ_EN = 1 (R71, R96, R417). -/
def State.msix (s : State) (v : Nat) : State := if s.ring.irqEn then s.emit (.msix v) else s

/-- A change of the wear record sets WEAR, LAST_CHANGE and CHANGES (R400, R431). -/
def State.roleChanged (s : State) : State :=
  { s with bist := { s.bist with lastChange := s.beat.count, changes := satAdd 0xFFFF s.bist.changes 1 } }.attend 0x40

/-- A stripe entered or left UP, or a width or spare role of the port changed (R431, R440). -/
def State.linkChanged (s : State) (port : Nat) : State :=
  { s with side := { s.side with linkChange := s.side.linkChange ||| (1 <<< port) } }.attend 0x08

/-- The presence of a port changed (R433, R440). -/
def State.presenceChanged (s : State) (port : Nat) : State :=
  { s with side := { s.side with presChange := s.side.presChange ||| (1 <<< port) } }.attend 0x10

/-! ## Notices (R55, R96) -/

def State.queue (s : State) (pair : Nat) : NoticeQueue := sget s.mgmt.notices pair defaultQueue

/-- Queue a notice record for a pair (R96, R431). -/
def State.notice (s : State) (pair : Nat) (n : Notice) : State :=
  let q := s.queue pair
  let full := decide (16 ≤ q.records.length)
  let q' : NoticeQueue :=
    { records := (if full then q.records.drop 1 else q.records) ++ [n]
      lost := if full then satAdd 255 q.lost 1 else q.lost }
  let s' := { s with mgmt := { s.mgmt with notices := sput s.mgmt.notices pair q' defaultQueue } }
  if !q.records.isEmpty then s'
  else if pair = 0 then s'.msix 1
  else if pair = 1 then s'.attend 0x01
  else if pair = 2 then s'.attend 0x02
  else s'

/-! ## Replies (R61 to R78, R85) -/

/-- The bytes of a reply, with its PHASE bit (R61, R75). -/
def replyBytes (phase : Bool) (r : Reply) : Bytes :=
  let len := 32 + r.data.length + r.tag.length
  leBytes 1 1 ++ leBytes 1 (b2n (!r.tag.isEmpty) + 128 * b2n phase) ++ leBytes 2 r.opcode.toNat ++ leBytes 4 r.cmd.seq.toNat
    ++ leBytes 2 r.cmd.echo.toNat ++ leBytes 2 len
    ++ leBytes 1 r.status.toNat ++ leBytes 1 (2 * b2n r.replayed) ++ leBytes 2 r.detail.toNat
    ++ leBytes 8 r.cmd.correl.toNat ++ leBytes 6 r.doneBeat.toNat ++ zeros 2 ++ r.data ++ r.tag

/-- The 12 IV bytes of R84. -/
def gcmIv (c : Cmd) (isReply : Bool) (epoch : BitVec 48) : Bytes :=
  leBytes 4 c.seq.toNat ++ leBytes 1 (srcCode c.src + 4 * b2n isReply) ++ leBytes 1 (c.origin % 256)
    ++ leBytes 6 epoch.toNat

/-- The key bytes of a slot: byte 0 first (R116). -/
def keyBytes (k : KeySlot) : Bytes := leBytes 32 k.key.toNat

/-- The reply with its tag, made under the slot's key over the reply up to its tag with AUTH = 1, its PHASE and the full
LENGTH, STATUS flags taken as zero (R85). -/
def tagReply (k : KeySlot) (phase : Bool) (r : Reply) : Reply :=
  let shell := { r with tag := zeros 16, replayed := false }
  let body := (replyBytes phase shell).take (32 + r.data.length)
  { r with tag := gcmTag (keyBytes k) (gcmIv r.cmd true k.epoch) body }

/-- A PENDING reply (R61, R75, R78). -/
def pendingReply (c : Cmd) (op : BitVec 16) : Reply :=
  { opcode := op, cmd := c, status := stPending, replayed := false, detail := 0, doneBeat := 0, data := [], tag := [] }

/-- PCIe ring size N (R71). -/
def State.ringSize (s : State) : Nat := 2 ^ s.ring.slotsLog2

/-- PHASE of the reply of PCIe command i; zero for the other sources (R61, R75). -/
def State.replyPhase (s : State) (c : Cmd) : Bool :=
  match c.src with
  | .pcie => bitAt (c.index / s.ringSize) 0
  | _ => false

/-- A reply completed: MSI-X vector 0, at most once per holdoff gap (R71). -/
def State.replyIrq (s : State) : State :=
  if !s.ring.irqEn then s
  else if s.ring.gapRuns then { s with ring := { s.ring with irqWaits := true } }
  else { s with ring := { s.ring with gapRuns := decide (s.ring.holdoff ≠ 0) } }.emit (.msix 0)

/-- The host has advanced DONE past command i (R76). -/
def State.consumed (s : State) (i : Nat) : Bool :=
  decide ((s.ring.done.toNat + 2 ^ 32 - 1 - i % 2 ^ 32) % 2 ^ 32 < 2 ^ 31)

def defaultSlot : RingSlot :=
  { index := 0, phase := false,
    reply := pendingReply { src := .pcie, origin := 0, seq := 0, auth := false, keySlot := 0, echo := 0, correl := 0, index := 0 } 0 }

/-- Write reply slot i mod N (R75, R76). -/
def State.writeSlot (s : State) (i : Nat) (r : Reply) : State :=
  let slot : RingSlot := { index := i, reply := r, phase := bitAt (i / s.ringSize) 0 }
  { s with ring := { s.ring with slots := sput s.ring.slots (i % s.ringSize) slot defaultSlot } }

/-- Remove the first element that satisfies p. -/
def dropFirst {α : Type} (p : α → Bool) : List α → List α
  | [] => []
  | a :: r => if p a then r else a :: dropFirst p r

/-- Places of a pair's reply store (R69). -/
def storePlaces (pair : Nat) : Nat := if pair = 1 then 8 else if pair = 2 then 4 else 16

/-- Put r in place of a PENDING reply of the pair with the same SEQ, the first after `skip` of them; none when the store has no
such place (R70, R78). -/
def fillPending (pair : Nat) (r : Reply) (dup : Bool) : Nat → List Stored → Option (List Stored)
  | _, [] => none
  | skip, e :: rest =>
    if e.pair = pair ∧ e.reply.status = stPending ∧ e.reply.cmd.seq = r.cmd.seq then
      match skip with
      | 0 => some ({ e with reply := r, dup := dup } :: rest)
      | k + 1 => (fillPending pair r dup k rest).map (e :: ·)
    else (fillPending pair r dup skip rest).map (e :: ·)

/-- Take a place for the reply of a bus command that has been taken (R70): a reply already read is dropped when the store is
full. -/
def takePlace (pair : Nat) (r : Reply) (dup : Bool) (l : List Stored) : List Stored :=
  let full := decide (storePlaces pair ≤ (l.filter fun e => e.pair == pair).length)
  (if full then dropFirst (fun e => e.pair == pair && e.read) l else l)
    ++ [{ pair := pair, reply := r, read := false, dup := dup }]

/-- The store with the completed reply of a bus command: in the place it took when it was taken, else in a place of its own. A
deferred command of the same SEQ keeps its earlier place (R70, R78). -/
def storeBus (pair skip : Nat) (r : Reply) (dup : Bool) (l : List Stored) : List Stored :=
  (fillPending pair r dup skip l).getD (takePlace pair r dup l)

/-- A new reply in a TC7 store, of which the oldest is dropped when it is full (R69). -/
def storeTc7 (pair : Nat) (r : Reply) (l : List Stored) : List Stored :=
  let full := decide (16 ≤ (l.filter fun e => e.pair == pair).length)
  (if full then dropFirst (fun e => e.pair == pair) l else l)
    ++ [{ pair := pair, reply := r, read := true, dup := false }]

/-- A frame of a local agent toward a logical port: 0 memory, 1 collective, 2 management (R146). -/
def agentFrame (agent lp tc ftype : Nat) (thl : Nat) (dest : BitVec 16) (src : BitVec 16) (fseq : Nat)
    (content : Bytes) : AgentFrame :=
  let flits := (content.length + 239) / 240
  { agent := agent, lp := lp, content := content, sid := 0, epoch := 0, chunk := 0, fails := 0, result := false,
    hdr := { pos := 0, tc := BitVec.ofNat 3 tc, ftype := BitVec.ofNat 4 ftype, flits := BitVec.ofNat 5 (flits - 1),
             thl := BitVec.ofNat 4 thl, stomp := 0, rsvd := 0,
             lastBytes := BitVec.ofNat 8 (content.length - 240 * (flits - 1)), dest := dest, src := src,
             fseq := BitVec.ofNat 16 fseq, link := 0 } }

/-- The hold state of a logical port (R165, R181). -/
def State.holdOf (s : State) (lp : Nat) : HoldSt :=
  match lpSide lp with
  | .a => (s.recovOf (lpPort lp)).stA
  | .b => (s.recovOf (lpPort lp)).stB

/-- A frame of a local agent joins its queue; toward an ENDED LP it is discarded (R169). -/
def State.sendAgent (s : State) (f : AgentFrame) : State :=
  if s.holdOf f.lp = .ended then s else { s with sw := { s.sw with agentOut := s.sw.agentOut ++ [f] } }

/-- Reply slot i mod N belongs by now to a command fetched later than i (R76). -/
def State.slotTaken (s : State) (i : Nat) : Bool :=
  let k := (sget s.ring.slots (i % s.ringSize) defaultSlot).index
  s.ring.slots.any (fun e => e.1 == i % s.ringSize) && k != i && decide ((k + 2 ^ 32 - i % 2 ^ 32) % 2 ^ 32 < 2 ^ 31)

/-- The deferred commands of a pair that have a SEQ (R66). -/
def State.deferredSeq (s : State) (pair : Nat) (seq : BitVec 32) : Nat :=
  (s.mgmt.deferred.filter fun d => pairOf d.cmd.src d.cmd.origin == pair && d.cmd.seq == seq).length

/-- Deliver a completed reply on the path of its source (R69, R75 to R78). -/
def State.deliver (s : State) (r : Reply) (dup : Bool) : State :=
  let c := r.cmd
  match c.src with
  | .pcie =>
    if s.slotTaken c.index then s
    else
      let r' := { r with replayed := r.replayed || s.consumed c.index }
      (s.writeSlot c.index r').replyIrq
  | .tc7 =>
    let (w, s) := s.draw
    let s := s.sendAgent (agentFrame 2 c.origin 7 7 0 (w.truncate 16) s.side.fabricId 0 (replyBytes false r))
    if dup then s
    else { s with mgmt := { s.mgmt with stores := storeTc7 (pairOf .tc7 c.origin) r s.mgmt.stores } }
  | src =>
    let pair := pairOf src c.origin
    { s with mgmt := { s.mgmt with stores := storeBus pair (s.deferredSeq pair c.seq) r dup s.mgmt.stores } }

/-- The DENIED_AUTH replies to a source (R82, R462). -/
def State.countDenied (s : State) (src : Src) : State :=
  { s with mgmt := { s.mgmt with
      authFails := sput s.mgmt.authFails (srcCode src) (satAdd 0xFFFFFFFF (sget s.mgmt.authFails (srcCode src) 0) 1) 0 } }

/-- Complete a command: its reply carries the beat count and a tag under the slot it was authenticated under while that slot is
the same; a command that is not refused is counted (R17, R61, R82, R85, R97, R406). -/
def State.completeAs (s : State) (dup : Bool) (c : Cmd) (op : BitVec 16) (keyKept : Bool) (st : BitVec 8) (detail : Nat)
    (data : Bytes) : State :=
  let r : Reply :=
    { opcode := op, cmd := c, status := st, replayed := false, detail := BitVec.ofNat 16 detail,
      doneBeat := s.beat.count, data := data, tag := [] }
  let r := if c.auth && keyKept && (s.key c.keySlot).loaded && st != stDeniedAuth then tagReply (s.key c.keySlot) (s.replyPhase c) r else r
  let s := if st = stDeniedAuth then s.countDenied c.src else s
  let s := s.deliver r dup
  if 0x10 ≤ st.toNat ∧ st.toNat ≤ 0x32 then s else s.countGlobal 0x4001 none (some (srcCode c.src)) 1

/-- Complete a command that was accepted in the sequence window. -/
def State.complete (s : State) (c : Cmd) (op : BitVec 16) (keyKept : Bool) (st : BitVec 8) (detail : Nat)
    (data : Bytes) : State :=
  s.completeAs false c op keyKept st detail data

/-- The reply of an immediate command (R66). -/
def State.reply (s : State) (c : Cmd) (op : BitVec 16) (st : BitVec 8) (detail : Nat) (data : Bytes) : State :=
  s.complete c op true st detail data
def State.ok (s : State) (c : Cmd) (op : BitVec 16) (data : Bytes) : State := s.reply c op stOk 0 data
def State.deny (s : State) (c : Cmd) (op : BitVec 16) (st : BitVec 8) (detail : Nat) : State := s.reply c op st detail []

/-- Leave a deferred command outstanding (R66). -/
def State.defer (s : State) (c : Cmd) (op : BitVec 16) (w : Work) : State :=
  { s with mgmt := { s.mgmt with
      deferred := s.mgmt.deferred ++ [{ cmd := c, opcode := op, keyKept := true, work := w }] } }

/-- End the first deferred command that satisfies p (R66). -/
def State.finishWork (s : State) (p : Work → Bool) (st : BitVec 8) (detail : Nat) (data : Bytes) : State :=
  match s.mgmt.deferred.find? (fun d => p d.work) with
  | none => s
  | some d =>
    let s := { s with mgmt := { s.mgmt with deferred := dropFirst (fun d => p d.work) s.mgmt.deferred } }
    s.complete d.cmd d.opcode d.keyKept st detail data

/-- End every deferred command that satisfies p, oldest first. -/
def State.finishAll (s : State) (p : Work → Bool) (st : BitVec 8) (detail : Nat) : State :=
  (s.mgmt.deferred.filter fun d => p d.work).foldl (fun s _ => s.finishWork p st detail []) s

/-- Replies fit the limit of their source (R95). -/
def State.replyLimit (s : State) : Src → Nat
  | .pcie => if s.ring.replySlot = 0 then 256 else if s.ring.replySlot = 1 then 1024 else 4096
  | .sb => 512
  | _ => 4096
/-- Whether a reply with n bytes of data fits (R95). -/
def State.fits (s : State) (c : Cmd) (n : Nat) : Bool := 32 + n + 16 * b2n c.auth ≤ s.replyLimit c.src

/-- A source permission mask by SRC_KIND (R92): bit 0 P, 1 T, 2 I, 3 S. -/
def permits (m : Nat) (src : Src) : Bool := bitAt m (srcCode src)
def srcAll : Nat := 15
def srcSIP : Nat := 13
def srcSI : Nat := 12

end Sys2Proof.Machine
end

