-- ==== Sys2Proof/Machine/Tables.lean ====
section
/-! DEFINITION. The nine tables: sizes (R87), entry layouts, reset contents and the live entry of an index. -/

namespace Sys2Proof.Machine

/-- Entries of a table by its ID (R127, R128, R129, R294, R311, R327, R363, R386, R403). -/
def tableSize : Nat → Nat
  | 1 => 8192
  | 2 => 4096
  | 3 => 1024
  | 4 => 272
  | 5 => 64
  | 6 => 16
  | 7 => 16
  | 8 => 96
  | 9 => 1280
  | _ => 0

/-- Bytes of an entry of a table. -/
def entrySize : Nat → Nat
  | 2 => 32
  | 4 => 4
  | 6 => 4
  | _ => 8

/-- Whether the table ID is defined (R87). -/
def tableDefined (t : Nat) : Bool := 1 ≤ t && t ≤ 9

/-- An entry from a number. -/
def mkEntry (n : Nat) : Entry := BitVec.ofNat 256 n

/-- CLASS entry at reset (R128). -/
def classReset (n : Nat) : Entry :=
  if n % 8 = 7 then mkEntry ((1 <<< 62) + (3 <<< 60) + (0x20 <<< 32) + (0x800 <<< 16))
  else mkEntry ((0x80 <<< 32) + (0x800 <<< 16))

/-! ### The 8b/10b data code (R295; log entry 13, PRESUMED) -/

/-- The six-bit groups at negative disparity, bit a first. -/
def sixBit : List Nat :=
  [0b100111, 0b011101, 0b101101, 0b110001, 0b110101, 0b101001, 0b011001, 0b111000,
   0b111001, 0b100101, 0b010101, 0b110100, 0b001101, 0b101100, 0b011100, 0b010111]
  ++ [0b011011, 0b100011, 0b010011, 0b110010, 0b001011, 0b101010, 0b011010, 0b111010,
   0b110011, 0b100110, 0b010110, 0b110110, 0b001110, 0b101110, 0b011110, 0b101011]

/-- The four-bit groups at negative disparity, bit f first. -/
def fourBit : List Nat := [0b1011, 0b1001, 0b0101, 0b1100, 0b1101, 0b1010, 0b0110, 0b1110]

/-- Whether a six-bit group at negative disparity changes to its complement at positive disparity. -/
def sixFlips (x : Nat) : Bool := popCount 6 (sixBit.getD x 0) == 4 || x == 7

/-- The code group of Dx.y at a disparity. -/
def dataCode (byte : Nat) (pos : Bool) : Nat :=
  let x := byte % 32
  let y := byte / 32
  let six := if pos && sixFlips x then 0x3F ^^^ sixBit.getD x 0 else sixBit.getD x 0
  let mid := if popCount 6 six = 4 then true else if popCount 6 six = 2 then false else pos
  let alt := y == 7 && ((!mid && [17, 18, 20].contains x) || (mid && [11, 13, 14].contains x))
  let four0 := if alt then 0b0111 else fourBit.getD y 0
  let flips := y == 0 || y == 3 || y == 4 || y == 7
  let four := if mid && flips then 0xF ^^^ four0 else four0
  (six <<< 4) + four

/-- The control codes at reset, RDN then RDP (R295). -/
def controlCodes : List (Nat × Nat) :=
  [(0x0FA, 0x305), (0x0F9, 0x306), (0x0F6, 0x309), (0x0F3, 0x30C), (0x0F4, 0x30B), (0x0FA, 0x305), (0x368, 0x097),
   (0x2E8, 0x117), (0x1E8, 0x217), (0x0F5, 0x30A), (0x0F2, 0x30D), (0x3A8, 0x057)]

/-- LINECODE entry at reset (R294, R295): the codes of C9 to C11 are those "when loaded", so at reset they are zero with
VALID = 0. -/
def linecodeReset (n : Nat) : Entry :=
  if n < 256 then mkEntry ((1 <<< 31) + (dataCode n false <<< 10) + dataCode n true)
  else if n < 265 then
    mkEntry ((1 <<< 31) + ((controlCodes.getD (n - 256) (0, 0)).1 <<< 10) + (controlCodes.getD (n - 256) (0, 0)).2)
  else 0

/-- EQ_PRESET entry at reset (R311). -/
def eqReset (n : Nat) : Entry :=
  if n = 0 then presetReset else mkEntry ((0xFF <<< 52) + (0xFF <<< 36))

/-- Least, greatest and reset value of each TRAIN_TIMING index (R328). -/
def timingRange : List (Nat × Nat × Nat) :=
  [(10, 10000, 100), (100, 65535, 2000), (1, 1000, 10), (1, 1000, 20), (4, 64, 8), (4, 256, 16), (4, 64, 16),
   (2, 64, 4), (1, 65535, 1), (1, 65535, 256), (1, 4096, 16), (1, 255, 32), (16, 4096, 64), (2, 16, 4), (1, 64, 8),
   (500, 65535, 4000)]
def timingReset (n : Nat) : Entry := mkEntry (timingRange.getD n (0, 0, 0)).2.2

/-- K_MAX, VCORE_MV and P_BUDGET of the valid POWER_CURVE entries at reset (R363). -/
def curveRows : List (Nat × Nat × Nat) :=
  [(8, 620, 815), (9, 635, 879), (10, 650, 948), (11, 665, 1022), (12, 680, 1101), (13, 695, 1186), (14, 710, 1276),
   (15, 730, 1384), (16, 750, 1500)]
def curveReset (n : Nat) : Entry :=
  if n < 9 then
    let r := curveRows.getD n (0, 0, 0)
    mkEntry ((1 <<< 63) + (r.1 <<< 48) + (r.2.1 <<< 32) + (r.2.2 <<< 16))
  else 0

/-- SLOT, LEN_BEATS and P_TEST of a BIST_STAGGER entry at reset (R387). -/
def staggerRow (n : Nat) : Nat × Nat × Nat :=
  if n < 64 then (n / 8, 1152, 8)
  else if n < 90 then (8 + (n - 64) / 2, 576, 27)
  else if n < 92 then (21 + (n - 90), 3072, 36)
  else if n < 94 then (23 + (n - 92), 2304, 30)
  else (25, 4608, 600)
def staggerReset (n : Nat) : Entry :=
  if n < 95 then
    let r := staggerRow n
    mkEntry ((1 <<< 63) + (r.1 <<< 57) + (r.2.1 <<< 32) + (r.2.2 <<< 16))
  else 0

/-- Entry n of a table at reset (R455). -/
def entryReset (t n : Nat) : Entry :=
  match t with
  | 3 => classReset n
  | 4 => linecodeReset n
  | 5 => eqReset n
  | 6 => timingReset n
  | 7 => curveReset n
  | 8 => staggerReset n
  | 9 => eventEntryReset n
  | _ => 0

/-- The stored entries of a table. -/
def Tables.map (x : Tables) : Nat → SMap Entry
  | 1 => x.route
  | 2 => x.mcast
  | 3 => x.cls
  | 4 => x.linecode
  | 5 => x.eq
  | 6 => x.timing
  | 7 => x.curve
  | 8 => x.stagger
  | 9 => x.events
  | _ => []

/-- The tables with the stored entries of table t replaced. -/
def Tables.setMap (x : Tables) (t : Nat) (m : SMap Entry) : Tables :=
  match t with
  | 1 => { x with route := m }
  | 2 => { x with mcast := m }
  | 3 => { x with cls := m }
  | 4 => { x with linecode := m }
  | 5 => { x with eq := m }
  | 6 => { x with timing := m }
  | 7 => { x with curve := m }
  | 8 => { x with stagger := m }
  | 9 => { x with events := m }
  | _ => x

/-- The live entry of a table. -/
def State.entry (s : State) (t n : Nat) : Nat := (sget (s.tables.map t) n (entryReset t n)).toNat

/-- The state with a live entry written. -/
def State.setEntry (s : State) (t n : Nat) (e : Entry) : State :=
  { s with tables := s.tables.setMap t (sput (s.tables.map t) n e (entryReset t n)) }

/-! ### Fields of live entries -/

def State.mgMembers (s : State) (mg : Nat) : Nat := bitsAt (s.entry 2 mg) 127 0
def State.mgValid (s : State) (mg : Nat) : Bool := bitAt (s.entry 2 mg) 191
def State.mgSelf (s : State) (mg : Nat) : Bool := bitAt (s.entry 2 mg) 190
def State.mgAllow (s : State) (mg tc : Nat) : Bool := bitAt (s.entry 2 mg) (176 + tc)
def State.clsMode (s : State) (lp tc : Nat) : Nat := bitsAt (s.entry 3 (8 * lp + tc)) 63 62
def State.clsPrio (s : State) (lp tc : Nat) : Nat := bitsAt (s.entry 3 (8 * lp + tc)) 61 60
def State.clsGuar (s : State) (k : Nat) : Nat := bitsAt (s.entry 3 k) 47 32
def State.clsCap (s : State) (k : Nat) : Nat := bitsAt (s.entry 3 k) 31 16
def State.timing (s : State) (i : Nat) : Nat := bitsAt (s.entry 6 i) 31 0
def State.curveValid (s : State) (e : Nat) : Bool := e < 16 && bitAt (s.entry 7 e) 63
def State.curveK (s : State) (e : Nat) : Nat := bitsAt (s.entry 7 e) 52 48
def State.curveMv (s : State) (e : Nat) : Nat := bitsAt (s.entry 7 e) 47 32
def State.curveBudget (s : State) (e : Nat) : Nat := bitsAt (s.entry 7 e) 31 16
/-- The highest valid power curve entry (R365). -/
def State.curveTop (s : State) : Nat := ((List.range 16).filter s.curveValid).getLastD 0

/-- The holder of a table (R79, R80). -/
def State.tableHolder (s : State) (t : Nat) : Option (Src × Nat) := sget s.mgmt.tableHolds t none
/-- The holder of a control-word block (R79, R80). -/
def State.blockHolder (s : State) (b : Nat) : Option (Src × Nat) := sget s.mgmt.blockHolds b none

end Sys2Proof.Machine
end

