-- ==== Sys2Proof/Machine/Operands.lean ====
section
/-! DEFINITION. The operand forms: command packets (R59, R60), TARGET_SPEC (R94), the parameters of every opcode (R98 to
R118) with their reserved fields, flit headers (R121) and frames. -/

namespace Sys2Proof.Machine

/-! ## Packets -/

/-- The header of a packet as the fields its reply echoes (R59, R61), for the source and origin that delivered it; bytes
that a packet of fewer than 32 does not have echo as zero (log entry 69). -/
def parseCmd (src : Src) (origin index : Nat) (b : Bytes) : Cmd :=
  { src := src, origin := origin, seq := BitVec.ofNat 32 (byteField b 4 4), auth := bitAt (byteField b 1 1) 0,
    keySlot := byteField b 9 1 % 8, echo := BitVec.ofNat 16 (byteField b 8 2), correl := BitVec.ofNat 64 (byteField b 16 8), index := index }

def pktOpcode (b : Bytes) : Nat := byteField b 2 2
def pktLength (b : Bytes) : Nat := byteField b 10 2
def pktFence (b : Bytes) : Bool := bitAt (byteField b 1 1) 1

/-- The first byte offset of a reserved header field that is not zero (R9, R59). -/
def hdrReserved (b : Bytes) : Option Nat :=
  if byteField b 1 1 / 4 ≠ 0 then some 1
  else if byteField b 9 1 / 8 ≠ 0 then some 9
  else if byteField b 14 2 ≠ 0 then some 14
  else if byteField b 24 8 ≠ 0 then some 24
  else none

/-- TARGET_SPEC by field (R94). -/
def parseSpec (n : Nat) : TargetSpec :=
  { next := bitAt n 63, latePol := bitAt n 62, notify := bitAt n 61, target := BitVec.ofNat 48 n }

/-- The reserved bits of a TARGET_SPEC are zero (R94). -/
def specOk (n : Nat) : Bool := bitsAt n 60 48 == 0

/-! ## The opcodes (R98 to R118) -/

/-- A row of the catalogue: code, sources by SRC_KIND bit (R92), least and greatest parameter length with the fixed lengths
rounded up to a multiple of 4 (R60; log entry 14), and whether the length is variable. -/
structure OpRow where
  code : Nat
  sources : Nat
  least : Nat
  most : Nat
  deriving DecidableEq, Repr

def opRows0 : List OpRow :=
  [⟨0x0000, 15, 0, 0⟩, ⟨0x0001, 15, 8, 8⟩, ⟨0x0002, 15, 24, 272⟩, ⟨0x0003, 15, 24, 24⟩, ⟨0x0008, 15, 4, 4⟩,
   ⟨0x0100, 15, 8, 8⟩, ⟨0x0101, 15, 12, 4064⟩, ⟨0x0102, 15, 4, 4⟩, ⟨0x0103, 15, 16, 16⟩, ⟨0x0104, 15, 4, 4⟩,
   ⟨0x0105, 15, 12, 12⟩, ⟨0x0106, 15, 4, 4⟩, ⟨0x0107, 15, 4, 4⟩, ⟨0x0108, 15, 4, 4⟩, ⟨0x0109, 15, 4, 4⟩,
   ⟨0x0200, 15, 0, 0⟩, ⟨0x0201, 12, 16, 16⟩, ⟨0x0202, 12, 16, 16⟩, ⟨0x0210, 15, 32, 32⟩, ⟨0x0211, 15, 4, 4⟩,
   ⟨0x0212, 15, 4, 4⟩]
def opRows1 : List OpRow :=
  [⟨0x0300, 15, 4, 4⟩, ⟨0x0301, 13, 4, 4⟩, ⟨0x0302, 13, 4, 4⟩, ⟨0x0303, 15, 4, 4⟩, ⟨0x0304, 13, 8, 8⟩,
   ⟨0x0305, 13, 4, 4⟩, ⟨0x0306, 13, 4, 4⟩, ⟨0x0307, 13, 4, 4⟩, ⟨0x0310, 15, 8, 8⟩, ⟨0x0311, 13, 12, 136⟩,
   ⟨0x0400, 15, 0, 0⟩, ⟨0x0401, 15, 4, 4⟩, ⟨0x0402, 15, 4, 4⟩, ⟨0x0403, 13, 4, 4⟩, ⟨0x0404, 13, 4, 4⟩,
   ⟨0x0500, 15, 0, 0⟩, ⟨0x0501, 15, 16, 16⟩, ⟨0x0502, 15, 8, 8⟩, ⟨0x0503, 13, 24, 24⟩, ⟨0x0504, 15, 12, 12⟩,
   ⟨0x0505, 13, 80, 2064⟩, ⟨0x0507, 15, 4, 4⟩]
def opRows2 : List OpRow :=
  [⟨0x0600, 15, 28, 28⟩, ⟨0x0601, 15, 4, 4⟩, ⟨0x0602, 15, 4, 4⟩, ⟨0x0603, 15, 4, 4⟩, ⟨0x0604, 15, 0, 0⟩,
   ⟨0x0700, 15, 0, 0⟩, ⟨0x0701, 12, 4, 4⟩, ⟨0x0702, 3, 4, 4⟩, ⟨0x0703, 15, 4, 4⟩, ⟨0x0800, 13, 24, 24⟩,
   ⟨0x0801, 15, 4, 4⟩, ⟨0x0802, 13, 4, 4⟩, ⟨0x0803, 15, 0, 0⟩, ⟨0x0804, 13, 4, 4⟩, ⟨0x0900, 15, 8, 8⟩,
   ⟨0x0901, 15, 8, 8⟩, ⟨0x0902, 15, 8, 8⟩, ⟨0x0903, 15, 16, 16⟩, ⟨0x0904, 15, 4, 4⟩, ⟨0x0A00, 15, 48, 48⟩,
   ⟨0x0A01, 15, 4, 4⟩, ⟨0x0A02, 15, 0, 0⟩, ⟨0x0A03, 15, 4, 4⟩, ⟨0x0A04, 12, 16, 16⟩, ⟨0x0A05, 15, 0, 0⟩,
   ⟨0x0F00, 13, 4, 4⟩, ⟨0x0F01, 15, 0, 0⟩]
def opRows : List OpRow := opRows0 ++ opRows1 ++ opRows2

def opRow (op : Nat) : Option OpRow := opRows.find? fun r => r.code == op

/-- DETAIL of BAD_LENGTH for an opcode: the packet length it expects, or 0xFFFF (R62), as for one that is not defined (log entry
69). -/
def expectLength (op : Nat) (auth : Bool) : Nat :=
  match opRow op with
  | none => 0xFFFF
  | some r => if r.least = r.most then 32 + r.least + 16 * b2n auth else 0xFFFF

/-- Whether the source may issue the opcode with these parameters (R92, R118: PCIe resets scopes 1 and 4 only). -/
def sourceMay (op : Nat) (src : Src) (p : Bytes) : Bool :=
  match opRow op with
  | none => false
  | some r =>
    permits r.sources src
      && !(op == 0x0F00 && src == .pcie && byteField p 0 1 != 1 && byteField p 0 1 != 4)

/-- The parameter length fits the opcode; a variable length agrees with its count (R60, R63 step 6). -/
def lengthOk (op : Nat) (p : Bytes) : Bool :=
  match opRow op with
  | none => false
  | some r =>
    let n := p.length
    let count := byteField p 4 2
    if r.least = r.most then n == r.least
    else r.least ≤ n && n ≤ r.most
      && (match op with
          | 0x0002 => count == 0 || 32 < count || n == 16 + 8 * count
          | 0x0311 => byteField p 6 2 == 0 || 128 < byteField p 6 2 || n == 8 + 4 * ((byteField p 6 2 + 3) / 4)
          | 0x0505 => let c := byteField p 8 2; c < 64 || 2048 < c || c % 64 != 0 || n == 16 + c
          | _ => n % 4 == 0)

/-- The reserved runs (offset, length) of an opcode's parameters, pad bytes included (R92). -/
def reservedRuns (op : Nat) (n : Nat) (p : Bytes) : List (Nat × Nat) :=
  match op with
  | 0x0001 => [(6, 2)]
  | 0x0002 => [(6, 2)]
  | 0x0003 => [(4, 4)]
  | 0x0008 => [(1, 3)]
  | 0x0100 => [(1, 3)]
  | 0x0103 => [(4, 4)]
  | 0x0105 => [(1, 3), (10, 2)]
  | 0x0106 => [(1, 3)]
  | 0x0107 => [(2, 2)]
  | 0x0108 => [(2, 2)]
  | 0x0109 => [(2, 2)]
  | 0x0201 => [(1, 7)]
  | 0x0202 => [(1, 7)]
  | 0x0210 => [(1, 7)]
  | 0x0300 => [(1, 3)]
  | 0x0301 => [(3, 1)]
  | 0x0302 => [(3, 1)]
  | 0x0303 => [(1, 3)]
  | 0x0304 => [(5, 3)]
  | 0x0305 => [(3, 1)]
  | 0x0306 => [(3, 1)]
  | 0x0307 => [(3, 1)]
  | 0x0310 => [(3, 1)]
  | 0x0311 => let c := byteField p 6 2; [(3, 1), (8 + c, n - (8 + c))]
  | 0x0401 => [(3, 1)]
  | 0x0402 => [(1, 3)]
  | 0x0404 => [(1, 3)]
  | 0x0504 => [(10, 2)]
  | 0x0505 => [(10, 6)]
  | 0x0507 => [(1, 3)]
  | 0x0600 => [(5, 3)]
  | 0x0601 => [(3, 1)]
  | 0x0602 => [(2, 2)]
  | 0x0603 => [(2, 2)]
  | 0x0701 => [(2, 2)]
  | 0x0702 => [(2, 2)]
  | 0x0703 => [(1, 3)]
  | 0x0800 => [(12, 4)]
  | 0x0801 => [(1, 3)]
  | 0x0802 => [(1, 3)]
  | 0x0804 => [(1, 1)]
  | 0x0900 => [(1, 1), (6, 2)]
  | 0x0901 => [(1, 1), (6, 2)]
  | 0x0902 => [(1, 3)]
  | 0x0903 => [(1, 1), (13, 3)]
  | 0x0904 => [(1, 3)]
  | 0x0A00 => [(3, 1), (10, 6)]
  | 0x0A01 => [(1, 3)]
  | 0x0A03 => [(1, 3)]
  | 0x0F00 => [(2, 2)]
  | _ => []

/-- The offset of TARGET_SPEC in the parameters of a B opcode (R94). -/
def specOffset (op : Nat) : Option Nat :=
  if op = 0x0800 then some 16
  else if [0x0002, 0x0103, 0x0201, 0x0202, 0x0210].contains op then some 8
  else none

/-- Whether a bit mask byte or parameter word of the opcode has reserved bits set, with its offset (R100 to R118). -/
def reservedBits (op : Nat) (p : Bytes) : Option Nat :=
  let b (off : Nat) := byteField p off 1
  match op with
  | 0x0600 => if b 4 / 4 ≠ 0 then some 4 else none
  | 0x0703 => if b 0 / 2 ≠ 0 then some 0 else none
  | 0x0A00 => if b 1 / 16 ≠ 0 then some 1 else if b 2 / 2 ≠ 0 then some 2 else none
  | 0x0A03 => if b 0 / 16 ≠ 0 then some 0 else none
  | 0x0F00 => if b 0 ≠ 1 ∧ b 1 ≠ 0 then some 1 else none
  | _ => none

/-- The least of two optional offsets. -/
def minOff : Option Nat → Option Nat → Option Nat
  | none, y => y
  | x, none => x
  | some x, some y => some (min x y)

/-- The first offset in the parameters of a reserved field that is not zero (R63 step 7). -/
def paramReserved (op : Nat) (p : Bytes) : Option Nat :=
  let runs := (reservedRuns op p.length p).filter fun r => byteField p r.1 r.2 != 0
  let spec := match specOffset op with
    | some o => if specOk (byteField p o 8) then none else some o
    | none => none
  minOff (minOff ((runs.map (·.1)).head?) spec) (reservedBits op p)

/-- What the parameters of an opcode spell: a command, or the offset of a field that selects no row. -/
inductive Parsed where
  | row (i : Instr)
  | bad (off : Nat)
  deriving DecidableEq, Repr

/-- The command of an accepted packet of the groups 0x00 to 0x02. -/
def parseLow (c : Cmd) (op : Nat) (p : Bytes) : Option Parsed :=
  let f (off n : Nat) := byteField p off n
  let w (off : Nat) : Word := BitVec.ofNat 64 (f off 8)
  let h (off : Nat) : BitVec 16 := BitVec.ofNat 16 (f off 2)
  let d (off : Nat) : BitVec 32 := BitVec.ofNat 32 (f off 4)
  let b (off : Nat) : Byte := byteAt p off
  match op with
  | 0x0000 => some (.row (.identityRead c))
  | 0x0001 => some (.row (.cwRead c (d 0) (h 4)))
  | 0x0002 =>
    some (.row (.cwWrite c (d 0) (h 4) (parseSpec (f 8 8)) ((List.range ((p.length - 16) / 8)).map fun k => w (16 + 8 * k))))
  | 0x0003 => some (.row (.cwModify c (d 0) (w 8) (w 16)))
  | 0x0008 => some (.row (.noticeRead c (b 0)))
  | 0x0100 => some (.row (.tableImageOpen c (b 0) (d 4)))
  | 0x0101 => some (.row (.tableImageWrite c (d 0) (d 4) (p.drop 8)))
  | 0x0102 => some (.row (.tableImageSeal c (d 0)))
  | 0x0103 => some (.row (.tableStage c (d 0) (parseSpec (f 8 8))))
  | 0x0104 => some (.row (.tableImageDiscard c (d 0)))
  | 0x0105 => some (.row (.tableRead c (b 0) (d 4) (h 8)))
  | 0x0106 => some (.row (.tableStatus c (b 0)))
  | 0x0107 => some (.row (.tableImageList c (b 0) (b 1)))
  | 0x0108 => some (.row (.hold c (b 0) (b 1)))
  | 0x0109 => some (.row (.release c (b 0) (b 1)))
  | 0x0200 => some (.row (.beatStatusRead c))
  | 0x0201 => some (.row (.beatRootSet c (b 0) (parseSpec (f 8 8))))
  | 0x0202 => some (.row (.beatPeriodSet c (b 0) (parseSpec (f 8 8))))
  | 0x0210 =>
    match f 0 1 with
    | 2 => some (.row (.agendaStageCwWrite c (parseSpec (f 8 8)) (w 16) (w 24)))
    | 3 => some (.row (.agendaStagePowerStep c (parseSpec (f 8 8)) (w 16) (w 24)))
    | 4 => some (.row (.agendaStageBistStop c (parseSpec (f 8 8)) (w 16) (w 24)))
    | 5 => some (.row (.agendaStageBistStart c (parseSpec (f 8 8)) (w 16) (w 24)))
    | 8 => some (.row (.agendaStageMark c (parseSpec (f 8 8)) (w 16) (w 24)))
    | _ => some (.bad 0)
  | 0x0211 => some (.row (.agendaCancel c (h 0) (h 2)))
  | 0x0212 => some (.row (.agendaRead c (h 0) (h 2)))
  | _ => none

/-- The command of an accepted packet of the groups 0x03 to 0x05. -/
def parseMid (c : Cmd) (op : Nat) (p : Bytes) : Option Parsed :=
  let f (off n : Nat) := byteField p off n
  let w (off : Nat) : Word := BitVec.ofNat 64 (f off 8)
  let h (off : Nat) : BitVec 16 := BitVec.ofNat 16 (f off 2)
  let b (off : Nat) : Byte := byteAt p off
  match op with
  | 0x0300 => some (.row (.portStatus c (b 0)))
  | 0x0301 =>
    match f 1 1 with
    | 0 => some (.row (.portAdminDisable c (b 0) (b 2)))
    | 1 => some (.row (.portAdminEnable c (b 0) (b 2)))
    | 2 => some (.row (.portAdminRetrain c (b 0) (b 2)))
    | _ => some (.bad 1)
  | 0x0302 =>
    match f 2 1 with
    | 0 => some (.row (.portWake c (b 0) (b 1)))
    | 1 => some (.row (.portSleep c (b 0) (b 1)))
    | _ => some (.bad 2)
  | 0x0303 => some (.row (.laneStatus c (b 0)))
  | 0x0304 => some (.row (.eyeScan c (b 0) (b 1) (b 2) (b 3) (b 4)))
  | 0x0305 => some (.row (.eqOverride c (b 0) (b 1) (b 2)))
  | 0x0306 => some (.row (.spareSwap c (b 0) (b 1) (b 2)))
  | 0x0307 => some (.row (.spareRestore c (b 0) (b 1) (b 2)))
  | 0x0310 => some (.row (.cartRead c (b 0) (b 1) (b 2) (h 4) (h 6)))
  | 0x0311 => some (.row (.cartWrite c (b 0) (b 1) (b 2) (h 4) (h 6) (slice p 8 (f 6 2))))
  | 0x0400 => some (.row (.switchStatus c))
  | 0x0401 => some (.row (.voqRead c (b 0) (b 1) (b 2)))
  | 0x0402 => some (.row (.creditRead c (b 0)))
  | 0x0403 => some (.row (.portDrain c (b 0) (b 1) (h 2)))
  | 0x0404 => some (.row (.heldDiscard c (b 0)))
  | 0x0500 => some (.row (.memStatus c))
  | 0x0501 => some (.row (.memAlloc c (w 0) (w 8)))
  | 0x0502 => some (.row (.memFree c (w 0)))
  | 0x0503 => some (.row (.memFill c (w 0) (w 8) (w 16)))
  | 0x0504 => some (.row (.memRead c (w 0) (h 8)))
  | 0x0505 => some (.row (.memWrite c (w 0) (h 8) (p.drop 16)))
  | 0x0507 => some (.row (.eccLogRead c (b 0)))
  | _ => none

/-- The command of an accepted packet of the groups 0x06 to 0x0F. -/
def parseHigh (c : Cmd) (op : Nat) (p : Bytes) : Option Parsed :=
  let f (off n : Nat) := byteField p off n
  let h (off : Nat) : BitVec 16 := BitVec.ofNat 16 (f off 2)
  let d (off : Nat) : BitVec 32 := BitVec.ofNat 32 (f off 4)
  let b (off : Nat) : Byte := byteAt p off
  match op with
  | 0x0600 => some (.row (.sessionOpen c (h 0) (h 2) (b 4) (BitVec.ofNat 128 (f 8 16)) (d 24)))
  | 0x0601 =>
    match f 2 1 with
    | 0 => some (.row (.sessionClose c (h 0)))
    | 1 => some (.row (.sessionCloseForce c (h 0)))
    | _ => some (.bad 2)
  | 0x0602 => some (.row (.sessionStatus c (h 0)))
  | 0x0603 => some (.row (.sessionList c (h 0)))
  | 0x0604 => some (.row (.engineStatus c))
  | 0x0700 => some (.row (.powerStatus c))
  | 0x0701 => some (.row (.ceilingSet c (h 0)))
  | 0x0702 => some (.row (.hostRequestSet c (h 0)))
  | 0x0703 => some (.row (.telemetryRead c (b 0)))
  | 0x0800 => some (.row (.bistRun c (BitVec.ofNat 96 (f 0 12)) (parseSpec (f 16 8))))
  | 0x0801 => some (.row (.bistResult c (b 0)))
  | 0x0802 => some (.row (.bistAbort c (b 0)))
  | 0x0803 => some (.row (.spareStatus c))
  | 0x0804 =>
    match f 0 1 with
    | 1 => some (.row (.spareBringInStack c (h 2)))
    | 0 => some (.bad 0)
    | n => if n ≤ 4 then some (.row (.spareBringIn c (b 0) (h 2))) else some (.bad 0)
  | 0x0900 => some (.row (.ctrRead c (b 0) (h 2) (h 4)))
  | 0x0901 => some (.row (.ctrSelect c (b 0) (h 2) (h 4)))
  | 0x0902 => some (.row (.ctrWindowSet c (b 0) (d 4)))
  | 0x0903 => some (.row (.sampleConfig c (b 0) (h 2) (BitVec.ofNat 64 (f 4 8)) (b 12)))
  | 0x0904 => some (.row (.sampleRead c (b 0)))
  | 0x0A00 =>
    some (.row (.keyLoad c (b 0) (b 1) (b 2) (BitVec.ofNat 48 (f 4 6)) (BitVec.ofNat 256 (f 16 32))))
  | 0x0A01 => some (.row (.keyClear c (b 0)))
  | 0x0A02 => some (.row (.keyStatus c))
  | 0x0A03 => some (.row (.authReqSet c (b 0)))
  | 0x0A04 => some (.row (.tc7AllowSet c (BitVec.ofNat 128 (f 0 16))))
  | 0x0A05 => some (.row (.authFailRead c))
  | 0x0F00 =>
    match f 0 1 with
    | 1 => some (.row (.resetPort c (b 1)))
    | 2 => some (.row (.resetSwitch c (b 1)))
    | 3 => some (.row (.resetMemory c (b 1)))
    | 4 => some (.row (.resetCollective c (b 1)))
    | 5 => some (.row (.resetManagement c (b 1)))
    | 6 => some (.row (.resetModule c (b 1)))
    | _ => some (.bad 0)
  | 0x0F01 => some (.row (.resetStatus c))
  | _ => none

/-- The command that an accepted packet spells. -/
def parseParams (c : Cmd) (op : Nat) (p : Bytes) : Option Parsed :=
  if op < 0x0300 then parseLow c op p else if op < 0x0600 then parseMid c op p else parseHigh c op p

/-! ## Flits and frames (R120 to R122, R125) -/

/-- The header fields of a 96-bit value (R121). -/
def hdrOf (n : Nat) : Hdr :=
  { pos := BitVec.ofNat 2 (n >>> 94), tc := BitVec.ofNat 3 (n >>> 91), ftype := BitVec.ofNat 4 (n >>> 87),
    flits := BitVec.ofNat 5 (n >>> 82), thl := BitVec.ofNat 4 (n >>> 78), stomp := BitVec.ofNat 4 (n >>> 74),
    rsvd := BitVec.ofNat 2 (n >>> 72), lastBytes := BitVec.ofNat 8 (n >>> 64), dest := BitVec.ofNat 16 (n >>> 48),
    src := BitVec.ofNat 16 (n >>> 32), fseq := BitVec.ofNat 16 (n >>> 16), link := BitVec.ofNat 16 n }

/-- The bytes of a flit, byte 0 first (R120). -/
def flitBytes (f : BitVec 2048) : Bytes := leBytes 256 f.toNat
def flitHdr (f : BitVec 2048) : Hdr := hdrOf (f.toNat % 2 ^ 96)
def flitPayload (f : BitVec 2048) : Bytes := slice (flitBytes f) 12 240
def flitCrcField (f : BitVec 2048) : Nat := f.toNat >>> 2016

/-- The CRC of a flit: good, complemented (stomped), or a link error (R120, R125). -/
inductive FlitCheck where
  | good | stomped | bad
  deriving DecidableEq, Repr

/-- The stomp codes of R125. -/
def stompDefined (c : Nat) : Bool := 9 ≤ c && c ≤ 13

def checkFlit (f : BitVec 2048) : FlitCheck :=
  let crc := crc32c ((flitBytes f).take 252)
  if flitCrcField f = crc then .good
  else if flitCrcField f = crc ^^^ 0xFFFFFFFF then (if stompDefined (flitHdr f).stomp.toNat then .stomped else .bad)
  else .bad

/-- The header fields that every flit of a frame repeats (R122). -/
def sameFrame (a b : Hdr) : Bool :=
  a.tc == b.tc && a.ftype == b.ftype && a.flits == b.flits && a.thl == b.thl && a.lastBytes == b.lastBytes
    && a.dest == b.dest && a.src == b.src && a.fseq == b.fseq

/-- Flits of the frame (R121). -/
def hdrCount (h : Hdr) : Nat := h.flits.toNat + 1
/-- Content bytes of the frame (R122). -/
def hdrLength (h : Hdr) : Nat := h.flits.toNat * 240 + h.lastBytes.toNat
/-- Bytes of the transport header (R121). -/
def hdrThl (h : Hdr) : Nat := 16 * h.thl.toNat

/-- A head whose own fields break R122, or whose reserved bits are not zero (log entry 60). -/
def headBad (h : Hdr) : Bool :=
  h.flits.toNat > 17 || h.lastBytes.toNat == 0 || h.lastBytes.toNat > 240 || h.thl.toNat > 14 || (hdrLength h) < (hdrThl h)
    || (hdrLength h) - (hdrThl h) > 4096 || (h.pos == 0 && h.flits.toNat != 0) || (h.pos == 1 && h.flits.toNat == 0)
    || h.pos.toNat ≥ 2 || h.rsvd != 0

/-- The flit in its place of a frame with this head, after n flits (R122). -/
def nextFlitOk (head h : Hdr) (n : Nat) : Bool :=
  sameFrame head h && decide (h.pos = if n + 1 = (hdrCount head) then 3 else 2)

/-- The 240 payload bytes of a flit, zero where none are given (R120, R122). -/
def fullPayload (p : Bytes) : Bytes := (p ++ zeros 240).take 240

/-- The 96-bit value of a flit header (R121). -/
def hdrNat (h : Hdr) : Nat :=
  (h.pos.toNat <<< 94) + (h.tc.toNat <<< 91) + (h.ftype.toNat <<< 87) + (h.flits.toNat <<< 82) + (h.thl.toNat <<< 78)
    + (h.stomp.toNat <<< 74) + (h.rsvd.toNat <<< 72) + (h.lastBytes.toNat <<< 64) + (h.dest.toNat <<< 48) + (h.src.toNat <<< 32)
    + (h.fseq.toNat <<< 16) + h.link.toNat

/-- BANK (R115). -/
def bankBad (b : Nat) : Bool := 64 ≤ b && b != 0xFF
/-- Counters of a bank. -/
def bankSize (b : Nat) : Nat := if b = 0xFF then 256 else 16
/-- The number of a counter (R403). -/
def counterOf (b i : Nat) : Nat := if b = 0xFF then 1024 + i else 16 * b + i

/-- A flit as it is sent: header, payload and CRC, the CRC complemented in a stomped flit (R120, R125). -/
def wireFlit (h : Hdr) (payload : Bytes) (stomped : Bool) : BitVec 2048 :=
  let b := leBytes 12 (hdrNat h) ++ fullPayload payload
  let crc := crc32c b
  BitVec.ofNat 2048 (leNat (b ++ leBytes 4 (if stomped then crc ^^^ 0xFFFFFFFF else crc)))

/-- A frame that has arrived whole and without fault; a cell of it may still fail when it is read (R133). -/
def frameGiven (f : InFrame) : Bool := f.arrived == hdrCount f.hdr && f.stomp.isNone && !f.badFormat

/-- An uncorrectable error is among what the ECC reports (R133). -/
def cellsBad (l : List CellErr) : Bool := l.any fun e => e.uncorrected

/-- What the ECC reports of cells, joined with what it has reported of them. -/
def joinCells (old new : List CellErr) : List CellErr := old ++ new.filter fun e => !old.contains e

/-- What the ECC reports when n cells of a frame are read, the first of them that of flit k (R133). -/
def cellsRead (l : List CellErr) (k n : Nat) : List CellErr := l.filter fun e => decide (k ≤ e.flit) && decide (e.flit < k + n)

/-- The bytes of a whole frame, without what its last flit carries beyond LAST_BYTES; its transport header; its data (R122). -/
def frameBytes (f : InFrame) : Bytes := f.content.take (hdrLength f.hdr)
def frameThl (f : InFrame) : Bytes := f.content.take (hdrThl f.hdr)
def frameData (f : InFrame) : Bytes := (frameBytes f).drop (hdrThl f.hdr)

end Sys2Proof.Machine
end

