-- ==== Sys2Proof/Machine/SwitchOps.lean ====
section
/-! DEFINITION. The shared operations of the switch core and the flow fences: buffer cells and credits (R134 to R137), the
ingress checks (R131), frames lost to a fault (R147, R161) and fence entries (R173 to R176). -/

namespace Sys2Proof.Machine

/-! ## Cells and credits -/

/-- Number of an LP and class in indexed registers. -/
def lpTc (lp tc : Nat) : Nat := 8 * lp + tc

/-- A(i,c) (R134). -/
def State.cellsOf (s : State) (k : Nat) : Nat := sget s.sw.held k 0 + sget s.sw.granted k 0
/-- The guarantee in force (R135). -/
def State.guar (s : State) (k : Nat) : Nat := s.clsGuar k - sget s.sw.owed k 0

/-- Set the cells held and the credits granted of an input class; shared_free follows max(A, GUAR) (R134, R135). -/
def State.setCells (s : State) (k held granted : Nat) : State :=
  let g := s.guar k
  let before : Int := (max (s.cellsOf k) g : Nat)
  let after : Int := (max (held + granted) g : Nat)
  { s with sw := { s.sw with
      held := sput s.sw.held k held 0
      granted := sput s.sw.granted k granted 0
      sharedFree := s.sw.sharedFree + before - after } }

/-- Cells that return to shared_free go to the owing class of lowest number, at most n of them (R135). -/
def payOwed : Nat → State → State
  | 0, s => s
  | n + 1, s =>
    match s.sw.owed with
    | [] => s
    | (k, o) :: _ =>
      if s.sw.sharedFree ≤ 0 then s
      else
        let g := s.guar k
        let cost : Int := ((max (s.cellsOf k) (g + 1) : Nat) : Int) - (max (s.cellsOf k) g : Nat)
        payOwed n { s with sw := { s.sw with
          owed := sput s.sw.owed k (o - 1) 0, sharedFree := s.sw.sharedFree - cost } }

/-- n cells of an input class are taken by flits that arrive on granted credits (R134). -/
def State.takeCells (s : State) (lp tc n : Nat) : State :=
  let k := lpTc lp tc
  s.setCells k (sget s.sw.held k 0 + n) (sget s.sw.granted k 0 - n)

/-- n cells of an input class are freed (R134, R135). -/
def State.freeCells (s : State) (lp tc n : Nat) : State :=
  let k := lpTc lp tc
  let s' := s.setCells k (sget s.sw.held k 0 - n) (sget s.sw.granted k 0)
  payOwed ((s'.sw.sharedFree - s.sw.sharedFree).toNat) s'

/-- Issue n credits of a class (R134). -/
def State.issue (s : State) (lp c n : Nat) : State :=
  let k := lpTc lp c
  let s := s.setCells k (sget s.sw.held k 0) (sget s.sw.granted k 0 + n)
  { s with sw := { s.sw with pendingCredit := sput s.sw.pendingCredit k (sget s.sw.pendingCredit k 0 + n) 0 } }

/-- The issued credits of an LP that are still to be sent, by class (R136). -/
def State.pendingOf (s : State) (lp : Nat) : List Nat :=
  (List.range 8).map fun c => sget s.sw.pendingCredit (lpTc lp c) 0
def State.clearPending (s : State) (lp : Nat) : State :=
  { s with sw := { s.sw with
      pendingCredit := (List.range 8).foldl (fun m c => sput m (lpTc lp c) 0 0) s.sw.pendingCredit } }

/-- Next-hop credits of an LP and class net of reservations (R142). -/
def State.creditFree (s : State) (lp tc : Nat) : Nat :=
  sget s.sw.credits (lpTc lp tc) 0 - sget s.sw.reserved (lpTc lp tc) 0
def State.addReserved (s : State) (lp tc : Nat) (n : Int) : State :=
  let k := lpTc lp tc
  { s with sw := { s.sw with reserved := sput s.sw.reserved k ((sget s.sw.reserved k 0 : Nat) + n : Int).toNat 0 } }
/-- One credit and one reserved flit are used by a flit that leaves (R137). -/
def State.useCredit (s : State) (lp tc : Nat) : State :=
  let k := lpTc lp tc
  ({ s with sw := { s.sw with credits := sput s.sw.credits k (sget s.sw.credits k 0 - 1) 0 } }).addReserved lp tc (-1)

/-- PACE of an LP (R142). -/
def State.paceOf (s : State) (lp : Nat) : Nat := sget s.sw.pace lp 2048
def State.setPace (s : State) (lp n : Nat) : State :=
  { s with sw := { s.sw with pace := sput s.sw.pace lp (min 2048 n) 2048 } }

/-! ## Hold states of logical ports (R165, R181) -/

def State.setHold (s : State) (lp : Nat) (h : HoldSt) : State :=
  let r := s.recovOf (lpPort lp)
  s.setRecov (lpPort lp) (match lpSide lp with | .a => { r with stA := h } | .b => { r with stB := h })

/-! ## Link-layer transmission (R124, R343, R345) -/

/-- Flits that the replay buffer of an LP holds (R345). -/
def State.replayDepth (s : State) (lp : Nat) : Nat := if (s.port (lpPort lp)).split then 512 else 1024
/-- The TX direction of the port carries flits: awake and not waking; one that is going to sleep finishes the frame in
progress (R317, R319). -/
def PortSt.txAwake (p : PortSt) : Bool := !p.txAsleep && p.txWaking == 0
/-- A lane change has halted the flit stream of the stripe (R351, R353). -/
def PortSt.halted (p : PortSt) (sd : Side) : Bool :=
  match p.txJob with
  | some j => !j.hitless && j.sent == 0 && (j.lane == 9 || decide (j.side = sd))
  | none => false
/-- The LP can send a sequenced flit now (R137, R317, R345, R351). -/
def State.canSend (s : State) (lp : Nat) : Bool :=
  s.lpUp lp && !(s.port (lpPort lp)).halted (lpSide lp) && (s.port (lpPort lp)).txAwake && decide ((s.lpStripe lp).replay.length < s.replayDepth lp)

/-- Hand a flit to the lanes of an LP: LINK carries RX_NEXT and the CRC is formed anew (R125, R343, R345). -/
def State.putFlit (s : State) (lp : Nat) (h : Hdr) (payload : Bytes) (stomped : Bool) : State :=
  let x := s.lpStripe lp
  let f := wireFlit { h with link := BitVec.ofNat 16 (16 * x.rxNext) } payload stomped
  (s.setLpStripe lp { x with txLine := x.txLine ++ [.flit f], ackOwed := false }).emit (.flit lp f)

/-- An /S/ block is to start the flits that follow on an LP (R304). -/
def State.putSync (s : State) (lp : Nat) : State :=
  let x := s.lpStripe lp
  (s.setLpStripe lp { x with txLine := x.txLine ++ [.sync] }).emit (.syncBlock (lpPort lp) (lpSide lp))

/-- Send a new sequenced flit: it takes the next number and stays in the replay buffer (R343, R345). -/
def State.sendSeq (s : State) (lp : Nat) (h : Hdr) (payload : Bytes) (stomped : Bool) : State :=
  let x := s.lpStripe lp
  (s.setLpStripe lp { x with
    replay := x.replay ++ [{ seq := x.txNext, hdr := h, payload := payload, stomped := stomped }]
    txNext := (x.txNext + 1) % 4096 }).putFlit lp h payload stomped

/-- The header of a LINK_CTRL flit (R124). -/
def ctrlHdr : Hdr :=
  { pos := 0, tc := 0, ftype := 0xF, flits := 0, thl := 0, stomp := 0, rsvd := 0, lastBytes := 0, dest := 0, src := 0,
    fseq := 0, link := 0 }

/-- Count a LINK_CTRL flit sent (R406, R407). -/
def State.countCtrl (s : State) (lp subtype : Nat) : State :=
  (s.countLp lp 0x010E none (some subtype) 1).countSlots lp 0x0202 (some 1) 1

/-- Send a SLEEP flit: 0 WAKE, 1 SLEEP, 2 REFUSE (R321, R344), on the port's first stripe. -/
def State.sendSleepFlit (s : State) (port action : Nat) : State :=
  let payload := leBytes 1 6 ++ leBytes 1 action ++ zeros 238
  ((s.sendSeq (2 * port) ctrlHdr payload false).emit (.sleepFlit port action)).countCtrl (2 * port) 6

/-- Send the SLEEP flits of a list that can leave now; the others wait for a place in the replay buffer or for a wake (R318, R321,
R345). -/
def State.trySleepFlits (s : State) (port : Nat) : List Nat → State
  | [] => s.updPort port fun p => { p with sleepOut := [] }
  | a :: r =>
    if s.canSend (2 * port) then (s.sendSleepFlit port a).trySleepFlits port r
    else s.updPort port fun p => { p with sleepOut := a :: r }

/-- Send the SLEEP flits that wait (R321, R344, R345). -/
def State.flushSleepOut (s : State) (port : Nat) : State :=
  if (s.port port).sleepOut.isEmpty then s else s.trySleepFlits port (s.port port).sleepOut

/-- The sleep under way is abandoned because a flit is ready to send: the command completes with DENIED_STATE, and a partner
that asked is refused (R317, R321). -/
def State.abandonSleep (s : State) (port : Nat) : State :=
  let p := s.port port
  if !p.txSleeping then s
  else
    let s := s.setPort port { p with txSleeping := false, peerSleep := false }
    let s := if p.peerSleep then (s.updPort port fun p => { p with sleepOut := p.sleepOut ++ [2] }).flushSleepOut port else s
    s.finishAll (fun w => match w with
      | .sleep q d wake _ => q == port && d % 2 == 1 && !wake
      | _ => false) stDeniedState 0

/-- Send a CREDIT flit with its counts (R133, R136). -/
def State.sendCreditFlit (s : State) (lp : Nat) (init : Bool) (counts : List Nat) : State :=
  let s := s.abandonSleep (lpPort lp)
  let payload := leBytes 1 1 ++ leBytes 1 (b2n init) ++ zeros 2 ++ (counts.map (leBytes 2)).flatten ++ zeros 220
  ((s.sendSeq lp ctrlHdr payload false).emit (.credit lp init counts)).countCtrl lp 1

/-- Send the INIT credit flit that an LP owes, with all credits issued so far, once the replay buffer has a place for it (R136,
R345). -/
def State.sendInit (s : State) (lp : Nat) : State :=
  if (s.lpStripe lp).initOwed && s.canSend lp then
    let s := s.setLpStripe lp { s.lpStripe lp with initOwed := false }
    (s.sendCreditFlit lp true (s.pendingOf lp)).clearPending lp
  else s

/-! ## Fence entries (R173 to R176) -/

/-- The entries that are not FREE. -/
def State.fences (s : State) : List (Nat × Fence) := s.recov.fences.filter fun e => decide (e.2.st ≠ .free)

/-- The entry fences the flow of (source LP, class, DEST, multicast target) (R174, R175). -/
def fenceCovers (f : Fence) (lp tc : Nat) (dest : BitVec 16) (target : Option Nat) : Bool :=
  f.source == lp && f.tc == tc
    && (f.wildcard || (f.dest == dest && (match target with | some t => f.mcast && f.target == t | none => !f.mcast)))

/-- A frame of the flow with this admission number is discarded: ACTIVE entries discard every frame, DRAINING entries those
admitted before the acknowledgement (R175). -/
def State.fenced (s : State) (lp tc : Nat) (dest : BitVec 16) (target : Option Nat) (id : Nat) : Bool :=
  s.fences.any fun e => fenceCovers e.2 lp tc dest target && (decide (e.2.st = .active) || decide (id < e.2.ackAt))

/-- The notice of an entry (R176). -/
def noticeBytes (n : Nat) (f : Fence) (again : Bool) (fabric : BitVec 16) : Bytes :=
  leBytes 1 1 ++ leBytes 1 (b2n f.wildcard + 2 * b2n f.mcast + 4 * b2n again) ++ leBytes 1 f.reason ++ leBytes 1 f.tc
    ++ leBytes 2 f.dest.toNat ++ leBytes 2 f.firstLost.toNat ++ leBytes 1 f.source
    ++ leBytes 1 (if f.mcast then f.target else 0) ++ leBytes 2 n ++ leBytes 2 fabric.toNat ++ leBytes 6 f.beat.toNat
    ++ zeros 12

/-- Send the notice of entry n, or leave it waiting until the link-up of its source LP (R168, R176). -/
def State.sendFenceNotice (s : State) (n : Nat) (again : Bool) : State :=
  let f := s.fence n
  if s.lpUp f.source && decide (s.holdOf f.source = .up) then
    let s := s.sendAgent (agentFrame 2 f.source f.tc 8 0 0 s.side.fabricId 0 (noticeBytes n f again s.side.fabricId))
    s.setFence n { f with
      waits := false, again := false, noticed := s.beat.count
      repeats := if again then satAdd 255 f.repeats 1 else f.repeats }
  else s.setFence n { f with waits := true, again := again }

/-- A new ACTIVE entry. -/
def mkFence (s : State) (wild : Bool) (lp tc : Nat) (dest : BitVec 16) (target : Option Nat) (fseq : BitVec 16)
    (reason : Nat) : Fence :=
  { st := .active, wildcard := wild, mcast := !wild && target.isSome, tc := tc, source := lp,
    target := if wild then 0 else target.getD 0, dest := if wild then 0 else dest, firstLost := fseq, reason := reason,
    beat := s.beat.count, repeats := 0, waits := false, again := false, noticed := s.beat.count, ackAt := 0 }

/-- Write entry n, count it and send its notice (R176, R406). -/
def State.openFence (s : State) (n : Nat) (f : Fence) : State :=
  ((s.setFence n f).countGlobal 0x1008 none none 1).sendFenceNotice n false

/-- Free the listed entries. -/
def State.freeFences (s : State) (l : List Nat) : State := l.foldl (fun s n => s.setFence n defaultFence) s

/-- Entries of a source LP and class, with a state when one is given, by rising number. -/
def State.pairFences (s : State) (lp tc : Nat) (st : Option FenceSt) : List Nat :=
  (s.fences.filter fun e => e.2.source == lp && e.2.tc == tc
    && (match st with | some x => decide (e.2.st = x) | none => true)).map (·.1)

def State.freeFence (s : State) : Option Nat := firstBelow 4096 fun n => decide ((s.fence n).st = .free)

/-- Fold entries into one wildcard entry at the lowest of them (R174). -/
def State.foldFences (s : State) (l : List Nat) (f : Fence) : State :=
  match l with
  | [] => s
  | n :: r => (s.freeFences r).openFence n f

/-- The pair of source LP and class with the most entries, ties to the lowest number (R174 step 3). -/
def State.fullestPair (s : State) : Nat :=
  let count (k : Nat) := (s.pairFences (k / 8) (k % 8) none).length
  (List.range 1024).foldl (fun best k => if count best < count k then k else best) 0

/-- Raise a wildcard entry for a source LP and class (R174). -/
def State.raiseWildcard (s : State) (lp tc : Nat) (fseq : BitVec 16) (reason : Nat) : State :=
  let f := mkFence s true lp tc 0 none fseq reason
  let active := s.pairFences lp tc (some .active)
  if !active.isEmpty then s.foldFences active f
  else match s.freeFence with
    | some n => s.openFence n f
    | none =>
      let draining := s.pairFences lp tc (some .draining)
      if !draining.isEmpty then s.foldFences draining f
      else
        let k := s.fullestPair
        let s := s.foldFences (s.pairFences (k / 8) (k % 8) none) (mkFence s true (k / 8) (k % 8) 0 none fseq reason)
        match s.freeFence with
        | some n => s.openFence n f
        | none => s

/-- A frame of a flow is lost: raise its entry, or a wildcard (R173, R174). -/
def State.raiseFence (s : State) (lp tc : Nat) (dest : BitVec 16) (target : Option Nat) (fseq : BitVec 16)
    (reason : Nat) : State :=
  if s.fences.any fun e => decide (e.2.st = .active) && fenceCovers e.2 lp tc dest target then s
  else
    let limit := decide (s.recov.fenceLimit.toNat ≤ (s.fences.filter fun e => e.2.source == lp).length)
    match s.freeFence with
    | some n =>
      if limit then
        ({ s with recov := { s.recov with limitSeen := true } }).raiseWildcard lp tc fseq reason
      else s.openFence n (mkFence s false lp tc dest target fseq reason)
    | none =>
      ({ s with recov := { s.recov with fullSeen := true, limitSeen := s.recov.limitSeen || limit } }).raiseWildcard lp tc
        fseq reason

/-! ## Lost frames -/

def destIsGroup (d : BitVec 16) : Bool := bitsAt d.toNat 15 12 == 8
def destGroup (d : BitVec 16) : Nat := d.toNat % 4096
def destIsUnicast (d : BitVec 16) : Bool := bitsAt d.toNat 15 13 == 0

/-- The targets of a group for a sender (R148, R173). -/
def State.groupTargets (s : State) (mg lp : Nat) : List Nat :=
  (bitList 128 (s.mgMembers mg)).filter fun t => t != lp || s.mgSelf mg

/-- Whether a loss of the frame raises a fence (R162). -/
def fenceable (h : Hdr) : Bool := h.tc != 7 && h.ftype != 8

/-- The frame is lost in its flow, in that of each target for a group (R161, R173). -/
def State.lossFence (s : State) (lp : Nat) (h : Hdr) (reason : Nat) : State :=
  if !fenceable h then s
  else if destIsGroup h.dest then
    (s.groupTargets (destGroup h.dest) lp).foldl (fun s t => s.raiseFence lp h.tc.toNat h.dest (some t) h.fseq reason) s
  else s.raiseFence lp h.tc.toNat h.dest none h.fseq reason

/-- The fence reason of an ingress discard reason 7 to 0xB (R179). -/
def fenceReason (r : Nat) : Nat := if r = 0xB then 6 else r - 6

/-- What becomes of the flits of an LP's arriving frame. -/
def State.arrivingOf (s : State) (lp : Nat) : Arriving := sget s.sw.arriving lp .none
def State.setArriving (s : State) (lp : Nat) (a : Arriving) : State :=
  { s with sw := { s.sw with arriving := sput s.sw.arriving lp a .none } }

/-- Discard a frame at ingress with a reason of R131: its cells are freed, it is counted, and reasons 7 to 9 raise a
fence. -/
def State.discardHead (s : State) (lp : Nat) (f : InFrame) (reason : Nat) : State :=
  let s := s.freeCells lp f.hdr.tc.toNat f.arrived
  let s := s.countLp lp 0x0107 (some f.hdr.tc.toNat) (some reason) 1
  let s := s.setArriving lp (if f.arrived < hdrCount f.hdr && f.stomp.isNone then .dropping else .none)
  if 7 ≤ reason then s.lossFence lp f.hdr (fenceReason reason) else s

/-- Discard a diverted frame whose cell has an uncorrectable error when an agent reads it (R131, R161). -/
def State.discardDiverted (s : State) (lp : Nat) (f : InFrame) : State :=
  ((s.freeCells lp f.hdr.tc.toNat f.arrived).countLp lp 0x0107 (some f.hdr.tc.toNat) (some 9) 1).lossFence lp f.hdr 3

/-- Discard a frame of a fenced flow or for an ENDED LP before it is admitted (R169, R175). -/
def State.dropHead (s : State) (lp : Nat) (f : InFrame) : State :=
  (s.freeCells lp f.hdr.tc.toNat f.arrived).setArriving lp
    (if f.arrived < hdrCount f.hdr && f.stomp.isNone then .dropping else .none)

/-- The frame types that only the module takes (R123). -/
def toModule (t : Nat) : Bool := [1, 3, 4, 6, 7, 8].contains t

/-- The ingress check of R131 that a head fails, with ACTION of its route (1 FORWARD, 2 LOCAL, 3 FOREIGN, 4 group) and OUT_LP
when it passes. -/
def State.ingressCheck (s : State) (lp : Nat) (f : InFrame) : Sum Nat (Nat × Nat) :=
  let h := f.hdr
  let t := h.ftype.toNat
  let tc := h.tc.toNat
  let grp := destIsGroup h.dest
  let e := s.entry 1 (h.dest.toNat % 8192)
  let action := if grp then 4 else bitsAt e 62 60
  let out := bitsAt e 6 0
  if 9 ≤ t then .inl 1
  else if !grp && !destIsUnicast h.dest then .inl 2
  else if (if grp then !s.mgValid (destGroup h.dest) else !bitAt e 63 || action == 0 || 4 ≤ action) then .inl 3
  else if !(if grp then s.mgAllow (destGroup h.dest) tc else bitAt e (52 + tc)) then .inl 4
  else if (t == 0 && (action == 2 || action == 3)) || (toModule t && (action == 1 || action == 4))
      || ([6, 7, 8].contains t && action == 3) || t == 2 || t == 5 || (t == 7 && tc != 7) || (t != 7 && tc == 7) then .inl 5
  else if action == 1 && (!s.lpExists out || out == lp) then .inl 6
  else if f.badFormat then .inl 7
  else if f.stomp.isSome then .inl 8
  else if cellsBad (cellsRead f.cells 0 1) then .inl 9
  else .inr (action, out)

/-- Count a frame received whole (R406). -/
def State.countRx (s : State) (lp : Nat) (h : Hdr) : State :=
  (s.countLp lp 0x0103 (some h.tc.toNat) none 1).countLp lp 0x0105 (some h.tc.toNat) none (hdrLength h)

/-- A frame from input lp to output out is forwarded store-and-forward whatever MODE says: a multicast frame, a frame of a split
input to an x8 output, and one whose RX width is below the TX width of its output (R139, R352). -/
def State.rateSaf (s : State) (lp out : Nat) : Bool :=
  ((s.port (lpPort lp)).split && !(s.port (lpPort out)).split) || decide ((s.lpStripe lp).rxw < (s.lpStripe out).txw)

/-- The ECC of the shared buffer reports errors of cells that are read: a corrected one is counted, an uncorrectable one is counted
against its bank (R133, R393; log entry 72). -/
def State.cellErrors (s : State) (l : List CellErr) : State :=
  l.foldl (fun s e => if e.uncorrected then s.bankUe .buffer e.bank else s.countGlobal 0x1007 none none 1) s

/-- The ingress: R131, then the fences (R175), an ENDED output (R169), and admission or diversion (R20, R138). -/
def State.ingress (s : State) (lp : Nat) (f : InFrame) : State :=
  let h := f.hdr
  let tc := h.tc.toNat
  let done := f.arrived == hdrCount h
  match s.ingressCheck lp f with
  | .inl r => (if r = 9 then s.cellErrors (cellsRead f.cells 0 1) else s).discardHead lp f r
  | .inr (action, out) =>
    let fencedHere := h.ftype != 8 && (s.fences.any fun e =>
      decide (e.2.st = .active) && (if action = 4 then e.2.wildcard && e.2.source == lp && e.2.tc == tc
        else fenceCovers e.2 lp tc h.dest none))
    if fencedHere then (s.dropHead lp f).countLp lp 0x0108 (some tc) none 1
    else if action = 1 ∧ s.holdOf out = .ended then (s.dropHead lp f).lossFence lp h 0x0A
    else if action = 2 ∨ action = 3 then
      let d : Diverted := { lp := lp, foreign := action == 3, frame := f, id := s.sw.nextId }
      let s := { s with sw := { s.sw with nextId := s.sw.nextId + 1 } }
      if done then { s with sw := { s.sw with diverted := s.sw.diverted ++ [d] } }.setArriving lp .none
      else s.setArriving lp (.diverted d)
    else
      let j := if action = 4 then lp else out
      let saf := action == 4 || s.clsMode out tc == 1 || s.rateSaf lp out
      let q : QFrame :=
        { id := s.sw.nextId, inLp := lp, outLp := j, tc := tc, hdr := h, content := f.content, arrived := f.arrived,
          crossed := 0, saf := saf, cells := f.cells }
      let s := { s with sw := { s.sw with frames := s.sw.frames ++ [q], nextId := s.sw.nextId + 1 } }
      let s := s.setArriving lp (if done then .none else .admitted q.id)
      if action = 1 ∧ s.holdOf out = .holding then s.countLp out 0x010F (some tc) none 1 else s

/-! ## The frame in progress and stomping (R147) -/

def State.currentOf (s : State) (lp : Nat) : Option Current := sget s.sw.current lp none
def State.setCurrent (s : State) (lp : Nat) (c : Option Current) : State :=
  { s with sw := { s.sw with current := sput s.sw.current lp c none } }
def State.fifo (s : State) (u : Nat) : List Staged := sget s.sw.slotFifo u []
def State.setFifo (s : State) (u : Nat) (l : List Staged) : State :=
  { s with sw := { s.sw with slotFifo := sput s.sw.slotFifo u l [] } }
def State.mcFifoOf (s : State) (lp : Nat) : List Staged := sget s.sw.mcFifo lp []
def State.setMcFifo (s : State) (lp : Nat) (l : List Staged) : State :=
  { s with sw := { s.sw with mcFifo := sput s.sw.mcFifo lp l [] } }

/-- The slots of an LP (R141). -/
def State.slotsOf (s : State) (lp : Nat) : List Nat :=
  if (s.port (lpPort lp)).split then [lp] else [2 * lpPort lp, 2 * lpPort lp + 1]

/-- Flits in a FIFO. -/
def flitsIn (l : List Staged) : Nat := (l.map fun x => x.flits.length).sum

/-- Remove frame id from the VOQs; its cells are freed (R134). -/
def State.unqueue (s : State) (id : Nat) : State :=
  match s.sw.frames.find? (fun q => q.id == id) with
  | none => s
  | some q =>
    { s with sw := { s.sw with
        frames := s.sw.frames.filter (fun q => q.id != id), locks := s.sw.locks.filter fun l => l.id != id } }.freeCells
      q.inLp q.tc (q.arrived - q.crossed)

/-- Send the stomped flit that ends the frame in progress: POS = LAST, counted in STOMPED and as Spent (R125, R147). -/
def State.sendStomp (s : State) (lp : Nat) : State :=
  match s.currentOf lp with
  | none => s
  | some c =>
    match c.st.fault with
    | none => s
    | some code =>
      let tc := c.st.hdr.tc.toNat
      if s.canSend lp && sget s.sw.credits (lpTc lp tc) 0 != 0 then
        let h := { c.st.hdr with pos := 3, stomp := code }
        let s := (((s.sendSeq lp h c.st.last true).useCredit lp tc).countLp lp 0x0102 (some tc) none 1).ctxFlit lp false h
        let s := (s.emit (.stomped lp h c.bytes code)).setCurrent lp none
        let s := { s with sw := { s.sw with stomped := satAdd (2 ^ 48 - 1) s.sw.stomped 1 } }
        (s.countLp lp 0x0109 (some tc) (some code.toNat) 1).countSlots lp 0x0202 (some 2) (c.sent + 1)
      else s

/-- The payload of a stomped flit: that of the flit passed on, or else a free value (log entry 59). -/
def State.stompPayload (s : State) : Option Bytes → Bytes × State
  | some b => (b, s)
  | none => (leBytes 240 (Config.stompPayload s.draws).toNat, { s with draws := s.draws + 1 })

/-- The frame in progress on an LP is to end stomped, with the payload of the stomped flit that has come, if one has: its waiting
flits go, and unused credits and pacer units return (R125, R147). -/
def State.stompCurrent (s : State) (lp : Nat) (code : BitVec 4) (payload : Option Bytes) : State :=
  match s.currentOf lp with
  | none => s
  | some c =>
    if c.st.fault.isSome then s
    else
      let left := hdrCount c.st.hdr - c.sent
      let s := if c.agent.isSome then s else s.unqueue c.st.id
      let s := s.addReserved lp c.st.hdr.tc.toNat (1 - (left : Int))
      let s := s.setPace lp (s.paceOf lp + 256 * c.st.flits.length)
      let (b, s) := s.stompPayload payload
      let s := s.setCurrent lp (some { c with st := { c.st with flits := [], fault := some code, last := b } })
      s.sendStomp lp

/-- Discard a switched frame whose head has not left: from its VOQ and its slot FIFO (R131). -/
def State.discardFrame (s : State) (q : QFrame) : State :=
  let s := s.unqueue q.id
  if q.crossed = 0 then s
  else
    let s := s.addReserved q.outLp q.tc (-(hdrCount q.hdr : Int))
    [2 * lpPort q.outLp, 2 * lpPort q.outLp + 1].foldl (fun s u =>
      let gone := (s.fifo u).filter fun x => x.id == q.id
      (s.setFifo u ((s.fifo u).filter fun x => x.id != q.id)).setPace q.outLp (s.paceOf q.outLp + 256 * flitsIn gone)) s

/-- A fault of an admitted frame: stomped when its head has left, with the payload of the flit that arrived stomped; discarded
otherwise; its flow is fenced (R131, R147, R161). -/
def State.faultFrame (s : State) (id reason : Nat) (code : BitVec 4) (payload : Option Bytes) : State :=
  match s.sw.frames.find? (fun q => q.id == id) with
  | none => s
  | some q =>
    let headLeft := match s.currentOf q.outLp with
      | some c => decide (c.source < 2) && c.st.id == id && decide (0 < c.sent)
      | none => false
    let s := if headLeft then s.stompCurrent q.outLp code payload
      else
        let s := match s.currentOf q.outLp with
          | some c => if decide (c.source < 2) && c.st.id == id then s.setCurrent q.outLp none else s
          | none => s
        (s.discardFrame q).countLp q.inLp 0x0107 (some q.tc) (some reason) 1
    s.lossFence q.inLp q.hdr (fenceReason reason)

/-- A frame has left whole and unstomped (R406, R407). -/
def State.sentWhole (s : State) (lp : Nat) (h : Hdr) (content : Bytes) : State :=
  let s := s.emit (.frame lp h (content.take (hdrLength h)))
  let s := (s.countLp lp 0x0104 (some h.tc.toNat) none 1).countLp lp 0x0106 (some h.tc.toNat) none (hdrLength h)
  s.countSlots lp 0x0201 none (hdrCount h)

/-! ## Frame heads (R54, R131) -/

/-- Run the ingress on a frame that has waited as the oldest of its LP; the LP's later arrival is not disturbed. -/
def State.ingressWaiting (s : State) (lp : Nat) (f : InFrame) : State :=
  let a := s.arrivingOf lp
  let still := decide (a = .waiting) && !(s.sw.heads.any fun x => x.1 == lp)
  let s' := s.ingress lp f
  if still then s' else s'.setArriving lp a

/-- Count a frame that a lookup hold makes wait (R54). -/
def State.countHeld (s : State) : State :=
  { s with sw := { s.sw with heldAtBoundary := satAdd (2 ^ 48 - 1) s.sw.heldAtBoundary 1 } }.countGlobal 0x1006 none none 1

/-- A frame that has just arrived on granted credits passes the ingress, or waits for a lookup hold or behind the heads of its
LP (R54, R131; log entry 1). -/
def State.arriveFrame (s : State) (lp : Nat) (f : InFrame) : State :=
  let s := s.takeCells lp f.hdr.tc.toNat f.arrived
  let s := if frameGiven f then (s.countRx lp f.hdr).ctxFlit lp true f.hdr else s
  let hold := !s.sw.lookupHold.isEmpty
  if hold || s.sw.heads.any (fun x => x.1 == lp) then
    let s := { s with sw := { s.sw with heads := s.sw.heads ++ [(lp, hold, f)] } }.setArriving lp
      (if f.arrived < hdrCount f.hdr then .waiting else .none)
    if hold then s.countHeld else s
  else s.ingress lp f

/-- The flow of a diverted frame: LP, class and DEST (R161). -/
def sameFlow (lp : Nat) (h : Hdr) (x : Diverted) : Bool :=
  x.lp == lp && x.frame.hdr.tc == h.tc && x.frame.hdr.dest == h.dest

/-- The collective engine takes frames of this type (R20). -/
def toColl (t : BitVec 4) : Bool := t == 3 || t == 4 || t == 6

/-- Take the oldest diverted frame of a flow when it is this one: its cells are read, and an uncorrectable error of one of them
discards it (R20, R131, R133). A frame for another agent waits behind one of its flow that waits at the collective engine (R224). The cells of a frame that
is taken stay held. -/
def State.takeDiverted (s : State) (lp : Nat) (foreign : Bool) (f : InFrame) : State × Option Diverted :=
  match s.sw.diverted.find? (sameFlow lp f.hdr) with
  | none => (s, none)
  | some x =>
    if !toColl f.hdr.ftype && s.coll.entry.any (sameFlow lp f.hdr) then (s, none)
    else if x.foreign = foreign ∧ x.frame = { f with cells := x.frame.cells } then
      let cells := joinCells x.frame.cells f.cells
      let s := { s with sw := { s.sw with diverted := dropFirst (sameFlow lp f.hdr) s.sw.diverted } }.cellErrors cells
      if cellsBad cells then (s.discardDiverted lp f, none) else (s, some x)
    else (s, none)

/-- A local agent is given a frame: the oldest diverted one of its flow, or, when none of the flow waits, one that has just arrived
and passes the ingress first (R123, R131; log entry 1). -/
def State.claim (s : State) (lp : Nat) (foreign : Bool) (f : InFrame) : State × Option Diverted :=
  if s.sw.diverted.any (sameFlow lp f.hdr) then s.takeDiverted lp foreign f
  else if s.portInReset (lpPort lp) || s.switchInReset then (s, none)
  else (s.arriveFrame lp f).takeDiverted lp foreign f

/-- Free the cells of a frame that an agent has taken. -/
def State.freeFrame (s : State) (lp : Nat) (f : InFrame) : State := s.freeCells lp f.hdr.tc.toNat f.arrived

/-- Take frames of local agents toward an LP away (R168, R169). -/
def State.dropAgentOut (s : State) (lp : Nat) : State :=
  { s with sw := { s.sw with agentOut := s.sw.agentOut.filter fun f => f.lp != lp } }

end Sys2Proof.Machine
end

