-- ==== Sys2Proof/Machine/CounterOps.lean ====
section
/-! DEFINITION. The shared operations of the counters: values (R410), reprogramming (R412), windows (R413, R414) and samples
(R415 to R417). -/

namespace Sys2Proof.Machine

/-- MODE of a counter's entry: WINDOWED (R403). -/
def State.windowed (s : State) (n : Nat) : Bool := bitAt (s.eventEntry n) 37

/-- The value word of a counter (R410). -/
def State.counterWord (s : State) (n : Nat) : Word :=
  let c := s.counter n
  let w := s.windowed n
  fld 47 0 (if w then c.frozen else c.run).toNat ||| flg 48 c.wrap ||| flg 49 c.reprog ||| flg 50 w
    ||| flg 51 (w && c.partialWin)

/-- The counter is reprogrammed: zeroed, REPROG set, sampling disabled (R412, R415). -/
def State.reprogram (s : State) (n : Nat) : State :=
  s.setCounter n { s.counter n with run := 0, reprog := true, armed := false, due := [], startedLate := true }

/-- A pending CTR_SELECT takes effect: it writes EVENT into the live entry (R412). -/
def State.applySelect (s : State) (n : Nat) : State :=
  match (s.counter n).select with
  | none => s
  | some ev =>
    let e := s.eventEntry n
    let s := s.setEntry 9 n (mkEntry (e % 2 ^ 48 + (ev.toNat <<< 48)))
    (s.setCounter n { s.counter n with select := none }).reprogram n

/-- The counters of a bank, 64 the global one (R402, R419). -/
def bankCounters (b : Nat) : List Nat := if b < 64 then (List.range 16).map (16 * b + ·) else (List.range 256).map (1024 + ·)

/-- Some multiple of w lies in a stretch of n counts that ends at `now` (R414). -/
def multipleIn (w n now : Nat) : Bool := w != 0 && decide (now % w < n)

/-- The window of a bank ends at the boundary just reached, whose count came after `old` (R413, R414, R418). In FREERUN
windows run on local beats. -/
def State.windowEnds (s : State) (old : Beat) (b : Nat) : Bool :=
  let w := (s.window b).window
  let now := s.beat.count.toNat
  if s.beat.st = .freerun then s.beat.localBeats % max 1 w == 0 || (s.window b).late
  else
    let gone := (s.beat.count - old).toNat
    multipleIn w (if gone = 0 ∨ 2 ^ 47 ≤ gone then 1 else gone) now || (s.window b).late

/-- Mark the windows that end at the boundary just reached. -/
def State.markWindows (s : State) (old : Beat) : State :=
  (List.range 65).foldl (fun s b =>
    if s.windowEnds old b then s.setWindow b { s.window b with due := true } else s) s

/-- The partition that holds the counters of a bank is under test (R376, R418). -/
def State.bankTested (s : State) (b : Nat) : Bool := s.underTest (if b < 64 then b else 94)

/-- The window of a bank closes: its WINDOWED counters freeze and start again; windows that span a test of the bank's partition are
PARTIAL (R413, R414, R418). -/
def State.closeWindow (s : State) (b : Nat) : State :=
  let w := s.window b
  let s := (bankCounters b).foldl (fun s n =>
    if s.windowed n then
      let c := s.counter n
      s.setCounter n { c with
        frozen := c.run, run := 0, partialWin := c.startedLate || w.spoiled || w.late, startedLate := false }
    else s) s
  s.setWindow b { w with lastClose := s.beat.count, spoiled := s.ctr.freeze || s.bankTested b, late := false, due := false }

/-- A window that ends closes, or waits while TP-94 is under test (R413, R418). -/
def State.endWindow (s : State) (b : Nat) : State :=
  if !(s.window b).due then s
  else if b = 64 ∧ s.underTest 94 = true then s.setWindow b { s.window b with late := true, due := false }
  else s.closeWindow b

/-- A pending CTR_WINDOW_SET takes effect (R413, R414). -/
def State.applyWindow (s : State) (b : Nat) : State :=
  match (s.window b).pending with
  | none => s
  | some v =>
    let s := s.setWindow b { s.window b with window := v, pending := none }
    (bankCounters b).foldl (fun s n => s.setCounter n { s.counter n with startedLate := true }) s

/-- The running window of a bank reports PARTIAL (R414). -/
def State.spoilWindow (s : State) (b : Nat) : State := s.setWindow b { s.window b with spoiled := true }

/-- The running windows of every bank report PARTIAL (R414, R467). -/
def State.spoilWindows (s : State) : State :=
  (List.range 65).foldl (fun s b => s.spoilWindow b) s

/-- Step 2 of R53: windows that end at this beat close, then pending selections and window lengths take effect. The global
windows wait while TP-94 is under test (R418). -/
def State.counterStep (s : State) : State :=
  let s := (List.range 65).foldl (fun s b =>
    s.endWindow b) s
  let s := ((s.ctr.counters.filter fun e => e.2.select.isSome).map (·.1)).foldl (fun s n => s.applySelect n) s
  ((s.ctr.windows.filter fun e => e.2.pending.isSome).map (·.1)).foldl (fun s b => s.applyWindow b) s

/-- A record joins the buffer (R417). -/
def State.pushSample (s : State) (r : Sample) : State :=
  if 256 ≤ s.ctr.samples.length then { s with ctr := { s.ctr with lost := satAdd 0xFFFF s.ctr.lost 1 } }
  else
    let s := { s with ctr := { s.ctr with samples := s.ctr.samples ++ [r] } }
    if s.ctr.samples.length = s.ctr.irqLevel then (s.msix 2).attend 0x04 else s

/-- CONTEXT of a sample record (R416). -/
def ctxBytes : Option SampleCtx → Bytes
  | none => zeros 8
  | some (.flit lp h) =>
    leBytes 1 lp ++ leBytes 1 (h.tc.toNat + 8 * h.ftype.toNat) ++ leBytes 2 h.dest.toNat ++ leBytes 2 h.src.toNat
      ++ leBytes 2 h.fseq.toNat
  | some (.memory stack op offset lp) => leBytes 1 stack ++ leBytes 1 op ++ leBytes 5 offset ++ leBytes 1 lp
  | some (.engine sid cluster chunk) => leBytes 2 sid ++ leBytes 1 cluster ++ zeros 1 ++ leBytes 4 chunk

/-- The bytes of a sample record (R416). -/
def sampleBytes (r : Sample) : Bytes :=
  leBytes 1 r.bank ++ leBytes 1 r.kind ++ leBytes 2 r.index ++ leBytes 2 r.event.toNat ++ leBytes 1 r.skidUnit
    ++ leBytes 1 r.skidMax ++ leBytes 6 r.beat.toNat ++ zeros 2 ++ leBytes 8 r.value.toNat ++ ctxBytes r.context

end Sys2Proof.Machine
end

