-- ==== Sys2Proof/Machine/PowerOps.lean ====
section
/-! DEFINITION. The shared operations of the power unit: the clock step (R359), the effective cap (R366), the cap loop (R368,
R369), the core rail (R364, R477) and telemetry (R373). -/

namespace Sys2Proof.Machine

/-- Change the power unit. -/
def State.updPower (s : State) (f : Power → Power) : State := { s with power := f s.power }

/-- A condition of the POWER attention bit is set (R431). -/
def State.powerAttn (s : State) (b : Bool) : State := if b then s.attend 0x20 else s

/-- An order that would raise power is refused (R372). -/
def State.refuseRaise (s : State) : State := (s.updPower fun p => { p with raiseRefused := true }).powerAttn true

/-- K_TARGET (R359). -/
def State.kTarget (s : State) : Nat := s.curveK s.power.curveTarget
/-- K_EFF (R359). -/
def State.kEff (s : State) : Nat := min (min s.kTarget s.power.kCap) (min s.power.kRail s.power.kDroop)

/-- The effective cap and SETTER (R111, R112, R366). -/
def Power.cap (p : Power) : Nat × Nat :=
  if p.ceiling ≠ 0 ∧ (p.hostReq = 0 ∨ p.ceiling ≤ p.hostReq) then (p.ceiling, srcCode p.ceilingSrc + 4)
  else if p.hostReq ≠ 0 then (p.hostReq, srcCode p.hostSrc)
  else (1500, 8)
def State.effCap (s : State) : Nat := s.power.cap.1

/-- Lower K_CAP to k, when that is lower: counted, and the raise hold starts again (R368). -/
def State.lowerCap (s : State) (k : Nat) : State :=
  if k < s.power.kCap then
    s.updPower fun p => { p with kCap := k, capCuts := satAdd 0xFFFF p.capCuts 1, beat := { p.beat with cut := true }, sinceCut := 0 }
  else s

/-- K_MAX of the highest valid entry whose P_BUDGET is at most the cap, 8 when none qualifies (R368). -/
def State.capStep (s : State) (cap : Nat) : Nat :=
  match ((List.range 16).filter fun e => s.curveValid e && decide (s.curveBudget e ≤ cap)).getLast? with
  | some e => s.curveK e
  | none => 8

/-- The lowest valid entry whose K_MAX reaches k (R364, R369). -/
def State.entryFor (s : State) (k : Nat) : Nat :=
  (firstBelow 16 fun e => s.curveValid e && decide (k ≤ s.curveK e)).getD s.curveTop

/-- CODE of a setpoint in mV (R476). -/
def vreqCode (mv : Nat) : Nat := (mv - 500) / 5 + (if mv % 5 ≠ 0 ∧ Config.vreqRoundsUp mv = true then 1 else 0)
/-- CODE of RAIL_ENTRY. -/
def State.railCode (s : State) : Nat := vreqCode (s.curveMv s.power.railEntry)

/-- A voltage-request frame: START 0b10, CODE, and even parity over bits 15 to 1 (R476). -/
def vreqFrame (code : Nat) : BitVec 16 :=
  let n := (2 <<< 14) + ((code % 256) <<< 6)
  BitVec.ofNat 16 (n + popCount 16 n % 2)

/-- The rail moves to RAIL_ENTRY: down at once, up after it has settled (R364). -/
def State.startMove (s : State) : State :=
  let k := s.curveK s.power.railEntry
  if s.power.vreqFault then s
  else if s.railCode < s.power.code then s.updPower fun p => { p with kRail := k, railMoving := true }
  else if s.power.code < s.railCode then s.updPower fun p => { p with railMoving := true }
  else if s.power.railMoving then s
  else s.updPower fun p => { p with kRail := k }

/-- The rail target of a boundary (R364). -/
def State.retargetRail (s : State) : State :=
  (s.updPower fun p => { p with railEntry := s.entryFor (min s.kTarget s.power.kCap) }).startMove

/-- The raise of K_CAP at a boundary, by the samples of the beat just ended (R369). -/
def State.raiseCap (s : State) : State :=
  let p := s.power
  let n := s.entryFor (p.kCap + 1)
  let fits := decide (p.ended.max * s.curveBudget n + p.headroom * s.curveBudget p.railEntry ≤ s.effCap * s.curveBudget p.railEntry)
  let up := decide (p.kCap < s.kTarget) && decide (p.raiseHold ≤ p.sinceCut) && !p.ended.above && p.ended.samples != 0 && fits
  s.updPower fun p => { p with kCap := if up then p.kCap + 1 else p.kCap }

/-- The power work of a boundary after step 5 of R53 (R364, R369, R370). -/
def State.powerBoundary (s : State) : State :=
  let unmet := s.power.ended.samples != 0 && s.power.ended.unmet
  let s := (s.updPower fun p => { p with capUnmet := p.capUnmet || unmet }).powerAttn unmet
  s.raiseCap.retargetRail

/-- A beat ends for the power unit: its samples and lowerings are what the boundary judges, and a full beat without a lowering
counts toward the raise hold (R369, R370). -/
def State.endPowerBeat (s : State) : State :=
  s.updPower fun p => { p with
    ended := p.beat, beat := freshBeat, sinceCut := if p.beat.cut then 0 else p.sinceCut + 1 }

/-- K_DROOP rises by one at a boundary after a clean beat; a detector that is low at the boundary is low in the new beat as well
(R361, R362). -/
def State.droopBoundary (s : State) (low : Bool) : State :=
  s.updPower fun p => { p with
    kDroop := if low || p.droopBeat then p.kDroop else min 16 (p.kDroop + 1)
    droopBeat := low }

/-- Samples of the four windows (R373). -/
def telemLengths : List Nat := [1, 1024, 16384, 1048576]

/-- A window takes a sample (R373). -/
def Telem.take (t : Telem) (len watts : Nat) : Telem :=
  if t.n + 1 < len then { t with sum := t.sum + watts, n := t.n + 1 }
  else
    let avg := min 0xFFFF ((t.sum + watts) / len)
    { avg := avg, peak := max t.peak avg, blocks := satAdd (2 ^ 32 - 1) t.blocks 1, sum := 0, n := 0 }

/-- A power sample (R358, R367 to R371, R373). -/
def State.sample (s : State) (watts : Nat) : State :=
  let p := s.power
  let cap := s.effCap
  let samples := (watts :: p.samples).take 16384
  let design := decide (1650 < watts) || (samples.length == 16384 && decide (1500 * 16384 < samples.sum))
  let tooHigh := design || decide (cap < watts)
  let floor := decide (cap < watts) && s.kEff == 8 && p.railEntry == 0 && !p.railMoving
  let s := { s with power := { p with
    now := min 0xFFFF watts, samples := samples, designSeen := p.designSeen || design
    overrun := p.overrun + (watts - cap) * 1024
    telem := (p.telem.zip telemLengths).map fun (x : Telem × Nat) => x.1.take x.2 watts
    beat := { p.beat with
      max := max p.beat.max watts, samples := p.beat.samples + 1, above := p.beat.above || tooHigh
      unmet := p.beat.unmet && floor } } }
  let s := s.powerAttn design
  if tooHigh then s.lowerCap (max 8 (s.power.kCap - 1)) else s

/-- OVERRUN in whole mJ (R371): the accumulator counts nJ. -/
def Power.overrunMj (p : Power) : Nat := min (2 ^ 32 - 1) (p.overrun / 1000000)

end Sys2Proof.Machine
end

