-- ==== Sys2Proof/Machine/Arith.lean ====
section
/-! DEFINITION. The arithmetic of the collective engine: number formats (R238 to R241), the long accumulator (R242 to R248)
and the final rounding (R249 to R254). -/

namespace Sys2Proof.Machine

/-- A long accumulator (R242). -/
abbrev Acc := BitVec 288

/-! ## Formats -/

/-- A floating format: bits, mantissa bits, bias, whether it has infinities, and the bits of its canonical NaN when it has
one (R239, R252). -/
structure Fmt where
  bits : Nat
  man : Nat
  bias : Nat
  inf : Bool
  nan : Option Nat
  deriving DecidableEq, Repr

/-- The floating formats by code (R238, R239, R252); FP4 is scaled by its block. -/
def floatFmt : Nat → Option Fmt
  | 0 => some ⟨32, 23, 127, true, some 0x7FC00000⟩
  | 1 => some ⟨16, 7, 127, true, some 0x7FC0⟩
  | 2 => some ⟨16, 10, 15, true, some 0x7E00⟩
  | 3 => some ⟨8, 3, 7, false, some 0x7F⟩
  | 4 => some ⟨8, 2, 15, true, some 0x7E⟩
  | 5 => some ⟨6, 2, 3, false, none⟩
  | 6 => some ⟨6, 3, 1, false, none⟩
  | 7 => some ⟨4, 1, 1, false, none⟩
  | _ => none

/-- Bits of an element by format code (R238). -/
def elemBits (f : Nat) : Nat :=
  match floatFmt f with
  | some x => x.bits
  | none => if f = 9 then 32 else 8

/-- Element bytes of n elements, padded to a whole group or byte (R240). -/
def elemBytes (f n : Nat) : Nat :=
  if elemBits f = 6 then 3 * ((n + 3) / 4) else (n * elemBits f + 7) / 8

/-- Portion bytes of n elements: the elements and, for FP4, one scale byte per block of 32 (R241, R260). -/
def portionBytes (f n : Nat) : Nat := elemBytes f n + if f = 7 then (n + 31) / 32 else 0

/-- The code of element k of packed bytes (R240). -/
def elemAt (f : Nat) (b : Bytes) (k : Nat) : Nat :=
  match elemBits f with
  | 6 => bitsAt (byteField b (3 * (k / 4)) 3) (6 * (k % 4) + 5) (6 * (k % 4))
  | 4 => bitsAt (byteField b (k / 2) 1) (4 * (k % 2) + 3) (4 * (k % 2))
  | w => byteField b (k * (w / 8)) (w / 8)

/-- The scale byte of element k of a portion of n elements (R241, R260). -/
def scaleAt (b : Bytes) (n k : Nat) : Nat := byteField b (elemBytes 7 n + k / 32) 1

/-- Pack element codes (R240). -/
def packElems (f : Nat) (codes : List Nat) : Bytes :=
  leBytes (elemBytes f codes.length)
    (codes.foldr (fun c acc => c + 2 ^ elemBits f * acc) 0)

/-! ## The accumulator -/

/-- A special value (R243). -/
def special (code : Nat) : Acc := BitVec.ofNat 288 (2 ^ 287 + code)
def accNZ : Acc := special 0
def accPInf : Acc := special 1
def accNInf : Acc := special 2
def accNaN : Acc := special 3
def accEmpty : Acc := special 4

/-- The code of a special value; an unwritten one is NAN (R243). -/
def specialOf (a : Acc) : Option Nat :=
  if a.toNat / 2 ^ 263 = 2 ^ 24 then
    (if a.toNat % 2 ^ 263 ≤ 4 then some (a.toNat % 2 ^ 263) else some 3)
  else none

/-- The infinity of a sign. -/
def accInf (neg : Bool) : Acc := if neg then accNInf else accPInf

/-- The accumulator form of a floating element of a format, scaled by 2^(scale - 127) for FP4 (R244). -/
def floatAcc (x : Fmt) (isFp4 : Bool) (code scale : Nat) : Acc :=
  let m := code % 2 ^ x.man
  let emax := 2 ^ (x.bits - 1 - x.man) - 1
  let e := (code >>> x.man) % (emax + 1)
  let neg := bitAt code (x.bits - 1)
  if isFp4 && scale == 255 then accNaN
  else if x.inf && e == emax then (if m = 0 then accInf neg else accNaN)
  else if !x.inf && x.nan == some (code % 2 ^ (x.bits - 1)) then accNaN
  else
    let sig := if e = 0 then m else 2 ^ x.man + m
    let shift := (150 + (max e 1 - 1)) - x.bias - x.man + (if isFp4 then scale else 127) - 127
    let mag := sig <<< shift
    if sig = 0 then (if neg then accNZ else 0)
    else if 2 ^ 277 ≤ mag then accInf neg
    else if neg then BitVec.ofInt 288 (-(mag : Int)) else BitVec.ofNat 288 mag

/-- The accumulator form of an element (R244). -/
def elemAcc (f code scale : Nat) : Acc :=
  match floatFmt f with
  | some x => floatAcc x (f == 7) code scale
  | none => BitVec.ofInt 288 (signedOf (elemBits f) code * 2 ^ 149)

/-- SUM (R245). -/
def accSum (a c : Acc) : Acc :=
  match specialOf a, specialOf c with
  | none, none => a + c
  | none, some 0 => a
  | some 0, none => c
  | none, some _ => c
  | some _, none => a
  | some 0, some _ => c
  | some _, some 0 => a
  | some p, some q => if p = q then a else accNaN

/-- The place of a value in the order of R247; finite values are compared by their integer. -/
def accKey (a : Acc) : Int × Int :=
  match specialOf a with
  | some 1 => (4, 0)
  | some 2 => (0, 0)
  | some 0 => (2, 0)
  | some _ => (5, 0)
  | none => if a.toInt < 0 then (1, a.toInt) else (3, a.toInt)

def accLess (a c : Acc) : Bool :=
  (accKey a).1 < (accKey c).1 || ((accKey a).1 == (accKey c).1 && (accKey a).2 < (accKey c).2)

/-- MIN, or MAX (R247). -/
def accPick (least : Bool) (a c : Acc) : Acc :=
  if specialOf a = some 4 then c
  else if specialOf a = some 3 ∨ specialOf c = some 3 then accNaN
  else if least then (if accLess c a then c else a)
  else (if accLess a c then c else a)

/-- The initial value of a slot (R243, R247, R248). -/
def accInit (red f : Nat) : Acc :=
  match red with
  | 1 => accNZ
  | 2 => accEmpty
  | 3 => accEmpty
  | 4 => BitVec.ofNat 288 (2 ^ elemBits f - 1)
  | _ => 0

/-- One pass of a lane: the contribution with this element code and scale is combined (R244 to R248). -/
def accAdd (red f : Nat) (a : Acc) (code scale : Nat) : Acc :=
  match red with
  | 1 => accSum a (elemAcc f code scale)
  | 2 => accPick true a (elemAcc f code scale)
  | 3 => accPick false a (elemAcc f code scale)
  | 4 => a &&& BitVec.ofNat 288 code
  | 5 => a ||| BitVec.ofNat 288 code
  | _ => a ^^^ BitVec.ofNat 288 code

/-- The contribution is an infinity (R254). -/
def isInf (a : Acc) : Bool := specialOf a == some 1 || specialOf a == some 2

/-! ## Rounding -/

def flagInexact : BitVec 8 := 1
def flagSaturated : BitVec 8 := 2
def flagOverflow : BitVec 8 := 4
def flagNan : BitVec 8 := 8
def flagNanLost : BitVec 8 := 16
def flagUnderflow : BitVec 8 := 32
def flagInfIn : BitVec 8 := 64

/-- mix (R250). -/
def srMix (z : Word) : Word :=
  let z := (z ^^^ (z >>> 30)) * 0xBF58476D1CE4E5B9
  let z := (z ^^^ (z >>> 27)) * 0x94D049BB133111EB
  z ^^^ (z >>> 31)

/-- r of stochastic rounding (R250). -/
def srBits (seed chunk : BitVec 32) (elem : Nat) : Nat :=
  let w : Word := (seed.zeroExtend 64 <<< 32) ||| chunk.zeroExtend 64
  (srMix (srMix w ^^^ BitVec.ofNat 64 elem)).toNat / 2 ^ 32

/-- A magnitude in units of 2^-149 rounded to a mantissa of `man` bits with least unit 2^q0 of those units, exponent
unbounded above, and whether it was exact (R249, R250). `r` holds the stochastic bits. -/
def roundMag (mode man q0 r mag : Nat) : Nat × Bool :=
  let q := max q0 (Nat.log2 mag - man)
  let lo := mag >>> q
  let rem := mag % 2 ^ q
  if rem = 0 then (mag, true)
  else
    let up := match mode with
      | 0 => decide (2 ^ q < 2 * rem) || (decide (2 ^ q = 2 * rem) && lo % 2 == 1)
      | 1 => false
      | _ => decide (2 ^ 32 ≤ rem * 2 ^ 32 / 2 ^ q + r)
    ((if up then lo + 1 else lo) <<< q, false)

/-- The exponent and mantissa code of a representable magnitude (R239). -/
def codeOf (man q0 mag : Nat) : Nat :=
  let t := Nat.log2 mag
  if mag = 0 then 0
  else if t < q0 + man then mag >>> q0
  else ((t - (q0 + man) + 1) <<< man) + ((mag >>> (t - man)) - 2 ^ man)

/-- The greatest finite code without sign of a format (R239). -/
def maxCode (x : Fmt) : Nat :=
  if x.inf then ((2 ^ (x.bits - 1 - x.man) - 1) <<< x.man) - 1
  else match x.nan with
    | some n => n - 1
    | none => 2 ^ (x.bits - 1) - 1

/-- Its magnitude in units of 2^-149. -/
def maxMag (x : Fmt) (q0 : Nat) : Nat :=
  (2 ^ x.man + maxCode x % 2 ^ x.man) <<< (q0 + (maxCode x >>> x.man) - 1)

/-- A finite value written into a floating format (R249, R251). -/
def writeFinite (x : Fmt) (q0 mode r : Nat) (v : Int) : Nat × BitVec 8 :=
  let neg := decide (v < 0)
  let sign := b2n neg <<< (x.bits - 1)
  let (m, exact) := roundMag mode x.man q0 r v.natAbs
  let fx := if exact then 0 else flagInexact
  if maxMag x q0 < m then
    if x.inf ∧ mode ≠ 1 then (sign + ((2 ^ (x.bits - 1 - x.man) - 1) <<< x.man), fx ||| flagOverflow)
    else (sign + maxCode x, fx ||| flagSaturated)
  else (sign + codeOf x.man q0 m, fx ||| if v ≠ 0 ∧ m = 0 then flagUnderflow else 0)

/-- The least unit of a format in units of 2^-149. -/
def unitShift (x : Fmt) : Nat := 150 - x.bias - x.man

/-- A special accumulator written into a floating format other than FP4 (R252). -/
def writeSpecial (x : Fmt) (code : Nat) : Nat × BitVec 8 :=
  let top := 2 ^ (x.bits - 1)
  match code with
  | 0 => (top, 0)
  | 1 => if x.inf then ((2 ^ (x.bits - 1 - x.man) - 1) <<< x.man, 0) else (maxCode x, flagSaturated)
  | 2 => if x.inf then (top + ((2 ^ (x.bits - 1 - x.man) - 1) <<< x.man), 0) else (top + maxCode x, flagSaturated)
  | _ => match x.nan with
    | some n => (n, flagNan)
    | none => (0, flagNan ||| flagNanLost)

/-- One completed element written into a format other than FP4 (R248, R249, R251 to R253). -/
def writeElem (red fin fout mode r : Nat) (a : Acc) : Nat × BitVec 8 :=
  if 4 ≤ red then (a.toNat % 2 ^ elemBits fin, 0)
  else match floatFmt fout with
    | some x => match specialOf a with
      | some c => writeSpecial x c
      | none => writeFinite x (unitShift x) mode r a.toInt
    | none =>
      let w := elemBits fout
      let v : Int := match specialOf a with | some _ => 0 | none => a.toInt / 2 ^ 149
      if v < -(2 ^ (w - 1)) then (2 ^ (w - 1), flagSaturated)
      else if 2 ^ (w - 1) - 1 < v then (2 ^ (w - 1) - 1, flagSaturated)
      else (wrapInt w v, 0)

/-- FP4-E2M1 as a format. -/
def fp4 : Fmt := ⟨4, 1, 1, false, none⟩

/-- One FP4 output block: its scale byte, and the code and flags of each element (R252). -/
def writeBlock (mode : Nat) (l : List (Acc × Nat)) : Nat × List (Nat × BitVec 8) :=
  let sp := l.map fun x => specialOf x.1
  if sp.contains (some 3) then
    (255, sp.map fun x => (0, if x == some 3 then flagNan else 0))
  else
    let infs := sp.any fun x => x == some 1 || x == some 2
    let top := l.foldl (fun m x => match specialOf x.1 with | some _ => m | none => max m x.1.toInt.natAbs) 0
    let k := if infs then 254
      else if top = 0 then 127
      else ((List.range 255).find? fun k => decide (top ≤ 6 <<< (22 + k))).getD 254
    (k, l.map fun x => match specialOf x.1 with
      | some 0 => (8, 0)
      | some 1 => (7, flagSaturated)
      | some 2 => (15, flagSaturated)
      | some _ => (0, flagNan)
      | none => writeFinite fp4 (21 + k) mode x.2 x.1.toInt)

end Sys2Proof.Machine
end

