-- ==== Sys2Proof/Machine/CollOps.lean ====
section
/-! DEFINITION. The shared operations of the collective engine: descriptors (R229 to R235), ranges and portions (R259 to R263),
the Drey (R267 to R269), markers (R273 to R275), chunks (R271) and aborts (R279 to R285). -/

namespace Sys2Proof.Machine

/-! ## Descriptors -/

/-- The transport header of a COLL_DESC frame is valid (R229). -/
def descHdrOk (f : InFrame) : Bool :=
  hdrThl f.hdr == 32 && byteField f.content 0 1 == 1 && byteField f.content 1 1 == 0 && byteField f.content 3 1 < 16
    && byteField f.content 6 26 == 0

/-- The transport header of a COLL_DATA frame is valid (R262). -/
def dataHdrOk (f : InFrame) : Bool :=
  hdrThl f.hdr == 32 && byteField f.content 0 1 == 2 && byteField f.content 1 1 < 2 && byteField f.content 3 1 < 16
    && byteField f.content 7 1 == 0 && byteField f.content 20 12 == 0

/-- SID and FABRIC_ID of a collective frame to the module (R229, R262, R273). -/
def frameSid (f : InFrame) : Nat := byteField f.content 2 2 % 4096
def frameFabric (f : InFrame) : Nat := byteField f.content 4 2

/-- Range of CE_LOG2 by input format (R232). -/
def ceRange : Nat → Nat × Nat
  | 0 => (10, 18)
  | 9 => (10, 18)
  | 1 => (11, 19)
  | 2 => (11, 19)
  | 3 => (12, 20)
  | 4 => (12, 20)
  | 8 => (12, 20)
  | 7 => (13, 21)
  | _ => (13, 20)

/-- The permitted combinations (R255). -/
def pairOk (op red fin fout rm : Nat) : Bool :=
  let fl (f : Nat) := f < 8
  let int (f : Nat) := f == 8 || f == 9
  if op = 6 then red == 0 && fin == 0 && fout == 0 && rm == 0
  else if op = 4 ∨ op = 5 then red == 0 && fin ≤ 9 && fout == fin && rm == 0
  else if 1 ≤ red ∧ red ≤ 3 then
    (fl fin && fl fout && rm ≤ 2) || (int fin && int fout && rm == 0) || (int fin && fout == 0 && rm ≤ 2)
  else 4 ≤ red && red ≤ 6 && int fin && fout == fin && rm == 0

/-- The descriptor in a COLL_DESC frame's data (R230). -/
def parseDesc (b : Bytes) : Desc :=
  { op := byteField b 1 1, red := byteField b 2 1, inFmt := byteField b 3 1, outFmt := byteField b 4 1,
    rmode := byteField b 5 1, cpm := byteField b 6 1, ceLog2 := byteField b 7 1, root := byteField b 8 1,
    epoch := BitVec.ofNat 32 (byteField b 12 4), seed := BitVec.ofNat 32 (byteField b 16 4),
    total := byteField b 24 5 }

def descTensors (b : Bytes) : List Nat := (List.range (byteField b 10 2)).map fun t => byteField b (64 + 8 * t) 8
def descHash (b : Bytes) : Word := BitVec.ofNat 64 (byteField b 32 8)

/-- The descriptor is malformed for a session with these members (R233 step 2); the multiple of 32 is asked of IN_FMT alone (log entry
71). -/
def descMalformed (members : Nat) (b : Bytes) : Bool :=
  let d := parseDesc b
  let n := popCount 128 members
  let nt := byteField b 10 2
  let ts := descTensors b
  b.length < 64 || b.length != 64 + 8 * nt || 64 < nt || byteField b 0 1 != 1 || d.op == 0 || 6 < d.op || 6 < d.red
    || 9 < d.inFmt || 9 < d.outFmt || 2 < d.rmode || byteField b 9 1 != 0 || byteField b 20 4 != 0
    || byteField b 29 3 != 0 || byteField b 40 24 != 0 || (ts.any fun t => t == 0 || 2 ^ 40 ≤ t) || d.total != ts.sum
    || !pairOk d.op d.red d.inFmt d.outFmt d.rmode || (d.seed != 0 && d.rmode != 2)
    || crc64 (patch b 32 (zeros 8)) != (descHash b).toNat
    || (if d.op = 6 then d.ceLog2 != 0 || d.root != 0 || d.cpm != 1 || nt != 0 || d.total != 0
        else
          d.ceLog2 < (ceRange d.inFmt).1 || (ceRange d.inFmt).2 < d.ceLog2 || d.cpm == 0 || 8 < d.cpm
          || (d.cpm != 1 && (d.red == 0 || 3 < d.red))
          || (if d.op = 3 ∨ d.op = 4 then 128 ≤ d.root || !bitAt members d.root else d.root != 0) || d.total == 0
          || ((d.op == 2 || d.op == 5) && d.total % (n * (if d.inFmt = 7 then 32 else 1)) != 0))

/-! ## Ranges and portions (R259 to R261) -/

/-- Chunks of the epoch (R232). -/
def chunkCount (d : Desc) : Nat := if d.op = 6 then 0 else (d.total + 2 ^ d.ceLog2 - 1) / 2 ^ d.ceLog2
/-- First element of a chunk, and the element after its last (R232). -/
def chunkLo (d : Desc) (c : Nat) : Nat := c * 2 ^ d.ceLog2
def chunkHi (d : Desc) (c : Nat) : Nat := min d.total ((c + 1) * 2 ^ d.ceLog2)

/-- The contribution range of the member of rank r on LP lp, as first and end; empty when equal (R259). -/
def contribRange (d : Desc) (n r lp : Nat) : Nat × Nat :=
  match d.op with
  | 4 => if lp = d.root then (0, d.total) else (0, 0)
  | 5 => (r * (d.total / n), (r + 1) * (d.total / n))
  | 6 => (0, 0)
  | _ => (0, d.total)

/-- The result range (R259). -/
def resultRange (d : Desc) (n r lp : Nat) : Nat × Nat :=
  match d.op with
  | 2 => (r * (d.total / n), (r + 1) * (d.total / n))
  | 3 => if lp = d.root then (0, d.total) else (0, 0)
  | 4 => if lp = d.root then (0, 0) else (0, d.total)
  | 6 => (0, 0)
  | _ => (0, d.total)

/-- The part of a range in chunk c (R260). -/
def inChunk (d : Desc) (c : Nat) (r : Nat × Nat) : Nat × Nat :=
  let a := max r.1 (chunkLo d c)
  let b := min r.2 (chunkHi d c)
  if a < b then (a, b) else (a, a)

/-- The reduction operations (R227). -/
def reduces (d : Desc) : Bool := 1 ≤ d.op && d.op ≤ 3

/-- The rank of a member in the roster (R221). -/
def rankOf (l : List Member) (lp : Nat) : Nat := l.findIdx fun m => m.lp == lp

/-- Apply f to the member on an LP. -/
def updMember (l : List Member) (lp : Nat) (f : Member → Member) : List Member :=
  l.map fun m => if m.lp == lp then f m else m

/-- The members by rank of a 128-bit bitmap (R221). -/
def newRoster (members : Nat) : List Member :=
  (bitList 128 members).map fun lp =>
    { lp := lp, known := false, src := 0, dest := 0, tc := 0, accepted := false, nextChunk := 0, nextContrib := 0,
      nextOffset := 0, finished := false, acked := false, got := [] }

/-! ## The Drey (R267, R269) -/

/-- DREY_CAP in KiB: banks in service, those being copied out included (R267, R394, R396). -/
def State.dreyCap (s : State) : Nat :=
  1024 * (((List.range 99).filter fun n => decide (s.dreyRole n = .inService)).length
    + (s.bist.copies.filter fun c => decide (c.1 = .drey)).length)
/-- The open sessions. -/
def State.openSessions (s : State) : List (Nat × Session) :=
  s.coll.sessions.filter fun e => decide (e.2.st ≠ .free)
/-- QUOTA_SUM (R287). -/
def State.quotaSum (s : State) : Nat := ((s.openSessions).map fun e => e.2.quota).sum
/-- Elements of a contribution portion of n that its first bytes hold whole, the scale of each among them (R240, R260). -/
def elemsIn (fmt n bytes : Nat) : Nat :=
  min n (if fmt = 7 then 32 * (bytes - elemBytes 7 n)
    else if elemBits fmt = 6 then 4 * (bytes / 3)
    else 8 * bytes / elemBits fmt)

/-- Staging pages of frames of a portion of n elements of which so many bytes have come: those whose elements are not all added
(R270). -/
def partPages (fmt n bytes : Nat) : Nat :=
  let e := elemsIn fmt n bytes
  let done := if elemBits fmt = 6 then 3 * (e / 4) else e * elemBits fmt / 8
  if done = bytes then 0 else (bytes + 4095) / 4096 - done / 4096

/-- Staging pages that the frames of a chunk hold: until their elements are added, and for BROADCAST and ALL_GATHER until the chunk
has been forwarded (R270; log entry 28). -/
def Chunk.pages (d : Desc) (ch : Chunk) : Nat :=
  if reduces d then (ch.parts.map fun p => partPages d.inFmt (chunkHi d ch.num - chunkLo d ch.num) p.2.length).sum
  else if ch.finished && ch.toPass == 0 then 0
  else ((ch.parts ++ ch.staged).map fun p => (p.2.length + 4095) / 4096).sum

/-- KiB of the staging reserve that frames hold (R270). -/
def State.stageUsed (s : State) : Nat :=
  ((s.openSessions).map fun e => match e.2.desc with
    | some d => 4 * (e.2.chunks.map (Chunk.pages d)).sum
    | none => 0).sum
/-- KiB of the staging reserve that are free, of what is left when the capacity does not cover the open quotas (R270, R396). -/
def State.stageLeft (s : State) : Nat := min s.coll.stageKib (s.dreyCap - s.quotaSum) - s.stageUsed
/-- USED (R287). -/
def State.dreyUsed (s : State) : Nat := ((s.openSessions).map fun e => e.2.chunks.length * e.2.need).sum + s.stageUsed

/-- Round up to a multiple of m. -/
def ceilTo (m n : Nat) : Nat := (n + m - 1) / m * m

/-- Need of a chunk in KiB, whether the epoch retains, and the depth D (R269). -/
def dreyPlan (retainCfg : Bool) (q n : Nat) (d : Desc) : Nat × Bool × Nat :=
  let o := portionBytes d.inFmt (2 ^ d.ceLog2)
  let a := 2 ^ d.ceLog2 / 256 * 9
  let t := (n * d.cpm * o + 1023) / 1024
  let k := chunkCount d
  let retain := reduces d && retainCfg && (decide (2 * (a + t) ≤ q) || (k == 1 && decide (a + t ≤ q)))
  let need := if reduces d then (if retain then a + t else a)
    else if d.op = 4 then ceilTo 4096 o / 1024
    else if d.op = 5 then ceilTo 4096 o / 1024 + 4 * (n - 1)
    else 0
  (need, retain, if need = 0 then 0 else min (min 8 k) (q / need))

/-- Clusters that may make a pass: in service, not under test, no failed residue (R256, R268, R277). -/
def State.clusters (s : State) : List Nat :=
  (List.range 26).filter fun n =>
    decide (s.rcRole n = .inService) && !s.underTest (64 + n) && !s.coll.residueBad.contains n

/-- Count n cluster cycles of an engine slot event on a cluster the engine places the group on, of which the manual gives
no rule: a free value chooses it; the pass is a context for samples (R268, R408, R415; log entry 5). -/
def State.countPass (s : State) (code n sid chunk : Nat) : State :=
  let l := s.clusters
  if l.isEmpty then s
  else
    let (w, s) := s.draw
    let k := l.getD (w.toNat % l.length) 0
    let s := (s.countGlobal code none (some k) n).countGlobal 0x3100 none (some k) n
    s.ctxUnit 3 k (.engine sid k chunk)

/-- Count passes of that many slot groups. -/
def countPasses : Nat → Nat → Nat → Nat → Nat → State → State
  | 0, _, _, _, _, s => s
  | g + 1, code, n, sid, chunk, s => countPasses g code n sid chunk (s.countPass code n sid chunk)

/-! ## Markers (R266, R273 to R275) -/

/-- The transport header of a COLL_CTRL frame (R273). -/
def ctrlBytes (kind early sid fabric aflags epoch arg0 arg1 status detail beat : Nat) : Bytes :=
  leBytes 1 kind ++ leBytes 1 early ++ leBytes 2 sid ++ leBytes 2 fabric ++ leBytes 1 aflags ++ zeros 1 ++ leBytes 4 epoch
    ++ leBytes 4 arg0 ++ leBytes 4 arg1 ++ leBytes 2 status ++ leBytes 2 detail ++ leBytes 6 beat ++ zeros 2

/-- SRC and class of a member's flow; free values while it has sent no descriptor (R266; log entry 5). -/
def State.flowOf (s : State) (m : Member) : (BitVec 16 × Nat) × State :=
  if m.known then ((m.src, m.tc), s)
  else
    let (w, s) := s.draw
    ((w.truncate 16, wbits w 18 16), s)

/-- Queue a marker to a member (R266, R273). -/
def State.marker (s : State) (sid : Nat) (m : Member) (kind aflags arg0 arg1 status detail : Nat) : State :=
  let x := s.session sid
  let (fl, s) := s.flowOf m
  s.sendAgent (agentFrame 1 m.lp fl.2 6 2 fl.1 s.side.fabricId 0
    (ctrlBytes kind (b2n x.early) sid s.side.fabricId.toNat aflags x.epoch.toNat arg0 arg1 status detail
      s.beat.count.toNat))

/-- Count a frame discarded under R233 step 1 or R264 step 1 (R287, R406). -/
def State.countDiscard (s : State) : State :=
  { s with coll := { s.coll with discarded := satAdd 0xFFFF s.coll.discarded 1 } }.countGlobal 0x3003 none none 1

/-- Discard a collective frame: its cells are freed and it is counted. -/
def State.dropColl (s : State) (lp : Nat) (f : InFrame) : State := (s.freeFrame lp f).countDiscard

/-- A frame of another module, by its header, its route or because this module has no FABRIC_ID (R275). -/
def State.isForeign (s : State) (foreign : Bool) (f : InFrame) : Bool :=
  foreign || s.side.fabricId == 0xFFFF || frameFabric f != s.side.fabricId.toNat

/-- The FOREIGN marker that answers a frame (R275). -/
def State.foreignMarker (s : State) (lp : Nat) (f : InFrame) : State :=
  let isData := f.hdr.ftype == 4
  let epoch := if isData then byteField f.content 8 4
    else if 32 + 16 ≤ (frameBytes f).length then byteField f.content (32 + 12) 4 else 0
  let arg1 := if isData then byteField f.content 12 4 else 0xFFFFFFFF
  let s := s.dropColl lp f
  s.sendAgent (agentFrame 1 lp f.hdr.tc.toNat 6 2 f.hdr.src s.side.fabricId 0
    (ctrlBytes 0x14 0 (byteField f.content 2 2) s.side.fabricId.toNat 0 epoch (frameFabric f) arg1 0
      (byteField f.content 0 1 + 256 * lp) s.beat.count.toNat))

/-! ## Ends of epochs and sessions -/

/-- Complete the SESSION_CLOSE of a session (R110, R285). -/
def State.closeDone (s : State) (sid : Nat) (st : BitVec 8) (detail : Nat) : State :=
  s.finishWork (fun w => decide (w = .close sid)) st detail []

/-- The session becomes FREE: all its words read as after reset (R285). -/
def State.freeSession (s : State) (sid : Nat) : State := s.setSession sid defaultSession

/-- Discard the frames of a session that wait at the entry; those of another module keep waiting for their answer (R275, R281,
R285). -/
def State.dropEntry (s : State) (sid : Nat) : State :=
  let mine (x : Diverted) := frameSid x.frame == sid && (x.frame.hdr.ftype == 3 || x.frame.hdr.ftype == 4)
    && !s.isForeign x.foreign x.frame
  let gone := s.coll.entry.filter mine
  let s := { s with coll := { s.coll with entry := s.coll.entry.filter fun x => !mine x } }
  gone.foldl (fun s x => s.dropColl x.lp x.frame) s

/-- The result frames of an epoch that have left whole and await their report count as received (R271, R280; log entry
19). -/
def State.settleChecking (s : State) (sid : Nat) : State :=
  let mine (a : AgentFrame) := a.sid == sid && decide (a.epoch = (s.session sid).epoch)
  let left := s.sw.checking.filter mine
  let s := { s with sw := { s.sw with checking := s.sw.checking.filter fun a => !mine a } }
  left.foldl (fun s a =>
    let x := s.session sid
    let s := s.sentWhole a.lp a.hdr a.content
    s.setSession sid { x with roster := updMember x.roster a.lp fun m => { m with got := addSorted m.got a.chunk } }) s

/-- Take the result frames of an epoch off the queues; one partly sent is stomped with FORMAT (R280 step 3). -/
def State.dropResults (s : State) (sid : Nat) : State :=
  let mine (a : AgentFrame) := a.result && a.sid == sid && decide (a.epoch = (s.session sid).epoch)
  let s := { s with sw := { s.sw with agentOut := s.sw.agentOut.filter fun a => !mine a } }
  (s.session sid).roster.foldl (fun s m =>
    match s.currentOf m.lp with
    | none => s
    | some c =>
      match c.agent with
      | none => s
      | some a =>
        if !mine a then s
        else if c.sent = 0 then
          (s.addReserved m.lp c.st.hdr.tc.toNat (-(hdrCount c.st.hdr : Int))).setCurrent m.lp none
        else s.stompCurrent m.lp 0xC none) s

/-- The RETRACT of a member, when it is due (R280 step 4, R282). -/
def State.retract (s : State) (sid : Nat) (m : Member) : State :=
  let x := s.session sid
  if !x.early || m.got.isEmpty then s
  else
    let s := s.setSession sid { x with retractions := x.retractions + 1 }
    let s := s.countGlobal 0x3006 none none 1
    s.marker sid m 0x12 0 (m.got.headD 0) (m.got.getLastD 0) 0x42 0

/-- STATUS and DETAIL of an abort (R279): reason 0x40 stands for MISMATCH. -/
def abortCode (reason : Nat) (lp : Option Nat) : Nat × Nat :=
  if reason = 0x40 then (0x40, lp.getD 0) else (0x41, reason + 256 * lp.getD 0xFF)

/-- Count an abort cause (R280, R406). -/
def State.countAbort (s : State) (reason : Nat) : State := s.countGlobal 0x3004 none (some reason) 1

/-- An epoch aborts (R280); while the session is ABORTED a further cause is only counted, and a CLOSING session becomes FREE
without waiting (R285). An IDLE session aborts the epoch it would begin (R284; log entry 20). -/
def State.abortEpoch (s : State) (sid reason : Nat) (lp : Option Nat) : State :=
  let x := s.session sid
  if x.st = .free then s
  else if x.st = .aborted then s.countAbort reason
  else
    let idle := decide (x.st = .idle)
    let closing := decide (x.st = .closing)
    let (st, detail) := abortCode reason lp
    let s := s.countAbort reason
    let s := if idle then s.setSession sid { x with epoch := x.epoch + 1, low := 0, descSeen := 0, epochFlags := 0 } else (s.settleChecking sid).dropResults sid
    let x := s.session sid
    let committed := if reason = 0x40 then 0 else x.low
    let s := x.roster.foldl (fun s m =>
      (if reason = 0x40 then s else s.retract sid m).marker sid m 0x13 0 committed 0 st detail) s
    let s := s.dropEntry sid
    let x := s.session sid
    if closing then ((s.freeSession sid).closeDone sid (BitVec.ofNat 8 st) detail)
    else s.setSession sid { x with
      st := .aborted, lastStatus := BitVec.ofNat 16 st, detail := BitVec.ofNat 16 detail, chunks := [], depth := 0
      need := 0, barrierWaits := false, refValid := false
      roster := x.roster.map fun m => { m with accepted := false, finished := false, acked := false, got := [] } }

/-- The epoch ends (R271, R272): EPOCH_DONE to every member, then IDLE, or FREE when the session is CLOSING. -/
def State.endEpoch (s : State) (sid : Nat) : State :=
  let x := s.session sid
  let n := match x.desc with | some d => chunkCount d | none => 0
  let s := x.roster.foldl (fun s m => s.marker sid m 0x11 x.epochFlags.toNat n 0 0 0) s
  let x := s.session sid
  if x.st = .closing then ((s.dropEntry sid).freeSession sid).closeDone sid stOk 0
  else s.setSession sid { x with
    st := .idle, lastStatus := 0, detail := 0, chunks := [], depth := 0, need := 0, barrierWaits := false, refValid := false
    roster := x.roster.map fun m => { m with accepted := false, finished := false, got := [] } }

/-- A member's port has gone down: every open session with a member on the LP aborts (R165, R284). -/
def State.collLost (s : State) (lp : Nat) : State :=
  (s.openSessions.filter fun e => bitAt e.2.members.toNat lp).foldl (fun s e => s.abortEpoch e.1 5 (some lp)) s

/-- After the collective scope has begun every open epoch has aborted with RESET and its markers are queued (R285, R451). -/
def State.collResetAborts (s : State) : State :=
  (s.openSessions.filter fun e => [SessSt.gathering, .running, .closing].contains e.2.st).foldl
    (fun s e => s.abortEpoch e.1 0xC none) s

/-! ## Chunks (R271) -/

/-- Add k elements, from element e on, of a portion of n elements whose first stands at slot base (R241, R244, R245). -/
def addElems (d : Desc) (b : Bytes) (n base : Nat) : Nat → Nat → Chunk → Chunk
  | 0, _, ch => ch
  | k + 1, e, ch =>
    let code := elemAt d.inFmt b e
    let scale := if d.inFmt = 7 then scaleAt b n e else 127
    let old := sget ch.slots (base + e) (accInit d.red d.inFmt)
    let ch := { ch with slots := sput ch.slots (base + e) (accAdd d.red d.inFmt old code scale) (accInit d.red d.inFmt) }
    let ch := if d.red < 4 && isInf (elemAcc d.inFmt code scale) then { ch with infs := addSorted ch.infs (base + e) } else ch
    addElems d b n base k (e + 1) ch

/-- A new chunk (R271). -/
def newChunk (c : Nat) (beatSync : Bool) : Chunk :=
  { num := c, slots := [], infs := [], parts := [], portions := 0, staged := [], retained := [], complete := false,
    released := !beatSync, finished := false, flags := 0, toPass := 0, targets := [] }

/-- Portions that a chunk needs to be complete (R259, R271). -/
def portionsOf (d : Desc) (roster : List Member) (c : Nat) : Nat :=
  let n := roster.length
  d.cpm * (roster.filter fun m =>
    let p := inChunk d c (contribRange d n (rankOf roster m.lp) m.lp)
    decide (p.1 < p.2)).length

/-- The bytes of a portion in a list by key. -/
def partOf (l : List (Nat × Bytes)) (k : Nat) : Bytes := ((l.find? fun x => x.1 == k).map (·.2)).getD []

/-- A frame's data joins its portion: the elements that it completes are added, or for BROADCAST and ALL_GATHER the whole portion is
staged (R241, R268, R270, R271). -/
def Chunk.take (ch : Chunk) (d : Desc) (roster : List Member) (lp contrib : Nat) (retain : Bool) (data : Bytes)
    (last : Bool) : Chunk :=
  let r := rankOf roster lp
  let k := 8 * r + contrib
  let old := partOf ch.parts k
  let b := old ++ data
  let p := inChunk d ch.num (contribRange d roster.length r lp)
  let n := p.2 - p.1
  let have0 := elemsIn d.inFmt n old.length
  let have1 := if last then n else elemsIn d.inFmt n b.length
  let ch := { ch with parts := (ch.parts.filter fun x => x.1 != k) ++ (if last then [] else [(k, b)]) }
  let ch := if reduces d then addElems d b n (p.1 - chunkLo d ch.num) (have1 - have0) have0 ch else ch
  if !last then ch
  else
    let ch := { ch with portions := ch.portions + 1 }
    let ch := if !reduces d then { ch with staged := ch.staged ++ [(r, b)] }
      else if retain then { ch with retained := ch.retained ++ [(k, b)] }
      else ch
    { ch with complete := decide (portionsOf d roster ch.num ≤ ch.portions) }

/-- Slot groups of a chunk to which a frame's data completes a contribution (R268). -/
def groupsAdded (d : Desc) (c old new : Nat) (last : Bool) : Nat :=
  let n := chunkHi d c - chunkLo d c
  (if last then (n + 255) / 256 else elemsIn d.inFmt n new / 256) - elemsIn d.inFmt n old / 256

/-- The element codes and scale bytes of a chunk of BROADCAST or ALL_GATHER, in stream order (R260). -/
def stagedElems (d : Desc) (roster : List Member) (ch : Chunk) : List (Nat × Nat) :=
  (roster.map fun m =>
    let r := rankOf roster m.lp
    let p := inChunk d ch.num (contribRange d roster.length r m.lp)
    let b := partOf ch.staged r
    (List.range (p.2 - p.1)).map fun k =>
      (elemAt d.inFmt b k, if d.inFmt = 7 then scaleAt b (p.2 - p.1) k else 127)).flatten

/-- Split a list into blocks of at most m. -/
def blocksOf {α : Type} (m : Nat) : Nat → List α → List (List α)
  | 0, _ => []
  | n + 1, l => if l.isEmpty then [] else l.take m :: blocksOf m n (l.drop m)

/-- A result portion: its bytes and the flags of its elements, for stream elements a to b - 1 of chunk ch (R250, R252, R254,
R260). -/
def resultPortion (d : Desc) (roster : List Member) (ch : Chunk) (a b : Nat) : Bytes × List (BitVec 8) :=
  let lo := chunkLo d ch.num
  let n := b - a
  if reduces d then
    let elems := (List.range n).map fun k =>
      let e := a - lo + k
      (sget ch.slots e (accInit d.red d.inFmt), srBits d.seed (BitVec.ofNat 32 ch.num) e,
       if ch.infs.contains e then flagInfIn else (0 : BitVec 8))
    if d.outFmt = 7 then
      let blocks := (blocksOf 32 n elems).map fun bl => writeBlock d.rmode (bl.map fun x => (x.1, x.2.1))
      let codes := (blocks.map (·.2)).flatten
      (packElems 7 (codes.map (·.1)) ++ (blocks.map fun x => BitVec.ofNat 8 x.1),
       (codes.zip elems).map fun x => x.1.2 ||| x.2.2.2)
    else
      let w := elems.map fun x => (writeElem d.red d.inFmt d.outFmt d.rmode x.2.1 x.1, x.2.2)
      (packElems d.outFmt (w.map fun x => x.1.1), w.map fun x => x.1.2 ||| x.2)
  else
    let el := ((stagedElems d roster ch).drop (a - lo)).take n
    (packElems d.inFmt (el.map (·.1))
      ++ (if d.inFmt = 7 then (blocksOf 32 n el).map fun x => BitVec.ofNat 8 (x.headD (0, 127)).2 else []),
     List.replicate n 0)

/-- OR of flags. -/
def orFlags (l : List (BitVec 8)) : BitVec 8 := l.foldl (· ||| ·) 0

/-- FRAME_FLAGS of the elements with a bit in bytes o to o + n - 1 of a portion's element bytes (R265). -/
def frameFlags (fmt : Nat) (flags : List (BitVec 8)) (o n : Nat) : BitVec 8 :=
  let w := elemBits fmt
  orFlags ((flags.drop (8 * o / w)).take ((8 * (o + n) + w - 1) / w - 8 * o / w))

/-- The COLL_RESULT frames of a portion to a member (R261, R265, R266). -/
def resultFrames (s : State) (sid : Nat) (x : Session) (d : Desc) (c first : Nat) (m : Member) (b : Bytes)
    (flags : List (BitVec 8)) : List AgentFrame :=
  let total := (b.length + 4095) / 4096
  (List.range total).map fun k =>
    let data := slice b (4096 * k) 4096
    let fl := if reduces d then frameFlags d.outFmt flags (4096 * k) data.length else 0
    let hdr := leBytes 1 3 ++ leBytes 1 (b2n (decide (k + 1 = total)) + 4 * b2n x.early) ++ leBytes 2 sid
      ++ leBytes 2 s.side.fabricId.toNat ++ leBytes 1 fl.toNat ++ zeros 1 ++ leBytes 4 x.epoch.toNat ++ leBytes 4 c
      ++ leBytes 4 (4096 * k) ++ zeros 4 ++ leBytes 8 first
    { agentFrame 1 m.lp m.tc 5 2 m.src s.side.fabricId 0 (hdr ++ data) with
      sid := sid, epoch := x.epoch, chunk := c, result := true }

/-- Finish a complete chunk: form its result portions and queue their frames (R271). -/
def State.finishChunk (s : State) (sid : Nat) (ch : Chunk) : State :=
  let x := s.session sid
  match x.desc with
  | none => s
  | some d =>
    let n := x.roster.length
    let outs := x.roster.filterMap fun m =>
      let rr := resultRange d n (rankOf x.roster m.lp) m.lp
      let p := inChunk d ch.num rr
      if p.1 < p.2 then some (m, rr, p) else none
    let parts := outs.map fun o =>
      let (b, fl) := resultPortion d x.roster ch o.2.2.1 o.2.2.2
      (o.1, resultFrames s sid x d ch.num (o.2.2.1 - o.2.1.1) o.1 b fl, orFlags fl)
    let flags := orFlags (parts.map fun p => p.2.2)
    let frames := (parts.map fun p => p.2.1).flatten
    let ch' := { ch with
      finished := true, flags := flags, toPass := frames.length, targets := parts.map fun p => p.1.lp }
    let s := frames.foldl (fun s f => s.sendAgent f) s
    let s := s.setSession sid { x with
      epochFlags := x.epochFlags ||| flags
      chunks := x.chunks.map fun y => if y.num == ch.num then ch' else y }
    if reduces d then countPasses ((chunkHi d ch.num - chunkLo d ch.num + 255) / 256) 0x3102 4 sid ch.num s else s

/-- After a commit or a close: a CLOSING epoch without open chunks that has chunks left aborts with CLOSED; so does a
BARRIER that still gathers (R285). -/
def State.closeCheck (s : State) (sid : Nat) : State :=
  let x := s.session sid
  if x.st = .closing ∧ x.chunks = [] ∧ ¬ x.barrierWaits then s.abortEpoch sid 0xA none else s

/-- Commit the lowest chunk, when all its result frames have passed (R271, R272). -/
def State.commitChunk (s : State) (sid : Nat) (ch : Chunk) : State :=
  let x := s.session sid
  let s := (x.roster.filter fun m => ch.targets.contains m.lp).foldl
    (fun s m => s.marker sid m 0x10 ch.flags.toNat ch.num 0 0 0) s
  let x := s.session sid
  let s := s.setSession sid { x with
    chunks := x.chunks.filter fun y => y.num != ch.num
    low := ch.num + 1, committedAll := x.committedAll + 1
    roster := x.roster.map fun m => { m with got := m.got.filter fun c => c != ch.num } }
  let s := s.countGlobal 0x3005 none none 1
  match x.desc with
  | none => s
  | some d => if ch.num + 1 = chunkCount d then s.endEpoch sid else s.closeCheck sid

/-- Beat-synchronous release (R286): at a boundary on the release grid, complete chunks are released and waiting barriers
end. -/
def State.beatSyncRelease (s : State) : State :=
  if s.beat.count.toNat % 2 ^ s.coll.syncLog2.toNat ≠ 0 then s
  else (s.openSessions.filter fun e => e.2.beatSync).foldl (fun s e =>
    let x := s.session e.1
    if x.barrierWaits then s.endEpoch e.1
    else s.setSession e.1 { x with
      chunks := x.chunks.map fun c => if c.complete then { c with released := true } else c }) s

/-! ## Damage (R277, R278) -/

/-- An epoch is in progress (R222). -/
def Session.current (x : Session) : Bool := x.st == .gathering || x.st == .running

/-- A slot group or page of an open chunk is damaged: the group is recomputed from the retained operands, or the epoch aborts with
CHUNK_LOST; the cluster or the bank at fault is noted for Burrow (R277, R278, R393). -/
def State.damageGroup (s : State) (sid chunk group : Nat) (kind : DamageKind) : State :=
  let x := s.session sid
  if !(x.current || x.st == .closing) then s
  else match x.chunks.find? (fun c => c.num == chunk), x.desc with
    | some _, some d =>
      if (chunkHi d chunk - chunkLo d chunk + 255) / 256 ≤ group then s
      else
        let s := match kind with
          | .residue k =>
            { s with coll := { s.coll with residueSeen := true, residueBad := addSorted s.coll.residueBad k } }
          | .slotEcc bank | .pageEcc bank => { s.bankUe .drey bank with coll := { s.coll with ueSeen := true } }
        let lost := match kind with
          | .pageEcc _ => true
          | _ => !x.retain
        if !lost then
          { s with coll := { s.coll with recomputes := satAdd 0xFFFF s.coll.recomputes 1 } }.countPass 0x3103
            (x.roster.length * d.cpm) sid chunk
        else s.abortEpoch sid 7 none
    | _, _ => s

end Sys2Proof.Machine
end

