-- ==== Sys2Proof/Machine/RecoveryOps.lean ====
section
/-! DEFINITION. The shared operations of ports that go down and come up: stripe states (R325, R356), the hold rule (R165 to
R169), link-up (R136, R168) and failed attempts (R340). -/

namespace Sys2Proof.Machine

/-! ## Stripes -/

/-- The physical data lanes of a stripe (R301). -/
def stripeLanes (split : Bool) (sd : Side) : List Nat :=
  if !split then [0, 1, 2, 3, 4, 5, 6, 7] else match sd with | .a => [0, 1, 2, 3] | .b => [4, 5, 6, 7]

/-- The stripe that carries a data lane. -/
def laneSide (split : Bool) (lane : Nat) : Side := if split && 4 ≤ lane then .b else .a

/-- The TX lanes of a stripe in this state are powered (R325). -/
def StripeSt.powered (st : StripeSt) : Bool := st == .send || st == .align || st == .exchange || st == .up

/-- Clear the bits of the listed lanes. -/
def clearLanes (m : BitVec 10) (l : List Nat) : BitVec 10 := m &&& ~~~(BitVec.ofNat 10 (maskOf l))

/-- The TX lanes that power up when a stripe does: its data lanes, and the spare and the clock when no stripe of the port is powered
yet; each starts at RD- (R298). -/
def PortSt.powerUp (p : PortSt) (sd : Side) : PortSt :=
  let others := p.sides.any fun x => x != sd && (p.stripe x).st.powered
  { p with txRd := clearLanes p.txRd (stripeLanes p.split sd ++ (if others then [] else [8, 9])), spOff := p.spOff && others }

/-- The stripe enters a state; what waited for its lanes is gone, lanes that power up start at RD-, and STATE_BEAT and, into or out of
UP, the link change follow (R298, R354, R431, R440). -/
def State.setStripeSt (s : State) (port : Nat) (sd : Side) (st : StripeSt) : State :=
  let p := s.port port
  let x := p.stripe sd
  if x.st = st then s
  else
    let p' := if st.powered && !x.st.powered then p.powerUp sd else p
    let s' := s.setPort port { p'.setStripe sd { x with st := st, txLine := [], txPart := [], readOwed := false, rtOwed := false } with stateBeat := s.beat.count }
    if x.st = .up ∨ st = .up then s'.linkChanged port else s'

/-- Presence of a port (R433). -/
def State.present (s : State) (port : Nat) : Bool :=
  let m := s.mmb (port / 8)
  m.seated && (m.busFault || bitAt m.cables.toNat (port % 8))

/-- The preset entry that a cable identity selects (R312). -/
def State.choosePreset (s : State) (valid : Bool) (media cls len : Nat) : Nat :=
  if !valid then 0
  else ((List.range 64).find? fun k =>
    let e := s.entry 5 k
    k != 0 && bitAt e 63 && (bitsAt e 62 60 == media || bitsAt e 62 60 == 0) && (bitsAt e 59 52 == cls || bitsAt e 59 52 == 0xFF)
      && decide (bitsAt e 51 44 ≤ len) && decide (len ≤ bitsAt e 43 36)).getD 0

/-- The identity page of an ACTIVE cable and the number of its re-timers (R311, R434, R435). -/
def PortSt.retimers (p : PortSt) : Option (Bytes × Nat) :=
  match p.cable with
  | none => none
  | some b => if p.cartMedia = 2 ∨ p.cartMedia = 3 then some (b, min 2 (byteField b 3 1)) else none

/-- The port has re-timers to restart before SEND (R435). -/
def PortSt.hasRetimers (p : PortSt) : Bool := p.retimers.any fun x => x.2 != 0

/-- What an attempt of a stripe that was x still needs before it sends: the pages read again, when it starts from DISABLED, ABSENT or
BACKOFF and has not had them read, else the writes to its re-timers (R435; log entry 66). -/
def PortSt.prepare (p : PortSt) (sd : Side) (x : Stripe) : PortSt :=
  let starts := x.st == .disabled || x.st == .absent || x.st == .backoff
  p.setStripe sd { p.stripe sd with
    readOwed := starts && !x.identFresh, rtOwed := !starts && p.hasRetimers, identFresh := false }

/-- Latch the preset for a training attempt from the identity last read (R312, R435). -/
def State.latchPreset (s : State) (port : Nat) : State :=
  let p := s.port port
  let k := s.choosePreset p.cartValid p.cartMedia p.cartClass p.cartLen
  s.setPort port { p with presetUsed := k, preset := mkEntry (s.entry 5 k) }

/-- A stripe that starts to hunt (R333, R352). -/
def Stripe.hunt (x : Stripe) (first : Nat) : Stripe :=
  { x with
    txw := 0, rxw := 0, rxFirst := first, txFirst := first, energySeen := false, locked := 0, spWant := 15
    aligned := false, rtts := [], lastEcho := none, readySeen := 0, peerAligned := false, resumed := false
    trainRun := 0, zSeen := false, discarding := false, skip := 0, partFlit := [], flits := [], peerTSyms := false
    arrivals := [], initOwed := false }

/-- Lane changes of a stripe end. -/
def dropJob (sd : Side) : Option LaneJob → Option LaneJob
  | some j => if j.side = sd ∨ j.lane = 9 then none else some j
  | none => none

/-- The training record that a stripe sends in a phase (R331): TURN runs from the arrival of the STAMP that it echoes. -/
def State.sentRecord (s : State) (port : Nat) (sd : Side) (phase : Nat) : SentRec :=
  let p := s.port port
  let x := p.stripe sd
  { phase := phase, split := p.split, rxAligned := x.aligned, replayValid := x.replayValid, ckOnSp := p.ckOnSp,
    tSyms := (List.range 3).all fun k => bitAt (s.entry 4 (265 + k)) 31,
    localEpoch := x.localEpoch, peerEpoch := x.peerEpoch, rxNext := x.rxNext, rxLanes := x.locked.toNat % 256,
    spWant := if p.ckOnSp then 9 else x.spWant, rxWidth := x.rxw, rxFirst := x.rxFirst, blockCount := x.blocks,
    stamp := s.power.time, echoStamp := x.stampIn, turn := s.power.time - x.stampAt }

/-- The phase that the state of a stripe gives its records: 5 READY once it has met R336 and R337 and the partner shows
RX_ALIGNED, and while it is UP (R331, R339). -/
def State.phaseOf (s : State) (x : Stripe) : Nat :=
  match x.st with
  | .align => 3
  | .exchange => if x.peerAligned ∧ s.timing 6 ≤ x.rtts.length then 5 else 4
  | .up => 5
  | _ => 2

/-- The training blocks that a stripe in training sends (R330). -/
def State.sendTraining (s : State) (port : Nat) (sd : Side) : State :=
  let x := (s.port port).stripe sd
  if x.readOwed || x.rtOwed then s else s.emit (.trainingBlocks port sd (s.sentRecord port sd (s.phaseOf x)))

/-- The roles of the spare lanes change (R354, R440). -/
def State.setTxSp (s : State) (port role : Nat) : State :=
  if (s.port port).txSp = role then s else (s.updPort port fun p => { p with txSp := role }).linkChanged port
def State.setRxSp (s : State) (port role : Nat) : State :=
  if (s.port port).rxSp = role then s else (s.updPort port fun p => { p with rxSp := role }).linkChanged port

/-- A stripe enters SEND (R299, R312, R340, R352, R356): the attempt is counted and every lane is hunted again with the width full
and the spare idle; the clock is hunted again when no stripe of the port is UP. -/
def State.enterSend (s : State) (port : Nat) (sd : Side) : State :=
  let before := (s.port port).stripe sd
  let s := (s.setStripeSt port sd .send).latchPreset port
  let p := s.port port
  let lanes := stripeLanes p.split sd
  let p := (p.setStripe sd ((p.stripe sd).hunt (lanes.headD 0))).prepare sd before
  let other := p.anyUp
  let freed (sp : Nat) := if other && !lanes.contains sp then sp else 15
  let gone := if other then lanes else 8 :: 9 :: lanes
  let tx := freed p.txSp
  let rx := freed p.rxSp
  let p := { p with
    attempts := satAdd (2 ^ 32 - 1) p.attempts 1
    clockLocked := other && p.clockLocked, ckOnSp := other && p.ckOnSp
    txDropped := clearLanes p.txDropped gone, rxDropped := clearLanes p.rxDropped gone
    txJob := dropJob sd p.txJob, rxJob := dropJob sd p.rxJob, spOff := other && p.spOff }
  let p := gone.foldl (fun (p : PortSt) k => p.setLane k { p.lane k with rd := none }) p
  (((s.setPort port p).setTxSp port tx).setRxSp port rx).sendTraining port sd

/-- The replay state of an LP is lost (R326). -/
def Stripe.dropReplay (x : Stripe) : Stripe :=
  { x with
    replayValid := false, txNext := 0, acked := 0, replay := [], noProgress := 0, rxNext := 0, discarding := false
    skip := 0, ackOwed := false, resumed := false }

def State.dropReplay (s : State) (lp : Nat) : State := s.setLpStripe lp (s.lpStripe lp).dropReplay

/-- The next link epoch, skipping 0xFFFF (R338). -/
def nextLinkEpoch (e : BitVec 16) : BitVec 16 := if e = 0xFFFE ∨ e = 0xFFFF then 0 else e + 1

/-- A failed attempt (R340, R355): counted, and the stripe backs off. -/
def State.failAttempt (s : State) (port : Nat) (sd : Side) (code : Nat) : State :=
  let s := s.updPort port fun p => { p with
    lastFail := code, trainFails := satAdd 255 p.trainFails 1, backoffExp := min 15 (p.backoffExp + 1) }
  s.setStripeSt port sd .backoff

/-! ## A port that goes down (R165, R166) -/

/-- The credits of an LP are cleared and those at its sender taken back (R136, R137). -/
def State.clearCredits (s : State) (lp : Nat) : State :=
  let s := { s with sw := { s.sw with initSeen := sput s.sw.initSeen lp false false } }
  (List.range 8).foldl (fun s c =>
    let k := lpTc lp c
    let s0 := s.sw.sharedFree
    let s := { s with sw := { s.sw with
      credits := sput s.sw.credits k 0 0, pendingCredit := sput s.sw.pendingCredit k 0 0 } }
    let s := s.setCells k (sget s.sw.held k 0) 0
    payOwed (s.sw.sharedFree - s0).toNat s) s

/-- The frame that was still arriving from an LP is lost: discarded with reason 0xA, or stomped with INGRESS_LOST; its later
flits are dropped (R165). -/
def State.loseArriving (s : State) (lp : Nat) : State :=
  match s.arrivingOf lp with
  | .none => s
  | .dropping => s
  | .waiting =>
    match s.sw.heads.reverse.find? fun x => x.1 == lp with
    | none => s.setArriving lp .dropping
    | some (_, _, f) =>
      let heads := (dropFirst (fun x : Nat × Bool × InFrame => x.1 == lp) s.sw.heads.reverse).reverse
      ({ s with sw := { s.sw with heads := heads } }.discardHead lp f 0xA).setArriving lp .dropping
  | .admitted id => (s.faultFrame id 0xA 0x9 none).setArriving lp .dropping
  | .diverted d => (s.discardHead lp d.frame 0xA).setArriving lp .dropping

/-- Count the frames that a port loss holds (R406). -/
def State.countHolding (s : State) (lp : Nat) : State :=
  (s.sw.frames.filter fun q => q.outLp == lp && q.inLp != lp).foldl (fun s q => s.countLp lp 0x010F (some q.tc) none 1) s

/-- The LP was UP and goes down: its hold begins (R165, R166). -/
def State.lpDown (s : State) (lp : Nat) : State :=
  let s := ((s.clearCredits lp).loseArriving lp).countHolding lp
  let r := s.recovOf (lpPort lp)
  let e : Beat := s.beat.count + r.holdBeats.zeroExtend 48 + 1
  let r := match lpSide lp with
    | .a => { r with stA := .holding, holdEnd := e, endA := e }
    | .b => { r with stB := .holding, holdEnd := e, endB := e }
  (s.setRecov (lpPort lp) r).collLost lp

/-- Deferred commands that a stripe's leaving UP ends (R315, R317; log entry 22). -/
def State.endPortWork (s : State) (port : Nat) (lanes : List Nat) (all : Bool) : State :=
  let hit (w : Work) : Bool := match w with
    | .eyeScan p l _ _ _ => p == port && (all || lanes.contains l)
    | .spare p _ l _ => p == port && (all || lanes.contains l)
    | .sleep p _ _ _ => p == port
    | _ => false
  let s := s.finishAll hit stDeniedState 0
  s.updPort port fun p => { p with
    scans := if all then [] else p.scans.filter fun l => !lanes.contains l
    txAsleep := false, rxAsleep := false, txSleeping := false, peerSleep := false, sleepOut := [], txWaking := 0
    rxWaking := 0, ckOut := if all then [] else p.ckOut }

/-- A stripe leaves UP, or a stripe in training is sent back, with a LAST_FAIL code (R165, R355, R356): to SEND, ABSENT or
DISABLED. -/
def State.stripeDown (s : State) (port : Nat) (sd : Side) (code : Nat) (next : StripeSt) : State :=
  let wasUp := decide (((s.port port).stripe sd).st = .up)
  let s := s.updPort port fun p => { p with lastFail := code }
  let s := s.setStripeSt port sd next
  let s := s.updPort port fun p => p.setStripe sd { p.stripe sd with
    replayValid := wasUp || (p.stripe sd).replayValid, txw := 0, rxw := 0 }
  let p := s.port port
  let s := if wasUp then s.endPortWork port (stripeLanes p.split sd) (!p.anyUp) else s
  let s := s.updPort port fun p => { p with laneOut := p.laneOut.filter fun m => m.2.stripeB != decide (sd = .b) }
  let s := if next = .send then s.enterSend port sd else s.updPort port fun p => { p with
    txJob := dropJob sd p.txJob, rxJob := dropJob sd p.rxJob }
  if wasUp then s.lpDown (lpOf port sd) else s

/-- Every stripe of the port that is UP goes down with this cause (R165, R356). -/
def State.portDownAll (s : State) (port code : Nat) : State :=
  (s.port port).sides.foldl (fun s sd =>
    if ((s.port port).stripe sd).st = .up then s.stripeDown port sd code .send else s) s

/-- Presence of a port is lost: its identity must be read again (R435), and when enabled each of its stripes enters ABSENT with
PRESENCE_LOST (R341, R356). -/
def State.losePresence (s : State) (port : Nat) : State :=
  let s := s.updPort port fun p => { p with
    a := { p.a with identFresh := false }, b := { p.b with identFresh := false } }
  if !(s.port port).enabled then s
  else (s.port port).sides.foldl (fun s sd =>
    let st := ((s.port port).stripe sd).st
    if st = .disabled ∨ st = .absent then s else s.stripeDown port sd 7 .absent) s

/-- What a cartridge bus tells changes, and with it the presence of its eight ports (R341, R433). -/
def State.setPresence (s : State) (bus : Nat) (m : Mmb) : State :=
  let t := s.setMmb bus m
  (List.range 8).foldl (fun (t : State) k =>
    let n := 8 * bus + k
    if s.present n = t.present n then t
    else if s.present n then (t.presenceChanged n).losePresence n
    else t.presenceChanged n) t

/-! ## The end of a hold (R168, R169) -/

/-- What a hold end discards toward an LP, as (number, input LP, header, target of a copy): the paused frame, the frames in the slot
FIFOs of the port and in the virtual output queues, and the multicast copies (R165, R168). -/
def State.heldFrames (s : State) (lp : Nat) : List (Nat × Nat × Hdr × Option Nat) :=
  let cur := match s.currentOf lp with
    | some c => if c.agent.isSome then [] else [(c.st.id, c.st.inLp, c.st.hdr, if c.source = 2 then some lp else none)]
    | none => []
  let voq := (s.sw.frames.filter fun q => q.outLp == lp && q.inLp != lp && !(cur.any fun x => x.1 == q.id)).map fun q =>
    (q.id, q.inLp, q.hdr, none)
  let fifo := (((s.fifo (2 * lpPort lp)) ++ (s.fifo (2 * lpPort lp + 1))).filter fun x =>
    x.outLp == lp && !(voq.any fun q => q.1 == x.id)).map fun x => (x.id, x.inLp, x.hdr, none)
  cur ++ voq ++ fifo ++ (s.mcFifoOf lp).map fun x => (x.id, x.inLp, x.hdr, some lp)

/-- Take away what is held toward an LP, its cells and its reservations. -/
def State.dropHeld (s : State) (lp : Nat) : State :=
  let s := (s.sw.frames.filter fun q => q.outLp == lp && q.inLp != lp).foldl (fun (s : State) q => s.unqueue q.id) s
  let s := [2 * lpPort lp, 2 * lpPort lp + 1].foldl (fun (s : State) u => s.setFifo u ((s.fifo u).filter fun x => x.outLp != lp)) s
  let s := ((s.setCurrent lp none).setMcFifo lp []).dropAgentOut lp
  { s with sw := { s.sw with
    reserved := (List.range 8).foldl (fun m c => sput m (lpTc lp c) 0 0) s.sw.reserved } }

/-- Discard what is held toward an LP, fencing each flow with the reason, the oldest loss of a flow first; how many frames went
(R106, R161, R168). -/
def State.discardHeld (s : State) (lp reason : Nat) : State × Nat :=
  let lost := sortBy (fun (a b : Nat × Nat × Hdr × Option Nat) => decide (a.1 ≤ b.1)) (s.heldFrames lp)
  let agents := (s.sw.agentOut.filter fun f => f.lp == lp).length
    + b2n (match s.currentOf lp with | some c => c.agent.isSome | none => false)
  let s := lost.foldl (fun (s : State) x =>
    if !fenceable x.2.2.1 then s
    else s.raiseFence x.2.1 x.2.2.1.tc.toNat x.2.2.1.dest x.2.2.2 x.2.2.1.fseq reason) (s.dropHeld lp)
  (s, lost.length + agents)

/-- A hold ends without a return: EXPIRED (reason 7) or DISCARDED (8); the LP is ENDED and the replay state that it kept is lost; a
stripe that is already UP again, with its INIT flit still to come, has the sequence state of its new link (R168, R169, R326). -/
def State.endHold (s : State) (lp reason : Nat) : State × Nat :=
  let (s, n) := s.discardHeld lp reason
  let s := s.setHold lp .ended
  let s := if s.lpUp lp then s else s.dropReplay lp
  (s.setRecov (lpPort lp) { s.recovOf (lpPort lp) with expired := true }, n)

/-- HOLD_END of an LP. -/
def State.holdEndOf (s : State) (lp : Nat) : Beat :=
  match lpSide lp with
  | .a => (s.recovOf (lpPort lp)).endA
  | .b => (s.recovOf (lpPort lp)).endB

/-- A beat count has come, or has been stepped over (R33, R47). -/
def beatReached (now target : Beat) : Bool := (now - target).toNat < 2 ^ 47

/-- The holds that are due end as EXPIRED (R53 step 3, R166). -/
def State.expireHolds (s : State) : State :=
  (List.range 128).foldl (fun (s : State) lp =>
    if s.holdOf lp = .holding ∧ beatReached s.beat.count (s.holdEndOf lp) = true then (s.endHold lp 7).1 else s) s

/-! ## Link-up (R136, R168, R176, R339) -/

/-- The notices that have waited for the source LP go out (R176). -/
def State.sendWaitingNotices (s : State) (lp : Nat) : State :=
  ((s.fences.filter fun e => e.2.source == lp && e.2.waits).map (·.1)).foldl (fun s n => s.sendFenceNotice n (s.fence n).again) s

/-- The link-up of an LP ends its hold as RESUMED or FRESH (R168): on FRESH all that is held is discarded first; the notices that
have waited for the LP go out (R176). -/
def State.linkUp (s : State) (lp : Nat) (resumed : Bool) : State :=
  let s := if s.holdOf lp = .holding ∧ resumed = false then (s.discardHeld lp 9).1 else s
  let s := s.setHold lp .up
  let r := s.recovOf (lpPort lp)
  (s.setRecov (lpPort lp) { r with lastReturn := if resumed then 1 else 2 }).sendWaitingNotices lp

/-- Issue the INIT credits of an LP that comes up (R136). -/
def State.initCredits (s : State) (lp : Nat) : State :=
  let s := (List.range 8).foldl (fun (s : State) c => s.issue lp c (s.guar (lpTc lp c) - s.cellsOf (lpTc lp c))) s
  (s.setLpStripe lp { s.lpStripe lp with initOwed := true }).sendInit lp

/-- An INIT or CREDIT flit has been delivered; credits beyond 65,535 are ignored and counted (R137). The INIT flit of an LP that is
UP completes its link-up, also after its hold has ended (R168, R169). -/
def State.creditsIn (s : State) (lp : Nat) (init : Bool) (counts : List (BitVec 16)) : State :=
  let s := { s with sw := { s.sw with initSeen := if init then sput s.sw.initSeen lp true false else s.sw.initSeen } }
  let s := (List.range 8).foldl (fun (s : State) c =>
    let k := lpTc lp c
    let v := (counts.getD c 0).toNat
    let all := if init then v else sget s.sw.credits k 0 + v
    { s with sw := { s.sw with
      credits := sput s.sw.credits k (min 65535 all) 0
      creditExcess := sput s.sw.creditExcess k (sget s.sw.creditExcess k 0 + (all - 65535)) 0 } }) s
  if init && s.lpUp lp && decide (s.holdOf lp ≠ .up) then s.linkUp lp (s.lpStripe lp).resumed else s

end Sys2Proof.Machine
end

