-- ==== Sys2Proof/Machine/BistOps.lean ====
section
/-! DEFINITION. The shared operations of self-test and spares: expected results (R378, R381, R382), roles (R394 to R396), the
start and the end of a partition's test (R376, R379, R382, R397) and runs (R388). -/

namespace Sys2Proof.Machine

def State.updBist (s : State) (f : Bist → Bist) : State := { s with bist := f s.bist }

/-! ## Expected results -/

/-- Banks of a memory partition (R376). -/
def halfBanks (tp : Nat) : List Nat :=
  if tp = 90 then List.range 66
  else if tp = 91 then (List.range 66).map (66 + ·)
  else if tp = 92 then List.range 50
  else if tp = 93 then (List.range 49).map (50 + ·)
  else []

/-- Operations of the march of one bank (R378). -/
def marchOps : Nat := 163840

/-- Expected PATTERNS of a partition (R378, R401). -/
def expectPatterns (tp : Nat) : BitVec 32 :=
  if tp < 64 then 8192
  else if tp < 90 then 4096
  else if tp < 94 then BitVec.ofNat 32 (marchOps * (halfBanks tp).length)
  else if tp = 94 then 32768
  else Config.bistPatterns

/-- TOKEN (R381). -/
def tokenOf (misr : Word) (patterns : BitVec 32) (tp : Nat) : BitVec 16 :=
  let c := crc16 (leBytes 8 misr.toNat ++ leBytes 4 patterns.toNat ++ leBytes 1 tp)
  if c = 0 then 1 else BitVec.ofNat 16 c

/-- One step of the MISR (R380). -/
def misrNext (m d : Word) : Word := (m <<< 1) ^^^ d ^^^ (if m.msb then 0x1B else 0)

/-! ## Roles of banks and clusters (R394 to R396) -/

def State.bankRole (s : State) : SpareKind → Nat → Role
  | .cluster, n => s.rcRole n
  | .buffer, n => s.bufRole n
  | .drey, n => s.dreyRole n

def State.setBankRole (s : State) (k : SpareKind) (n : Nat) (r : Role) : State :=
  match k with
  | .cluster => s.setRcRole n r
  | .buffer => s.setBufRole n r
  | .drey => s.setDreyRole n r

/-- Units of a kind (R376). -/
def kindUnits : SpareKind → Nat
  | .cluster => 26
  | .buffer => 132
  | .drey => 99
/-- KIND of SPARE_BRING_IN and of the fuse marks (R113). -/
def kindCode : SpareKind → Nat
  | .cluster => 2
  | .buffer => 3
  | .drey => 4
/-- The partition of a unit (R376). -/
def unitPart : SpareKind → Nat → Nat
  | .cluster, n => 64 + n
  | .buffer, n => if n < 66 then 90 else 91
  | .drey, n => if n < 50 then 92 else 93

/-- A unit takes another role: WEAR, LAST_CHANGE and CHANGES note each change, and a bank that comes into service starts with no
uncorrectable words (R393, R400, R431). -/
def State.changeRole (s : State) (k : SpareKind) (n : Nat) (r : Role) : State :=
  if s.bankRole k n = r then s
  else
    let s := (s.setBankRole k n r).roleChanged
    match k, r with
    | .buffer, .inService => s.updBist fun b => { b with bufUe := sput b.bufUe n 0 0 }
    | .drey, .inService => s.updBist fun b => { b with dreyUe := sput b.dreyUe n 0 0 }
    | _, _ => s

/-- The sequencer of a partition (R378, R380). -/
def defaultSeq : TestSeq := { misr := 0, count := 0, bank := none, copying := false, left := [], found := 0 }
def State.testSeq (s : State) (tp : Nat) : TestSeq := sget s.bist.seqs tp defaultSeq
def State.setSeq (s : State) (tp : Nat) (q : TestSeq) : State := s.updBist fun b => { b with seqs := sput b.seqs tp q defaultSeq }

/-- A flag "untested" of a bank goes, or is set (R394). -/
def Bist.flagUntested (b : Bist) (k : SpareKind) (n : Nat) (on : Bool) : Bist :=
  let rest := b.untested.filter fun x => x != (kindCode k, n)
  { b with untested := if on then rest ++ [(kindCode k, n)] else rest }

/-- The spare that is brought in next: the lowest one that is not flagged untested, else the lowest (R394). -/
def State.nextSpare (s : State) (k : SpareKind) (not : Nat) : Option Nat :=
  let spares := (List.range (kindUnits k)).filter fun n =>
    decide (s.bankRole k n = .spare) && n != not && !(k == .cluster && s.underTest (64 + n))
      && !(s.bist.copies.any fun c => c.1 == k && c.2.2.1 == n)
  match spares.find? fun n => !s.bist.untested.contains (kindCode k, n) with
  | some n => some n
  | none => spares.head?

/-- A unit leaves service for good (R394, R395): marked UNUSABLE, to be blown at the next boundary. -/
def State.markUnusable (s : State) (k : SpareKind) (n : Nat) : State :=
  (s.changeRole k n .unusable).updBist fun b => { (b.flagUntested k n false) with toBlow := b.toBlow ++ [(kindCode k, n)] }

/-- A bank is lost with no spare to take its place: a buffer bank takes 4,096 cells from shared_free (R396). -/
def State.loseBank (s : State) (k : SpareKind) (n : Nat) : State :=
  let s := if k = .buffer then { s with sw := { s.sw with sharedFree := s.sw.sharedFree - 4096 } } else s
  s.markUnusable k n

/-- The copy of a bank to a spare starts; both are OUT while it runs (R394, R400). -/
def State.startCopy (s : State) (k : SpareKind) (n spare : Nat) (condemned : Bool) : State :=
  ((s.changeRole k n .out).changeRole k spare .out).updBist fun b => { b with copies := b.copies ++ [(k, n, spare, condemned)] }

/-- A unit is taken out of service onto a spare and marked UNUSABLE: a cluster at once, a bank after its copy (R394). -/
def State.bringOut (s : State) (k : SpareKind) (n spare : Nat) : State :=
  match k with
  | .cluster => (s.changeRole .cluster spare .inService).markUnusable .cluster n
  | _ => s.startCopy k n spare true

/-- A copy ends: the spare takes the bank's place, and the bank is UNUSABLE, or OUT while its march runs (R394). -/
def State.endCopy (s : State) (k : SpareKind) (n spare : Nat) (condemned : Bool) : State :=
  let s := s.updBist fun b => { (b.flagUntested k spare false) with
    copies := b.copies.filter fun x => x != (k, n, spare, condemned) }
  let s := s.changeRole k spare .inService
  if condemned then s.markUnusable k n else s

/-- The order in which a half is marched: the banks flagged untested first (R394). -/
def State.marchOrder (s : State) (k : SpareKind) (tp : Nat) : List Nat :=
  let l := halfBanks tp
  let u := l.filter fun n => s.bist.untested.contains (kindCode k, n)
  u ++ l.filter fun n => !u.contains n

/-- The kind of bank of a memory half (R376). -/
def halfKind (tp : Nat) : SpareKind := if tp < 92 then .buffer else .drey

/-- A copy that runs holds the bank, as the one that goes or the one that comes. -/
def State.inCopy (s : State) (k : SpareKind) (n : Nat) : Bool :=
  s.bist.copies.any fun c => c.1 == k && (c.2.1 == n || c.2.2.1 == n)

/-- A half goes on with its next bank (R378, R394): a bank in service is copied to a spare first, any other is marched at once, and
one that another copy holds comes later. Answers false when no spare is left to hold the content. -/
def State.nextBank (s : State) (tp : Nat) : State × Bool :=
  let k := halfKind tp
  let q := s.testSeq tp
  match q.left.find? fun n => !s.inCopy k n with
  | none => (s.setSeq tp { q with bank := none }, true)
  | some n =>
    let q := { q with bank := some n, copying := s.bankRole k n == .inService, left := q.left.filter (· != n) }
    match s.bankRole k n with
    | .inService =>
      (match s.nextSpare k n with
      | none => (s, false)
      | some sp => ((s.startCopy k n sp false).setSeq tp q, true))
    | .spare => ((s.changeRole k n .out).setSeq tp q, true)
    | _ => (s.setSeq tp q, true)

/-- The copy with which the march of a bank begins has ended (R394). -/
def State.endMarchCopy (s : State) (tp n : Nat) : State :=
  match s.bist.copies.find? fun c => c.1 == halfKind tp && c.2.1 == n with
  | some c => (s.endCopy c.1 n c.2.2.1 c.2.2.2).setSeq tp { s.testSeq tp with copying := false }
  | none => s

/-- The march of the bank at hand ends: it becomes SPARE, or UNUSABLE when it failed (R394). -/
def State.endMarch (s : State) (tp n : Nat) (bad : Bool) : State :=
  let k := halfKind tp
  let s := if (s.testSeq tp).copying then s.endMarchCopy tp n else s
  if s.bankRole k n = .unusable then s
  else if bad then (s.markUnusable k n).setSeq tp { s.testSeq tp with found := (s.testSeq tp).found + 1 }
  else (s.changeRole k n .spare).updBist fun b => b.flagUntested k n false

/-- The march of the bank at hand is cut short: during the copy the bank stays in service, unless it is to leave it anyway, and
during the march it becomes SPARE and is flagged untested (R394). -/
def State.cutMarch (s : State) (tp : Nat) : State :=
  let k := halfKind tp
  match (s.testSeq tp).bank with
  | none => s
  | some n =>
    if (s.testSeq tp).copying then
      match s.bist.copies.find? fun c => c.1 == k && c.2.1 == n && !c.2.2.2 with
      | some c =>
        ((s.changeRole k n .inService).changeRole k c.2.2.1 .spare).updBist fun b => { b with copies := b.copies.filter fun x => x != c }
      | none => s
    else if s.bankRole k n = .unusable then s
    else (s.changeRole k n .spare).updBist fun b => b.flagUntested k n true

/-! ## The end of a test (R379, R381, R382, R394, R397, R398) -/

/-- The number of the first lane of a mask, 15 when there is none (R382). -/
def firstLane (m : BitVec 10) : Nat := (firstBelow 10 fun k => bitAt m.toNat k).getD 15

/-- OUTCOME (R382). -/
def outcomeOf (tp : Nat) (misr : Word) (patterns : BitVec 32) (lanesFail done : Bool) : Nat :=
  let sig := misr == Config.bistMisr tp
  if done then
    if !sig || patterns != expectPatterns tp then 2
    else if lanesFail then 6
    else 1
  else if patterns = 0 then 0
  else if sig then 3 else 4

/-- Write BIST_RESULT_n (R381, R382). -/
def State.writeResult (s : State) (tp : Nat) (q : TestSeq) (done : Bool) (outcome stop detail : Nat) : State :=
  s.setResult tp
    { misr := q.misr, patterns := q.count, token := if done then tokenOf q.misr q.count tp else 0,
      outcome := outcome, stop := stop, detail := detail, beat := s.beat.count }

/-- The sequencer reports: the MISR takes the words that came, and the count goes on (R378, R380). -/
def State.runSeq (s : State) (tp : Nat) (te : TestEnd) : State :=
  let q := s.testSeq tp
  s.setSeq tp { q with misr := te.words.foldl misrNext q.misr, count := q.count + te.patterns }

/-- A port's test ends with its running counts at zero and REPROG set; the windows that span it report PARTIAL (R418). -/
def State.scanCounters (s : State) (n : Nat) : State :=
  (bankCounters n).foldl (fun s k =>
    s.setCounter k { s.counter k with run := 0, reprog := true, startedLate := true }) s

/-- A port's partition ends: lane marks, and the port when it is unusable (R397). -/
def State.endPortTest (s : State) (n : Nat) (te : TestEnd) (outcome : Nat) : State :=
  let tx := sget s.bist.txBad n 0
  let rx := sget s.bist.rxBad n 0
  let tx' := if outcome = 1 then 0 else tx ||| te.txFail
  let rx' := if outcome = 1 then 0 else rx ||| te.rxFail
  let marked := te.txFail ≠ 0 ∨ te.rxFail ≠ 0
  let s := s.updBist fun b => { b with
    txBad := sput b.txBad n tx' 0, rxBad := sput b.rxBad n rx' 0
    retrain := if marked ∧ outcome ≠ 2 ∧ (s.port n).anyUp then addSorted b.retrain n else b.retrain }
  if outcome = 2 then
    let s := (s.port n).sides.foldl (fun s sd => s.stripeDown n sd 15 .disabled) s
    let s := s.updPort n fun p => { p with enabled := false }
    if bitAt s.bist.portUnusable.toNat n then s
    else
      (s.updBist fun b => { b with
        portUnusable := b.portUnusable ||| (1 <<< n), toBlow := b.toBlow ++ [(5, n)] }).roleChanged
  else s

/-- A cluster's partition ends (R394). -/
def State.endClusterTest (s : State) (c outcome : Nat) : State :=
  let was := ((s.bist.standIn.find? fun x => x.1 == c).map (·.2)).getD 3
  let s := s.updBist fun b => { b with standIn := b.standIn.filter fun x => x.1 != c }
  if was = 3 then s
  else if outcome = 2 then s.markUnusable .cluster c
  else if was = 0 then s.changeRole .cluster c .inService
  else s.changeRole .cluster c .spare

/-- A partition leaves the test: its result is written, and a logic partition acts on its outcome and restores (R379, R381, R382,
R397, R398). -/
def State.closeTest (s : State) (tp : Nat) (te : TestEnd) (done : Bool) (stop : Nat) : State :=
  let s := s.updBist fun b => { b with
    active := b.active.filter (· != tp)
    run := b.run.map fun r =>
      if r.parts.any (fun x => x.1 == tp) then { r with ended := addSorted r.ended tp, endedAt := s.beat.localBeats } else r }
  let q := s.testSeq tp
  let outcome := outcomeOf tp q.misr q.count (decide (tp < 64) && (te.txFail != 0 || te.rxFail != 0)) done
  let s := s.setSeq tp defaultSeq
  if tp < 64 then
    let s := ((s.writeResult tp q done outcome stop (firstLane te.txFail + 16 * firstLane te.rxFail)).scanCounters tp).endPortTest tp te
      outcome
    s.updBist fun b => { b with restoring := addSorted b.restoring tp }
  else if tp < 90 then (s.writeResult tp q done outcome stop 0).endClusterTest (tp - 64) outcome
  else if tp < 94 then s.writeResult tp q done outcome stop q.found
  else
    let s := (s.writeResult tp q done outcome stop 0).updBist fun b => { b with suspect := b.suspect || outcome == 2 }
    if tp = 94 then s.updBist fun b => { b with restoring := addSorted b.restoring tp } else s

/-- A half goes on with its next bank, or stops with NO_SPARE (R383, R396). -/
def State.goMarch (s : State) (tp : Nat) (te : TestEnd) : State :=
  let (s, room) := s.nextBank tp
  if room then s else s.closeTest tp te false 9

/-- The marches of the next n banks of a half have ended (R378, R394). -/
def State.marchOn (s : State) (tp : Nat) (te : TestEnd) : Nat → State
  | 0 => s
  | n + 1 =>
    match (s.testSeq tp).bank with
    | none => s
    | some k =>
      let s := (s.endMarch tp k (te.badBanks.contains k)).goMarch tp te
      if s.bist.active.contains tp then s.marchOn tp te n else s

/-- The test of a partition ends at DONE or with a STOP cause; a memory half whose banks are not all marched goes on instead of
reaching DONE (R378, R382, R383). -/
def State.endTest (s : State) (tp : Nat) (te : TestEnd) (done : Bool) (stop : Nat) : State :=
  if !s.bist.active.contains tp then s
  else
    let s := s.runSeq tp te
    if 90 ≤ tp ∧ tp < 94 then
      let s := s.marchOn tp te te.banks
      let q := s.testSeq tp
      if !s.bist.active.contains tp then s
      else if !done then (s.cutMarch tp).closeTest tp te false stop
      else if q.bank.isNone && q.left.isEmpty then s.closeTest tp te true stop
      else s
    else s.closeTest tp te done stop

/-- What the sequencer of a test that stops has done since its last report: open values (log entry 5). Lanes can have failed only
when every pattern has run, and a half does nothing for the MISR while it copies (R378). -/
def State.drawEnd (s : State) (tp : Nat) : TestEnd × State :=
  let q := s.testSeq tp
  let nothing : TestEnd := { words := [], patterns := 0, txFail := 0, rxFail := 0, banks := 0, badBanks := [] }
  if 90 ≤ tp ∧ tp < 94 ∧ (q.bank.isNone ∨ q.copying = true) then (nothing, s)
  else
    let (m, s) := s.draw
    let (p, s) := s.draw
    let (l, s) := s.draw
    let whole := (expectPatterns tp).toNat
    let n := p.toNat % (if 90 ≤ tp ∧ tp < 94 then marchOps else if tp < 64 then whole + 1 else max 1 whole)
    let lanes := tp < 64 ∧ n = whole
    ({ nothing with
        words := [m], patterns := BitVec.ofNat 32 n, txFail := if lanes then l.truncate 10 else 0
        rxFail := if lanes then BitVec.ofNat 10 (wbits l 19 10) else 0 }, s)

/-- Stop a running test (R383, R390). -/
def State.stopTest (s : State) (stop : Nat) (tp : Nat) : State :=
  if s.bist.active.contains tp then
    let (te, s) := s.drawEnd tp
    s.endTest tp te false stop
  else s

/-- Stop every running test (R390). -/
def State.stopTests (s : State) (stop : Nat) : State := s.bist.active.foldl (fun s tp => s.stopTest stop tp) s

/-- BIST_ABORT commands whose partitions have all restored complete (R392). -/
def State.abortCheck (s : State) : State :=
  let hit (w : Work) : Bool := match w with
    | .bistAbort l => l.all fun tp => !s.underTest tp
    | _ => false
  (s.mgmt.deferred.filter fun d => hit d.work).foldl (fun s _ => s.finishWork hit stOk 0 []) s

/-- A restore has ended (R379); a port with a newly marked lane is retrained (R397). -/
def State.endRestore (s : State) (tp : Nat) : State :=
  if !s.bist.restoring.contains tp then s
  else
    let again := s.bist.retrain.contains tp
    let s := s.updBist fun b => { b with
      restoring := b.restoring.filter (· != tp), retrain := b.retrain.filter (· != tp) }
    let s := if again then
        (s.port tp).sides.foldl (fun s sd =>
          if ((s.port tp).stripe sd).st = .absent then s else s.stripeDown tp sd 15 .send) s
      else s
    s.abortCheck

/-- The effective cap has changed from `old`: a fall lowers K_CAP at once and stops every running test (R368, R390). -/
def State.capChanged (s : State) (old : Nat) : State :=
  if s.effCap < old then
    let stops := !s.bist.active.isEmpty
    let s := s.lowerCap (min s.power.kCap (s.capStep s.effCap))
    ((s.stopTests 5).updBist fun b => { b with capSeen := b.capSeen || stops }).abortCheck
  else s

/-- A heavy droop trip stops every running test (R390). -/
def State.droopStops (s : State) : State :=
  let stops := !s.bist.active.isEmpty
  ((s.stopTests 4).updBist fun b => { b with droopSeen := b.droopSeen || stops }).abortCheck

/-! ## Runs (R388) -/

/-- The port is asleep in both directions or DISABLED (R376). -/
def State.portQuiet (s : State) (n : Nat) : Bool :=
  let p := s.port n
  !p.enabled || (p.allUp && p.txAsleep && p.rxAsleep && p.txWaking == 0 && p.rxWaking == 0)

/-- Every port is DISABLED and no session is open (R376). -/
def State.centralQuiet (s : State) : Bool :=
  ((List.range 64).all fun n => !(s.port n).enabled) && s.openSessions.isEmpty

/-- A bank of the partition's kind is SPARE (R376). -/
def State.spareOf (s : State) (tp : Nat) : Bool :=
  let k : SpareKind := if tp < 92 then .buffer else .drey
  (List.range (kindUnits k)).any fun n => decide (s.bankRole k n = .spare)

/-- The precondition of R376. -/
def State.testReady (s : State) (tp : Nat) : Bool :=
  if tp < 64 then s.portQuiet tp
  else if tp < 90 then true
  else if tp < 94 then s.spareOf tp
  else s.centralQuiet

/-- A test starts with its MISR at zero, and its result reads RUNNING; the running window of the partition's counters is PARTIAL (R418); a spare stands in for a cluster, and a half begins with its first
bank (R378, R380, R382, R391, R394). -/
def State.startTest (s : State) (tp : Nat) : State :=
  let s := s.setResult tp { defaultBistRes with outcome := 5 }
  let s := if tp < 64 then s.spoilWindow tp else if tp = 94 then s.spoilWindow 64 else s
  let s := (s.updBist fun b => { b with active := addSorted b.active tp }).setSeq tp defaultSeq
  if 64 ≤ tp ∧ tp < 90 then
    let c := tp - 64
    let stand (s : State) (was : Nat) : State := (s.changeRole .cluster c .out).updBist fun b => { b with standIn := b.standIn ++ [(c, was)] }
    match s.rcRole c with
    | .inService =>
      (match s.nextSpare .cluster c with
      | some sp => (stand s 1).changeRole .cluster sp .inService
      | none => stand s 0)
    | .spare => stand s 2
    | _ => s
  else if 90 ≤ tp ∧ tp < 94 then
    let te : TestEnd := { words := [], patterns := 0, txFail := 0, rxFail := 0, banks := 0, badBanks := [] }
    (s.setSeq tp { defaultSeq with left := s.marchOrder (halfKind tp) tp }).goMarch tp te
  else s

/-- A partition that never started ends NOT_RUN (R383, R388). -/
def State.neverRan (s : State) (tp stop : Nat) : State :=
  (s.setResult tp { defaultBistRes with stop := stop, beat := s.beat.count }).updBist fun b =>
    { b with run := b.run.map fun r => { r with ended := addSorted r.ended tp, endedAt := s.beat.localBeats } }

def entrySlot (e : Entry) : Nat := bitsAt e.toNat 62 57
def entryLen (e : Entry) : Nat := bitsAt e.toNat 47 32
def entryPower (e : Entry) : Nat := bitsAt e.toNat 31 16

/-- Partitions of a slot of the run that have not ended (R386, R388). -/
def Run.members (r : Run) (slot : Nat) : List (Nat × Entry) :=
  r.parts.filter fun x => entrySlot x.2 == slot && !r.ended.contains x.1

/-- The power check of a slot (R388 step 2). -/
def State.slotFits (s : State) (r : Run) (slot : Nat) : Bool :=
  decide (s.power.now + ((r.members slot).map fun x => entryPower x.2).sum + s.power.headroom ≤ s.effCap)

/-- The masks PASS, FAIL and INCOMPLETE of BIST_RUN's reply (R113, R382). -/
def State.runReply (s : State) (r : Run) : Bytes :=
  let pick (p : Nat → Bool) : Bytes := leBytes 12 (maskOf ((r.parts.map (·.1)).filter fun tp => p (s.result tp).outcome))
  pick (fun o => o == 1) ++ pick (fun o => o == 2 || o == 6) ++ pick fun o => o != 1 && o != 2 && o != 6

/-- A slot has ended: the next slot is due GAP_BEATS later, or the run completes (R114, R388). -/
def State.endSlot (s : State) : State :=
  match s.bist.run with
  | none => s
  | some r =>
    let left := (r.parts.filter fun x => !r.ended.contains x.1).map fun x => entrySlot x.2
    match left with
    | [] =>
      let s' := s.updBist fun b => { b with run := none }
      s'.finishWork (fun w => match w with | .bistRun _ => true | _ => false) stOk 0 (s.runReply r)
    | a :: l =>
      s.updBist fun b => { b with run := some { r with
        slotOn := false, waiting := false, slot := l.foldl min a
        nextDue := s.beat.count + b.gapBeats.zeroExtend 48 } }

/-- A slot starts when headroom allows, each member after its precondition; else it waits (R388 steps 2 and 3). -/
def State.startSlot (s : State) (slot : Nat) : State :=
  match s.bist.run with
  | none => s
  | some r =>
    let r := { r with begun := true, slot := slot, triedAt := s.beat.localBeats }
    if s.slotFits r slot then
      let members := r.members slot
      let r' : Run := { r with slotOn := true, waiting := false, startBeat := s.beat.count }
      let s := s.updBist fun b => { b with run := some r', slot := slot, slotBeat := s.beat.count }
      members.foldl (fun s x => if s.testReady x.1 then s.startTest x.1 else s.neverRan x.1 10) s
    else
      s.updBist fun b => { b with
        slot := slot
        run := some { r with slotOn := false, waiting := true, waitFrom := if r.waiting then r.waitFrom else s.beat.count } }

/-- The slot's partitions end NOT_RUN with POWER (R388 step 2). -/
def State.expireSlot (s : State) : State :=
  match s.bist.run with
  | none => s
  | some r => ((r.members r.slot).foldl (fun s x => s.neverRan x.1 6) s).endSlot

/-- Members that still run end with DEADLINE, and the slot ends (R388 step 4). A member with no result given has reached an open
value (log entry 5). -/
def State.deadlineSlot (s : State) (ends : List (Nat × TestEnd)) : State :=
  match s.bist.run with
  | none => s
  | some r =>
    ((r.members r.slot).foldl (fun s x =>
      match ends.find? fun e => e.1 == x.1 with
      | some e => s.endTest x.1 e.2 false 3
      | none => s.stopTest 3 x.1) s).abortCheck.endSlot

/-- LEN_BEATS of the slot at hand have passed since its start (R386, R388 step 4). -/
def State.slotLate (s : State) (r : Run) : Bool :=
  decide (((r.parts.filter fun x => entrySlot x.2 == r.slot).map fun x => entryLen x.2).foldl max 0
    ≤ (s.beat.count - r.startBeat).toNat)

/-- Every member has finished before the boundary whose steps run (R388 step 4). -/
def State.slotDone (s : State) (r : Run) : Bool := (r.members r.slot).isEmpty && decide (r.endedAt < s.beat.localBeats)

/-- SLOT_WAIT beats have passed without headroom (R388 step 2). -/
def State.slotWaited (s : State) (r : Run) : Bool := decide (s.bist.slotWait.toNat ≤ (s.beat.count - r.waitFrom).toNat)

/-- The run's slot has to stop at this boundary (R388). -/
def State.slotStopDue (s : State) : Bool :=
  match s.bist.run with
  | some r => r.slotOn && (s.slotDone r || s.slotLate r)
  | none => false

/-- The run's next slot, or the one that waits for headroom, has its turn at this boundary (R388). -/
def State.slotStartDue (s : State) : Bool :=
  match s.bist.run with
  | some r => r.begun && !r.slotOn && (if r.waiting then decide (r.triedAt < s.beat.localBeats) else beatReached s.beat.count r.nextDue)
  | none => false

/-- The stop of the run's slot at its place in step 5 (R388). -/
def State.stopRunSlot (s : State) (ends : List (Nat × TestEnd)) : State :=
  match s.bist.run with
  | some r => if s.slotDone r then s.endSlot else s.deadlineSlot ends
  | none => s

/-- The start of the run's slot at its place in step 5: a slot that still finds no headroom after SLOT_WAIT beats ends (R388). -/
def State.startRunSlot (s : State) : State :=
  match s.bist.run with
  | some r => if r.waiting && s.slotWaited r && !s.slotFits r r.slot then s.expireSlot else s.startSlot r.slot
  | none => s

end Sys2Proof.Machine
end

