-- ==== Sys2Proof/Machine/TableOps.lean ====
section
/-! DEFINITION. Table images: the checks of SEAL (R89, R127 to R129, R294, R296, R311, R329, R363, R386, R404) and the
application of an image (R54, R90, R91, R135, R297, R365, R372, R392, R412). -/

namespace Sys2Proof.Machine

/-! ## Images -/

/-- The bytes of an image (R86; a byte never written is 0, log entry 7). -/
def Image.raw (im : Image) : Bytes := (List.range im.length).map fun k => sget im.bytes k 0
def Image.field (im : Image) (off n : Nat) : Nat := leNat ((List.range n).map fun k => sget im.bytes (off + k) 0)
def Image.count (im : Image) : Nat := im.field 12 2
def Image.size (im : Image) : Nat := im.field 6 2
def Image.indexed (im : Image) : Bool := bitAt (im.field 14 2) 0
def Image.allOrNone (im : Image) : Bool := bitAt (im.field 14 2) 1
def Image.gen (im : Image) : BitVec 32 := BitVec.ofNat 32 (im.field 16 4)
/-- Bytes from one entry of the image to the next. -/
def Image.stride (im : Image) : Nat := im.size + 4 * b2n im.indexed

/-- Entry k of an image: table index and value (R86). -/
def Image.entry (im : Image) (k : Nat) : Nat × Nat :=
  let at_ := 64 + k * im.stride
  if im.indexed then (im.field at_ 4, im.field (at_ + 4) im.size) else (im.field 8 4 + k, im.field at_ im.size)
/-- The entries of an image in order. -/
def Image.entries (im : Image) : List (Nat × Nat) := (List.range im.count).map im.entry

/-- IMG_CRC matches (R86). -/
def Image.crcOk (im : Image) : Bool := crc32c (im.raw.take 60 ++ zeros 4 ++ im.raw.drop 64) == im.field 60 4

/-! ## Entry contents -/

/-- Reserved bits of an entry. -/
def entryReserved (t e : Nat) : Bool :=
  match t with
  | 1 => bitsAt e 51 7 == 0
  | 2 => bitsAt e 189 184 == 0 && bitsAt e 175 128 == 0 && bitsAt e 255 192 == 0
  | 3 => bitsAt e 59 48 == 0 && bitsAt e 15 0 == 0
  | 4 => bitsAt e 30 20 == 0
  | 5 => bitsAt e 35 32 == 0 && bitsAt e 26 24 == 0 && bitsAt e 11 0 == 0
  | 7 => bitsAt e 62 53 == 0 && bitsAt e 15 0 == 0
  | 8 => bitsAt e 56 48 == 0 && bitsAt e 15 0 == 0
  | 9 => bitsAt e 36 32 == 0 && bitsAt e 23 0 == 0
  | _ => true

/-- Port and global event codes (R406). -/
def portEvent (c : Nat) : Bool := (0x0101 ≤ c && c ≤ 0x0113) || (0x0200 ≤ c && c ≤ 0x0204)
def globalEvent (c : Nat) : Bool :=
  (0x1001 ≤ c && c ≤ 0x1008) || (0x2001 ≤ c && c ≤ 0x2005) || c == 0x2007 || (0x2100 ≤ c && c ≤ 0x2104)
    || (0x3001 ≤ c && c ≤ 0x3007) || (0x3100 ≤ c && c ≤ 0x3105) || c == 0x4001 || c == 0x4002 || c == 0x4004
/-- EVENT may stand in entry n (R404). -/
def eventFits (n c : Nat) : Bool := c == 0 || (if n < 1024 then portEvent c else globalEvent c)

/-- The rules of an entry by itself (R127 to R129, R311, R328, R363, R386, R404). -/
def entryAlone (t n e : Nat) : Bool :=
  match t with
  | 1 => bitsAt e 62 60 ≤ 3 && (bitsAt e 62 60 == 1 || bitsAt e 6 0 == 0)
  | 2 => !bitAt e 191 || bitsAt e 127 0 != 0
  | 3 => bitsAt e 63 62 ≤ 1 && bitsAt e 47 32 ≤ bitsAt e 31 16
  | 4 => bitAt e 31 || decide (256 ≤ n)
  | 5 =>
    bitsAt e 51 44 ≤ bitsAt e 43 36 && bitsAt e 62 60 ≤ 3 && bitsAt e 23 20 + 2 * bitsAt e 19 16 ≤ 32
      && (n != 0 || bitAt e 63)
  | 6 =>
    let r := timingRange.getD n (0, 0, 0)
    r.1 ≤ bitsAt e 31 0 && bitsAt e 31 0 ≤ r.2.1
  | 7 =>
    if bitAt e 63 then
      8 ≤ bitsAt e 52 48 && bitsAt e 52 48 ≤ 16 && 600 ≤ bitsAt e 47 32 && bitsAt e 47 32 ≤ 800
    else n != 0
  | 8 => !bitAt e 63 || (n != 95 && bitsAt e 47 32 != 0 && bitsAt e 31 16 != 0)
  | 9 => eventFits n (bitsAt e 63 48) && (if n < 1024 then bitsAt e 39 38 != 3 else bitsAt e 39 38 == 0)
  | _ => true

/-! ### Line codes (R296) -/

/-- No w-bit window of n (of `total` bits) satisfies p. -/
def noWindow (total w n : Nat) (p : Nat → Bool) : Bool := (List.range (total + 1 - w)).all fun k => !p (bitsAt n (k + w - 1) k)
/-- No run of more than 5 identical bits. -/
def runsOk (total n : Nat) : Bool := noWindow total 6 n fun x => x == 0 || x == 0x3F
/-- No comma pattern. -/
def commaFree (total n : Nat) : Bool := noWindow total 7 n fun x => x == 0b0011111 || x == 0b1100000

def codeN (e : Nat) : Nat := bitsAt e 19 10
def codeP (e : Nat) : Nat := bitsAt e 9 0

/-- The rules of one valid line-code entry by itself (R296). -/
def codeAlone (n e : Nat) : Bool :=
  let on := popCount 10 (codeN e)
  let op := popCount 10 (codeP e)
  (on == 5 || on == 6) && (op == 4 || op == 5)
    && (if on = 6 then codeP e == codeN e ^^^ 0x3FF else codeP e == codeN e || codeP e == codeN e ^^^ 0x3FF)
    && runsOk 10 (codeN e) && runsOk 10 (codeP e)
    && (n == 256 || n == 257 || n == 261 || (commaFree 10 (codeN e) && commaFree 10 (codeP e)))

/-- The disparity after a code group sent from a column. -/
def columnEnd (pos : Bool) (code : Nat) : Bool :=
  if popCount 10 code = 6 then true else if popCount 10 code = 4 then false else pos

/-- Entries that can stand on the same kind of lane. -/
def sameLane (a b : Nat) : Bool :=
  let clock (n : Nat) := 261 ≤ n && n ≤ 264
  a < 256 || b < 256 || clock a == clock b

/-- The code groups of b may follow those of a (R296). -/
def mayFollow (a b : Nat) : Bool :=
  [false, true].all fun pos =>
    let c1 := if pos then codeP a else codeN a
    let c2 := if columnEnd pos c1 then codeP b else codeN b
    let both := (c1 <<< 10) + c2
    runsOk 20 both && commaFree 12 (bitsAt both 15 4)

/-- Two valid entries share no code group, and their sequences keep the rules (R296). -/
def codesApart (i a j b : Nat) : Bool :=
  mayFollow a b && mayFollow b a
    && (i == j || (codeN a != codeN b && codeP a != codeP b && codeN a != codeP b && codeP a != codeN b))

/-- A valid entry of the table keeps the rules of R296 beside every other entry. -/
def State.codeRules (s : State) (n : Nat) : Bool :=
  let a := s.entry 4 n
  !bitAt a 31 || (codeAlone n a && (List.range 272).all fun j =>
    !sameLane n j || !bitAt (s.entry 4 j) 31 || codesApart n a j (s.entry 4 j))

/-! ### Rules of a table as a whole -/

/-- The sum of GUAR (R128). -/
def State.guarSum (s : State) : Nat := ((List.range 1024).map s.clsGuar).sum

/-- An entry of the power curve is in order after the one below it (R363). -/
def State.curveOrder (s : State) (n : Nat) : Bool :=
  n == 0 || 15 < n || !s.curveValid n || (s.curveValid (n - 1) && s.curveK (n - 1) ≤ s.curveK n
    && s.curveMv (n - 1) ≤ s.curveMv n && s.curveBudget (n - 1) ≤ s.curveBudget n)

/-- The rules that entry n keeps beside the rest of its table (R128, R296, R329, R363). -/
def State.tableRules (s : State) (t n : Nat) : Bool :=
  match t with
  | 3 => s.guarSum ≤ 393216
  | 4 => s.codeRules n
  | 6 => s.timing 8 ≤ s.timing 9
  | 7 => s.curveOrder n && s.curveOrder (n + 1)
  | _ => true

/-- Put the first n entries of a list in place. -/
def State.putEntries (s : State) (t : Nat) (l : List (Nat × Nat)) : State :=
  l.foldl (fun s e => s.setEntry t e.1 (mkEntry e.2)) s

/-- The first entry of an image, in image order, whose content breaks a rule: by itself, or beside the live table with the image's
earlier entries in place (R89; log entry 69). -/
def State.badEntry (s : State) (t : Nat) (l : List (Nat × Nat)) : Option Nat :=
  firstBelow l.length fun k =>
    let e := l.getD k (0, 0)
    !entryReserved t e.2 || !entryAlone t e.1 e.2 || !(s.putEntries t (l.take (k + 1))).tableRules t e.1

/-- What SEAL finds. -/
inductive SealResult where
  | ok
  | crc
  | bad (detail : Nat)
  deriving DecidableEq, Repr

/-- The checks of SEAL, in the order of R89, with DETAIL as R62 states. -/
def State.sealCheck (s : State) (im : Image) : SealResult :=
  let hd (off : Nat) : SealResult := .bad (0x4000 + off)
  let n := im.count
  let most := if im.allOrNone then 512 else 1024
  if n = 0 ∨ most < n ∨ im.length ≠ 64 + n * im.stride then hd 12
  else if im.field 0 4 ≠ 0x4C42544B then hd 0
  else if im.field 4 1 ≠ 1 then hd 4
  else if im.field 5 1 ≠ im.table then hd 5
  else if im.size ≠ entrySize im.table then hd 6
  else if im.field 14 2 / 4 ≠ 0 then hd 14
  else if im.field 28 32 ≠ 0 then hd 28
  else
    let l := im.entries
    let out := firstBelow n fun k => decide (tableSize im.table ≤ (l.getD k (0, 0)).1)
    match (if im.indexed then out else if tableSize im.table < im.field 8 4 + n then some 0 else none) with
    | some k => if im.indexed then .bad (0x8000 + k) else hd 8
    | none =>
      if !im.crcOk then .crc
      else match s.badEntry im.table l with
        | some k => .bad (0x8000 + k)
        | none => .ok

/-! ## Applying an image -/

/-- A session that is open uses the group (R27). -/
def State.groupInUse (s : State) (mg : Nat) : Bool := s.openSessions.any fun e => e.2.mg == mg

/-- The unit state lets an entry be written (R27, R128, R297, R372, R392). -/
def State.unitLets (s : State) (t n : Nat) (e : Entry) : Bool :=
  let central := t == 1 || t == 2 || t == 3 || t == 9
  if central && s.underTest 94 then false
  else match t with
    | 2 => !s.groupInUse n
    | 3 => s.guarSum - s.clsGuar n + bitsAt e.toNat 47 32 ≤ 393216
    | 4 => (List.range 64).all fun k => !(s.port k).enabled
    | 7 => !s.side.bmcAbsent
    | _ => true

/-- A class entry changes the guarantee in force (R135). -/
def State.changeGuar (s : State) (k : Nat) (e : Entry) : State :=
  let g := s.guar k
  let a := s.cellsOf k
  let g' := bitsAt e.toNat 47 32
  let s := s.setEntry 3 k e
  let d : Int := ((max a g' : Nat) : Int) - (max a g : Nat)
  let free := s.sw.sharedFree
  if d ≤ 0 ∨ d ≤ free then
    let s' := { s with sw := { s.sw with owed := sput s.sw.owed k 0 0, sharedFree := free - d } }
    if d < 0 then payOwed (-d).toNat s' else s'
  else
    let got := max 0 free
    { s with sw := { s.sw with owed := sput s.sw.owed k (d - got).toNat 0, sharedFree := free - got } }

/-- Write a live entry, with what follows from it (R135, R412). -/
def State.writeEntry (s : State) (t n : Nat) (e : Entry) : State :=
  match t with
  | 3 => s.changeGuar n e
  | 9 =>
    let sel (x : Nat) := (bitsAt x 63 37, bitsAt x 31 24)
    let changed := decide (sel (s.eventEntry n) ≠ sel e.toNat)
    let s := s.setEntry 9 n e
    if changed then s.reprogram n else s
  | _ => s.setEntry t n e

/-- Write the entries of an image in order until one fails its check: the state and the number written (R90). Each entry is judged with
the earlier ones in place, those of an ALL_OR_NONE image too (R91; log entry 69). -/
def applyEntries (t : Nat) : List (Nat × Nat) → Nat → State → State × Nat × Bool
  | [], k, s => (s, k, true)
  | e :: rest, k, s =>
    if s.unitLets t e.1 (mkEntry e.2) then applyEntries t rest (k + 1) (s.writeEntry t e.1 (mkEntry e.2)) else (s, k, false)

/-- Remove an image from the store. -/
def State.dropImage (s : State) (h : BitVec 32) : State :=
  { s with mgmt := { s.mgmt with images := s.mgmt.images.filter fun im => im.handle != h } }
def State.setImageSt (s : State) (h : BitVec 32) (st : ImageSt) : State :=
  { s with mgmt := { s.mgmt with images := s.mgmt.images.map fun im => if im.handle = h then { im with st := st } else im } }
def State.image (s : State) (h : BitVec 32) : Option Image := s.mgmt.images.find? fun im => im.handle == h

/-- Record the result of the last apply of a table (R100, R463). -/
def State.noteApply (s : State) (t : Nat) (st : BitVec 8) (detail : Nat) : State :=
  { s with tables := { s.tables with
      lastStatus := sput s.tables.lastStatus t st 0, lastBeat := sput s.tables.lastBeat t s.beat.count 0
      lastDetail := sput s.tables.lastDetail t (BitVec.ofNat 16 detail) 0 } }

/-- The power curve has changed: CURVE_TARGET is clamped (R365). -/
def State.clampCurve (s : State) : State :=
  s.updPower fun p => { p with curveTarget := min p.curveTarget s.curveTop }

/-- Apply an image at its boundary: the state, the status and DETAIL of its notice (R54, R90, R91). Its lookups are held until
INGRESS_HOLD_RELEASE. -/
def State.applyImage (s : State) (im : Image) : State × BitVec 8 × Nat :=
  let t := im.table
  if !im.crcOk then (((s.setImageSt im.handle .failed).noteApply t stTableCrc 0), stTableCrc, 0)
  else
    let cap := s.effCap
    let hold := t == 1 || t == 2 || t == 3
    let s := if hold then { s with sw := { s.sw with lookupHold := addSorted s.sw.lookupHold t } } else s
    let (s', n, all) := applyEntries t im.entries 0 s
    let s1 := if im.allOrNone && !all then s else s'
    let s1 := if t = 7 then
        (if s1.side.bmcAbsent then s1.refuseRaise else s1).clampCurve
      else s1
    let s1 := s1.capChanged cap
    if all then
      ((({ s1 with tables := { s1.tables with gen := sput s1.tables.gen t im.gen 0 } }).dropImage im.handle).noteApply t stOk 0,
        stOk, 0)
    else
      let first := if im.allOrNone then 0 else n
      ((s1.setImageSt im.handle .failed).noteApply t stDeniedState first, stDeniedState, first)

end Sys2Proof.Machine
end

