-- ==== Sys2Proof/Machine/AgendaOps.lean ====
section
/-! DEFINITION. The shared operations of the beat unit and the agenda: the root role (R35 to R37), entries (R48, R49), staging
(R50, R52, R55), and the application of entries at step 5 of a boundary (R51, R53, R81, R365, R388, R453). -/

namespace Sys2Proof.Machine

def State.updBeat (s : State) (f : BeatUnit → BeatUnit) : State := { s with beat := f s.beat }

/-! ## The beat root (R36) -/

/-- The beat period in 0.25 ns units (R32). -/
def periodLen (code : Nat) : Int := (4096 * 2 ^ code : Nat)

/-- This module becomes the beat root: it goes on with its own count, from 0 when it has never locked (R36). -/
def State.becomeRoot (s : State) : State :=
  s.updBeat fun b => { b with
    st := .root, count := if b.everLocked then b.count else 0, everLocked := true, stepTo := none, markers := []
    missed := 0, lockRun := 0, rootNext := false }

/-- This module stops being root: HOLDOVER with HOLD_BEATS = 0, learned_length the period in force (R36); the last 64 beat lengths,
its own as root among them, go on to be averaged (R43; log entry 45). -/
def State.leaveRoot (s : State) : State :=
  s.updBeat fun b => { b with
    st := .holdover, holdBeats := 0, learned := periodLen b.period, missed := 0, lockRun := 0, markers := [] }

/-- The configured root changes (R35, R36). -/
def State.setRoot (s : State) (addr : BitVec 8) : State :=
  let s := s.updBeat fun b => { b with rootAddr := addr, rootNext := false }
  let mine := addr == s.side.chainAddr && addr != 0xFF
  if mine && s.beat.st != .root then s.becomeRoot
  else if !mine && s.beat.st == .root then s.leaveRoot
  else s

/-! ## Entries (R48, R49) -/

/-- The bytes of a word address or code in PARAM_A. -/
def paramLow (a : Word) (n : Nat) : Nat := wbits a n 0

/-- STATE (R48). -/
def entryCode : EntrySt → Nat
  | .free => 0
  | .pending => 1
  | .applied => 2
  | .expired => 3
  | .superseded => 4
  | .cancelled => 5
  | .failed => 6

/-- The words of an entry (R48). -/
def AgEntry.word (x : AgEntry) : Nat → Word
  | 0 => fld 63 60 (entryCode x.st) ||| fld 59 56 x.action ||| flg 55 x.latePol ||| flg 54 x.notify
      ||| fld 53 52 (srcCode x.src) ||| fld 47 0 x.target.toNat
  | 1 => fld 63 48 x.order ||| fld 47 0 x.doneBeat.toNat
  | 2 => x.paramA
  | 3 => x.paramB
  | _ => 0

/-- The object of an entry, none for MARK (R52). -/
def entryObject (action : Nat) (a : Word) : Option (Nat × Nat) :=
  match action with
  | 1 => some (1, paramLow a 31)
  | 2 => some (2, paramLow a 23)
  | 3 => some (3, 0)
  | 4 => some (4, paramLow a 7)
  | 5 => some (4, paramLow a 7)
  | 6 => some (6, 0)
  | 7 => some (7, 0)
  | _ => none

/-- The holder of the object of an entry (R79, R80). -/
def State.entryHolder (s : State) (action : Nat) (a : Word) : Option (Src × Nat) :=
  match action with
  | 1 => s.tableHolder (wbits a 63 56)
  | 2 => s.blockHolder (wbits a 23 16)
  | 3 => s.tableHolder 7
  | 4 => s.tableHolder 8
  | 5 => s.tableHolder 8
  | _ => none

/-- t lies in the future (R33). -/
def beatFuture (now t : Beat) : Bool :=
  let d := (t - now).toNat
  1 ≤ d && d ≤ 2 ^ 47 - 1

/-- The beat at which a pending entry acts. -/
def State.entryBeat (s : State) (x : AgEntry) : Beat :=
  if x.due then s.beat.count
  else if x.next || !beatFuture s.beat.count x.target then s.beat.count + 1
  else x.target

/-- Pending entries, by number. -/
def State.pendingEntries (s : State) : List (Nat × AgEntry) := s.agenda.entries.filter fun e => decide (e.2.st = .pending)

/-- The status of the notice of an entry (R55). -/
def finalStatus (st : EntrySt) (why : BitVec 8) : BitVec 8 :=
  match st with
  | .applied => stOk
  | .superseded => stSuperseded
  | .failed => why
  | _ => stDeniedState

/-- An image whose pending entry has left PENDING without being applied is SEALED again. -/
def State.unstage (s : State) (x : AgEntry) : State :=
  if x.action = 1 then
    { s with mgmt := { s.mgmt with images := s.mgmt.images.map fun im =>
        if im.handle.toNat = paramLow x.paramA 31 ∧ im.st = .staged then { im with st := .sealed } else im } }
  else s

/-- An entry leaves PENDING: final state, DONE_BEAT, its count when it is applied, and its notice when NOTIFY = 1 (R55, R406). -/
def State.finishEntry (s : State) (e : Nat) (st : EntrySt) (why : BitVec 8) (detail : Nat) : State :=
  let x := s.agEntry e
  let s := (s.setAgEntry e { x with st := st, doneBeat := s.beat.count, next := false, due := false }).unstage x
  let s := if st = .applied then s.countGlobal 0x4002 none none 1 else s
  if x.notify then
    s.notice (pairOf x.src x.origin)
      { entry := e, order := BitVec.ofNat 16 x.order, action := x.action, state := entryCode st,
        status := (finalStatus st why).zeroExtend 16, doneBeat := s.beat.count, detail := BitVec.ofNat 16 detail,
        paramA := x.paramA }
  else s

/-! ## Staging (R50, R52, R55) -/

/-- Entries that can be taken, in the order of R55: FREE ones by number, then final ones by age and number. -/
def State.entrySlots (s : State) : List Nat :=
  let free := (List.range 256).filter fun e => decide ((s.agEntry e).st = .free)
  let done := (List.range 256).filter fun e =>
    let x := s.agEntry e
    x.st != .free && x.st != .pending
  let age (e : Nat) : Nat := (s.beat.count - (s.agEntry e).doneBeat).toNat
  free ++ sortBy (fun a b => age b ≤ age a) done

/-- A staging request: action and parameters, and the entries of its image for a TABLE_APPLY. -/
structure StageItem where
  action : Nat
  a : Word
  b : Word
  entries : Nat
  deriving DecidableEq, Repr

/-- Pending entries that a request supersedes (R52). -/
def State.supersedes (s : State) (target : Beat) (i : StageItem) : List (Nat × AgEntry) :=
  s.pendingEntries.filter fun e =>
    (entryObject i.action i.a).isSome && entryObject e.2.action e.2.paramA == entryObject i.action i.a
      && e.2.target == target

/-- Who keeps a request from its object: the holder, or the source of an entry it would supersede (R79, R81). -/
def State.stageBlock (s : State) (c : Cmd) (target : Beat) (i : StageItem) : Option (Src × Nat) :=
  if !mayChange (s.entryHolder i.action i.a) c.src c.origin then s.entryHolder i.action i.a
  else ((s.supersedes target i).find? fun e => !mayChange (some (e.2.src, e.2.origin)) c.src c.origin).map fun e =>
    (e.2.src, e.2.origin)

/-- Precedence over the objects of the requests (R63 step 8, R79, R81). -/
def State.stageGate (s : State) (c : Cmd) (target : Beat) (items : List StageItem) : Option (BitVec 8 × Nat) :=
  (items.findSome? (s.stageBlock c target)).map fun h => (stDeniedPrecedence, holderCode (some h))

/-- Table entries that a beat already carries, without the entries of a list (R50 rule 6). -/
def State.beatLoad (s : State) (at_ : Beat) (without : List Nat) : Nat :=
  ((s.pendingEntries.filter fun e => e.2.action == 1 && !without.contains e.1 && s.entryBeat e.2 == at_).map fun e =>
    ((s.image (BitVec.ofNat 32 (paramLow e.2.paramA 31))).map Image.count).getD 0).sum

/-- The target beat of a TARGET_SPEC (R50, R94): with NEXT, the boundary after this beat. -/
def State.specTarget (s : State) (spec : TargetSpec) : Beat := if spec.next then s.beat.count + 1 else spec.target
/-- The target has passed (R33). -/
def State.specPassed (s : State) (spec : TargetSpec) : Bool := !spec.next && !beatFuture s.beat.count spec.target

/-- The checks of R50 in order: a status and DETAIL, or none. `whole` is the outcome of rule 7. -/
def State.stageCheck (s : State) (c : Cmd) (spec : TargetSpec) (items : List StageItem) (whole : Bool) :
    Option (BitVec 8 × Nat) :=
  let target := s.specTarget spec
  let passed := s.specPassed spec
  let gone := (items.map fun i => (s.supersedes target i).map (·.1)).flatten
  let load := (items.map StageItem.entries).sum
  let at_ := if passed then s.beat.count + 1 else target
  if s.entrySlots.length < items.length then some (stNoResource, 0)
  else if s.beat.st = .seek ∧ spec.next = false then some (stDeniedState, 0)
  else if (items.any fun i => i.action == 7) ∧ s.beat.st ≠ .root then some (stDeniedState, 0)
  else if passed ∧ spec.latePol = false then some (stDeniedState, 0)
  else match s.stageGate c target items with
    | some h => some h
    | none =>
      if load ≠ 0 ∧ 1024 < s.beatLoad at_ gone + load then some (stNoResource, 0)
      else if !whole then some (stDeniedState, 0)
      else none

/-- Put one request into an entry (R48, R52, R55). -/
def State.stageOne (s : State) (c : Cmd) (spec : TargetSpec) (i : StageItem) : State × Nat × Nat :=
  let target := s.specTarget spec
  let s := (s.supersedes target i).foldl (fun s e => s.finishEntry e.1 .superseded stSuperseded 0) s
  let e := s.entrySlots.headD 0
  let n := s.agenda.nextOrder
  let x : AgEntry :=
    { st := .pending, action := i.action, latePol := spec.latePol, notify := spec.notify, src := c.src, origin := c.origin,
      target := target, order := n, doneBeat := 0, paramA := i.a, paramB := i.b, next := spec.next || s.specPassed spec,
      due := false }
  let s := s.setAgEntry e x
  ({ s with agenda := { s.agenda with nextOrder := n + 1 } }, e, n % 65536)

/-- Stage the requests, all of them after the checks: the state and their stage records (R94). -/
def State.stageAll (s : State) (c : Cmd) (spec : TargetSpec) (items : List StageItem) : State × Bytes :=
  items.foldl (fun (acc : State × Bytes) i =>
    let (s', e, n) := acc.1.stageOne c spec i
    (s', acc.2 ++ leBytes 2 e ++ leBytes 2 n)) (s, [])

/-! ## Step 5 of a boundary (R53) -/

/-- The place of an action in step 5 (R53). -/
def actionRank : Nat → Nat
  | 7 => 0
  | 6 => 1
  | 4 => 2
  | 1 => 3
  | 2 => 4
  | 3 => 5
  | 5 => 6
  | _ => 7

/-- The entry is past-due with LATEPOL = 0 at its boundary: it expires at step 4 (R51). -/
def State.lateEntry (s : State) (x : AgEntry) : Bool := x.due && !x.next && x.target != s.beat.count && !x.latePol

/-- Mark the pending entries whose boundary has just come (R33, R51). -/
def State.markEntries (s : State) : State :=
  s.pendingEntries.foldl (fun s e =>
    if e.2.next || !beatFuture s.beat.count e.2.target then s.setAgEntry e.1 { e.2 with due := true } else s) s

/-- Step 4: past-due entries with LATEPOL = 0 expire (R51). -/
def State.expireLate (s : State) : State :=
  (s.pendingEntries.filter fun e => s.lateEntry e.2).foldl (fun s e => s.finishEntry e.1 .expired stDeniedState 0) s

/-- The entries of this boundary in the order of step 5 (R53). -/
def State.dueEntries (s : State) : List Nat :=
  let l := s.pendingEntries.filter fun e => e.2.due && !s.lateEntry e.2
  let before (a b : Nat × AgEntry) : Bool :=
    actionRank a.2.action < actionRank b.2.action
      || (actionRank a.2.action == actionRank b.2.action && a.2.order ≤ b.2.order)
  (sortBy before l).map (·.1)

/-- The unit of an entry is in reset (R453): the switch core for its tables, the ports for theirs. -/
def State.entryInReset (s : State) (x : AgEntry) : Bool :=
  x.action == 1 && 1 ≤ wbits x.paramA 63 56 && wbits x.paramA 63 56 ≤ 6 && s.switchInReset

/-- AGD write: only the word's AGD fields change (R49, R461): TAG of BEAT_TAG at 0x01_0018, FREEZE of CTR_CTRL at 0x0E_0008. -/
def State.agdWrite (s : State) (addr : Nat) (v : Word) : State :=
  if addr = 0x010018 then s.updBeat fun b => { b with tag := v }
  else if addr = 0x0E0008 then
    let s := { s with ctr := { s.ctr with freeze := wbit v 63 } }
    if wbit v 63 then s.spoilWindows else s
  else s

/-- POWER_STEP (R365, R372). -/
def State.powerStepTo (s : State) (e : Nat) : State × Option (BitVec 8 × Nat) :=
  if !s.curveValid e then (s, some (stDeniedState, 0))
  else if s.side.bmcAbsent ∧ s.kTarget < s.curveK e then
    (s.refuseRaise, some (stDeniedState, 0))
  else (s.updPower fun p => { p with curveTarget := e }, none)

/-- BIST_STOP (R388 steps 5 and 6): the slot's running members stop, and their restores complete at once. -/
def State.stopSlot (s : State) (slot : Nat) : State :=
  match s.bist.run with
  | none => s
  | some r =>
    let on := (r.members slot).map (·.1)
    let s := on.foldl (fun s tp => s.stopTest 2 tp) s
    (on.foldl (fun s tp => s.endRestore tp) s).abortCheck

/-- BIST_START (R388): a slot of the active run starts. Its members join a slot that runs already (DESIGN CHOICE, log 24). -/
def State.bistStartSlot (s : State) (slot : Nat) : State × Option (BitVec 8 × Nat) :=
  match s.bist.run with
  | none => (s, some (stDeniedState, 0))
  | some r =>
    if !(r.parts.any fun x => entrySlot x.2 == slot) then (s, some (stDeniedState, 0))
    else if r.slotOn then
      let fresh := (r.members slot).filter fun x => !s.bist.active.contains x.1
      if r.slot = slot ∨ s.slotFits r slot = false then (s, none)
      else
        let moved (x : Nat × Entry) : Nat × Entry :=
          if entrySlot x.2 = slot then (x.1, mkEntry (x.2.toNat - (slot <<< 57) + (r.slot <<< 57))) else x
        let s := s.updBist fun b => { b with run := some { r with parts := r.parts.map moved } }
        (fresh.foldl (fun s x => if s.testReady x.1 then s.startTest x.1 else s.neverRan x.1 10) s, none)
    else (s.startSlot slot, none)

/-- What an entry does when it applies: the state, and why it failed (R49, R55). -/
def State.actEntry (s : State) (x : AgEntry) : State × Option (BitVec 8 × Nat) :=
  match x.action with
  | 1 =>
    (match s.image (BitVec.ofNat 32 (paramLow x.paramA 31)) with
    | none => (s, some (stDeniedState, 0))
    | some im =>
      let (s, st, detail) := s.applyImage im
      (s, if st = stOk then none else some (st, detail)))
  | 2 => (s.agdWrite (paramLow x.paramA 23) x.paramB, none)
  | 3 => s.powerStepTo (paramLow x.paramA 7)
  | 4 => (s.stopSlot (paramLow x.paramA 7), none)
  | 5 => s.bistStartSlot (paramLow x.paramA 7)
  | 6 => (s.setRoot (BitVec.ofNat 8 (paramLow x.paramA 7)), none)
  | 7 =>
    if s.beat.st = .root then (s.updBeat fun b => { b with period := paramLow x.paramA 2 }, none)
    else (s, some (stDeniedState, 0))
  | _ => (s, none)

/-- An entry applies at step 5, or fails (R53, R55, R81, R453). The first BIST_START of a run leaves the run active when it fails
(R114; log entry 43). -/
def State.applyEntry (s : State) (e : Nat) : State :=
  let x := s.agEntry e
  let h := s.entryHolder x.action x.paramA
  if !mayChange h x.src x.origin then s.finishEntry e .failed stDeniedPrecedence (holderCode h)
  else if s.entryInReset x then s.finishEntry e .failed stDeniedState 0
  else
    let (s, why) := s.actEntry x
    match why with
    | none => s.finishEntry e .applied stOk 0
    | some (st, detail) => s.finishEntry e .failed st detail

/-- What step 5 of a boundary does next: an agenda entry, or the stop or start of a slot of the active run (R53, R388). -/
inductive Step5 where
  | entry (e : Nat) | slotStop | slotStart
  deriving DecidableEq, Repr

/-- The next item of step 5: the entries in their order; a slot of the run stops in the position of BIST_STOP, ahead of its entries,
and starts in that of BIST_START, after them (R53, R388; log entry 63). -/
def State.nextStep5 (s : State) : Option Step5 :=
  match s.dueEntries with
  | [] => if s.slotStopDue then some .slotStop else if s.slotStartDue then some .slotStart else none
  | e :: _ =>
    let rank := actionRank (s.agEntry e).action
    if s.slotStopDue ∧ 2 ≤ rank then some .slotStop
    else if s.slotStartDue ∧ 6 < rank then some .slotStart
    else some (.entry e)

/-- Step 5 of this boundary has come to this item. -/
def State.atStep5 (s : State) (x : Step5) : Bool := s.live && s.beat.stepsDue && s.nextStep5 == some x

/-- Do one item of step 5. -/
def State.doStep5 (s : State) : Step5 → State
  | .entry e => s.applyEntry e
  | .slotStop => s.stopRunSlot []
  | .slotStart => s.startRunSlot

/-- Apply the entry when it is the next item of step 5 and carries this action. -/
def State.applyDue (s : State) (e action : Nat) : State :=
  if s.atStep5 (.entry e) && (s.agEntry e).action == action then s.applyEntry e else s

/-- The items of step 5 that are left, in order; n bounds their number. -/
def applyAll : Nat → State → State
  | 0, s => s
  | n + 1, s =>
    match s.nextStep5 with
    | none => s
    | some x => applyAll n (s.doStep5 x)

/-- Flits queued in the VOQs toward a logical port in the classes of a mask (R106, R133). -/
def State.drainLeft (s : State) (lp classes : Nat) : Nat :=
  ((s.sw.frames.filter fun q => q.outLp == lp && q.inLp != lp && bitAt classes q.tc).map fun q => q.arrived - q.crossed).sum

/-- What the test of a boundary answers for a PORT_DRAIN: REMAINING, when it completes (R106). -/
def State.drainTest (s : State) : Work → Option Nat
  | .drain lp classes since timeout =>
    let gone := s.beat.localBeats - since
    let left := s.drainLeft lp classes
    if gone = 0 then none else if left = 0 ∨ timeout ≤ gone then some left else none
  | _ => none

/-- Each PORT_DRAIN tests its queues, after step 3 (R106). -/
def State.testDrains (s : State) : State :=
  s.mgmt.deferred.foldl (fun (s : State) d =>
    match s.drainTest d.work with
    | some left => s.finishWork (fun w => decide (w = d.work)) stOk 0 (leBytes 4 left)
    | none => s) s

/-- Steps 2 to 6 of R53, with the power work that follows step 5 (R364, R369). -/
def State.boundarySteps (s : State) : State :=
  let s := s.counterStep.expireHolds.testDrains.expireLate
  let s := applyAll (s.dueEntries.length + 2) s
  (s.powerBoundary.beatSyncRelease).updBeat fun b => { b with stepsDue := false }

end Sys2Proof.Machine
end

