-- ==== Sys2Proof/Machine/LineCode.lean ====
section
/-! DEFINITION. The line code on the wire: PAM4 symbols and code groups (R289, R290), encoding and decoding with running disparity
(R294 to R299), the headers and payload of blocks (R302, R303) and the clock-lane stream (R305, R306). -/

namespace Sys2Proof.Machine

/-! ## Symbols (R289, R290, R305) -/

/-- The level of two bits, the first the more significant: Gray code (R289). -/
def pairLevel (pair : Nat) : Level :=
  match pair % 4 with
  | 0 => .l0
  | 1 => .l1
  | 3 => .l2
  | _ => .l3

/-- The two bits of a level (R289). -/
def levelPair : Level → Nat
  | .l0 => 0
  | .l1 => 1
  | .l2 => 3
  | .l3 => 2

/-- The 5 symbols of a code group: symbol k carries bits 2k and 2k + 1 in sending order, bit a, the most significant of the code,
first (R290, R294). -/
def groupSymbols (g : BitVec 10) : List Level := (List.range 5).map fun k => pairLevel (g.toNat / 4 ^ (4 - k))

/-- The code group of 5 symbols (R290). -/
def symbolsGroup (l : List Level) : BitVec 10 := BitVec.ofNat 10 (l.foldl (fun g x => 4 * g + levelPair x) 0)

/-- The code groups of a data lane's symbols (R290). -/
def dataGroups (l : List Level) : List (BitVec 10) :=
  (List.range (l.length / 5)).map fun k => symbolsGroup ((l.drop (5 * k)).take 5)

/-- The code groups of a clock lane's symbols, one bit from each (R305). -/
def clockGroups (l : List Level) : List (BitVec 10) :=
  (List.range (l.length / 10)).map fun k =>
    BitVec.ofNat 10 (((l.drop (10 * k)).take 10).foldl (fun g x => 2 * g + levelPair x % 2) 0)

/-- The 10 symbols of a clock-lane code group: the more significant bits alternate 1, 0 (R305). -/
def clockSymbols (g : BitVec 10) : List Level :=
  (List.range 10).map fun k => pairLevel (2 * ((k + 1) % 2) + g.toNat / 2 ^ (9 - k) % 2)

/-! ## The line code (R294 to R299) -/

/-- The entries that can stand on a data lane, or on a clock lane (R296). -/
def laneEntries (clock : Bool) : List Nat :=
  if clock then List.range 256 ++ [261, 262, 263, 264] else List.range 261 ++ (List.range 7).map (265 + ·)

/-- The entry whose code group stands in a column of the live table: CODE_RDN or CODE_RDP (R294). -/
def State.codeIn (s : State) (clock pos : Bool) (code : BitVec 10) : Option Nat :=
  (laneEntries clock).find? fun n =>
    let e := s.entry 4 n
    bitAt e 31 && (if pos then bitsAt e 9 0 else bitsAt e 19 10) == code.toNat

/-- The disparity after a code group (R298). -/
def rdNext (code : BitVec 10) (rd : Bool) : Bool :=
  match popCount 10 code.toNat with
  | 4 => false
  | 5 => rd
  | 6 => true
  | _ => Config.rdAfterBadCode code rd

/-- Decode one code group: the entry it stands for, if any, and the disparity after it (R299). -/
def State.decodeGroup (s : State) (clock : Bool) (rd : Option Bool) (code : BitVec 10) : Option Nat × Option Bool :=
  match rd with
  | some r => (s.codeIn clock r code, some (rdNext code r))
  | none =>
    match s.codeIn clock false code, s.codeIn clock true code with
    | some a, some b => if popCount 10 code.toNat = 5 then (some a, if a = b then none else some false)
        else (some a, some (rdNext code false))
    | some a, none => (some a, some (rdNext code false))
    | none, some b => (some b, some (rdNext code true))
    | none, none => (none, if popCount 10 code.toNat = 5 then none else some (rdNext code false))

/-- Decode code groups in order on a lane. -/
def State.decodeLane (s : State) (clock : Bool) (rd : Option Bool) (l : List (BitVec 10)) : List (Option Nat) × Option Bool :=
  l.foldl (fun acc c => let r := s.decodeGroup clock acc.2 c; (acc.1 ++ [r.1], r.2)) ([], rd)

/-- The code group of an entry at a disparity (R294, R298). -/
def State.codeOf (s : State) (n : Nat) (pos : Bool) : BitVec 10 :=
  let e := s.entry 4 n
  BitVec.ofNat 10 (if pos then bitsAt e 9 0 else bitsAt e 19 10)

/-- Encode entries in order on a lane that stands at a disparity (R298). -/
def State.encodeLane (s : State) (rd : Bool) (l : List Nat) : List (BitVec 10) × Bool :=
  l.foldl (fun acc n => let c := s.codeOf n acc.2; (acc.1 ++ [c], rdNext c acc.2)) ([], rd)

/-- Count code errors of a lane (R299, R406). -/
def State.codeErrors (s : State) (port lane n : Nat) : State :=
  if n = 0 then s
  else (s.updPort port fun p => p.setLane lane { p.lane lane with errors := satAdd 0xFFFF (p.lane lane).errors n }).countPort
    port 0x0111 none n

/-- The RX lane in the clock role (R308, R332). -/
def PortSt.rxClock (p : PortSt) : Nat := if p.rxSp = 9 ∨ p.ckOnSp = true then 8 else 9

/-- Decode code groups of the clock-lane stream: its disparity is carried on, and its code errors are counted (R299, R305). -/
def State.decodeClock (s : State) (port : Nat) (l : List (BitVec 10)) : List (Option Nat) × State :=
  let k := (s.port port).rxClock
  let (syms, rd) := s.decodeLane true ((s.port port).lane k).rd l
  let s := s.updPort port fun p => p.setLane k { p.lane k with rd := rd }
  (syms, s.codeErrors port k (syms.filter fun x => x.isNone).length)

/-! ## The marker sequence (R306) -/

/-- The entries of the marker sequence of a marker word: /MS/, its 12 bytes, /ME/ (R306). -/
def markerEntries (word : BitVec 96) : List Nat := [262] ++ (leBytes 12 word.toNat).map (·.toNat) ++ [263]

/-- The marker word of 14 decoded code groups, when they have the form of R306. -/
def markerOf (syms : List (Option Nat)) : Option (BitVec 96) :=
  let body := (syms.drop 1).take 12
  if syms.length = 14 ∧ syms.getD 0 none = some 262 ∧ syms.getD 13 none = some 263
      ∧ body.all (fun x => match x with | some n => decide (n < 256) | none => false) = true then
    some (BitVec.ofNat 96 (leNat (body.map fun x => BitVec.ofNat 8 (x.getD 0))))
  else none

/-! ## Blocks (R302, R303) -/

/-- The header that more than half of the lanes carry (R302). -/
def majority (heads : List (Option Nat)) : Option Nat :=
  [256, 257, 258, 259].find? fun h => decide (heads.length < 2 * (heads.filter fun x => x == some h).length)

/-- The stream of a block: the bytes of the flit being received, the whole flits and the faults in the order in which they come,
and the lanes (by position in the stripe) that had a code error (R303, R346). -/
structure BlockRead where
  part : Bytes
  items : List RxItem
  errs : List Nat
  deriving DecidableEq, Repr

/-- One payload position (R303): a code error is a fault and gives the byte 0x00 (R299, R346). -/
def BlockRead.next (r : BlockRead) (lane : Nat) (sym : Option Nat) : BlockRead :=
  if sym = some 260 ∧ r.part.isEmpty then r
  else
    let good := match sym with | some n => decide (n < 256) | none => false
    let b : Byte := match sym with | some n => if n < 256 then BitVec.ofNat 8 n else 0 | none => 0
    let r := if good then r else { r with items := r.items ++ [.fault], errs := r.errs ++ [lane] }
    let part := r.part ++ [b]
    if part.length = 256 then { r with part := [], items := r.items ++ [.flit (BitVec.ofNat 2048 (leNat part))] }
    else { r with part := part }

/-- The payload of a block of w lanes, in stripe order (R301, R303). -/
def readPayload (part : Bytes) (syms : List (List (Option Nat))) : BlockRead :=
  let w := syms.length
  (List.range (63 * w)).foldl (fun r p => r.next (p % w) ((syms.getD (p % w) []).getD (1 + p / w) none))
    { part := part, items := [], errs := [] }

end Sys2Proof.Machine
end

