-- ==== Sys2Proof/Machine/TxLine.lean ====
section
/-! DEFINITION. What the TX lanes of a port carry: blocks of the flit stream (R300 to R304), training blocks and their records (R330,
R331, R351), the clock-lane stream (R305, R306) and the lanes of a sleep (R317), one block time at a time (log entry 61). -/

namespace Sys2Proof.Machine

/-! ## Lanes that are powered -/

/-- The stripe is in SEND, with what R435 asks for before it done (log entry 66). -/
def Stripe.hunting (x : Stripe) : Bool := x.st == .send && !x.readOwed && !x.rtOwed
/-- The stripe is in training. -/
def Stripe.training (x : Stripe) : Bool := x.hunting || x.st == .align || x.st == .exchange

/-- A lane change has this lane powered: the spare, or the lane that returns (R351, R353). -/
def jobLane (job : Option LaneJob) (lane : Nat) : Bool :=
  match job with
  | some j => lane == 8 || (j.restore && j.lane == lane)
  | none => false

/-- A lane of a direction is powered: every lane of a stripe in training (R330), the spare until the partner's records ask nothing
of it or, in the RX direction, while the clock is looked for on it (R332, R334), and the lanes in use of a stripe that is UP and
awake (R293, R317, R320, R352). -/
def PortSt.lanePowered (p : PortSt) (tx : Bool) (lane : Nat) : Bool :=
  let first (x : Stripe) : Nat := if tx then x.txFirst else x.rxFirst
  let width (x : Stripe) : Nat := if tx then x.txw else x.rxw
  let dropped := bitAt (if tx then p.txDropped else p.rxDropped).toNat lane
  let role := if tx then p.txSp else p.rxSp
  let job := if tx then p.txJob else p.rxJob
  let awake := if tx then p.txAwake || p.txWaking != 0 else !p.rxAsleep || p.rxWaking != 0
  let some1 := p.sides.any fun sd => (p.stripe sd).training
  if lane < 8 then
    let x := p.stripe (laneSide p.split lane)
    x.training
      || (x.st == .up && awake && ((first x ≤ lane && lane < first x + width x && !dropped) || jobLane job lane))
  else if lane = 8 then
    (some1 && (if tx then !p.spOff || role != 15 else !p.clockLocked || role != 15))
      || (p.anyUp && awake && (role != 15 || jobLane job 8))
  else some1 || (p.anyUp && awake && (!dropped || jobLane job 9))

/-! ## Training records (R331) -/

/-- The 32 bytes of a training record that a physical lane sends (R331). -/
def recordBytes (r : SentRec) (lane : Nat) (background : Bool) : Bytes :=
  let flags := b2n r.split + 2 * b2n r.rxAligned + 4 * b2n r.replayValid + 8 * b2n r.ckOnSp + 16 * b2n r.tSyms + 32 * b2n background
  let b := leBytes 1 1 ++ leBytes 1 r.phase ++ leBytes 1 lane ++ leBytes 1 flags ++ leBytes 2 r.blockCount.toNat
    ++ leBytes 2 r.localEpoch.toNat ++ leBytes 2 r.peerEpoch.toNat ++ leBytes 2 r.rxNext ++ leBytes 1 r.rxLanes
    ++ leBytes 1 r.spWant ++ leBytes 1 r.rxWidth ++ leBytes 1 r.rxFirst ++ leBytes 4 r.stamp.toNat ++ leBytes 4 r.echoStamp.toNat
    ++ leBytes 4 r.turn.toNat
  b ++ leBytes 4 (crc32c b)

/-- The fill of a training block: /T1/, /T2/, /T3/ in rotation once the partner shows T_SYMS, else /I/ (R330). -/
def trainingFill (tSyms : Bool) : List Nat := (List.range 31).map fun k => if tSyms then 265 + k % 3 else 260

/-- A training block of a physical lane, by table entry (R330). -/
def State.trainingBlock (s : State) (port : Nat) (sd : Side) (lane : Nat) (background : Bool) : List Nat :=
  let x := (s.port port).stripe sd
  259 :: (recordBytes (s.sentRecord port sd (s.phaseOf x)) lane background).map (·.toNat) ++ trainingFill x.peerTSyms

/-! ## The flit stream (R301 to R304) -/

/-- The header of the next block: a mark that waits at a flit boundary makes an /S/ or /Z/ block (R302, R304, R317). -/
def Stripe.blockHead (x : Stripe) : Nat × Stripe :=
  if x.txPart.isEmpty then
    match x.txLine with
    | .sync :: l => (257, { x with txLine := l })
    | .sleep :: l => (258, { x with txLine := l })
    | _ => (256, x)
  else (256, x)

/-- The next payload position: the flit under way, or at its boundary the next flit, or /I/ when none is ready or a mark waits for
the next block (R303, R304). -/
def Stripe.nextSym (x : Stripe) : Nat × Stripe :=
  match x.txPart with
  | b :: r => (b.toNat, { x with txPart := r })
  | [] =>
    match x.txLine with
    | .flit f :: l => (f.toNat % 256, { x with txLine := l, txPart := (leBytes 256 f.toNat).drop 1 })
    | _ => (260, x)

/-- The next n payload positions. -/
def Stripe.payload : Nat → Stripe → List Nat × Stripe
  | 0, x => ([], x)
  | n + 1, x =>
    let (b, x) := x.nextSym
    let (l, x) := Stripe.payload n x
    (b :: l, x)

/-- The block of each logical lane of a stripe of w lanes: position p is on lane p mod w, at code group 1 + p / w (R301). -/
def laneBlocks (w head : Nat) (payload : List Nat) : List (List Nat) :=
  (List.range w).map fun j => head :: (List.range 63).map fun k => payload.getD (k * w + j) 260

/-- The physical TX lanes that carry a logical lane: both places while a hitless change has doubled it (R301, R353). -/
def PortSt.txPhys (p : PortSt) (k : Nat) : List Nat :=
  let doubled := match p.txJob with
    | some j => j.doubled && j.lane == k
    | none => false
  if doubled then [k, 8] else if p.txSp = k then [8] else [k]

/-- The blocks of the logical lanes of a TX stripe, on their physical lanes. -/
def PortSt.txRows (p : PortSt) (first : Nat) (blocks : List (List Nat)) : List (Nat × List Nat) :=
  (((List.range blocks.length).zip blocks).map fun y => (p.txPhys (first + y.1)).map fun k => (k, y.2)).flatten

/-- The background training of a lane change: /T/ blocks on the spare, or on the lane that returns (R351, R353). -/
def State.backgroundRows (s : State) (port : Nat) (sd : Side) : List (Nat × List Nat) :=
  match (s.port port).txJob with
  | some j =>
    let k := if j.restore then j.lane else 8
    if j.side = sd ∧ j.sent = 0 ∧ j.doubled = false ∧ k ≠ 9 then [(k, s.trainingBlock port sd k true)] else []
  | none => []

/-- Burrow has marked the TX lane bad: it is lost from the start of every training (R397). -/
def State.txLaneBad (s : State) (port lane : Nat) : Bool := bitAt (sget s.bist.txBad port 0).toNat lane

/-- What a stripe sends in one block time, by physical lane and table entry, and the stripe after it. A stripe that is halted, or
whose direction sends its wake preamble, sends /H/ blocks of /I/; a halt drops the flit under way, which the replay sends again
(R319, R330, R351). -/
def State.stripeBlock (s : State) (port : Nat) (sd : Side) : List (Nat × List Nat) × Stripe :=
  let p := s.port port
  let x := p.stripe sd
  let next := { x with blocks := x.blocks + 1 }
  let idle := p.txRows x.txFirst (List.replicate x.txw (256 :: List.replicate 63 260))
  if x.training then
    let own := stripeLanes p.split sd
    (((own ++ (if own.contains p.txSp then [8] else [])).filter fun k => !s.txLaneBad port k).map fun k => (k, s.trainingBlock port sd k false), next)
  else if x.st ≠ .up ∨ p.txAsleep = true ∧ p.txWaking ≠ 2 then ([], x)
  else if p.txWaking = 2 then (idle, next)
  else if p.halted sd then (idle ++ s.backgroundRows port sd, { next with txPart := [] })
  else
    let (head, y) := next.blockHead
    let (payload, y) := y.payload (63 * x.txw)
    (p.txRows x.txFirst (laneBlocks x.txw head payload) ++ s.backgroundRows port sd, y)

/-! ## The clock lane (R305, R306, R330) -/

/-- The TX lanes that carry the clock-lane stream: TX.CK, or TX.SP in its role, and TX.SP in training until the partner's records
ask otherwise (R308, R330, R334). -/
def PortSt.clockLanes (p : PortSt) : List Nat :=
  let sends := (p.sides.any fun sd => (p.stripe sd).training)
    || (p.anyUp && ((!p.txAsleep && p.txWaking == 0) || p.txWaking == 2))
  if !sends then []
  else
    (if p.lanePowered true 9 then [9] else [])
      ++ (if p.txSp = 9 ∨ (p.txSp = 15 ∧ p.spOff = false ∧ (p.sides.any fun sd => (p.stripe sd).training) = true) then [8] else [])

/-- Send entries on lanes at their disparities: the symbols, and the port with the disparities after them (R290, R298). -/
def State.sendRows (s : State) (port : Nat) (clock : Bool) (rows : List (Nat × List Nat)) : List (Nat × List Level) × State :=
  rows.foldl (fun acc r =>
    let p := (acc.2).port port
    let (codes, rd) := (acc.2).encodeLane (bitAt p.txRd.toNat r.1) r.2
    let bit := BitVec.ofNat 10 (1 <<< r.1)
    (acc.1 ++ [(r.1, (codes.map fun g => if clock then clockSymbols g else groupSymbols g).flatten)],
      (acc.2).setPort port { p with txRd := if rd then p.txRd ||| bit else p.txRd &&& ~~~bit })) ([], s)

/-- The clock-lane stream of n code groups: what waits, then /CI/ (R305, R306). -/
def State.sendClock (s : State) (port n : Nat) : List (Nat × List Level) × State :=
  let p := s.port port
  let l := p.ckOut.take n
  let l := l ++ List.replicate (n - l.length) 261
  let lanes := p.clockLanes.filter fun k => !((p.sides.any fun sd => (p.stripe sd).training) && s.txLaneBad port k)
  let (rows, s) := s.sendRows port true (lanes.map fun k => (k, l))
  (rows, s.updPort port fun p => { p with ckOut := p.ckOut.drop n })

/-- A port takes part in its links: it is neither in reset nor under test (R379, R451). -/
def State.lanesRun (s : State) (port : Nat) : Bool := !s.portInReset port && !s.underTest port

/-- One block time of a port's TX lanes: a block of 64 code groups on every data lane that sends, and 32 code groups on the lanes in
the clock role (R300, R305). -/
def State.portBlock (s : State) (port : Nat) : State :=
  let p := s.port port
  if !s.lanesRun port || (p.clockLanes.isEmpty && p.sides.all fun sd => (s.stripeBlock port sd).1.isEmpty) then s
  else
    let (data, s) := p.sides.foldl (fun (acc : List (Nat × List Nat) × State) sd =>
      let (rows, x) := (acc.2).stripeBlock port sd
      (acc.1 ++ rows, (acc.2).updPort port fun p => p.setStripe sd x)) ([], s)
    let (a, s) := s.sendRows port false data
    let (b, s) := s.sendClock port 32
    s.emit (.lanes port (a ++ b))

/-- The last lanes of a sleep: one /Z/ block on every stripe, then the clock-lane stream ends with four /CZ/ (R317). -/
def State.sendSleepLanes (s : State) (port : Nat) : State :=
  let s := s.updPort port fun p => p.sides.foldl (fun (p : PortSt) sd => p.setStripe sd { p.stripe sd with txLine := [.sleep] }) p
  let s := s.portBlock port
  let s := s.updPort port fun p => { p with ckOut := p.ckOut ++ [264, 264, 264, 264] }
  let (rows, s) := s.sendClock port (s.port port).ckOut.length
  s.emit (.lanes port rows)

/-- Send the markers' sequence after what waits, with at least 64 /CI/ before the next (R306). -/
def PortSt.sendMarker (p : PortSt) (word : BitVec 96) : PortSt :=
  { p with ckOut := p.ckOut ++ markerEntries word ++ List.replicate 64 261 }

end Sys2Proof.Machine
end

