-- ==== Sys2Proof/Machine/Agenda.lean ====
section
/-! DEFINITION. The beat unit's own events: boundaries, markers and following the root (R33 to R47, R53, R68, R306), and the
agenda's entries one by one (R49, R53). -/

namespace Sys2Proof.Machine

/-! ## Markers (R39, R40, R42) -/

/-- The marker word of R39. -/
def markerWord (count : Beat) (acc : Nat) (root : BitVec 8) (period src : Nat) : BitVec 96 :=
  let high := (count.toNat <<< 32) + ((acc % 65536) <<< 16) + (root.toNat <<< 8) + (period <<< 5) + (src <<< 3)
  BitVec.ofNat 96 ((high <<< 16) + crc16 (leBytes 10 high))

/-- The link delay of a port, when it is measured: that of its first stripe that is UP (R42, R337). -/
def PortSt.delay (p : PortSt) : Option Nat :=
  ((p.sides.find? fun sd => decide ((p.stripe sd).st = .up) && (p.stripe sd).delayKnown).map fun sd => (p.stripe sd).linkDelay)

/-- The period code that the root's markers carry: that of a BEAT_PERIOD entry of this boundary already (R38). -/
def State.markerPeriod (s : State) : Nat :=
  if s.beat.st = .root then
    match (s.dueEntries.filter fun e => (s.agEntry e).action == 7).getLast? with
    | some e => paramLow (s.agEntry e).paramA 2
    | none => s.beat.period
  else s.beat.period

/-- The markers of a boundary: one for each port that is up and whose TX is awake, as a sequence on its clock lane (R40, R306,
R308). -/
def State.sendMarkers (s : State) : State :=
  let root := decide (s.beat.st = .root)
  (List.range 64).foldl (fun s n =>
    let p := s.port n
    if p.anyUp && p.txAwake && !s.underTest n then
      let word := markerWord s.beat.count (if root then p.delay.getD 0 else 0) s.beat.rootAddr s.markerPeriod (if root then 0 else 1)
      (s.updPort n fun p => p.sendMarker word).emit (.marker n word)
    else s) s

/-- A marker is discarded or an estimate excluded: counted with ARG (R306, R323, R406). -/
def State.markerReject (s : State) (port arg : Nat) : State :=
  let s := if arg = 0 then s.updPort port fun p => { p with markerErrs := satAdd 255 p.markerErrs 1 } else s
  s.countPort port 0x0112 (some arg) 1

/-- MARKER_RECEIVED (R42, R306): `arrival` is the time of the timing point after the local boundary in 0.25 ns units, and `start`
and `groups` are the 14 code groups of the sequence on the clock lane. -/
def execMarkerReceived (port : Port) (arrival : Int) (start : BitVec 10) (groups : List (BitVec 10)) (s : State) : Out :=
  let n := port.val
  let p := s.port n
  if !s.live || s.portInReset n || s.underTest n || !p.clockLocked || p.rxAsleep then .next s
  else
  let (syms, s) := s.decodeClock n (start :: groups)
  let w := (match markerOf syms with | some v => v.toNat | none => 0)
  if (markerOf syms).isNone || crc16 (leBytes 10 (w >>> 16)) != w % 65536 then .next (s.markerReject n 0)
  else
    let odd := decide (4 < bitsAt w 23 21) || bitsAt w 18 16 != 0
    let relay := bitsAt w 20 19 == 2
    let mine := bitsAt w 31 24 == s.beat.rootAddr.toNat
    let acc := bitsAt w 47 32
    let s := if odd then s.markerReject n 0 else s
    let s := if relay && !mine then (s.updBeat fun b => { b with rootConflict := true }).markerReject n 1 else s
    match p.delay with
    | none => .next s
    | some d =>
      if odd || !relay || !mine || s.beat.rootAddr == 0xFF || decide (2000 < acc + d) || s.beat.st == .root then .next s
      else
        let m : Marker :=
          { port := n, est := arrival - (acc : Int) - (d : Int), count := BitVec.ofNat 48 (w >>> 48), period := bitsAt w 23 21 }
        .next (s.updBeat fun b => { b with markers := (b.markers.filter fun x => x.port != n) ++ [m] })

/-! ## Following the root (R43) -/

/-- The mean of beat lengths in 0.25 ns units; a remainder is rounded by an open value (R32, R43; log entry 5). -/
def meanLength (l : List Int) : Int :=
  let n := l.length
  let total := l.foldl (· + ·) 0
  total / (n : Int) + (if total % (n : Int) ≠ 0 ∧ Config.learnedRoundsUp total n = true then 1 else 0)

/-- x within -16 to 16 units, 4 ns (R43). -/
def clampSlew (x : Int) : Int := if x < -16 then -16 else if 16 < x then 16 else x

/-- |x| is at most n (R43, R45, R47). -/
def within (x n : Int) : Bool := decide (-n ≤ x) && decide (x ≤ n)

/-- The steps of R43 for the beat that runs. The root repeats its period (R36), and its HOLD_BEATS stands still. Of usable markers
with unlike counts, the one of the lowest port whose estimate is m gives the count (both log entry 70). The states that R43, R45 and
R46 enter have rows of their own. -/
def State.follow (s : State) : State :=
  let b := s.beat
  let push (b : BeatUnit) (len : Int) : BeatUnit := { b with length := len, lengths := (len :: b.lengths).take 64, followed := true }
  if b.st = .root then
    s.updBeat fun b => { (push b (periodLen b.period)) with validPorts := 0, learned := periodLen b.period }
  else
    let l := sortBy (fun (x y : Marker) => decide (x.est < y.est) || (x.est == y.est && decide (x.port ≤ y.port))) b.markers
    match l[(l.length - 1) / 2]? with
    | none =>
      s.updBeat fun b => { (push b b.learned) with
        missed := b.missed + 1, lockRun := 0, holdBeats := satAdd 0x1FFFF b.holdBeats 1, validPorts := 0 }
    | some mid =>
      let m := mid.est
      let lead := (l.find? fun x => x.est == m).getD mid
      let far := l.filter fun x => !within (x.est - m) 160
      let s := far.foldl (fun s x => s.markerReject x.port 2) s
      let stepped := decide (lead.count ≠ b.count) || !within m 800
      let period := lead.period
      let len := if b.st = .seek ∨ stepped = true then periodLen period + m else periodLen period + clampSlew m
      let close := within m 80 && (b.st == .seek || !stepped)
      s.updBeat fun b =>
        let b' := push b len
        { b' with
          missed := 0, holdBeats := 0, period := period, phaseErr := m, validPorts := l.length
          outlier := b.outlier || !far.isEmpty
          stepTo := if b.st = .seek ∨ stepped = true then some (lead.count + 1) else none
          lockRun := if close then b.lockRun + 1 else 0
          learned := meanLength b'.lengths }

/-- BEAT_FOLLOW_UPDATE (R43): once for each beat, after its boundary. -/
def execBeatFollowUpdate (s : State) : Out :=
  if !s.live || s.beat.followed || s.beat.st == .root then .next s else .next s.follow

/-- LOCK_ACQUIRED (R45, R47): from SEEK after 8 beats within 20 ns, from HOLDOVER or FREERUN after one that needed no step. -/
def execLockAcquired (s : State) : Out :=
  let b := s.beat
  if s.live && ((b.st == .seek && decide (8 ≤ b.lockRun))
      || ((b.st == .holdover || b.st == .freerun) && decide (1 ≤ b.lockRun))) then
    .next (s.updBeat fun b => { b with st := .locked, drift := false, everLocked := true })
  else .next s

/-- HOLDOVER_ENTRY (R43): a LOCKED follower has missed 3 beats. -/
def execHoldoverEntry (s : State) : Out :=
  if s.live && s.beat.st == .locked && decide (3 ≤ s.beat.missed) then .next (s.updBeat fun b => { b with st := .holdover })
  else .next s

/-- DRIFT (R46). -/
def execDrift (s : State) : Out :=
  let b := s.beat
  if s.live && (b.st == .holdover || b.st == .freerun) && decide (b.driftThresh < b.holdBeats) then
    .next (s.updBeat fun b => { b with drift := true })
  else .next s

/-- FREERUN_ENTRY (R46). -/
def execFreerunEntry (s : State) : Out :=
  if s.live && s.beat.st == .holdover && decide (65536 ≤ s.beat.holdBeats) then
    .next (s.updBeat fun b => { b with st := .freerun, freerunSeen := true })
  else .next s

/-! ## Boundaries (R33, R53, R68) -/

/-- Step 1 of R53: the count increases, or steps to the root's (R33, R43); a COMMIT that named this module takes effect (R427);
the root and the followers send their markers (R40). -/
def State.countBeat (s : State) : State :=
  let old := s.beat.count
  let new := (s.beat.stepTo).getD (old + 1)
  let s := s.updBeat fun b => { b with
    count := new, stepTo := none, markers := [], followed := false, localBeats := b.localBeats + 1, stepsDue := true }
  let s := if s.beat.rootNext then s.becomeRoot else s
  let s := if new ≠ old + 1 ∨ new = 0 then s.spoilWindows else s
  ((s.markWindows old).markEntries).sendMarkers

/-- BEAT_BOUNDARY (R53 step 1, R68). What the ending beat still owes comes first: its steps 2 to 6, which start at most 512 ns
after its boundary, and its update of R43. `detectorsLow` tells that a droop detector is below its light threshold at the
boundary (R362). -/
def execBeatBoundary (detectorsLow : Bool) (s : State) : Out :=
  if !s.live then .next s
  else
    let s := if s.beat.stepsDue then s.boundarySteps else s
    let s := if s.beat.followed then s else s.follow
    let s := (s.countBeat.endPowerBeat).droopBoundary detectorsLow
    .next { s with side := { s.side with
      sinceIbi := satAdd 16 s.side.sinceIbi 1, wdogCount := satAdd (2 ^ 32) s.side.wdogCount 1 } }

/-- BOUNDARY_STEPS (R53 steps 2 to 6, R68). -/
def execBoundarySteps (s : State) : Out := if s.live && s.beat.stepsDue then .next s.boundarySteps else .next s

/-! ## Entries one by one (R49, R53): each applies when it is the next one of step 5 -/

/-- TABLE_APPLY (R54, R90, R91). -/
def execTableApply (entry : Fin 256) (s : State) : Out := .next (s.applyDue entry.val 1)
/-- AGENDA_CW_WRITE (R49, R56). -/
def execAgendaCwWrite (entry : Fin 256) (s : State) : Out := .next (s.applyDue entry.val 2)
/-- POWER_STEP (R365, R372). -/
def execPowerStep (entry : Fin 256) (s : State) : Out := .next (s.applyDue entry.val 3)
/-- BIST_STOP (R388). -/
def execBistStop (entry : Fin 256) (s : State) : Out := .next (s.applyDue entry.val 4)
/-- BIST_START (R388). -/
def execBistStart (entry : Fin 256) (s : State) : Out := .next (s.applyDue entry.val 5)
/-- BEAT_ROOT (R35, R36). -/
def execBeatRoot (entry : Fin 256) (s : State) : Out := .next (s.applyDue entry.val 6)
/-- BEAT_PERIOD (R38). -/
def execBeatPeriod (entry : Fin 256) (s : State) : Out := .next (s.applyDue entry.val 7)
/-- MARK (R49): no effect but its notice. -/
def execMark (entry : Fin 256) (s : State) : Out := .next (s.applyDue entry.val 8)

end Sys2Proof.Machine
end

