-- ==== Sys2Proof/Machine/Bist.lean ====
section
/-! DEFINITION. Self-test and spares: the ends of tests, slots and copies (R379 to R399), and the power unit's own events
(R361, R364, R367, R477, R478). -/

namespace Sys2Proof.Machine

/-! ## Power -/

/-- POWER_SAMPLE (R358, R367, R368, R371, R373). -/
def execPowerSample (watts : Nat) (s : State) : Out := if !s.live then .next s else .next (s.sample watts)

/-- Lower K_DROOP by DECAF_STEP (R361). -/
def State.decaf (s : State) : State :=
  s.updPower fun p => { p with kDroop := max 8 (p.kDroop - p.decafStep), droopBeat := true }

/-- DROOP_LIGHT_TRIP (R361). -/
def execDroopLightTrip (s : State) : Out :=
  if !s.live || !s.power.droopEn then .next s
  else .next (s.decaf.updPower fun p => { p with lightSeen := true, droopTrips := satAdd 0xFFFF p.droopTrips 1 })

/-- DROOP_HEAVY_TRIP (R361, R390). -/
def execDroopHeavyTrip (s : State) : Out :=
  if !s.live || !s.power.droopEn then .next s
  else .next (s.updPower fun p => { p with
    kDroop := 8, heavySeen := true, droopBeat := true, droopTrips := satAdd 0xFFFF p.droopTrips 1 }).droopStops

/-- DROOP_FURTHER_STEP (R361): a detector stays below the light threshold for 64 more core cycles. -/
def execDroopFurtherStep (s : State) : Out :=
  if !s.live || !s.power.droopEn || !s.power.droopBeat then .next s else .next s.decaf

/-- VREQ_FRAME (R364, R477): one code step toward the target; a downward move ends when it is reached. -/
def execVreqFrame (s : State) : Out :=
  let p := s.power
  if !s.live || !p.railMoving || p.vreqFault || p.code == s.railCode then .next s
  else
    let down := decide (s.railCode < p.code)
    let code := if down then p.code - 1 else p.code + 1
    .next ((s.updPower fun p => { p with code := code, railMoving := !(down && code == s.railCode) }).emit
      (.vreq (vreqFrame code)))

/-- RAIL_SETTLED (R364): an upward slew has ended and settled. -/
def execRailSettled (s : State) : Out :=
  let p := s.power
  if s.live && p.railMoving && !p.vreqFault && p.code == s.railCode then
    .next (s.updPower fun p => { p with kRail := s.curveK p.railEntry, railMoving := false })
  else .next s

/-- VREQ_FAULT (R478). -/
def execVreqFault (s : State) : Out :=
  if !s.live then .next s else .next <| (s.updPower fun p => { p with kRail := 8, vreqFault := true, capUnmet := true }).powerAttn true

/-- VREQ_FAULT_CLEAR (R478): the current code is sent again and the rail moves to RAIL_ENTRY. -/
def execVreqFaultClear (s : State) : Out :=
  if !s.live || !s.power.vreqFault then .next s
  else
    let s := (s.updPower fun p => { p with vreqFault := false, railMoving := true }).emit (.vreq (vreqFrame s.power.code))
    .next (if s.railCode < s.power.code then s.startMove else s)

/-! ## Self-test -/

/-- BIST_PARTITION_DONE (R381, R382). -/
def execBistPartitionDone (part : Fin 96) (result : TestEnd) (s : State) : Out :=
  if !s.live then .next s else .next (s.endTest part.val result true 0).abortCheck

/-- BIST_RESTORE (R379). -/
def execBistRestore (part : Fin 96) (s : State) : Out :=
  if !s.live then .next s else .next (s.endRestore part.val)

/-- BIST_SLOT_DEADLINE (R26, R388 step 4): at the boundary LEN_BEATS after its start, the slot's running members end with DEADLINE,
and the slot ends. -/
def execBistSlotDeadline (ends : List (Nat × TestEnd)) (s : State) : Out :=
  match s.bist.run with
  | some r => if s.atStep5 .slotStop && !s.slotDone r then .next (s.deadlineSlot ends) else .next s
  | none => .next s

/-- BIST_SLOT_RETRY (R26, R388 step 2): a waiting slot tries again at a later boundary. -/
def execBistSlotRetry (s : State) : Out :=
  match s.bist.run with
  | some r =>
    if s.atStep5 .slotStart && r.waiting && (s.slotFits r r.slot || !s.slotWaited r) then .next (s.startSlot r.slot) else .next s
  | none => .next s

/-- SLOT_WAIT_EXPIRY (R26, R388 step 2): SLOT_WAIT beats without headroom. -/
def execSlotWaitExpiry (s : State) : Out :=
  match s.bist.run with
  | some r =>
    if s.atStep5 .slotStart && r.waiting && s.slotWaited r && !s.slotFits r r.slot then .next s.expireSlot else .next s
  | none => .next s

/-- BIST_SLOT_END (R26, R388 step 4): the first boundary after every member has finished. -/
def execBistSlotEnd (s : State) : Out :=
  match s.bist.run with
  | some r => if s.atStep5 .slotStop && s.slotDone r then .next s.endSlot else .next s
  | none => .next s

/-- BIST_NEXT_SLOT (R26, R388 step 4): GAP_BEATS after the end of a slot. -/
def execBistNextSlot (s : State) : Out :=
  match s.bist.run with
  | some r => if s.atStep5 .slotStart && !r.waiting then .next (s.startSlot r.slot) else .next s
  | none => .next s

/-! ## Spares -/

/-- Record the beat at which a unit was brought in, for its command (R399). -/
def State.noteBroughtIn (s : State) (k : SpareKind) (n : Nat) : State :=
  { s with mgmt := { s.mgmt with deferred := s.mgmt.deferred.map fun d => match d.work with
    | .bringIn k' n' none => if k' = k ∧ n' = n then { d with work := .bringIn k n (some s.beat.count) } else d
    | _ => d } }

/-- A word that was uncorrectable in a bank that has been copied went to the spare with its poison mark; the frame or the slot group
that holds it is handled (R147, R277, R394 step 4). -/
def State.copyErr (s : State) (bank : Nat) : CopyErr → State
  | .frame id => s.faultFrame id 9 0xB none
  | .group sid chunk group page => s.damageGroup sid chunk group (if page then .pageEcc bank else .slotEcc bank)

/-- Halves whose next bank another copy held go on (R378, R394). -/
def State.resumeHalves (s : State) : State :=
  [90, 91, 92, 93].foldl (fun (s : State) tp =>
    let q := s.testSeq tp
    if s.bist.active.contains tp ∧ q.bank.isNone ∧ q.left ≠ [] then
      s.goMarch tp { words := [], patterns := 0, txFail := 0, rxFail := 0, banks := 0, badBanks := [] }
    else s) s

/-- BANK_COPY_DONE (R394): the spare takes the bank's place, and the march of a bank under test begins. -/
def execBankCopyDone (kind : SpareKind) (copy : BankCopy) (s : State) : Out :=
  let bank := copy.bank
  if !s.live then .next s
  else match s.bist.copies.find? fun c => c.1 == kind && c.2.1 == bank with
    | none => .next s
    | some c =>
      let s := copy.poisoned.foldl (fun s e => s.copyErr bank e) s
      let tp := unitPart kind bank
      let s := if (s.testSeq tp).bank = some bank then s.endMarchCopy tp bank else s.endCopy kind bank c.2.2.1 c.2.2.2
      .next (s.noteBroughtIn kind bank).resumeHalves

/-- The automatic trigger of a unit (R393): a residue failure of a cluster, or as many uncorrectable words in a bank as its
threshold. -/
def State.triggered (s : State) (k : SpareKind) (n : Nat) : Bool :=
  match k with
  | .cluster => s.coll.residueBad.contains n
  | .buffer => decide (s.bist.bufThresh.toNat ≤ sget s.bist.bufUe n 0)
  | .drey => decide (s.bist.dreyThresh.toNat ≤ sget s.bist.dreyUe n 0)

/-- SPARE_AUTO_BRING_IN (R393, R394, R396): a unit that meets its automatic trigger leaves service, onto a spare while one remains; a
bank that is being copied for its march is UNUSABLE from the end of the copy. -/
def execSpareAutoBringIn (kind : SpareKind) (unit : Nat) (s : State) : Out :=
  if !s.live || !s.bist.autoSpare || decide (kindUnits kind ≤ unit) || !s.triggered kind unit then .next s
  else if s.bankRole kind unit = .inService then
    match s.nextSpare kind unit with
    | some sp => .next (s.bringOut kind unit sp)
    | none => .next (s.loseBank kind unit)
  else .next (s.updBist fun b => { b with copies := b.copies.map fun c =>
    if c.1 = kind ∧ c.2.1 = unit then (c.1, c.2.1, c.2.2.1, true) else c })

/-- SPARE_BRING_IN_COMPLETE (R214, R399): the oldest bring-in whose spare has taken over completes with the beat of that. -/
def execSpareBringInComplete (s : State) : Out :=
  if !s.live then .next s
  else
    let done (w : Work) : Option Beat := match w with
      | .bringIn _ _ d => d
      | .stackBringIn _ d => d
      | _ => none
    match s.mgmt.deferred.find? fun d => (done d.work).isSome with
    | none => .next s
    | some d => .next (s.finishWork (fun w => (done w).isSome) stOk 0 (leBytes 6 ((done d.work).getD 0).toNat))

/-- FUSE_BLOW (R395): the marks made are blown at the next boundary. -/
def execFuseBlow (s : State) : Out :=
  if !s.live || s.bist.toBlow.isEmpty then .next s
  else
    let marks := s.bist.toBlow
    let s := marks.foldl (fun s m => s.emit (.fuse m.1 m.2)) s
    .next (s.updBist fun b => { b with toBlow := [], fuses := b.fuses ++ marks.filter fun m => !b.fuses.contains m })

end Sys2Proof.Machine
end

