-- ==== Sys2Proof/Machine/Packets.lean ====
section
/-! DEFINITION. How command packets arrive from the PCIe rings (R71 to R76) and in band on TC7 (R77), and what the other
sources share with them. -/

namespace Sys2Proof.Machine

/-! ## Arrival (R63, R66, R70) -/

/-- The controller's paths are open: before management ready and under the management scope none of them takes anything
(R450, R451). -/
def State.isOpen (s : State) : Bool := s.live && !s.mgmtInReset

/-- A packet waits for the controller (R66, R67). -/
def State.arrive (s : State) (p : Packet) : State :=
  { s with mgmt := { s.mgmt with arrivals := s.mgmt.arrivals ++ [p] } }

/-- The PENDING header of a packet that has been taken (R61, R75, R78). -/
def packetPending (src : Src) (origin index : Nat) (b : Bytes) : Reply :=
  pendingReply (parseCmd src origin index b) (BitVec.ofNat 16 (pktOpcode b))

/-- Replies of a bus store that no bus read has returned (R70). -/
def State.unread (s : State) (pair : Nat) : Nat :=
  (s.mgmt.stores.filter fun e => e.pair == pair && !e.read).length

/-- Deferred commands of a pair (R66). -/
def State.deferredOf (s : State) (pair : Nat) : Nat :=
  (s.mgmt.deferred.filter fun d => pairOf d.cmd.src d.cmd.origin == pair).length

/-- Take a packet from a bus: it gets a place in the reply store and waits for the controller (R70). -/
def State.takeBus (s : State) (src : Src) (b : Bytes) : State :=
  let pair := pairOf src 0
  ({ s with mgmt := { s.mgmt with stores := takePlace pair (packetPending src 0 0 b) false s.mgmt.stores } }).arrive
    { pair := pair, index := 0, tooLong := false, bytes := b }

/-! ## The PCIe rings (R71 to R76) -/

def State.updRing (s : State) (f : Ring → Ring) : State := { s with ring := f s.ring }

/-- Command and reply slot sizes (R71). -/
def slotBytes (code : Nat) : Nat := if code = 0 then 256 else if code = 1 then 1024 else 4096

/-- a < b among free-running counts modulo 2^32 (R74). -/
def countBefore (a b : BitVec 32) : Bool := 1 ≤ (b - a).toNat && (b - a).toNat < 2 ^ 31

/-- Command HEAD may be fetched (R74). -/
def State.mayFetch (s : State) : Bool :=
  let r := s.ring
  r.enable && countBefore r.head r.tail && countBefore r.head (r.done + BitVec.ofNat 32 s.ringSize)

/-- The bytes of a command slot that are its packet: the first LENGTH, and a header at least (R72). -/
def slotPacket (b : Bytes) : Bytes := b.take (max 32 (pktLength b))

/-- PCIE_CMD_FETCH (R72, R74, R75): the module reads the slot of command HEAD, whose bytes the host memory supplies, and writes
a PENDING header into its reply slot. -/
def execPcieCmdFetch (slot : Bytes) (s : State) : Out :=
  if s.isOpen && s.mayFetch && slot.length == slotBytes s.ring.cmdSlot then
    let i := s.ring.head.toNat
    let b := slotPacket slot
    let s := (s.updRing fun r => { r with head := r.head + 1 }).writeSlot i (packetPending .pcie 0 i b)
    .next (s.arrive { pair := 0, index := i, tooLong := decide (slot.length < pktLength slot), bytes := b })
  else .next s

/-- CMD_TAIL_WRITE (R71, R74). -/
def execCmdTailWrite (value : Word) (s : State) : Out :=
  if !s.isOpen then .next s
  else
    let tail : BitVec 32 := value.truncate 32
    .next (s.updRing fun r => { r with
      tail := tail, overrun := r.overrun || decide (s.ringSize < (tail - r.done).toNat) })

/-- REPLY_DONE_WRITE (R71, R76): the replies that DONE passes get REPLAYED set; one still PENDING is left unchanged. -/
def execReplyDoneWrite (value : Word) (s : State) : Out :=
  if !s.isOpen then .next s
  else
    let t := s.updRing fun r => { r with done := value.truncate 32 }
    let mark (x : RingSlot) : RingSlot :=
      if s.consumed x.index = false ∧ t.consumed x.index = true ∧ x.reply.status ≠ stPending then
        { x with reply := { x.reply with replayed := true } }
      else x
    .next (t.updRing fun r => { r with slots := r.slots.map fun e => (e.1, mark e.2) })

/-- RING_CFG_WRITE (R71 to R73). -/
def execRingCfgWrite (value : Word) (s : State) : Out :=
  if !s.isOpen then .next s
  else
    let r := s.ring
    let size := wbits value 3 0
    let cmd := wbits value 9 8
    let reply := wbits value 13 12
    let sizeOk := decide (4 ≤ size) && decide (size ≤ 12)
    let bad := !r.enable && (!sizeOk || cmd == 3 || reply == 3)
    .next (s.updRing fun r => { r with
      overrun := w1c r.overrun (wbit value 30)
      cfgErr := w1c r.cfgErr (wbit value 29) || bad
      slotsLog2 := if !r.enable && sizeOk then size else r.slotsLog2
      cmdSlot := if !r.enable && cmd != 3 then cmd else r.cmdSlot
      replySlot := if !r.enable && reply != 3 then reply else r.replySlot
      enable := wbit value 31 && !r.cfgErr && !bad })

/-- RING_BASE_WRITE (R71 to R73): CMD_BASE, or REPLY_BASE with `reply`. -/
def execRingBaseWrite (reply : Bool) (value : Word) (s : State) : Out :=
  if !s.isOpen then .next s
  else
    let base : Word := value &&& ~~~(0xFFF : Word)
    .next (s.updRing fun r => { r with
      cfgErr := r.cfgErr || decide (wbits value 11 0 ≠ 0)
      cmdBase := if !r.enable && !reply then base else r.cmdBase
      replyBase := if !r.enable && reply then base else r.replyBase })

/-- BAR0_WRITE (R71, R73): IRQ_CFG takes the write; a word that only the module writes, and an offset that R71 does not define,
ignore it. -/
def execBar0Write (offset : BitVec 12) (value : Word) (s : State) : Out :=
  if s.isOpen && offset == 0x38 then
    .next (s.updRing fun r => { r with holdoff := BitVec.ofNat 16 (wbits value 31 16), irqEn := wbit value 0 })
  else .next s

/-- REPLY_IRQ_HOLDOFF_END (R71). -/
def execReplyIrqHoldoffEnd (s : State) : Out :=
  if !s.ring.gapRuns then .next s
  else
    let t := s.updRing fun r => { r with gapRuns := false, irqWaits := false }
    .next (if s.ring.irqWaits then t.replyIrq else t)

/-! ## TC7 (R77) -/

/-- TC7_ALLOW names the logical port (R77, R462). -/
def State.tc7Allowed (s : State) (lp : Nat) : Bool := s.mgmt.tc7Allow.getLsbD lp

/-- TC7_CMD_FRAME (R77, R123): a CMD frame that a LOCAL route has handed over; its cells are freed. -/
def execTc7CmdFrame (lp : Lp) (foreign : Bool) (frame : InFrame) (s : State) : Out :=
  let n := lp.val
  if !s.isOpen || s.switchInReset || foreign || frame.hdr.ftype != 7 || frame.hdr.tc != 7 || !frameGiven frame then .next s
  else match s.claim n foreign frame with
    | (t, none) => .next t
    | (t, some _) =>
      let t := t.freeFrame n frame
      if s.tc7Allowed n then
        .next (t.arrive { pair := pairOf .tc7 n, index := 0, tooLong := false, bytes := frameData frame })
      else .next (t.countLp n 0x0110 none none 1)

end Sys2Proof.Machine
end

