-- ==== Sys2Proof/Machine/Buses.lean ====
section
/-! DEFINITION. The Sideband Chain (R420 to R427, R432) and the I3C target port (R428 to R430, R437). -/

namespace Sys2Proof.Machine

def State.updSide (s : State) (f : Sideband → Sideband) : State := { s with side := f s.side }

/-! ## Reads of a bus store (R78) -/

/-- The place of a bus store that a SELECT of this SEQ names: the latest that answers no repeated packet (R65, R78). -/
def State.selected (s : State) (pair : Nat) (seq : BitVec 32) : Option Stored :=
  s.mgmt.stores.reverse.find? fun e => e.pair == pair && !e.dup && e.reply.cmd.seq == seq

/-- The oldest place that no read has returned (R78). -/
def State.oldestUnread (s : State) (pair : Nat) : Option Stored :=
  s.mgmt.stores.find? fun e => e.pair == pair && !e.read

/-- Mark the last place equal to x as read. -/
def markRead (x : Stored) (l : List Stored) : List Stored :=
  let go (acc : Bool × List Stored) (e : Stored) : Bool × List Stored :=
    if !acc.1 && e == x then (true, { e with read := true } :: acc.2) else (acc.1, e :: acc.2)
  (l.reverse.foldl go (false, [])).2

/-- The reply of a place as a read returns it (R16, R78): PENDING never carries REPLAYED. -/
def readReply (x : Stored) (again : Bool) : Reply :=
  if x.reply.status = stPending then x.reply else { x.reply with replayed := x.reply.replayed || again || x.read }

/-- A whole read of a place: a completed reply counts as read (R70). -/
def State.takeRead (s : State) (x : Stored) : State :=
  if x.reply.status = stPending then s
  else { s with mgmt := { s.mgmt with stores := markRead x s.mgmt.stores } }

/-- The 8 bytes of SEQ_STATE for a pair (R423). -/
def State.seqState (s : State) (pair : Nat) : Bytes :=
  match sget s.mgmt.lastSeq pair none with
  | none => zeros 8
  | some q => leBytes 4 q.toNat ++ [1, 0, 0, 0]

/-! ## Chain frames (R421 to R425, R432) -/

/-- The module has attention pending (R432). -/
def State.attnPending (s : State) : Bool := s.side.attn.toNat / 2 != 0

/-- Step 1 of R424: a frame whose HOPS have run out is discarded; another counts this module and collects its attention. -/
def State.hop (s : State) (f : SbFrame) : Option SbFrame :=
  if 32 ≤ f.hops.toNat then none
  else some { f with
    hops := f.hops + 1
    attnMap := if s.side.chainAddr ≠ 0xFF ∧ s.attnPending = true then f.attnMap ||| (1 <<< s.side.chainAddr.toNat) else f.attnMap }

/-- The frame is addressed to this module (R422, R424). -/
def State.addressed (s : State) (f : SbFrame) : Bool := s.side.chainAddr != 0xFF && f.addr == s.side.chainAddr

/-- A frame that passed its checks: nothing while the tray bypasses the module (R420, R450), else steps 2 to 5 of R424. -/
def State.chain (s : State) (f : SbFrame) (act : SbFrame → State) : State :=
  if !s.isOpen then s
  else match s.hop f with
    | none => s
    | some g => act g

/-- The header and payload of a frame as bytes (R422). -/
def sbBytes (f : SbFrame) : Bytes :=
  leBytes 1 f.ftype.toNat ++ leBytes 1 f.addr.toNat ++ leBytes 1 f.flags.toNat ++ leBytes 1 f.hops.toNat
    ++ leBytes 4 f.attnMap.toNat ++ leBytes 2 f.payload.length ++ leBytes 2 f.rsvd.toNat ++ f.payload

/-- A frame as the wire carries it after its idle bits: the start byte, the header, the payload and the CRC-32C (R421). -/
def sbWire (f : SbFrame) : Bytes := 0x2A :: sbBytes f ++ leBytes 4 (crc32c (sbBytes f))

/-- The wire carries a frame: at least 16 idle bits, the start byte, the header, its LEN bytes of payload, and the CRC-32C of these
two (R421). -/
def sbGood (x : SbWire) : Bool :=
  let len := byteField x.bytes 9 2
  decide (16 ≤ x.idle) && byteField x.bytes 0 1 == 0x2A && x.bytes.length == 17 + len
    && byteField x.bytes (13 + len) 4 == crc32c (slice x.bytes 1 (12 + len))

/-- The frame that the wire carries, if it is one (R421, R422). -/
def sbFrame (x : SbWire) : Option SbFrame :=
  let b := x.bytes
  if sbGood x then some {
    ftype := byteAt b 1, addr := byteAt b 2, flags := byteAt b 3, hops := byteAt b 4, attnMap := BitVec.ofNat 32 (byteField b 5 4)
    rsvd := BitVec.ofNat 16 (byteField b 11 2), payload := slice b 13 (byteField b 9 2) }
  else none

/-- Send a frame downstream (R421). -/
def State.sendSb (s : State) (f : SbFrame) : State := s.emit (.sbFrame f (sbWire f))

/-- Send a REPLY frame in the place of a READ (R421, R423). -/
def State.sendSbReply (s : State) (f : SbFrame) (r : Option Reply) : State := s.emit (.sbReply f r (sbWire f))

def State.countFrameErr (s : State) : State := s.updSide fun d => { d with frameErrs := satAdd 0xFFFF d.frameErrs 1 }

/-- What the wire carries that is no frame is discarded and counted (R421). -/
def State.discardSb (s : State) : State := if s.isOpen then s.countFrameErr else s

/-- What the wire carries is taken as a frame, or discarded (R421; log entry 73). -/
def State.receiveSb (s : State) (x : SbWire) (act : SbFrame → Out) : Out :=
  match sbFrame x with
  | some f => act f
  | none => .next s.discardSb

/-- A CMD frame for this module: by its address or by broadcast (R424). -/
def State.cmdMine (s : State) (f : SbFrame) : Bool := f.ftype == 2 && (s.addressed f || f.addr == 0xFE)

/-- SB_CMD (R66, R70, R424 step 2). -/
def execSbCmd (wire : SbWire) (s : State) : Out := s.receiveSb wire fun frame =>
  if !s.cmdMine frame then .next s
  else .next (s.chain frame fun g =>
    if 16 ≤ s.deferredOf 2 ∨ 4 ≤ s.unread 2 then s.sendSb { g with flags := g.flags ||| 2 }
    else (s.takeBus .sb frame.payload).sendSb { g with flags := g.flags ||| 1 })

/-- SB_SELECT (R78, R424 step 3). -/
def execSbSelect (wire : SbWire) (s : State) : Out := s.receiveSb wire fun frame =>
  if frame.ftype != 4 || !s.addressed frame then .next s
  else .next (s.chain frame fun g =>
    let seq := BitVec.ofNat 32 (byteField frame.payload 0 4)
    let found := (s.selected 2 seq).isSome
    let t := { s with mgmt := { s.mgmt with sbSelect := if found then some seq else none } }
    t.sendSb { g with flags := g.flags ||| (if found then 1 else 4) })

/-- The place whose reply the next READ returns, and whether a SELECT named it (R78). -/
def State.sbNext (s : State) : Option (Stored × Bool) :=
  match s.mgmt.sbSelect.bind (s.selected 2) with
  | some x => some (x, true)
  | none => (s.oldestUnread 2).map fun x => (x, false)

/-- SB_READ (R78, R423, R424 step 4). -/
def execSbRead (wire : SbWire) (s : State) : Out := s.receiveSb wire fun frame =>
  if frame.ftype != 3 || !s.addressed frame then .next s
  else .next (s.chain frame fun g =>
    let t := { s with mgmt := { s.mgmt with sbSelect := none } }
    match s.sbNext with
    | none => t.sendSbReply { g with ftype := 5, flags := 0, payload := [] } none
    | some (x, again) =>
      let r := readReply x again
      (t.takeRead x).sendSbReply { g with ftype := 5, flags := 0, payload := replyBytes false r } (some r))

/-- SB_SEQ_QUERY (R423, R424 step 4). -/
def execSbSeqQuery (wire : SbWire) (s : State) : Out := s.receiveSb wire fun frame =>
  if frame.ftype != 6 || !s.addressed frame then .next s
  else .next (s.chain frame fun g => s.sendSb { g with ftype := 7, flags := 0, payload := s.seqState 2 })

/-- SB_POLL (R423, R432). -/
def execSbPoll (wire : SbWire) (s : State) : Out := s.receiveSb wire fun frame =>
  if frame.ftype != 8 then .next s
  else .next (s.chain frame fun g => s.sendSb g)

/-- The MODE of an ENUM frame (R426). -/
def enumMode (f : SbFrame) : Nat := byteField f.payload 0 1

/-- A frame of a reserved type (R423). -/
def sbReserved (f : SbFrame) : Bool := f.ftype == 0 || 8 < f.ftype.toNat

/-- A frame that this module neither takes, answers nor changes beyond step 1 (R423, R424 step 5, R426). -/
def State.passesOn (s : State) (f : SbFrame) : Bool :=
  match f.ftype.toNat with
  | 1 => 4 ≤ enumMode f || f.payload.length != 16
  | 2 => !s.cmdMine f
  | 3 => !s.addressed f
  | 4 => !s.addressed f
  | 6 => !s.addressed f
  | 8 => false
  | _ => true

/-- SB_FRAME_FORWARD (R423, R424 step 5, R426): a reserved type, and an ENUM of another MODE, are forwarded unchanged; the type
is counted. -/
def execSbFrameForward (wire : SbWire) (s : State) : Out := s.receiveSb wire fun frame =>
  if !s.passesOn frame then .next s
  else .next (s.chain frame fun g =>
    if sbReserved frame then (s.countFrameErr).sendSb frame
    else if frame.ftype = 1 then s.sendSb frame
    else s.sendSb g)

/-- SB_FRAME_DISCARD (R421): the wire carries bytes that no other row of the chain is given and that are no frame. -/
def execSbFrameDiscard (s : State) : Out := .next s.discardSb

/-- CHAIN_LOST (R421). -/
def execChainLost (s : State) : Out := if s.isOpen then .next (s.updSide fun d => { d with chainLost := true }) else .next s

/-! ## Enumeration (R426, R427) -/

/-- The 16 bytes of an ENUM payload by field (R426). -/
structure EnumFields where
  count : Nat
  base : Nat
  used : Nat
  new : Nat
  refused : Nat
  deriving DecidableEq, Repr

def enumFields (b : Bytes) : EnumFields :=
  { count := byteField b 1 1, base := byteField b 2 2, used := byteField b 4 4, new := byteField b 8 4, refused := byteField b 12 4 }

def enumBytes (mode : Nat) (e : EnumFields) : Bytes :=
  leBytes 1 mode ++ leBytes 1 e.count ++ leBytes 2 e.base ++ leBytes 4 e.used ++ leBytes 4 e.new ++ leBytes 4 e.refused

/-- An ENUM frame of this mode with its 16 bytes of payload; COUNT goes up by one, the module acts, and the frame goes on. -/
def State.enumerate (s : State) (mode : Nat) (f : SbFrame) (act : EnumFields → EnumFields × State) : Out :=
  if f.ftype != 1 || enumMode f != mode || f.payload.length != 16 then .next s
  else .next (s.chain f fun g =>
    let e := enumFields f.payload
    let (e, t) := act { e with count := (e.count + 1) % 256 }
    t.sendSb { g with payload := enumBytes mode e })

/-- Set the bit of a chain address; 0xFF has none. -/
def setAddr (m : Nat) (a : BitVec 8) : Nat := if a = 0xFF then m else m ||| (1 <<< a.toNat)

/-- SB_ENUM_SURVEY (R426). -/
def execSbEnumSurvey (wire : SbWire) (s : State) : Out := s.receiveSb wire fun frame =>
  s.enumerate 0 frame fun e => ({ e with used := setAddr e.used s.side.chainAddr }, s)

/-- The address that ASSIGN gives: the lowest free one, unless its FABRIC_ID would pass 0xFFFE (R426). -/
def assignAddr (e : EnumFields) : Option Nat :=
  match firstBelow 32 fun a => !bitAt e.used a with
  | some a => if e.base + a ≤ 0xFFFE then some a else none
  | none => none

/-- SB_ENUM_ASSIGN (R426). -/
def execSbEnumAssign (wire : SbWire) (s : State) : Out := s.receiveSb wire fun frame =>
  s.enumerate 1 frame fun e =>
    if s.side.chainAddr ≠ 0xFF then (e, s)
    else match assignAddr e with
      | none => (e, s)
      | some a =>
        ({ e with used := e.used ||| (1 <<< a), new := e.new ||| (1 <<< a) },
          s.updSide fun d => { d with chainAddr := BitVec.ofNat 8 a, fabricId := BitVec.ofNat 16 (e.base + a) })

/-- SB_ENUM_COMMIT (R426, R427): the lowest used address is the configured root, and becomes root at the next boundary. -/
def execSbEnumCommit (wire : SbWire) (s : State) : Out := s.receiveSb wire fun frame =>
  s.enumerate 2 frame fun e =>
    if s.side.chainAddr = 0xFF ∨ s.beat.rootAddr ≠ 0xFF then (e, s)
    else match firstBelow 32 fun a => bitAt e.used a with
      | none => (e, s)
      | some a => (e, s.updBeat fun b => { b with
          rootAddr := BitVec.ofNat 8 a, rootNext := s.side.chainAddr == BitVec.ofNat 8 a })

/-- Every port of the module is disabled (R426). -/
def State.allDisabled (s : State) : Bool := (List.range 64).all fun n => !(s.port n).enabled

/-- SB_ENUM_CLEAR (R36, R426, R427). -/
def execSbEnumClear (wire : SbWire) (s : State) : Out := s.receiveSb wire fun frame =>
  s.enumerate 3 frame fun e =>
    if s.allDisabled then
      (e, (s.updSide fun d => { d with chainAddr := 0xFF, fabricId := 0xFFFF }).setRoot 0xFF)
    else
      let a := s.side.chainAddr
      ({ e with used := setAddr e.used a, refused := setAddr e.refused a }, s.updSide fun d => { d with clearRefused := true })

/-! ## I3C private transfers (R70, R78, R429) -/

/-- A private write: not acknowledged while the paths are closed or every place of the store is unread (R70, R429, R450). -/
def State.i3cWrite (s : State) (act : State) : Out :=
  if !s.isOpen || decide (8 ≤ s.unread 1) then .next (s.emit .i3cNack) else .next (act.emit .i3cAck)

/-- I3C_COMMAND (R429): XFER 1 delivers the packet; a reserved XFER is ignored and counted. -/
def execI3cCommand (xfer : Byte) (packet : Bytes) (s : State) : Out :=
  if xfer = 2 ∨ xfer = 3 then .next s
  else s.i3cWrite (if xfer = 1 then s.takeBus .i3c packet
    else s.updSide fun d => { d with xferErrs := satAdd 0xFF d.xferErrs 1 })

/-- I3C_SELECT (R78, R429). -/
def execI3cSelect (seq : BitVec 32) (s : State) : Out :=
  s.i3cWrite { s with mgmt := { s.mgmt with i3cSelect := some seq, i3cQuery := false } }

/-- I3C_SEQ_QUERY (R429). -/
def execI3cSeqQuery (s : State) : Out := s.i3cWrite { s with mgmt := { s.mgmt with i3cQuery := true } }

/-- I3C_PRIVATE_READ (R78, R429): `endsEarly` when the controller ends the read before the reply's LENGTH. -/
def execI3cPrivateRead (endsEarly : Bool) (s : State) : Out :=
  if !s.isOpen then .next (s.emit .i3cNack)
  else if s.mgmt.i3cQuery then
    .next ({ s with mgmt := { s.mgmt with i3cQuery := false } }.emit (.i3cBytes (s.seqState 1)))
  else
    let t := { s with mgmt := { s.mgmt with i3cSelect := none } }
    match s.mgmt.i3cSelect with
    | some q => match s.selected 1 q with
      | none => .next (t.emit .i3cNack)
      | some x => .next ((if endsEarly then s else t.takeRead x).emit (.i3cReply (readReply x true)))
    | none => match s.oldestUnread 1 with
      | none => .next (s.emit .i3cNack)
      | some x => .next ((if endsEarly then s else s.takeRead x).emit (.i3cReply (readReply x false)))

/-! ## Common command codes (R428; log entry 25) -/

/-- A CCC that the target takes. -/
def State.ccc (s : State) (act : State) : Out := if s.isOpen then .next act else .next s
/-- A CCC that returns bytes. -/
def State.cccBytes (s : State) (b : Bytes) : Out := s.ccc (s.emit (.i3cBytes b))

/-- ENTDAA (R428): a target without a dynamic address takes the one it is given. -/
def execEntdaa (addr : BitVec 7) (s : State) : Out :=
  s.ccc (if s.side.dynAddr = 0 then s.updSide fun d => { d with dynAddr := addr } else s)

/-- SETDASA (R428): the target of this static address takes the dynamic one. -/
def execSetdasa (static : BitVec 7) (addr : BitVec 7) (s : State) : Out :=
  s.ccc (if s.side.dynAddr = 0 ∧ static = s.side.staticAddr then s.updSide fun d => { d with dynAddr := addr } else s)

/-- RSTDAA (R428). -/
def execRstdaa (s : State) : Out := s.ccc (s.updSide fun d => { d with dynAddr := 0 })

/-- SETMWL (R428): accepted and changes nothing. -/
def execSetmwl (length : BitVec 16) (s : State) : Out :=
  let _ := length
  s.ccc s
/-- SETMRL (R428): accepted and changes nothing. -/
def execSetmrl (length : BitVec 16) (s : State) : Out :=
  let _ := length
  s.ccc s

/-- A 16-bit value, most significant byte first. -/
def bytes2 (n : Nat) : Bytes := (leBytes 2 n).reverse

/-- GETMWL (R428): 4,097 bytes. -/
def execGetmwl (s : State) : Out := s.cccBytes (bytes2 4097)
/-- GETMRL (R428): 4,096 bytes. -/
def execGetmrl (s : State) : Out := s.cccBytes (bytes2 4096)
/-- The provisional ID, 48 bits (R428). -/
def provisionalId : Nat := (Config.i3cPidHigh.toNat <<< 32) + (0x6412 <<< 16) + Config.serial.toNat % 65536
/-- GETPID (R428). -/
def execGetpid (s : State) : Out := s.cccBytes (leBytes 6 provisionalId).reverse
/-- GETBCR (R428). -/
def execGetbcr (s : State) : Out := s.cccBytes [Config.i3cBcr]
/-- GETDCR (R428). -/
def execGetdcr (s : State) : Out := s.cccBytes [Config.i3cDcr]
/-- GETSTATUS (R428): its value is open. -/
def execGetstatus (s : State) : Out :=
  s.ccc ({ s with draws := s.draws + 1 }.emit (.i3cBytes (bytes2 (Config.i3cStatus s.draws).toNat)))

/-- An in-band interrupt goes out when one is due, enabled, and 16 beats have passed (R430). -/
def State.raiseIbi (s : State) : State :=
  if s.side.ibiDue && s.side.ibiOn && decide (16 ≤ s.side.sinceIbi) then
    (s.updSide fun d => { d with ibiDue := false, sinceIbi := 0 }).emit (.ibi s.side.attn)
  else s

/-- IBI_RAISE (R430). -/
def execIbiRaise (s : State) : Out := if s.isOpen then .next s.raiseIbi else .next s
/-- ENEC (R428, R430): the causes that have accumulated are raised. -/
def execEnec (s : State) : Out := s.ccc (s.updSide fun d => { d with ibiOn := true }).raiseIbi
/-- DISEC (R428, R430). -/
def execDisec (s : State) : Out := s.ccc (s.updSide fun d => { d with ibiOn := false })

/-- RSTACT, or the target reset pattern (R428): only the target logic; a whole-target action forgets the address too. -/
def execRstact (action : Byte) (s : State) : Out :=
  let t := { s with mgmt := { s.mgmt with i3cSelect := none, i3cQuery := false } }
  s.ccc (if action = 2 then t.updSide fun d => { d with dynAddr := 0, ibiOn := true } else t)

/-- BMC_ABSENT (R437): more boundaries than WDOG_BEATS have passed, so WDOG_BEATS full beats have. -/
def execBmcAbsent (s : State) : Out :=
  let d := s.side
  if s.isOpen && d.wdogBeats != 0 && decide (d.wdogBeats < d.wdogCount) && !d.bmcAbsent then
    .next (s.updSide fun d => { d with bmcAbsent := true, absentSeen := true })
  else .next s

end Sys2Proof.Machine
end

