-- ==== Sys2Proof/Machine/Switch.lean ====
section
/-! DEFINITION. The switch core: frame heads at ingress (R54, R131), credits (R134, R136), the scheduler (R139 to R144), the
egress merge (R146, R147) and the replicator (R148). -/

namespace Sys2Proof.Machine

/-! ## Arriving flits and frame heads -/

/-- Apply f to the last element that satisfies p. -/
def updLast {α : Type} (p : α → Bool) (f : α → α) (l : List α) : List α :=
  (l.reverse.foldl (fun (acc : List α × Bool) x =>
    if !acc.2 && p x then (f x :: acc.1, true) else (x :: acc.1, acc.2)) ([], false)).1

/-- Change the last frame of the LP whose head waits at ingress. -/
def State.updHead (s : State) (lp : Nat) (f : InFrame → InFrame) : State :=
  { s with sw := { s.sw with heads := updLast (fun x => x.1 == lp) (fun x => (x.1, x.2.1, f x.2.2)) s.sw.heads } }

/-- A frame that is not complete is broken by the head of another (R122). -/
def State.breakArriving (s : State) (lp : Nat) : State :=
  match s.arrivingOf lp with
  | .none => s
  | .dropping => s.setArriving lp .none
  | .waiting => (s.updHead lp fun f => { f with badFormat := true }).setArriving lp .none
  | .admitted id => (s.faultFrame id 7 0xC none).setArriving lp .none
  | .diverted d => (s.discardHead lp d.frame 7).setArriving lp .none

/-- A flit that passes to the frame layer (R122, R125, R131): the head of a frame waits at ingress, a later flit joins its
frame. -/
def State.frameFlit (s : State) (lp : Nat) (h : Hdr) (payload : Bytes) (stomped : Bool) : State :=
  let tc := h.tc.toNat
  let code : Option (BitVec 4) := if stomped then some h.stomp else none
  let isHead := h.pos == 0 || h.pos == 1
  let s := s.takeCells lp tc 1
  let s := if isHead then s.breakArriving lp else s
  let s := if stomped then s.countLp lp 0x010A (some tc) none 1 else s
  match s.arrivingOf lp with
  | .none =>
    let hd : Hdr := if isHead then h else { h with flits := 0 }
    let bad := (headBad h && !(stomped && isHead)) || (!isHead)
    let f : InFrame :=
      { hdr := hd, content := fullPayload payload, arrived := 1, stomp := code, badFormat := bad, cells := [] }
    let s := { s with sw := { s.sw with heads := s.sw.heads ++ [(lp, false, f)] } }
    let s := if hdrCount hd == 1 && !stomped && !bad then s.countRx lp hd else s
    s.setArriving lp (if hdrCount hd == 1 || stomped then .none else .waiting)
  | .dropping => (s.freeCells lp tc 1).setArriving lp (if h.pos == 3 || stomped then .none else .dropping)
  | .waiting =>
    let s := s.updHead lp fun f =>
      { f with
        content := f.content ++ fullPayload payload, arrived := f.arrived + 1, stomp := code
        badFormat := f.badFormat || (!stomped && !nextFlitOk f.hdr h f.arrived) }
    match (s.sw.heads.reverse.find? fun x => x.1 == lp) with
    | some (_, _, f) =>
      let ended := f.arrived == hdrCount f.hdr || stomped || h.pos == 3
      let s := if ended && frameGiven f then s.countRx lp f.hdr else s
      s.setArriving lp (if ended then .none else .waiting)
    | none => s.setArriving lp .none
  | .admitted id =>
    match s.sw.frames.find? (fun q => q.id == id) with
    | none => (s.freeCells lp tc 1).setArriving lp (if h.pos == 3 || stomped then .none else .dropping)
    | some q =>
      if stomped then
        ((s.freeCells lp tc 1).faultFrame id 8 0xD (some (fullPayload payload))).setArriving lp .none
      else if !nextFlitOk q.hdr h q.arrived then
        ((s.freeCells lp tc 1).faultFrame id 7 0xC none).setArriving lp (if h.pos == 3 then .none else .dropping)
      else
        let q' := { q with content := q.content ++ fullPayload payload, arrived := q.arrived + 1 }
        let s := { s with sw := { s.sw with frames := s.sw.frames.map fun x => if x.id == id then q' else x } }
        if q'.arrived == hdrCount q.hdr then (s.countRx lp q.hdr).setArriving lp .none else s
  | .diverted d =>
    let f := d.frame
    let f' : InFrame := { f with content := f.content ++ fullPayload payload, arrived := f.arrived + 1, stomp := code }
    if stomped then (s.discardHead lp f' 8).setArriving lp .none
    else if !nextFlitOk f.hdr h f.arrived then (s.discardHead lp f' 7).setArriving lp (if h.pos == 3 then .none else .dropping)
    else if f'.arrived == hdrCount f.hdr then
      ({ s with sw := { s.sw with diverted := s.sw.diverted ++ [{ d with frame := f' }] } }.countRx lp f.hdr).setArriving lp .none
    else s.setArriving lp (.diverted { d with frame := f' })

/-- FRAME_HEAD_INGRESS (R54, R131): the head of the oldest frame of the LP is checked, with what the buffer's ECC will report
of its cells; it waits under a lookup hold. A frame given while none of the LP waits has just arrived on granted credits (log entry
1). -/
def execFrameHeadIngress (lp : Lp) (frame : InFrame) (s : State) : Out :=
  let n := lp.val
  if !s.live || s.portInReset (lpPort n) || s.switchInReset then .next s
  else
    let hold := !s.sw.lookupHold.isEmpty
    match s.sw.heads.find? (fun x => x.1 == n) with
    | some (_, held, f) =>
      let g := { f with cells := joinCells f.cells frame.cells }
      if f ≠ { frame with cells := f.cells } then .next s
      else if hold then
        if held then .next s
        else
          let rest := dropFirst (fun x : Nat × Bool × InFrame => x.1 == n) s.sw.heads
          let pre := s.sw.heads.takeWhile fun x => x.1 != n
          .next ({ s with sw := { s.sw with heads := pre ++ [(n, true, g)] ++ rest.drop pre.length } }.countHeld)
      else
        let s := { s with sw := { s.sw with heads := dropFirst (fun x => x.1 == n) s.sw.heads } }
        .next (s.ingressWaiting n g)
    | none => .next (s.arriveFrame n frame)

/-- INGRESS_HOLD_RELEASE (R54): the hold ends and the frames that waited for it pass the checks in arrival order. -/
def execIngressHoldRelease (s : State) : Out :=
  if !s.live then .next s
  else
    let waiting := s.sw.heads.filter fun x => x.2.1
    let s := { s with sw := { s.sw with lookupHold := [] } }
    .next (waiting.foldl (fun s x =>
      let s := { s with sw := { s.sw with heads := dropFirst (fun y => y.1 == x.1) s.sw.heads } }
      s.ingressWaiting x.1 x.2.2) s)

/-! ## Credits -/

/-- The issue rule of R134 for a class of an LP; no class borrows while one is owed cells (R135). -/
def State.mayIssue (s : State) (lp c : Nat) : Bool :=
  let k := lpTc lp c
  let a := s.cellsOf k
  let g := s.guar k
  let borrowed : Int := ((a - g : Nat) : Int)
  decide (a < s.clsCap k) && (decide (a < g) || (decide (borrowed < s.sw.sharedFree) && s.sw.owed.isEmpty))

/-- The first class that the issue rule of R134 allows. -/
def State.issueClass (s : State) (lp : Nat) : Option Nat := firstBelow 8 (s.mayIssue lp)

/-- CREDIT_ISSUE (R134): one credit for the first class allowed. -/
def execCreditIssue (lp : Lp) (s : State) : Out :=
  if !s.live || !s.lpUp lp.val then .next s
  else match s.issueClass lp.val with
    | none => .next s
    | some c => .next (s.issue lp.val c 1)

/-- CREDIT_FLUSH (R136): the pending credits of an LP leave in a CREDIT flit, in the INIT flit when that is still to be sent. -/
def execCreditFlush (lp : Lp) (s : State) : Out :=
  let n := lp.val
  if !s.live || !s.canSend n then .next s
  else if (s.lpStripe n).initOwed then .next (s.sendInit n)
  else if (s.pendingOf n).all (· == 0) then .next s
  else .next ((s.sendCreditFlit n false (s.pendingOf n)).clearPending n)

/-! ## The scheduler (R139 to R144) -/

/-- Flits of a frame that may cross next (R139). -/
def eligible (q : QFrame) : Nat :=
  if q.saf then (if q.arrived = hdrCount q.hdr then hdrCount q.hdr - q.crossed else 0) else q.arrived - q.crossed

/-- The pieces of a super-cell of at most n flits from the head of a queue (R140). -/
def pieces : List QFrame → Nat → List (QFrame × Nat)
  | [], _ => []
  | q :: r, n =>
    let k := min n (eligible q)
    if k = 0 then []
    else if q.crossed + k = hdrCount q.hdr then (q, k) :: pieces r (n - k)
    else [(q, k)]

/-- Next-hop credits that the pieces need: the length of every frame whose first flit is among them (R142). -/
def needOf (l : List (QFrame × Nat)) : Nat := (l.map fun x => if x.1.crossed = 0 then hdrCount x.1.hdr else 0).sum

/-- The working record of one super-cell time: flits reserved in slot FIFOs, slots taken, pairs matched. -/
structure Xbar where
  fifoRes : SMap Nat
  inBusy : List Nat
  outBusy : List Nat
  matched : List (Nat × Nat)

/-- Flits in the slot FIFO of an output slot, those of the frame in progress from it included (R142). -/
def State.slotFill (s : State) (j u : Nat) : Nat :=
  flitsIn (s.fifo u) + (match s.currentOf j with
    | some c => if decide (c.source < 2) && (s.slotsOf j)[c.source]? == some u then c.st.flits.length else 0
    | none => 0)

/-- Output LP j is ready for n flits of class c on slot u that need these credits (R142). -/
def State.outReady (s : State) (x : Xbar) (j c u n need : Nat) : Bool :=
  s.lpUp j && decide (256 * n ≤ s.paceOf j) && decide (s.slotFill j u + sget x.fifoRes u 0 + n ≤ 64)
    && (need == 0 || decide (need ≤ s.creditFree j c))

/-- Reserve pacer units, places and credits (R142). -/
def State.reserveOut (s : State) (x : Xbar) (j c u n need : Nat) : State × Xbar :=
  ((s.setPace j (s.paceOf j - 256 * n)).addReserved j c need, { x with fifoRes := sput x.fifoRes u (sget x.fifoRes u 0 + n) 0 })

/-- Release a reservation (R142). -/
def State.releaseOut (s : State) (x : Xbar) (j c u n need : Nat) : State × Xbar :=
  ((s.setPace j (s.paceOf j + 256 * n)).addReserved j c (-(need : Int)),
   { x with fifoRes := sput x.fifoRes u (sget x.fifoRes u 0 - n) 0 })

/-- The payloads of flits a to a + n - 1 of a frame, with zeros beyond its bytes (R122). -/
def flitChunks (content : Bytes) (a n : Nat) : List Bytes :=
  (List.range n).map fun k => fullPayload (slice content (240 * (a + k)) 240)

/-- Put flits into the slot FIFO behind those of their frame. -/
def State.stageFifo (s : State) (u : Nat) (q : QFrame) (l : List Bytes) : State :=
  if (s.fifo u).any fun x => x.id == q.id then
    s.setFifo u ((s.fifo u).map fun x => if x.id == q.id then { x with flits := x.flits ++ l } else x)
  else s.setFifo u (s.fifo u ++ [{ id := q.id, inLp := q.inLp, outLp := q.outLp, hdr := q.hdr, flits := l, fault := none, last := [] }])

/-- Put flits of a frame behind those it already has in a FIFO, or with the frame in progress. -/
def State.stage (s : State) (u lp : Nat) (q : QFrame) (l : List Bytes) : State :=
  match s.currentOf lp with
  | some c =>
    if c.st.id == q.id && decide (c.source < 2) then
      s.setCurrent lp (some { c with st := { c.st with flits := c.st.flits ++ l } })
    else s.stageFifo u q l
  | none => s.stageFifo u q l

/-- Move the pieces of a super-cell through the crossbar to slot u; the pair locks when it ends inside a frame (R140, R143). The
cells are read: an uncorrectable error is a fault of the frame (R131, R133, R147). -/
def State.movePieces (s : State) (i j inSlot u : Nat) (l : List (QFrame × Nat)) : State :=
  let s := l.foldl (fun s x =>
    let q := x.1
    let s := s.stage u j q (flitChunks q.content q.crossed x.2)
    let s := s.freeCells i q.tc x.2
    let cells := cellsRead q.cells q.crossed x.2
    let s := s.cellErrors cells
    let ended := q.crossed + x.2 == hdrCount q.hdr
    let frames := if ended && !cellsBad cells then s.sw.frames.filter fun y => y.id != q.id
      else s.sw.frames.map fun y => if y.id == q.id then { y with crossed := q.crossed + x.2 } else y
    let locks := s.sw.locks.filter fun y => y.id != q.id
    let s := { s with sw := { s.sw with
        frames := frames
        locks := if ended then locks else locks ++ [{ inSlot := inSlot, outSlot := u, id := q.id }] } }
    if cellsBad cells then s.faultFrame q.id 9 0xB none else s) s
  let n := (l.map (·.2)).sum
  (s.countGlobal 0x1001 none none 1).countGlobal 0x1002 none none n

/-- The locked pairs, by ascending output slot (R143). -/
def State.lockedPass (s : State) : State × Xbar :=
  let locks := sortBy (fun a b : SlotLock => decide (a.outSlot ≤ b.outSlot)) s.sw.locks
  let x : Xbar := { fifoRes := [], inBusy := locks.map (·.inSlot), outBusy := locks.map (·.outSlot), matched := [] }
  locks.foldl (fun (acc : State × Xbar) l =>
    let s := acc.1
    match s.sw.frames.find? (fun q => q.id == l.id) with
    | none => ({ s with sw := { s.sw with locks := s.sw.locks.filter fun y => y.id != l.id } }, acc.2)
    | some q =>
      let n := min 4 (eligible q)
      if n == 0 || !s.outReady acc.2 q.outLp q.tc l.outSlot n 0 then (s.countGlobal 0x1003 none none 1, acc.2)
      else
        let (s, x) := s.reserveOut acc.2 q.outLp q.tc l.outSlot n 0
        let s := s.movePieces q.inLp q.outLp l.inSlot l.outSlot [(q, n)]
        (s, { x with
          matched := (q.inLp, q.outLp) :: x.matched
          fifoRes := sput x.fifoRes l.outSlot (sget x.fifoRes l.outSlot 0 - n) 0 })) (s, x)

/-- A request of an iteration (R143). -/
structure Request where
  i : Nat
  j : Nat
  c : Nat
  prio : Nat
  cells : List (QFrame × Nat)

def Request.n (r : Request) : Nat := (r.cells.map (·.2)).sum

/-- The unicast queue (i, j, c). -/
def State.voq (s : State) (i j c : Nat) : List QFrame :=
  s.sw.frames.filter fun q => q.inLp == i && q.outLp == j && q.tc == c

/-- The request of input i to output j: its class of highest PRIO, ties from cptr (R143). -/
def State.requestOf (s : State) (i j : Nat) : Option Request :=
  let cands := (List.range 8).filterMap fun c =>
    let q := s.voq i j c
    let cells := pieces q 4
    match q, cells with
    | head :: _, _ :: _ =>
      if (s.sw.locks.any fun l => l.id == head.id) || (head.crossed == 0 && s.creditFree j c < hdrCount head.hdr) then none
      else some (Request.mk i j c (s.clsPrio j c) cells)
    | _, _ => none
  let cp := sget s.sw.cptr (128 * i + j) 0
  let key (r : Request) := 8 * (3 - r.prio) + (r.c + 8 - cp) % 8
  (sortBy (fun a b => decide (key a ≤ key b)) cands).head?

/-- The distinct numbers of a list, ascending. -/
def distinct (l : List Nat) : List Nat := l.foldl addSorted []

/-- The requests of an iteration by output, in the order of its grant pointer (R143). -/
def State.requests (s : State) (x : Xbar) : List (Nat × List Request) :=
  let uni := s.sw.frames.filter fun q => q.inLp != q.outLp
  let ins := (distinct (uni.map (·.inLp))).filter fun i => (s.slotsOf i).any fun u => !x.inBusy.contains u
  let outs := (distinct (uni.map (·.outLp))).filter fun j => (s.slotsOf j).any fun u => !x.outBusy.contains u
  outs.map fun j =>
    let l := ins.filterMap fun i => if i == j || x.matched.contains (i, j) then none else s.requestOf i j
    let key (r : Request) := 128 * (3 - r.prio) + (r.i + 128 - sget s.sw.gptr j 0) % 128
    (j, sortBy (fun a b => decide (key a ≤ key b)) l)

/-- The state, the crossbar and what has been granted, with its output slot, or accepted. -/
abbrev Grants := State × Xbar × List (Request × Nat)
abbrev Accepts := State × Xbar × List Request

/-- Output j grants a request while it has a free slot; the slots it has granted, and whether it has none left (R143). -/
def grantOne (j : Nat) (a : Grants × List Nat × Bool) (r : Request) : Grants × List Nat × Bool :=
  let (s, x, gs) := a.1
  match (s.slotsOf j).filter fun u => !x.outBusy.contains u && !a.2.1.contains u with
  | [] => (a.1, a.2.1, true)
  | u :: _ =>
    if !a.2.2 && s.outReady x j r.c u r.n (needOf r.cells) then
      let t := s.reserveOut x j r.c u r.n (needOf r.cells)
      ((t.1, t.2, gs ++ [(r, u)]), u :: a.2.1, a.2.2)
    else a

/-- The grants of one output (R143). -/
def grantOutput (a : Grants) (jr : Nat × List Request) : Grants := (jr.2.foldl (grantOne jr.1) (a, [], false)).1

/-- Input i accepts a grant while it has a free slot, and gives it back else; one more than the last output accepted (R143). -/
def acceptOne (i : Nat) (a : Accepts × Nat) (g : Request × Nat) : Accepts × Nat :=
  let (s, x, done) := a.1
  let r := g.1
  match (s.slotsOf i).filter fun u => !x.inBusy.contains u with
  | [] =>
    let t := s.releaseOut x r.j r.c g.2 r.n (needOf r.cells)
    ((t.1, t.2, done), a.2)
  | islot :: _ =>
    let s := s.movePieces i r.j islot g.2 r.cells
    let s := { s with sw := { s.sw with cptr := sput s.sw.cptr (128 * i + r.j) ((r.c + 1) % 8) 0 } }
    let x := { x with
      inBusy := islot :: x.inBusy, outBusy := g.2 :: x.outBusy, matched := (i, r.j) :: x.matched
      fifoRes := sput x.fifoRes g.2 (sget x.fifoRes g.2 0 - r.n) 0 }
    ((s, x, done ++ [r]), r.j + 1)

/-- The accepts of one input, in the order of its accept pointer, which the first iteration moves (R143). -/
def acceptInput (aptr : SMap Nat) (grants : List (Request × Nat)) (first : Bool) (a : Accepts) (i : Nat) : Accepts :=
  let mine := grants.filter fun g => g.1.i == i
  let key (g : Request × Nat) := 128 * (3 - g.1.prio) + (g.1.j + 128 - sget aptr i 0) % 128
  let res := (sortBy (fun a b => decide (key a ≤ key b)) mine).foldl (acceptOne i) (a, 0)
  let (s, x, done) := res.1
  if first && res.2 != 0 then ({ s with sw := { s.sw with aptr := sput s.sw.aptr i (res.2 % 128) 0 } }, x, done)
  else (s, x, done)

/-- The grant pointers of the outputs whose grants were accepted move (R143). -/
def State.moveGptr (s : State) (reqs : List (Nat × List Request)) (done : List Request) : State :=
  reqs.foldl (fun s jr =>
    match (jr.2.filter fun r => done.any fun d => d.i == r.i && d.j == r.j).getLast? with
    | none => s
    | some r => { s with sw := { s.sw with gptr := sput s.sw.gptr jr.1 ((r.i + 1) % 128) 0 } }) s

/-- One matching iteration; the first moves gptr and aptr (R143). -/
def State.matchOnce (s : State) (x : Xbar) (first : Bool) : State × Xbar :=
  let reqs := s.requests x
  let g := reqs.foldl grantOutput (s, x, [])
  let a := (distinct (g.2.2.map fun q => q.1.i)).foldl (acceptInput s.sw.aptr g.2.2 first) (g.1, g.2.1, [])
  (if first then a.1.moveGptr reqs a.2.2 else a.1, a.2.1)

/-- PACE units that an LP gains in one super-cell time of 10 core cycles: 126 a cycle at width 8, 63 at width 4 and 32 at width 2;
an LP that is not UP gains for the full width of its mode (R142, R352). -/
def State.paceGain (s : State) (lp : Nat) : Nat :=
  match (s.lpStripe lp).txw with
  | 8 => 1260
  | 4 => 630
  | 2 => 320
  | _ => if (s.port (lpPort lp)).split then 630 else 1260

/-- PACE gains of one super-cell time, of LPs below saturation (R142, R144). -/
def State.gainPace (s : State) : State := s.sw.pace.foldl (fun s e => s.setPace e.1 (e.2 + s.paceGain e.1)) s

/-- SUPER_CELL_TIME (R142 to R144): the pacers gain, locked pairs move, and three matching iterations run. -/
def execSuperCellTime (s : State) : Out :=
  if !s.live || s.switchInReset || s.underTest 94 then .next s
  else
    let s := { s with sw := { s.sw with superCells := s.sw.superCells + 1 } }.gainPace
    let (s, x) := s.lockedPass
    let (s, x) := s.matchOnce x true
    let (s, x) := s.matchOnce x false
    .next (s.matchOnce x false).1

/-! ## The egress merge (R146, R147) -/

/-- POS of flit k of n (R122). -/
def posOf (k n : Nat) : BitVec 2 := if n = 1 then 0 else if k = 0 then 1 else if k + 1 = n then 3 else 2

/-- The frame in progress has left whole (R146, R406, R407). -/
def State.endFrame (s : State) (lp : Nat) (c : Current) : State :=
  let s := s.setCurrent lp none
  match c.agent with
  | some a =>
    if a.result then { s with sw := { s.sw with checking := s.sw.checking ++ [a] } } else s.sentWhole lp c.st.hdr c.bytes
  | none => s.sentWhole lp c.st.hdr c.bytes

/-- Send flits of the frame in progress, at most n, while credits and the replay buffer allow (R137, R345). -/
def sendFlits : Nat → Nat → State → State
  | 0, _, s => s
  | n + 1, lp, s =>
    match s.currentOf lp with
    | none => s
    | some c =>
      match c.st.flits with
      | [] => s
      | p :: rest =>
        let tc := c.st.hdr.tc.toNat
        if !s.canSend lp || sget s.sw.credits (lpTc lp tc) 0 == 0 then s
        else
          let total := hdrCount c.st.hdr
          let h := { c.st.hdr with pos := posOf c.sent total }
          let s := (((s.sendSeq lp h p false).useCredit lp tc).countLp lp 0x0102 (some tc) none 1).ctxFlit lp false h
          let c := { c with st := { c.st with flits := rest }, sent := c.sent + 1, bytes := c.bytes ++ p }
          let s := s.setCurrent lp (some c)
          if c.sent = total then s.endFrame lp c else sendFlits n lp s

/-- Discard fenced frames at the heads of a slot FIFO or staging FIFO of an LP before their first flit is sent (R175). -/
def dropFencedStaged : Nat → Nat → Option Nat → State → State
  | 0, _, _, s => s
  | n + 1, lp, slot, s =>
    let l := match slot with | some u => s.fifo u | none => s.mcFifoOf lp
    match l with
    | [] => s
    | x :: rest =>
      let target := match slot with | some _ => none | none => some lp
      if s.fenced x.inLp x.hdr.tc.toNat x.hdr.dest target x.id then
        let s := match slot with | some u => s.setFifo u rest | none => s.setMcFifo lp rest
        let s := (s.unqueue x.id).addReserved lp x.hdr.tc.toNat (-(hdrCount x.hdr : Int))
        dropFencedStaged n lp slot (s.countLp x.inLp 0x0108 (some x.hdr.tc.toNat) none 1)
      else s

/-- An earlier frame of its queue stands in the other slot FIFO of the LP, and promise 1 keeps this one back (R138, R156; log
entry 58). -/
def State.behindOther (s : State) (lp u : Nat) (x : Staged) : Bool :=
  (s.slotsOf lp).any fun v => v != u && (s.fifo v).any fun y => y.inLp == x.inLp && y.hdr.tc == x.hdr.tc && decide (y.id < x.id)

/-- The frame that a source of the merge has ready, with the state after it is taken (R146). -/
def State.mergeReady (s : State) (lp source : Nat) : Option (Current × State) :=
  let fromStaged (x : Staged) (s' : State) : Option (Current × State) :=
    if sget s.sw.credits (lpTc lp x.hdr.tc.toNat) 0 == 0 || x.outLp != lp then none
    else some ({ source := source, st := x, sent := 0, bytes := [], agent := none }, s')
  if source < 2 then
    let slots := s.slotsOf lp
    match slots.drop source with
    | [] => none
    | u :: _ => match s.fifo u with
      | [] => none
      | x :: rest => if s.behindOther lp u x then none else fromStaged x (s.setFifo u rest)
  else if source = 2 then
    match s.mcFifoOf lp with
    | [] => none
    | x :: rest => fromStaged x (s.setMcFifo lp rest)
  else
    match s.sw.agentOut.find? (fun f => f.lp == lp && f.agent + 3 == source) with
    | none => none
    | some f =>
      let tc := f.hdr.tc.toNat
      if s.creditFree lp tc < hdrCount f.hdr then none
      else
        let s' := { s with sw := { s.sw with
          agentOut := dropFirst (fun g => g.lp == lp && g.agent + 3 == source) s.sw.agentOut } }
        let x : Staged :=
          { id := 0, inLp := lp, outLp := lp, hdr := f.hdr, flits := flitChunks f.content 0 (hdrCount f.hdr), fault := none,
            last := [] }
        some ({ source := source, st := x, sent := 0, bytes := [], agent := some f },
          s'.addReserved lp tc (hdrCount f.hdr))

/-- The merge of an LP chooses the ready frame of highest PRIO, ties in source order after the source served last (R146). -/
def State.mergeChoose (s : State) (lp : Nat) : Option (Current × State) :=
  let last := sget s.sw.served lp 5
  let order := (List.range 6).map fun k => (last + 1 + k) % 6
  let ready := order.filterMap fun src => s.mergeReady lp src
  let prio (c : Current × State) := s.clsPrio lp c.1.st.hdr.tc.toNat
  ready.foldl (fun best c => match best with
    | none => some c
    | some b => if prio b < prio c then some c else best) none

/-- EGRESS_MERGE_SELECT (R146): the frame in progress goes on, or the merge chooses the next frame and sends what it has of
it. -/
def execEgressMergeSelect (lp : Lp) (s : State) : Out :=
  let n := lp.val
  if !s.live || s.switchInReset || !s.canSend n || !(sget s.sw.initSeen n false) then .next s
  else match s.currentOf n with
    | some c => if c.st.fault.isSome then .next (s.sendStomp n) else .next (sendFlits c.st.flits.length n s)
    | none =>
      let s := (s.slotsOf n).foldl (fun s u => dropFencedStaged (s.fifo u).length n (some u) s) s
      let s := dropFencedStaged (s.mcFifoOf n).length n none s
      match s.mergeChoose n with
      | none => .next s
      | some (c, s') =>
        let s' := { s' with sw := { s'.sw with served := sput s'.sw.served n c.source 5 } }
        .next (sendFlits c.st.flits.length n ((s'.abandonSleep (lpPort n)).setCurrent n (some c)))

/-- UNDERRUN (R147): the frame in progress whose next flit has not come ends stomped, and its flow is fenced. -/
def execUnderrun (lp : Lp) (s : State) : Out :=
  let n := lp.val
  if !s.live then .next s
  else match s.currentOf n with
    | none => .next s
    | some c =>
      if c.st.flits.isEmpty && c.st.fault.isNone && decide (0 < c.sent) && decide (c.sent < hdrCount c.st.hdr) then
        .next ((s.stompCurrent n 0xA none).lossFence c.st.inLp c.st.hdr 5)
      else .next s

/-! ## The replicator (R148) -/

/-- The targets of a multicast frame that can take its copy now: those that exist, are up and are not fenced. -/
def State.copyTargets (s : State) (q : QFrame) : List Nat :=
  (s.groupTargets (destGroup q.hdr.dest) q.inLp).filter fun t =>
    s.lpUp t && !s.fenced q.inLp q.tc q.hdr.dest (some t) q.id

/-- The frame is complete and every target that takes a copy has space and credits (R148). -/
def State.releasable (s : State) (q : QFrame) : Bool :=
  let n := hdrCount q.hdr
  q.arrived == n && (s.copyTargets q).all fun t =>
    decide (flitsIn (s.mcFifoOf t) + n ≤ 36) && decide (n ≤ s.creditFree t q.tc) && sget s.sw.initSeen t false

/-- Release a multicast frame: a copy to each target, the rest counted and fenced as MCAST_MEMBER_ABSENT (R131, R148). -/
def State.releaseFrame (s : State) (q : QFrame) : State :=
  let n := hdrCount q.hdr
  let copies := s.copyTargets q
  let x (t : Nat) : Staged :=
    { id := q.id, inLp := q.inLp, outLp := t, hdr := q.hdr, flits := flitChunks q.content 0 n, fault := none, last := [] }
  let all := s.groupTargets (destGroup q.hdr.dest) q.inLp
  let s := s.unqueue q.id
  let s := copies.foldl (fun s t => (s.setMcFifo t (s.mcFifoOf t ++ [x t])).addReserved t q.tc n) s
  let s := (all.filter fun t => !copies.contains t).foldl (fun s t =>
    if s.lpUp t then s.countLp q.inLp 0x0108 (some q.tc) none 1
    else
      let s := s.countLp t 0x0107 (some q.tc) (some 0xB) 1
      if fenceable q.hdr then s.raiseFence q.inLp q.tc q.hdr.dest (some t) q.hdr.fseq 6 else s) s
  let s := { s with sw := { s.sw with mcLast := q.inLp, mptr := sput s.sw.mptr q.inLp ((q.tc + 1) % 8) 0 } }
  (s.countGlobal 0x1004 none none 1).countGlobal 0x1005 none none copies.length

/-- MULTICAST_RELEASE (R148): the releasable head of highest PRIO over its targets, then of the next input, then of the next class.
Its cells are read: an uncorrectable error is a fault of the frame (R131, R133). -/
def execMulticastRelease (s : State) : Out :=
  if !s.live || s.switchInReset || s.underTest 94 then .next s
  else
    let mc := s.sw.frames.filter fun q => q.inLp == q.outLp
    let heads := mc.filter fun q => ((s.voq q.inLp q.inLp q.tc).head?.map (·.id)) == some q.id && s.releasable q
    let prio (q : QFrame) := (s.groupTargets (destGroup q.hdr.dest) q.inLp).foldl (fun m t => max m (s.clsPrio t q.tc)) 0
    let key (q : QFrame) :=
      1024 * (3 - prio q) + 8 * ((q.inLp + 127 - s.sw.mcLast) % 128) + (q.tc + 8 - sget s.sw.mptr q.inLp 0) % 8
    match (sortBy (fun a b => decide (key a ≤ key b)) heads).head? with
    | none => .next s
    | some q =>
      let s := s.cellErrors q.cells
      .next (if cellsBad q.cells then s.faultFrame q.id 9 0xB none else s.releaseFrame q)

end Sys2Proof.Machine
end

