-- ==== Sys2Proof/Machine/LinkOps.lean ====
section
/-! DEFINITION. The shared operations of the link layer (R343 to R347), of lane changes (R349 to R353), and of sleep and wake
(R317 to R321). -/

namespace Sys2Proof.Machine

/-- The lanes of a port take part in the link: the module runs and the port is neither in reset nor under test (R379,
R451). -/
def State.lineOk (s : State) (port : Nat) : Bool := s.live && s.lanesRun port

/-- Change the stripe of a port. -/
def State.updStripe (s : State) (port : Nat) (sd : Side) (f : Stripe → Stripe) : State :=
  s.updPort port fun p => p.setStripe sd (f (p.stripe sd))

/-- Change the stripe of a logical port. -/
def State.updLp (s : State) (lp : Nat) (f : Stripe → Stripe) : State := s.updStripe (lpPort lp) (lpSide lp) f

/-! ## LINK_CTRL flits that carry no sequence number (R344) -/

/-- The LP that carries the LANE messages of a stripe or, for the clock, of the port: stripe A, or B while A is not UP
(R353). -/
def State.laneLp (s : State) (port : Nat) (sd : Side) (clock : Bool) : Nat :=
  let p := s.port port
  if clock then (if p.split ∧ p.a.st ≠ .up then 2 * port + 1 else 2 * port) else lpOf port sd

/-- Send a LINK_CTRL flit that carries no sequence number: SUBTYPE in byte 0, then its bytes (R124, R344). -/
def State.sendCtrl (s : State) (lp subtype : Nat) (bytes : Bytes) : State :=
  (s.putFlit lp ctrlHdr (leBytes 1 subtype ++ bytes) false).countCtrl lp subtype

/-- Send an ACK (R345). -/
def State.sendAck (s : State) (lp : Nat) : State :=
  let s := s.abandonSleep (lpPort lp)
  (s.sendCtrl lp 2 []).emit (.ack lp (s.lpStripe lp).rxNext)

/-- Send a NAK with RX_NEXT; a sleeping transmitter sends it when it is awake (R318, R346). -/
def State.sendNak (s : State) (lp : Nat) : State :=
  let port := lpPort lp
  if !(s.port port).txAwake then s
  else
    let s := s.abandonSleep port
    let x := s.lpStripe lp
    let s := s.updPort port fun p => { p with naks := satAdd 0xFFFF p.naks 1 }
    (s.sendCtrl lp 3 (zeros 3 ++ leBytes 2 x.rxNext)).emit (.nak lp x.rxNext)

/-- The code of a LANE message (R350). -/
inductive LaneCode where
  | reqSpare | ready | reqWidth | ask | switched | done | refuse
  deriving DecidableEq, Repr

def laneCodeNum : LaneCode → Nat
  | .reqSpare => 1
  | .ready => 2
  | .reqWidth => 3
  | .ask => 4
  | .switched => 5
  | .done => 6
  | .refuse => 7

/-- Bytes 1 to 7 of a LANE message (R350). -/
def laneBytes (code : Nat) (m : LaneMsg) : Bytes :=
  leBytes 1 code ++ leBytes 1 m.lane.toNat ++ leBytes 1 (b2n m.hitless + 2 * b2n m.restore + 4 * b2n m.stripeB)
    ++ leBytes 1 m.width.toNat ++ leBytes 1 m.first.toNat ++ leBytes 2 m.next.toNat

/-- Send a LANE message; it waits while the TX direction sleeps, which it wakes (R318, R350). -/
def State.sendLane (s : State) (port : Nat) (sd : Side) (code : Nat) (m : LaneMsg) : State :=
  if (s.port port).txAwake then
    ((s.abandonSleep port).sendCtrl (s.laneLp port sd (m.lane == 9)) 5 (laneBytes code m)).emit (.lane port code m)
  else s.updPort port fun p => { p with laneOut := (p.laneOut.filter fun x => x.1 != code) ++ [(code, m)] }

/-- Send the LANE messages that have waited for the wake (R318, R350). -/
def State.flushLaneOut (s : State) (port : Nat) : State :=
  let l := (s.port port).laneOut
  l.foldl (fun s x => s.sendLane port (if x.2.stripeB then .b else .a) x.1 x.2) (s.updPort port fun p => { p with laneOut := [] })

/-- The body of a LANE message of a stripe: NEXT is its RX_NEXT (R350). -/
def State.laneBody (s : State) (port : Nat) (sd : Side) (lane : Nat) (hitless restore : Bool) (width first : Nat) :
    LaneMsg :=
  let lp := s.laneLp port sd (lane == 9)
  { lane := BitVec.ofNat 8 lane, hitless := hitless, restore := restore, stripeB := decide (lpSide lp = .b),
    width := BitVec.ofNat 8 width, first := BitVec.ofNat 8 first, next := BitVec.ofNat 12 (s.lpStripe lp).rxNext }

/-! ## The transmitter (R345, R347) -/

/-- Steps from sequence number a to b (R347). -/
def seqDist (a b : Nat) : Nat := (b + 4096 - a % 4096) % 4096

/-- acked becomes a, and the flits before it leave the replay buffer. -/
def Stripe.ackTo (x : Stripe) (a : Nat) : Stripe :=
  { x with acked := a, replay := x.replay.drop (seqDist x.acked a), noProgress := 0 }

/-- ACK_SEQ of a flit received: it frees the replay buffer when it advances acked within what has been sent (R347). -/
def State.ackIn (s : State) (lp a : Nat) : State :=
  let x := s.lpStripe lp
  if a ≠ x.acked ∧ seqDist x.acked a ≤ seqDist x.acked x.txNext then
    ((s.updLp lp fun x => x.ackTo a).sendInit lp).flushSleepOut (lpPort lp)
  else s

/-- A flit that waits for the lanes is a LANE message, which a replay neither repeats nor replaces (R344, R350). -/
def LineItem.isLane : LineItem → Bool
  | .flit f => let h := flitHdr f; h.ftype == 0xF && byteField (flitPayload f) 0 1 == 5
  | _ => false

/-- Send a flit of the replay buffer again with its original content; a frame's flit counts in its class, a LINK_CTRL flit under
its subtype (R347, R406, R407). -/
def State.resendFlit (s : State) (lp : Nat) (f : TxFlit) : State :=
  let s := s.putFlit lp f.hdr f.payload f.stomped
  let s := if f.hdr.ftype = 0xF then s.countLp lp 0x010E none (some (byteField f.payload 0 1)) 1
    else s.countLp lp 0x010D (some f.hdr.tc.toNat) none 1
  s.countSlots lp 0x0202 (some 0) 1

/-- Send an /S/ block with REPLAY_START(acked) and every unacknowledged flit again; what waited for the lanes and is repeated or
out of date goes (R304, R347; log entry 61). -/
def State.resend (s : State) (lp : Nat) : State :=
  let x := s.lpStripe lp
  let s := (s.updLp lp fun x => { x with txLine := [] }).putSync lp
  let s := (s.sendCtrl lp 4 (zeros 3 ++ leBytes 2 x.acked)).emit (.replayStart lp x.acked)
  (x.replay.foldl (fun s f => s.resendFlit lp f) s).updLp lp fun y => { y with txLine := y.txLine ++ x.txLine.filter LineItem.isLane }

/-- Replay from acked; more than REPLAY_LIMIT replays without progress take the port down (R347). -/
def State.replayNow (s : State) (lp : Nat) : State :=
  let port := lpPort lp
  let n := (s.lpStripe lp).noProgress + 1
  let s := s.updLp lp fun x => { x with noProgress := n }
  if s.timing 14 < n then s.stripeDown port (lpSide lp) 8 .send
  else (s.updPort port fun p => { p with
    replays := satAdd 0xFFFF p.replays 1, replaysAll := satAdd (2 ^ 32 - 1) p.replaysAll 1 }).resend lp

/-- A NAK, or a LANE message, that names next = a (R347). -/
def State.nakIn (s : State) (lp a : Nat) : State :=
  let x := s.lpStripe lp
  if seqDist x.acked x.txNext < seqDist x.acked a then s.stripeDown (lpPort lp) (lpSide lp) 9 .send
  else (s.updLp lp fun x => { x with acked := a, replay := x.replay.drop (seqDist x.acked a) }).replayNow lp

/-! ## The receiver (R346) -/

/-- A loss-driven lane request of the LP's stripe is open (R346, R351). -/
def PortSt.requestOpen (p : PortSt) (sd : Side) : Bool :=
  match p.rxJob with
  | some j => !j.hitless && (decide (j.side = sd) || j.lane == 9)
  | none => false

/-- A link error: the receiver starts discarding and sends a NAK (R346). -/
def State.linkError (s : State) (lp : Nat) : State :=
  let x := s.lpStripe lp
  if x.discarding || (s.port (lpPort lp)).requestOpen (lpSide lp) then s
  else (s.updLp lp fun x => { x with discarding := true }).sendNak lp

/-- Code errors and slips that come next in what has been received are link errors (R346). -/
def State.takeFaults (s : State) (lp : Nat) : State :=
  if (s.lpStripe lp).flits.head? = some .fault then
    (s.updLp lp fun x => { x with flits := x.flits.dropWhile fun i => i == .fault }).linkError lp
  else s

/-- A sequenced flit arrives: it is dropped while discarding or skipping, else it takes the next number; whether it is
delivered (R346). -/
def State.takeSeq (s : State) (lp : Nat) : State × Bool :=
  let x := s.lpStripe lp
  if x.discarding then (s, false)
  else if x.skip ≠ 0 then (s.updLp lp fun x => { x with skip := x.skip - 1 }, false)
  else (s.updLp lp fun x => { x with rxNext := (x.rxNext + 1) % 4096, ackOwed := true }, true)

/-- A spare command of the port on this direction and lane. -/
def spareWork (port : Nat) (dir : Dir) (lane : Nat) (w : Work) : Bool :=
  match w with
  | .spare q d l _ => q == port && d == dir && l == lane
  | _ => false

/-- Complete a spare command with the beat of the swap or of the return (R104). -/
def State.spareDone (s : State) (port : Nat) (dir : Dir) (lane : Nat) : State :=
  s.finishWork (spareWork port dir lane) stOk 0 (leBytes 6 s.beat.count.toNat)
/-- Complete a spare command with DENIED_STATE (R353). -/
def State.spareDenied (s : State) (port : Nat) (dir : Dir) (lane : Nat) : State :=
  s.finishWork (spareWork port dir lane) stDeniedState 0 []

/-- A loss-driven change of the RX direction is complete: the new width and spare role hold (R351, R352, R354). -/
def State.endRxJob (s : State) (port : Nat) : State :=
  match (s.port port).rxJob with
  | none => s
  | some j =>
    let w := j.body.width.toNat
    let s := s.updPort port fun p => { p with
      rxJob := none
      swaps := if j.sent = 3 then p.swaps else satAdd 255 p.swaps 1
      widthDrops := if w = 0 then p.widthDrops else satAdd 255 p.widthDrops 1 }
    let s := if w = 0 then s else s.updStripe port j.side fun x => { x with rxw := w, rxFirst := j.body.first.toNat }
    let s := if j.restore then (s.setRxSp port 15).updPort port fun p =>
        { p with ckOnSp := false, rxDropped := clearLanes p.rxDropped [9] } else s
    let s := if j.lane = 9 ∧ j.restore = false then s.updPort port fun p => { p with ckOnSp := true } else s
    let s := s.linkChanged port
    s.spareDone port .rx j.lane

/-- REPLAY_START names START (R346); it also ends a loss-driven change of the stripe (R351). -/
def State.replayStartIn (s : State) (lp start : Nat) : State :=
  let port := lpPort lp
  let x := s.lpStripe lp
  let skip := seqDist start x.rxNext
  if s.replayDepth lp < skip then s.stripeDown port (lpSide lp) 9 .send
  else
    let s := s.updLp lp fun x => { x with skip := skip, discarding := false }
    match (s.port port).rxJob with
    | some j =>
      if !j.hitless && (j.sent == 2 || j.sent == 3)
          && (if j.lane = 9 then lp == s.laneLp port j.side true else decide (j.side = lpSide lp)) then s.endRxJob port
      else s
    | none => s

/-! ## Sleep and wake (R317 to R321) -/

/-- A flit other than those of the frame in progress is ready to be sent on an LP (R317). -/
def State.flitReady (s : State) (lp : Nat) : Bool :=
  let x := s.lpStripe lp
  (s.sw.agentOut.any fun f => f.lp == lp) || (s.sw.frames.any fun q => q.outLp == lp && q.inLp != lp)
    || (s.sw.frames.any fun q => q.inLp == q.outLp && destIsGroup q.hdr.dest
        && (s.groupTargets (destGroup q.hdr.dest) q.inLp).contains lp)
    || ((s.slotsOf lp).any fun u => !(s.fifo u).isEmpty) || !(s.mcFifoOf lp).isEmpty
    || ((List.range 8).any fun c => sget s.sw.pendingCredit (lpTc lp c) 0 != 0) || x.discarding

/-- The port has a new flit ready on some LP; an acknowledgement that is not yet due is none (R317, R345). -/
def State.hasFlit (s : State) (port : Nat) : Bool :=
  !(s.port port).sleepOut.isEmpty || (s.lpsOf port).any fun lp => s.lpUp lp && s.flitReady lp

/-- The port has a flit to send on some LP, an acknowledgement or a LANE message included (R318). -/
def State.needsTx (s : State) (port : Nat) : Bool :=
  s.hasFlit port || !(s.port port).laneOut.isEmpty || (s.lpsOf port).any fun lp => s.lpUp lp && ((s.currentOf lp).isSome || (s.lpStripe lp).ackOwed)

/-- The TX direction starts to wake: its lanes power up (R319). -/
def State.startWake (s : State) (port : Nat) : State :=
  if (s.port port).txAsleep ∧ (s.port port).txWaking = 0 then
    (s.updPort port fun p => { p with txWaking := 1 }).emit (.lanesPower port .tx true)
  else s

/-- The TX direction wakes on its own because it has a flit to send (R318). -/
def State.autoWake (s : State) (port : Nat) : State :=
  if (s.port port).txAsleep ∧ (s.port port).txWaking = 0 ∧ s.needsTx port = true then
    (s.updPort port fun p => { p with autoWakes := satAdd 255 p.autoWakes 1 }).startWake port
  else s

/-- Whether the directions named by a PORT_SLEEP have reached its state (R104, R321). -/
def PortSt.sleepReached (p : PortSt) (dirs : Nat) (wake : Bool) : Bool :=
  (!bitAt dirs 0 || p.txAsleep != wake) && (!bitAt dirs 1 || p.rxAsleep != wake)

/-- Complete the PORT_SLEEP commands whose state is reached (R104). -/
def State.sleepCheck (s : State) (port : Nat) : State :=
  let hit (w : Work) : Bool := match w with
    | .sleep q d wake _ => q == port && (s.port port).sleepReached d wake
    | _ => false
  (s.mgmt.deferred.filter fun d => hit d.work).foldl (fun s _ =>
    s.finishWork hit stOk 0 (leBytes 6 s.beat.count.toNat)) s

/-- The partner asks the TX direction to sleep: it follows R317 or answers REFUSE (R321). -/
def State.peerAsksSleep (s : State) (port : Nat) : State :=
  let p := s.port port
  if p.txAsleep || p.txSleeping then s
  else if !p.allUp || s.hasFlit port then (s.setPort port { p with sleepOut := p.sleepOut ++ [2] }).flushSleepOut port
  else s.setPort port { p with txSleeping := true, peerSleep := true }

/-- The partner asks the TX direction to wake (R321). -/
def State.peerAsksWake (s : State) (port : Nat) : State := (s.abandonSleep port).startWake port

/-- A REFUSE of the partner completes the request with DENIED_STATE (R321). -/
def State.peerRefusesSleep (s : State) (port : Nat) : State :=
  let hit (w : Work) : Bool := match w with
    | .sleep q d _ _ => q == port && bitAt d 1
    | _ => false
  if s.mgmt.deferred.any fun d => hit d.work then
    (s.updPort port fun p => { p with sleepReqFail := true, txSleeping := p.txSleeping && p.peerSleep }).finishAll hit
      stDeniedState 0
  else s

/-- The RX direction goes to sleep (R315, R320). -/
def State.rxSleep (s : State) (port : Nat) : State :=
  let s := s.updPort port fun p => { p with rxAsleep := true, rxWaking := 0, scans := [] }
  let s := s.finishAll (fun w => match w with | .eyeScan q _ _ _ _ => q == port | _ => false) stDeniedState 0
  (s.emit (.lanesPower port .rx false)).sleepCheck port

/-! ## Lane loss and the spare (R349) -/

/-- The rule for lost data lanes: none when the width is exhausted, else the lane the spare is asked for and the half
kept. -/
def resolveLanes (idle : Bool) (lanes bad : List Nat) : Option (Option Nat × Option (List Nat)) :=
  if bad.isEmpty then some (none, none)
  else if idle ∧ bad.length = 1 then some (bad.head?, none)
  else if lanes.length ≤ 2 then none
  else
    let half := lanes.length / 2
    let in1 := bad.filter fun k => (lanes.take half).contains k
    let in2 := bad.filter fun k => (lanes.drop half).contains k
    if in1.isEmpty then some (none, some (lanes.take half))
    else if in1.length = 1 ∧ idle = true then some (in1.head?, some (lanes.take half))
    else if in2.isEmpty then some (none, some (lanes.drop half))
    else if in2.length = 1 ∧ idle = true then some (in2.head?, some (lanes.drop half))
    else none

/-- The logical lanes of an RX stripe (R301, R331). -/
def Stripe.rxLanes (x : Stripe) : List Nat := (List.range x.rxw).map (x.rxFirst + ·)

/-- The spare of the RX direction can take a role (R349, R397). -/
def State.rxSpareIdle (s : State) (port : Nat) : Bool :=
  let p := s.port port
  p.rxSp == 15 && !bitAt p.rxDropped.toNat 8 && !bitAt (sget s.bist.rxBad port 0).toNat 8
    && (match p.rxJob with | some j => j.sent == 3 | none => true)

/-- The lost lanes of an RX stripe that the spare does not cover (R349). -/
def PortSt.rxLost (p : PortSt) (sd : Side) : List Nat :=
  (p.stripe sd).rxLanes.filter fun k => bitAt p.rxDropped.toNat k && !(p.rxSp == k && !bitAt p.rxDropped.toNat 8)

/-- Discard on the stripe, or on every stripe for the clock (R351). -/
def State.startDiscard (s : State) (port : Nat) (sd : Side) (clock : Bool) : State :=
  (s.port port).sides.foldl (fun s x =>
    if (clock ∨ x = sd) ∧ ((s.port port).stripe x).st = .up then s.updStripe port x fun y => { y with discarding := true }
    else s) s

/-- A receive lane is aligned anew: its disparity comes from the first code group that it decodes (R299). -/
def PortSt.freshLane (p : PortSt) (k : Nat) : PortSt := p.setLane k { p.lane k with rd := none }

/-- Open a loss-driven request of the RX direction: REQ_SPARE when the spare is wanted, else REQ_WIDTH (R351). A request that
is open goes on with the new width. -/
def State.openRequest (s : State) (port : Nat) (sd : Side) (spare : Option Nat) (half : Option (List Nat)) : State :=
  let s := s.startDiscard port sd (spare == some 9)
  let w := match half with | some h => h.length | none => 0
  let f := match half with | some h => h.headD 0 | none => 0
  match spare, (s.port port).rxJob with
  | some k, _ =>
    let m := s.laneBody port sd k false false w f
    let s := s.setRxSp port k
    let j : LaneJob :=
      { side := sd, lane := k, hitless := false, restore := false, sent := 1, body := m, locked := false, doubled := false }
    ((s.updPort port fun p => { p.freshLane 8 with rxJob := some j }).emit (.lanesPower port .rx true)).sendLane port sd 1 m
  | none, some j =>
    let open1 := !j.hitless && j.sent == 1
    let m := s.laneBody port sd (if open1 then j.lane else 0) false false w f
    let j' : LaneJob := { j with side := sd, hitless := false, sent := if open1 then 1 else 3, body := m }
    (s.updPort port fun p => { p with rxJob := some j' }).sendLane port sd j'.sent m
  | none, none =>
    let m := s.laneBody port sd 0 false false w f
    let j : LaneJob :=
      { side := sd, lane := 0, hitless := false, restore := false, sent := 3, body := m, locked := false, doubled := false }
    (s.updPort port fun p => { p with rxJob := some j }).sendLane port sd 3 m

/-- Resolve the lost lanes of an RX stripe under traffic (R349). -/
def State.resolveLoss (s : State) (port : Nat) (sd : Side) : State :=
  let p := s.port port
  let bad := p.rxLost sd
  match resolveLanes (s.rxSpareIdle port) (p.stripe sd).rxLanes bad with
  | none => s.stripeDown port sd 11 .send
  | some (none, none) => s
  | some (k, h) => s.openRequest port sd k h

/-- Drop a hitless job and end its command (R353). -/
def State.dropRxHitless (s : State) (port : Nat) : State :=
  match (s.port port).rxJob with
  | some j =>
    if j.hitless then
      let s := s.updPort port fun p => { p with rxJob := none }
      s.spareDenied port .rx j.lane
    else s
  | none => s

/-- A lane of the RX direction of a port with a stripe UP loses lock (R348, R349). -/
def State.loseLane (s : State) (port lane : Nat) : State :=
  let p := s.port port
  let clockLane := if p.rxSp = 9 ∨ p.ckOnSp then 8 else 9
  let mark (s : State) : State :=
    (s.dropRxHitless port).updPort port fun p => { p with
      lockLosses := satAdd 255 p.lockLosses 1, rxDropped := p.rxDropped ||| BitVec.ofNat 10 (1 <<< lane) }
  if lane = clockLane then
    let s := mark s
    if lane = 8 then s.portDownAll port 10
    else
      let served := p.rxSp
      let ups := p.sides.filter fun sd => decide ((p.stripe sd).st = .up)
      if !s.rxSpareIdle port && served == 15 then s.portDownAll port 10
      else
        let s := s.openRequest port (ups.headD .a) (some 9) none
        if served < 8 then
          let s := s.updPort port fun p => { p with rxDropped := p.rxDropped ||| BitVec.ofNat 10 (1 <<< served) }
          s.resolveLoss port (laneSide p.split served)
        else s
  else
    let role := if lane = 8 then p.rxSp else lane
    if 8 ≤ role ∨ (lane < 8 ∧ p.rxSp = lane) then s
    else
      let sd := laneSide p.split role
      let x := p.stripe sd
      if x.st ≠ .up ∨ x.rxLanes.contains role = false ∨ p.rxAsleep ∨ (lane < 8 ∧ bitAt p.rxDropped.toNat lane) then s
      else (mark s).resolveLoss port sd

/-! ## Spare commands (R105, R353) -/

/-- The stripe that a lane change of a lane concerns: for the clock, the first that is UP (R353). -/
def PortSt.laneStripe (p : PortSt) (lane : Nat) : Side :=
  if lane = 9 then (if p.a.st = .up ∨ p.split = false then .a else .b) else laneSide p.split lane

/-- Start a swap or a restore of an RX lane as its receiver (R353): hitless for a data lane, with a halt and replay for the
clock. -/
def State.startRxSwap (s : State) (port lane : Nat) (restore : Bool) : State :=
  let sd := (s.port port).laneStripe lane
  let hitless := lane != 9
  let s := if hitless then s else s.startDiscard port sd true
  let s := if !hitless && !restore then s.setRxSp port 9 else s
  let m := s.laneBody port sd lane hitless restore 0 0
  let j : LaneJob :=
    { side := sd, lane := lane, hitless := hitless, restore := restore, sent := 1, body := m, locked := false,
      doubled := false }
  let s := s.updPort port fun p => { p.freshLane (if restore then lane else 8) with rxJob := some j }
  (s.emit (.lanesPower port .rx true)).sendLane port sd 1 m

/-- Ask the partner for a swap or a restore of a TX lane (R353). -/
def State.startTxSwap (s : State) (port lane : Nat) (restore : Bool) : State :=
  let sd := (s.port port).laneStripe lane
  let m := s.laneBody port sd lane (lane != 9) restore 0 0
  let j : LaneJob :=
    { side := sd, lane := lane, hitless := lane != 9, restore := restore, sent := 4, body := m, locked := false,
      doubled := false }
  (s.updPort port fun p => { p with txJob := some j }).sendLane port sd 4 m

/-- The stripe that carries the lane is UP and the lane is in use; for the clock, some stripe is UP. -/
def PortSt.laneInUse (p : PortSt) (d : Dir) (lane : Nat) : Bool :=
  let x := p.stripe (p.laneStripe lane)
  if lane = 9 then p.anyUp
  else x.st == .up && (match d with
    | .tx => x.txFirst ≤ lane && lane < x.txFirst + x.txw
    | .rx => x.rxLanes.contains lane)

/-- A spare command is refused (R105): a swap whose spare is in use, which a change under way counts as, or is not fit, or whose lane
no stripe that is UP carries; a restore of a lane for which the spare does not stand in. -/
def State.spareBad (s : State) (n : Nat) (d : Dir) (lane : Nat) (restore : Bool) : Bool :=
  let p := s.port n
  match d, restore with
  | .rx, true => p.rxSp != lane
  | .tx, true => p.txSp != lane
  | .rx, false => !p.laneInUse .rx lane || !s.rxSpareIdle n
  | .tx, false => !p.laneInUse .tx lane || p.txSp != 15 || p.txJob.isSome || bitAt (sget s.bist.txBad n 0).toNat 8

/-- Start the procedure of a spare command (R353). -/
def State.goSpare (s : State) (n : Nat) (d : Dir) (lane : Nat) (restore : Bool) : State :=
  match d with
  | .rx => s.startRxSwap n lane restore
  | .tx => s.startTxSwap n lane restore

/-- A lane change of the direction is under way. -/
def PortSt.jobRuns (p : PortSt) : Dir → Bool
  | .rx => p.rxJob.isSome
  | .tx => p.txJob.isSome

/-- A spare command that waited for a change of its direction to end starts, or is refused by now (R105, R353; log entry 41). -/
def State.serveSpare (s : State) (n : Nat) : State :=
  [Dir.tx, Dir.rx].foldl (fun (s : State) d =>
    if (s.port n).jobRuns d then s
    else match s.mgmt.deferred.findSome? fun x => match x.work with
        | .spare q e lane restore => if q = n ∧ e = d then some (lane, restore) else none
        | _ => none with
      | some (lane, restore) =>
        if s.spareBad n d lane restore then s.spareDenied n d lane else s.goSpare n d lane restore
      | none => s) s

/-! ## Lanes -/

/-- The physical lane that carries a logical lane (R301). -/
def PortSt.physLane (p : PortSt) (k : Nat) : Nat := if p.rxSp = k then 8 else k

end Sys2Proof.Machine
end

