-- ==== Sys2Proof/Machine/Replay.lean ====
section
/-! DEFINITION. The link layer (R343 to R347): what flits received do, acknowledgements and replay. Lane messages in a flit
are in LaneSpares.lean. -/

namespace Sys2Proof.Machine

/-- The LP can receive: its stripe is UP and its RX direction awake (R325, R346). -/
def State.rxOk (s : State) (lp : Nat) : Bool :=
  s.lineOk (lpPort lp) && s.lpUp lp && !(s.port (lpPort lp)).rxAsleep

/-- FLIT_CRC_ERROR (R346, R406). -/
def execFlitCrcError (lp : Lp) (s : State) : Out :=
  if s.rxOk lp.val then .next ((s.countLp lp.val 0x010C none none 1).linkError lp.val) else .next s

/-- NAK_REPEAT (R346). -/
def execNakRepeat (lp : Lp) (s : State) : Out :=
  let x := s.lpStripe lp.val
  if s.lineOk (lpPort lp.val) && s.lpUp lp.val && x.discarding && !(s.port (lpPort lp.val)).requestOpen (lpSide lp.val) then
    .next (s.sendNak lp.val)
  else .next s

/-- NAK_RECEIVED (R347). -/
def execNakReceived (lp : Lp) (ackSeq : BitVec 12) (next : BitVec 12) (s : State) : Out :=
  if s.rxOk lp.val then .next ((s.ackIn lp.val ackSeq.toNat).nakIn lp.val next.toNat) else .next s

/-- REPLAY_START_RECEIVED (R346). -/
def execReplayStartReceived (lp : Lp) (ackSeq : BitVec 12) (start : BitVec 12) (s : State) : Out :=
  if s.rxOk lp.val then .next (((s.ackIn lp.val ackSeq.toNat).replayStartIn lp.val start.toNat).serveSpare (lpPort lp.val)) else .next s

/-- ACK_RECEIVED (R347). -/
def execAckReceived (lp : Lp) (ackSeq : BitVec 12) (s : State) : Out :=
  if s.rxOk lp.val then .next (s.ackIn lp.val ackSeq.toNat) else .next s

/-- ACK_TIMEOUT (R347): a stripe that a lane change halts replays when the change is complete (R351). -/
def execAckTimeout (lp : Lp) (s : State) : Out :=
  let x := s.lpStripe lp.val
  let p := s.port (lpPort lp.val)
  if s.lineOk (lpPort lp.val) && s.lpUp lp.val && p.txAwake && !p.halted (lpSide lp.val) && x.txNext != x.acked then
    .next (s.replayNow lp.val)
  else .next s

/-- ACK_DUE (R345). -/
def execAckDue (lp : Lp) (s : State) : Out :=
  if s.lineOk (lpPort lp.val) && s.lpUp lp.val && (s.port (lpPort lp.val)).txAwake && (s.lpStripe lp.val).ackOwed then
    .next (s.sendAck lp.val)
  else .next s

/-- CREDIT_FLIT_RECEIVED (R137, R346): a sequenced flit. -/
def execCreditFlitReceived (lp : Lp) (init : Bool) (counts : List (BitVec 16)) (s : State) : Out :=
  if !s.rxOk lp.val then .next s
  else
    let (s, mine) := s.takeSeq lp.val
    .next (if mine then s.creditsIn lp.val init counts else s)

end Sys2Proof.Machine
end

