-- ==== Sys2Proof/Machine/Sleep.lean ====
section
/-! DEFINITION. Sleep and wake of a direction (R317 to R321). -/

namespace Sys2Proof.Machine

/-- A SLEEP flit of the partner is delivered (R321, R344). -/
def State.sleepIn (s : State) (port action : Nat) : State :=
  match action with
  | 0 => s.peerAsksWake port
  | 1 => s.peerAsksSleep port
  | 2 => s.peerRefusesSleep port
  | _ => s

/-- A SLEEP flit arrives on the port's first stripe; it is sequenced (R344, R346). -/
def State.sleepFlitIn (s : State) (port action : Nat) : State :=
  if !s.rxOk (2 * port) then s
  else
    let (s, mine) := s.takeSeq (2 * port)
    if mine then s.sleepIn port action else s

/-- SLEEP_FLIT_WAKE (R321). -/
def execSleepFlitWake (port : Port) (s : State) : Out := .next (s.sleepFlitIn port.val 0)
/-- SLEEP_FLIT_SLEEP (R321). -/
def execSleepFlitSleep (port : Port) (s : State) : Out := .next (s.sleepFlitIn port.val 1)
/-- SLEEP_FLIT_REFUSE (R321). -/
def execSleepFlitRefuse (port : Port) (s : State) : Out := .next (s.sleepFlitIn port.val 2)

/-- A command that asks both directions to sleep waits for the RX direction, so that a refusal of the partner leaves the TX
direction as it was (R17, R321; log entry 62). -/
def State.sleepWaitsRx (s : State) (port : Nat) : Bool :=
  !(s.port port).rxAsleep && s.mgmt.deferred.any fun d => match d.work with
    | .sleep q d wake _ => q == port && bitAt d 0 && bitAt d 1 && !wake
    | _ => false

/-- TX_SLEEP_ENTER (R317): the frame in progress and what waits for the lanes have left and every flit is acknowledged: /Z/ and /CZ/
are sent, and the lanes power down; a flit that is ready abandons the sleep. -/
def execTxSleepEnter (port : Port) (s : State) : Out :=
  let n := port.val
  let p := s.port n
  if !s.lineOk n || !p.txSleeping || !p.txAwake then .next s
  else
    let lps := s.lpsOf n
    let ready := !p.sleepOut.isEmpty || lps.any fun lp => s.flitReady lp && (s.currentOf lp).isNone
    if ready then .next (s.abandonSleep n)
    else if lps.any fun lp => (s.currentOf lp).isSome || !(s.lpStripe lp).replay.isEmpty || !(s.lpStripe lp).txLine.isEmpty
        || !(s.lpStripe lp).txPart.isEmpty then .next s
    else if s.sleepWaitsRx n then .next s
    else
      let s := (s.sendSleepLanes n).updPort n fun p => { p with txSleeping := false, peerSleep := false, txAsleep := true }
      .next (((s.emit (.sleepBlock n)).emit (.lanesPower n .tx false)).sleepCheck n)

/-- TX_AUTO_WAKE (R318, R390): the wake of a port under test stops the test. -/
def execTxAutoWake (port : Port) (s : State) : Out :=
  if s.live && s.bist.active.contains port.val && s.needsTx port.val then
    .next ((s.stopTest 7 port.val).autoWake port.val)
  else if s.lineOk port.val && (s.port port.val).anyUp then .next (s.autoWake port.val) else .next s

/-- TX_WAKE_SETTLED (R298, R319): the lanes start at RD-. -/
def execTxWakeSettled (port : Port) (s : State) : Out :=
  let p := s.port port.val
  if s.lineOk port.val && p.txWaking == 1 then
    .next ((s.setPort port.val { p with txWaking := 2, txRd := 0 }).emit (.wakePreamble port.val))
  else .next s

/-- WAKE_PREAMBLE_END (R319): an /S/ block, and the flit stream resumes. -/
def execWakePreambleEnd (port : Port) (s : State) : Out :=
  let n := port.val
  let p := s.port n
  if s.lineOk n && p.txWaking == 2 then
    let s := s.setPort n { p with txWaking := 0, txAsleep := false }
    let s := (s.lpsOf n).foldl (fun s lp => (s.putSync lp).sendInit lp) s
    .next (((s.flushSleepOut n).flushLaneOut n).sleepCheck n)
  else .next s

/-- RX_WAKE_BLOCK_ALIGNMENT (R299, R320). -/
def execRxWakeBlockAlignment (port : Port) (s : State) : Out :=
  let p := s.port port.val
  if s.lineOk port.val && p.rxWaking == 1 then
    .next (s.setPort port.val ((List.range 10).foldl PortSt.freshLane { p with rxWaking := 2 }))
  else .next s

/-- The wake of the RX direction has failed: WAKE_FAIL, and the port goes down (R320). -/
def State.wakeFails (s : State) (port : Nat) : State :=
  (s.updPort port fun p => { p with wakeFail := true }).portDownAll port 13

/-- RX_WAKE_ALIGN_TIMEOUT (R320). -/
def execRxWakeAlignTimeout (port : Port) (s : State) : Out :=
  if s.lineOk port.val && (s.port port.val).rxWaking == 1 then .next (s.wakeFails port.val) else .next s

/-- RX_WAKE_SYNC_TIMEOUT (R320). -/
def execRxWakeSyncTimeout (port : Port) (s : State) : Out :=
  if s.lineOk port.val && (s.port port.val).rxWaking == 2 then .next (s.wakeFails port.val) else .next s

/-- SLEEP_REQ_TIMEOUT (R321): 16 beats have passed and the RX direction has not reached the state requested. -/
def execSleepReqTimeout (port : Port) (s : State) : Out :=
  let n := port.val
  let p := s.port n
  let late (w : Work) : Bool := match w with
    | .sleep q d wake since =>
      q == n && bitAt d 1 && p.rxAsleep == wake && decide (16 ≤ (s.beat.count - since).toNat)
    | _ => false
  if s.lineOk n && s.mgmt.deferred.any fun d => late d.work then
    .next ((s.updPort n fun p => { p with sleepReqFail := true, txSleeping := p.txSleeping && p.peerSleep }).finishAll late
      stDeniedState 0)
  else .next s

end Sys2Proof.Machine
end

