-- ==== Sys2Proof/Machine/LaneSpares.lean ====
section
/-! DEFINITION. Lane changes: LANE messages (R350), loss-driven changes (R351), hitless swaps and restores (R353), and a flit
received from the partner (R346). -/

namespace Sys2Proof.Machine

/-- The RX direction can start this swap or restore for the partner (R105, R353). -/
def State.rxSwapOk (s : State) (port lane : Nat) (restore : Bool) : Bool :=
  let p := s.port port
  let sd := p.laneStripe lane
  (if lane = 9 then p.anyUp else decide (lane < 8) && (p.stripe sd).st == .up && (p.stripe sd).rxLanes.contains lane)
    && p.rxJob.isNone && (if restore then p.rxSp == lane else s.rxSpareIdle port) && !p.rxAsleep

/-- The TX mapping changes at a block boundary: lane and width (R351 step 4, R352). -/
def State.applyTxMap (s : State) (port : Nat) (sd : Side) (lane : Option Nat) (restore : Bool) (width first : Nat) :
    State :=
  let old := (s.port port).txSp
  let s := match lane with
    | none => s
    | some k =>
      let s := s.setTxSp port (if restore then 15 else k)
      s.updPort port fun p => { p with
        swaps := satAdd 255 p.swaps 1
        txDropped := if restore then clearLanes p.txDropped [k]
          else p.txDropped ||| BitVec.ofNat 10 (maskOf (if old < 8 then [k, old] else [k])) }
  if width = 0 then s
  else
    let gone := (stripeLanes (s.port port).split sd).filter fun k => decide (k < first) || decide (first + width ≤ k)
    ((s.updStripe port sd fun x => { x with txw := width, txFirst := first }).updPort port fun p => { p with
      widthDrops := satAdd 255 p.widthDrops 1, txDropped := p.txDropped ||| BitVec.ofNat 10 (maskOf gone) }).linkChanged port

/-- LANE_REQ_SPARE on the port (R298, R351 step 2, R353 step 1): the TX halts the stripe unless the change is hitless, powers TX.SP
or the lane that returns, wakes a direction that sleeps, and trains the lane in the background. -/
def State.reqSpareIn (s : State) (port : Nat) (m : LaneMsg) : State :=
  let lane := m.lane.toNat
  let sd : Side := if m.stripeB then .b else .a
  if 8 ≤ lane ∧ lane ≠ 9 then s
  else
    let j : LaneJob :=
      { side := sd, lane := lane, hitless := m.hitless && lane != 9, restore := m.restore, sent := 0, body := m,
        locked := false, doubled := false }
    let k := if m.restore then lane else 8
    ((s.updPort port fun p => { p with
      txJob := some j, txRd := if p.lanePowered true k then p.txRd else clearLanes p.txRd [k] }).emit
        (.lanesPower port .tx true)).startWake port

/-- LANE_READY on the port (R351 step 4, R353 step 2). -/
def State.readyIn (s : State) (port : Nat) (m : LaneMsg) : State :=
  match (s.port port).txJob with
  | none => s
  | some j =>
    if j.lane ≠ m.lane.toNat ∨ j.sent ≠ 0 then s
    else if j.hitless then s.updPort port fun p => { p with txJob := some { j with doubled := true } }
    else
      let w := if m.width = 0 then j.body.width.toNat else m.width.toNat
      let f := if m.width = 0 then j.body.first.toNat else m.first.toNat
      let s := s.updPort port fun p => { p with txJob := none }
      let s := (s.applyTxMap port j.side (some j.lane) j.restore w f).spareDone port .tx j.lane
      let here := s.laneLp port j.side (j.lane == 9)
      let s := s.nakIn here m.next.toNat
      if j.lane = 9 then
        ((s.lpsOf port).filter fun lp => lp != here && s.lpUp lp).foldl (fun s lp => s.replayNow lp) s
      else s

/-- LANE_REQ_WIDTH on the port (R351 step 4). -/
def State.reqWidthIn (s : State) (port : Nat) (m : LaneMsg) : State :=
  let sd : Side := if m.stripeB then .b else .a
  let w := m.width.toNat
  let x := (s.port port).stripe sd
  if ¬((w = 2 ∨ w = 4) ∧ w < x.txw ∧ x.txFirst ≤ m.first.toNat ∧ m.first.toNat + w ≤ x.txFirst + x.txw) then s
  else
    let s := s.updPort port fun p => { p with txJob := dropJob sd p.txJob }
    (s.applyTxMap port sd none false w m.first.toNat).nakIn (lpOf port sd) m.next.toNat

/-- LANE_ASK on the port (R353). -/
def State.askIn (s : State) (port : Nat) (m : LaneMsg) : State :=
  let lane := m.lane.toNat
  if s.rxSwapOk port lane m.restore then s.startRxSwap port lane m.restore
  else s.sendLane port (if m.stripeB then .b else .a) 7 m

/-- LANE_SWITCHED on the port (R353 step 4). -/
def State.switchedIn (s : State) (port : Nat) (m : LaneMsg) : State :=
  match (s.port port).txJob with
  | none => s
  | some j =>
    if j.lane ≠ m.lane.toNat ∨ j.doubled = false then s
    else
      let s := s.updPort port fun p => { p with txJob := none }
      let s := s.applyTxMap port j.side (some j.lane) j.restore 0 0
      (s.sendLane port j.side 6 (s.laneBody port j.side j.lane true j.restore 0 0)).spareDone port .tx j.lane

/-- LANE_DONE on the port (R353). -/
def State.doneIn (s : State) (port : Nat) (m : LaneMsg) : State :=
  match (s.port port).rxJob with
  | none => s
  | some j =>
    if j.lane ≠ m.lane.toNat ∨ j.sent ≠ 5 then s
    else
      let s := s.updPort port fun p => { p with
        rxJob := none, swaps := satAdd 255 p.swaps 1
        rxDropped := if j.restore then clearLanes p.rxDropped [j.lane, 8]
          else p.rxDropped ||| BitVec.ofNat 10 (1 <<< j.lane) }
      s.spareDone port .rx j.lane

/-- LANE_REFUSE on the port (R353). -/
def State.refuseIn (s : State) (port : Nat) (m : LaneMsg) : State :=
  let p := s.port port
  let mine (j : Option LaneJob) (sent : Nat) : Bool := match j with
    | some j => j.lane == m.lane.toNat && j.sent == sent
    | none => false
  if mine p.txJob 4 then (s.setPort port { p with txJob := none }).spareDenied port .tx m.lane.toNat
  else if mine p.rxJob 1 then (s.dropRxHitless port)
  else s

/-- A LANE message arrives with its code (R350). -/
def State.laneIn (s : State) (port code : Nat) (m : LaneMsg) : State :=
  match code with
  | 1 => s.reqSpareIn port m
  | 2 => s.readyIn port m
  | 3 => s.reqWidthIn port m
  | 4 => s.askIn port m
  | 5 => s.switchedIn port m
  | 6 => s.doneIn port m
  | 7 => s.refuseIn port m
  | _ => s

/-- The LP on which a LANE message of the port travels, and whether it can be received. -/
def State.laneRxOk (s : State) (port : Nat) (m : LaneMsg) : Bool :=
  s.rxOk (s.laneLp port (if m.stripeB then .b else .a) (m.lane == 9))

/-- LANE_REQ_SPARE (R351). -/
def execLaneReqSpare (port : Port) (msg : LaneMsg) (s : State) : Out :=
  if s.laneRxOk port.val msg then .next ((s.laneIn port.val 1 msg).serveSpare port.val) else .next s
/-- LANE_READY (R351). -/
def execLaneReady (port : Port) (msg : LaneMsg) (s : State) : Out :=
  if s.laneRxOk port.val msg then .next ((s.laneIn port.val 2 msg).serveSpare port.val) else .next s
/-- LANE_REQ_WIDTH (R351). -/
def execLaneReqWidth (port : Port) (msg : LaneMsg) (s : State) : Out :=
  if s.laneRxOk port.val msg then .next ((s.laneIn port.val 3 msg).serveSpare port.val) else .next s
/-- LANE_ASK (R353). -/
def execLaneAsk (port : Port) (msg : LaneMsg) (s : State) : Out :=
  if s.laneRxOk port.val msg then .next ((s.laneIn port.val 4 msg).serveSpare port.val) else .next s
/-- LANE_SWITCHED (R353). -/
def execLaneSwitched (port : Port) (msg : LaneMsg) (s : State) : Out :=
  if s.laneRxOk port.val msg then .next ((s.laneIn port.val 5 msg).serveSpare port.val) else .next s
/-- LANE_DONE (R353). -/
def execLaneDone (port : Port) (msg : LaneMsg) (s : State) : Out :=
  if s.laneRxOk port.val msg then .next ((s.laneIn port.val 6 msg).serveSpare port.val) else .next s
/-- LANE_REFUSE (R353). -/
def execLaneRefuse (port : Port) (msg : LaneMsg) (s : State) : Out :=
  if s.laneRxOk port.val msg then .next ((s.laneIn port.val 7 msg).serveSpare port.val) else .next s

/-- LANE_MSG_REPEAT (R350): the unanswered messages of a stripe go out again; background /T/, to which the spare or the returning
lane has locked, answers REQ_SPARE. -/
def execLaneMsgRepeat (port : Port) (side : Side) (s : State) : Out :=
  let n := port.val
  if !s.lineOk n then .next s
  else
    let again (s : State) (j : Option LaneJob) : State := match j with
      | some j => if j.side = side ∧ 1 ≤ j.sent ∧ (j.sent = 1 → j.locked = false) then s.sendLane n side j.sent j.body else s
      | none => s
    .next (again (again s (s.port n).rxJob) (s.port n).txJob)

/-- SWAP_TIMEOUT (R351, R353): a change that halts traffic has not completed within 4 us: the port goes down. -/
def execSwapTimeout (port : Port) (dir : Dir) (s : State) : Out :=
  let n := port.val
  let p := s.port n
  match (match dir with | .rx => p.rxJob | .tx => p.txJob) with
  | none => .next s
  | some j =>
    if !s.lineOk n || j.hitless then .next s
    else if j.lane = 9 then .next (s.portDownAll n 12)
    else .next (s.stripeDown n j.side 12 .send)

/-- HITLESS_SWITCH (R353 step 3): after 4 identical blocks the RX takes the lane from its new place and sends SWITCHED. -/
def execHitlessSwitch (port : Port) (s : State) : Out :=
  let n := port.val
  match (s.port n).rxJob with
  | none => .next s
  | some j =>
    if s.lineOk n ∧ j.hitless ∧ j.sent = 2 then
      let m := s.laneBody n j.side j.lane true j.restore 0 0
      let s := s.updPort n fun p => { p with rxJob := some { j with sent := 5, body := m } }
      .next ((s.setRxSp n (if j.restore then 15 else j.lane)).sendLane n j.side 5 m)
    else .next s

/-- HITLESS_ABANDON (R353): the lane of a hitless procedure has not reached READY within 4 us. -/
def execHitlessAbandon (port : Port) (dir : Dir) (s : State) : Out :=
  let n := port.val
  let p := s.port n
  if !s.lineOk n then .next s
  else match dir with
    | .rx =>
      (match p.rxJob with
      | some j => if j.hitless ∧ j.sent = 1 then .next ((s.dropRxHitless n).serveSpare n) else .next s
      | none => .next s)
    | .tx =>
      (match p.txJob with
      | some j =>
        if j.hitless ∧ j.doubled = false then .next (((s.setPort n { p with txJob := none }).spareDenied n .tx j.lane).serveSpare n)
        else .next s
      | none => .next s)

/-! ## A flit from the partner (R124, R343 to R346) -/

/-- The LANE message that a flit's payload holds (R350). -/
def laneOfPayload (b : Bytes) : LaneMsg :=
  let fl := byteField b 3 1
  { lane := BitVec.ofNat 8 (byteField b 2 1), hitless := bitAt fl 0, restore := bitAt fl 1, stripeB := bitAt fl 2,
    width := BitVec.ofNat 8 (byteField b 4 1), first := BitVec.ofNat 8 (byteField b 5 1),
    next := BitVec.ofNat 12 (byteField b 6 2) }

/-- A LINK_CTRL flit whose header fields other than FTYPE and LINK are zero (R124). -/
def ctrlFormOk (h : Hdr) : Bool := { h with link := 0 } == ctrlHdr

/-- A LINK_CTRL flit with a good CRC (R124, R133, R344, R346). -/
def State.ctrlFlit (s : State) (lp : Nat) (h : Hdr) (b : Bytes) : State :=
  let port := lpPort lp
  let sub := if ctrlFormOk h then byteField b 0 1 else 0
  match sub with
  | 2 => s
  | 3 => s.nakIn lp (byteField b 4 2 % 4096)
  | 4 => s.replayStartIn lp (byteField b 4 2 % 4096)
  | 5 => s.laneIn port (byteField b 1 1) (laneOfPayload b)
  | n =>
    let (s, mine) := s.takeSeq lp
    if !mine then s
    else match n with
      | 1 => s.creditsIn lp (bitAt (byteField b 1 1) 0) ((List.range 8).map fun c => BitVec.ofNat 16 (byteField b (4 + 2 * c) 2))
      | 6 =>
        if byteField b 1 1 ≤ 2 then s.sleepIn port (byteField b 1 1) else s.updPort port fun p => { p with lastFail := 9 }
      | _ => s.updPort port fun p => { p with lastFail := 9 }

/-- What a flit of an LP does: one whose CRC is good or that is stomped is handled or delivered; any other is a link error (R125,
R343, R346, R406). -/
def State.takeFlit (s : State) (n : Nat) (flit : BitVec 2048) : State :=
  let h := flitHdr flit
  match checkFlit flit with
  | .bad => (s.countLp n 0x010C none none 1).linkError n
  | .good =>
    let s := s.ackIn n (h.link.toNat / 16)
    if h.ftype = 0xF then s.ctrlFlit n h (flitPayload flit)
    else
      let s := (s.countLp n 0x0101 (some h.tc.toNat) none 1).ctxFlit n true h
      let (s, mine) := s.takeSeq n
      if mine then s.frameFlit n h (flitPayload flit) false else s
  | .stomped =>
    let s := s.ackIn n (h.link.toNat / 16)
    let (s, mine) := s.takeSeq n
    if !mine then s
    else if h.ftype = 0xF then s.updPort (lpPort n) fun p => { p with lastFail := 9 }
    else s.frameFlit n h (flitPayload flit) true

/-- FLIT_RECEIVED (R125, R343, R346). While whole flits from RX_BLOCK wait, the flit is the oldest of them, and the code errors and
slips that come before the next one follow it. -/
def execFlitReceived (lp : Lp) (flit : BitVec 2048) (s : State) : Out :=
  let n := lp.val
  let x := s.lpStripe n
  if !s.rxOk n then .next s
  else if !x.flits.isEmpty && x.flits.head? != some (.flit flit) then .next s
  else .next ((((s.updLp n fun x => { x with flits := x.flits.drop 1 }).takeFlit n flit).takeFaults n).serveSpare (lpPort n))

end Sys2Proof.Machine
end

