-- ==== Sys2Proof/Machine/MemOps.lean ====
section
/-! DEFINITION. The shared operations of the fabric memory: the map (R188 to R190), allocations (R191), bytes (R185, R203),
errors (R211, R212, R216), requests (R194 to R197), responses (R198 to R201), atomics (R204) and migration (R213 to R216). -/

namespace Sys2Proof.Machine

def State.updMem (s : State) (f : FabMem → FabMem) : State := { s with mem := f s.mem }

/-! ## The map (R188 to R190) -/

/-- Bytes of the mapped range, 864 GiB (R188). -/
def memBytes : Nat := 864 * 2 ^ 30
/-- Bytes and number of the allocation granules (R191). -/
def allocGranule : Nat := 2 ^ 21
def allocGranules : Nat := 442368
/-- 4 KiB granules of one slot (R189). -/
def slotGranules : Nat := 18874368

/-- The stack that serves a 4 KiB granule (R189, R214). -/
def State.stackOf (s : State) (granule : Nat) : Nat :=
  let m := s.mem
  if m.migSt = .copying ∧ m.migNoCopy = false ∧ granule % 12 = m.migSlot ∧ granule / 12 < m.progress then m.migTo
  else m.slotMap.getD (granule % 12) 0

/-- Where a byte of an offset lies: its stack, its pseudo channel and the byte of the stack (R189). -/
structure MemPlace where
  stack : Nat
  channel : Nat
  byte : Nat
  deriving DecidableEq, Repr

/-- The place of an offset: the 64 sectors of a granule lie one in each pseudo channel of its stack (R189). -/
def State.memPlace (s : State) (off : Nat) : MemPlace :=
  let granule := off / 4096
  let lcl := granule / 12
  { stack := s.stackOf granule, channel := (off / 64 % 64 + lcl) % 64, byte := lcl * 4096 + off % 4096 }

/-- The stack of a sector. -/
def State.sectorStack (s : State) (k : Nat) : Nat := (s.memPlace (64 * k)).stack

/-- The sectors that a range of n bytes touches (R189). -/
def sectorsOf (off n : Nat) : List Nat :=
  if n = 0 then [] else (List.range ((off + n - 1) / 64 - off / 64 + 1)).map (off / 64 + ·)

/-- The sectors of a range that it does not cover whole. -/
def partSectors (off n : Nat) : List Nat :=
  (sectorsOf off n).filter fun k => !(off ≤ 64 * k && 64 * k + 64 ≤ off + n)

/-! ## Allocations (R191) -/

/-- Every byte of the range is mapped and allocated (R191, R197). -/
def State.allocated (s : State) (off n : Nat) : Bool :=
  n == 0 || (off + n ≤ memBytes
    && (List.range ((off + n - 1) / allocGranule - off / allocGranule + 1)).all fun k =>
      s.mem.allocs.any fun a => a.first ≤ off / allocGranule + k && off / allocGranule + k < a.first + a.count)

/-- The free runs before, between and after the allocations, as first granule and length (R191). -/
def freeRuns : Nat → List Alloc → List (Nat × Nat)
  | lo, [] => [(lo, allocGranules - lo)]
  | lo, a :: r => (lo, a.first - lo) :: freeRuns (a.first + a.count) r

def State.freeRuns (s : State) : List (Nat × Nat) := Machine.freeRuns 0 s.mem.allocs
/-- Granules that are free. -/
def State.memFree (s : State) : Nat := (s.freeRuns.map (·.2)).sum
/-- LARGEST_FREE (R191). -/
def State.largestFree (s : State) : Nat := (s.freeRuns.map (·.2)).foldl max 0

/-! ## Bytes (R188, R455) -/

/-- A byte of the fabric memory; one that nothing has written since power-on is an open value (log entry 6). -/
def State.memByte (s : State) (a : Nat) : Byte :=
  match s.mem.cells.find? fun c => c.1 == a with
  | some c => c.2
  | none => Config.memByte s.mem.powerOns a

/-- n bytes from off. -/
def State.memBytesAt (s : State) (off n : Nat) : Bytes := (List.range n).map fun k => s.memByte (off + k)

/-- The canonical form of the memory: the addresses strictly rise. An unlisted byte reads as an open value (log entry 6), so every
byte written is listed. -/
def Memory.wf (l : List Host.Cell) : Bool := rising l

/-- The cells with the bytes b from off in place. -/
def putCells (l : List Host.Cell) (off : Nat) (b : Bytes) : List Host.Cell :=
  l.filter (fun c => c.1 < off) ++ (List.range b.length).zipWith (fun k x => (off + k, x)) b
    ++ l.filter (fun c => off + b.length ≤ c.1)

/-- Write bytes from off. -/
def State.putMem (s : State) (off : Nat) (b : Bytes) : State := s.updMem fun m => { m with cells := putCells m.cells off b }

/-! ## Errors (R211, R212, R216) -/

/-- A 4 KiB granule is marked LOST (R216). -/
def State.isLost (s : State) (g : Nat) : Bool :=
  (s.mem.lostSlots.contains (g % 12) && !s.mem.lostCleared.contains g) || s.mem.lostGranules.contains g

/-- Clear the LOST mark of a granule (R216). -/
def State.clearLost (s : State) (g : Nat) : State :=
  s.updMem fun m => { m with
    lostCleared := if m.lostSlots.contains (g % 12) then addSorted m.lostCleared g else m.lostCleared
    lostGranules := m.lostGranules.filter (· != g) }

/-- Mark every granule of a slot LOST (R216, R448). -/
def State.loseSlot (s : State) (slot : Nat) : State :=
  s.updMem fun m => { m with
    lostSlots := addSorted m.lostSlots slot, lostCleared := m.lostCleared.filter fun g => g % 12 != slot
    lostGranules := m.lostGranules.filter fun g => g % 12 != slot, lostSeen := true }

/-- Granules marked LOST now (R218). -/
def State.lostCount (s : State) : Nat :=
  s.mem.lostSlots.length * slotGranules - s.mem.lostCleared.length + s.mem.lostGranules.length

/-- A record joins the ECC log (R212). -/
def State.logEcc (s : State) (stack : Nat) (unc : Bool) (sector : Nat) : State :=
  let full := decide (256 ≤ s.mem.eccLog.length)
  s.updMem fun m => { m with
    eccLog := (if full then m.eccLog.drop 1 else m.eccLog)
      ++ [{ stack := stack, uncorrected := unc, offset := 64 * sector, beat := s.beat.count }]
    eccLost := if full then satAdd 255 m.eccLost 1 else m.eccLost }

/-- A stack has counted errors; its corrected ones make it due when they pass CE_THRESH in the window (R212, R213). -/
def State.addErrors (s : State) (stack ce ue : Nat) : State :=
  let x := s.stack stack
  let ce' := satAdd (2 ^ 32 - 1) x.ce ce
  s.setStack stack { x with
    ce := ce', ue := satAdd 255 x.ue ue, ceDue := x.ceDue || decide (s.mem.ceThresh.toNat < ce') }

/-- Put a sector into the poison list when it has room; the list when full sets POISON_FULL (R211). Answers whether the
sector is in it. -/
def State.poison (s : State) (sector : Nat) : State × Bool :=
  let l := if s.mem.poison.length < 4096 then addSorted s.mem.poison sector else s.mem.poison
  (s.updMem fun m => { m with poison := l, poisonFull := m.poisonFull || decide (4096 ≤ l.length) }, l.contains sector)

/-- An uncorrected error of a sector: counted, logged, poisoned (R211). -/
def State.uncorrected (s : State) (sector : Nat) : State :=
  let k := s.sectorStack sector
  let s := (s.addErrors k 0 1).logEcc k true sector
  ((s.updMem fun m => { m with uncorrected := satAdd (2 ^ 32 - 1) m.uncorrected 1 }).poison sector).1

/-- A corrected error of a sector: counted and logged (R211). -/
def State.correctedErr (s : State) (sector : Nat) : State :=
  let k := s.sectorStack sector
  ((s.addErrors k 1 0).logEcc k false sector).updMem fun m => { m with corrected := satAdd (2 ^ 32 - 1) m.corrected 1 }

/-- Read sectors from their stacks, with the severity the stacks report; answers whether none of them is uncorrected, poisoned,
lost, or on a stack that has stopped answering (R211, R213, R216). -/
def State.readSectors (s : State) (l : List Nat) (lost : Bool) (ecc : EccReport) : State × Bool :=
  let bad := l.filter ecc.uncorrected.contains
  let good := l.all fun k =>
    !ecc.uncorrected.contains k && !s.mem.poison.contains k && !(lost && s.isLost (k / 64))
      && !(s.stack (s.sectorStack k)).dead
  let s := bad.foldl (fun s k => s.uncorrected k) s
  ((l.filter ecc.corrected.contains).foldl (fun s k => s.correctedErr k) s, good)

/-- The stack gives sector places: it is in service and answers (R213, R409). -/
def State.givesPlaces (s : State) (k : Nat) : Bool :=
  ((s.stack k).role == .inService || (s.stack k).role == .source) && !(s.stack k).dead

/-- Sector places of the stacks of these sectors, under one heading of R409. -/
def State.countPlaces (s : State) (heading : Nat) (l : List Nat) : State :=
  (l.filter fun k => s.givesPlaces (s.sectorStack k)).foldl (fun s k =>
    let st := some (s.sectorStack k)
    (s.countGlobal heading none st 1).countGlobal 0x2100 none st 1) s

/-- Sectors served for requests are counted by stack (R406). Each uses a sector place: spent where a read-modify-write moves it,
carried else (R187, R409). -/
def State.countSectors (s : State) (code : Nat) (l rmw : List Nat) : State :=
  let s := l.foldl (fun s k => s.countGlobal code none (some (s.sectorStack k)) 1) s
  (s.countPlaces 0x2101 (l.filter fun k => !rmw.contains k)).countPlaces 0x2102 (l.filter rmw.contains)

/-- Write bytes whose partial sectors have been read: whole sectors leave the poison list (R211). The sectors in rmw belong to an
atomic; the read of a partial sector takes a place of its own (R187). -/
def State.writeRange (s : State) (off : Nat) (b : Bytes) (rmw : List Nat) : State :=
  let all := sectorsOf off b.length
  let part := partSectors off b.length
  let whole := all.filter fun k => !part.contains k
  let s := (s.putMem off b).updMem fun m => { m with poison := m.poison.filter fun k => !whole.contains k }
  (s.countSectors 0x2002 all (part ++ rmw)).countPlaces 0x2102 (part.filter fun k => !rmw.contains k)

/-! ## Requests (R194 to R197) -/

/-- Bytes of an element of an atomic (R196). -/
def atomBytes : Nat → Nat
  | 0 => 4
  | 1 => 8
  | 2 => 4
  | 3 => 2
  | 4 => 2
  | _ => 16

/-- The request of a frame by field (R195). -/
def memReqOf (lp : Nat) (f : InFrame) (id : Nat) : MemReq :=
  let c := frameBytes f
  { lp := lp, dest := f.hdr.dest, id := id, tc := f.hdr.tc.toNat, cells := f.arrived, src := f.hdr.src, op := byteField c 0 1,
    ack := bitAt (byteField c 1 1) 0, respTc := bitsAt (byteField c 1 1) 3 1, tag := BitVec.ofNat 16 (byteField c 2 2),
    atype := byteField c 6 1, count := byteField c 7 1, offset := byteField c 8 5, length := byteField c 16 4,
    mg := byteField c 20 2 % 4096, data := c.drop 32 }

/-- Bytes that a request touches. -/
def MemReq.span (r : MemReq) : Nat :=
  if r.op ≤ 3 then r.length else r.count * atomBytes r.atype

/-- The rules of R197. -/
def memReqOk (f : InFrame) (r : MemReq) : Bool :=
  let c := frameBytes f
  let e := atomBytes r.atype
  let atomic := decide (4 ≤ r.op)
  hdrThl f.hdr == 32 && 1 ≤ r.op && r.op ≤ 6 && byteField c 1 1 < 16 && byteField c 13 3 == 0 && byteField c 22 10 == 0
    && byteField c 20 2 < 4096 && (r.op == 3 || r.mg == 0)
    && (if atomic then
          r.length == 0 && r.atype ≤ 5 && r.offset % e == 0 && r.offset % 64 + r.span ≤ 64
            && (if r.op = 6 then (r.atype == 0 || r.atype == 1 || r.atype == 5) && r.count == 1 && r.data.length == 2 * e
                else r.atype != 5 && r.data.length == r.span)
        else
          r.atype == 0 && r.count == 0 && r.offset % 4 == 0 && r.length % 4 == 0 && 0 < r.length
            && r.length ≤ (if r.op = 2 then 4096 else 1048576)
            && r.data.length == (if r.op = 2 then r.length else 0))

/-! ## Responses (R198 to R201) -/

/-- The transport header of a response (R198). -/
def memResp (s : State) (r : MemReq) (st flags off frag detail : Nat) : Bytes :=
  leBytes 1 r.op ++ leBytes 1 st ++ leBytes 2 r.tag.toNat ++ leBytes 2 s.side.fabricId.toNat ++ leBytes 1 r.lp
    ++ leBytes 1 flags ++ leBytes 8 off ++ leBytes 2 r.src.toNat ++ leBytes 2 frag ++ leBytes 2 r.mg ++ leBytes 1 detail
    ++ zeros 9

/-- Send a response to a logical port; one with a status other than OK is counted (R198, R406). -/
def State.sendMem (s : State) (lp : Nat) (r : MemReq) (st flags off frag detail : Nat) (data : Bytes) : State :=
  let s := s.sendAgent (agentFrame 0 lp r.respTc 2 2 r.src s.side.fabricId 0 (memResp s r st flags off frag detail ++ data))
  if st = 0 then s else s.countGlobal 0x2004 none (some st) 1

/-- The one response of a request, with LAST (R200). -/
def State.answerMem (s : State) (r : MemReq) (st flags : Nat) (data : Bytes) : State :=
  s.sendMem r.lp r st (1 + flags) r.offset 0 0 data

/-- Response data staged for a logical port: frames that wait or leave, without their headers (R201). -/
def State.stagedFor (s : State) (lp : Nat) : Nat :=
  let size (f : AgentFrame) : Nat := if f.agent = 0 ∧ f.lp = lp then f.content.length - 32 else 0
  let going := match s.currentOf lp with
    | some c => (match c.agent with | some f => size f | none => 0)
    | none => 0
  (s.sw.agentOut.map size).sum + going

/-- There is staging room for n bytes of data to each of the logical ports (R201). -/
def State.stageRoom (s : State) (lps : List Nat) (n : Nat) : Bool :=
  let all := ((List.range 128).map s.stagedFor).sum
  all + n * lps.length ≤ 16 * 2 ^ 20 && lps.all fun lp => s.stagedFor lp + n ≤ 512 * 2 ^ 10

/-! ## Atomics (R204) -/

/-- The format code of a floating element type. -/
def atomFmt : Nat → Nat
  | 2 => 0
  | 3 => 2
  | _ => 1

/-- The sum of two elements of an atomic (R204). -/
def atomAdd (atype a b : Nat) : Nat :=
  if atype = 0 then (a + b) % 2 ^ 32
  else if atype = 1 then (a + b) % 2 ^ 64
  else (writeElem 1 (atomFmt atype) (atomFmt atype) 0 0 (accSum (elemAcc (atomFmt atype) a 127) (elemAcc (atomFmt atype) b 127))).1

/-- The bytes after adding n elements. -/
def atomSum (atype : Nat) (old data : Bytes) (n : Nat) : Bytes :=
  let e := atomBytes atype
  ((List.range n).map fun k => leBytes e (atomAdd atype (byteField old (e * k) e) (byteField data (e * k) e))).flatten

/-! ## Reads (R200, R206) -/

/-- Targets of a multicast read that are not yet skipped (R206). -/
def State.mcastTargets (s : State) (mg : Nat) (skipped : List Nat) : List Nat :=
  (bitList 128 (s.mgMembers mg)).filter fun lp => !skipped.contains lp

/-- The receivers of the next fragment, and the targets that are skipped from now on (R206). -/
def State.readTargets (s : State) (x : MemRead) : List Nat × List Nat :=
  if x.req.op = 3 then
    let l := s.mcastTargets x.req.mg x.skipped
    (l.filter s.lpUp, l.filter fun lp => !s.lpUp lp)
  else ([x.req.lp], [])

/-- Fragments of a read (R200). -/
def MemReq.fragments (r : MemReq) : Nat := (r.length + 4095) / 4096
/-- Bytes of fragment k. -/
def MemReq.fragLen (r : MemReq) (k : Nat) : Nat := min 4096 (r.length - 4096 * k)

/-- The next fragment may be formed: staging room, and for a multicast read the credits of every target (R201, R206). -/
def State.fragmentFits (s : State) (x : MemRead) : Bool :=
  let n := x.req.fragLen x.next
  let targets := (s.readTargets x).1
  s.stageRoom targets n
    && (x.req.op != 3 || targets.all fun lp => (32 + n + 239) / 240 ≤ s.creditFree lp x.req.respTc)

/-- Form and send the next fragment of a read (R193, R200, R206). -/
def State.sendFragment (s : State) (x : MemRead) (ecc : EccReport) : State × MemRead :=
  let r := x.req
  let k := x.next
  let off := r.offset + 4096 * k
  let n := r.fragLen k
  let mcast := decide (r.op = 3)
  let (targets, gone) := s.readTargets x
  let s := gone.foldl (fun s lp => s.sendMem r.lp r 5 2 r.offset 0 lp []) s
  let (s, st) :=
    if s.allocated off n then
      let (s, good) := s.readSectors (sectorsOf off n) true ecc
      (s.countSectors 0x2001 (sectorsOf off n) [], if good then 0 else 4)
    else (s, 1)
  let data := if st = 0 then s.memBytesAt off n else []
  let s := targets.foldl (fun s lp =>
    let last := decide (k + 1 = r.fragments) && !(mcast && lp == r.lp)
    s.sendMem lp r st (b2n last + 2 * b2n mcast) off k 0 data) s
  let s := if mcast then s.countGlobal 0x2005 none none 1 else s
  (s, { x with next := k + 1, skipped := x.skipped ++ gone, bad := x.bad || st == 4 })

/-- A fragment of this multicast read still waits to be sent (R206). -/
def State.mcastPending (s : State) (r : MemReq) : Bool :=
  let mine (f : AgentFrame) : Bool :=
    f.agent == 0 && byteField f.content 0 1 == 3 && byteField f.content 2 2 == r.tag.toNat && byteField f.content 6 1 == r.lp
      && byteField f.content 16 2 == r.src.toNat && byteField f.content 1 1 != 5
  s.sw.agentOut.any mine || (List.range 128).any fun lp =>
    match s.currentOf lp with
    | some c => (match c.agent with | some f => mine f | none => false)
    | none => false

/-! ## Carrying out a request at the ordering stage (R202 to R206, R211) -/

/-- A WRITE of bytes by an agent: none when a partial sector is uncorrected. A 4,096-byte aligned write clears a LOST mark
(R211, R216). Its sectors are written in one step (R203; log entry 71). -/
def State.writeMem (s : State) (off : Nat) (b : Bytes) (ecc : EccReport) : State × Bool :=
  let (s, good) := s.readSectors (partSectors off b.length) false ecc
  if !good then (s.countPlaces 0x2102 (partSectors off b.length), false)
  else
    let s := s.writeRange off b []
    (if b.length = 4096 ∧ off % 4096 = 0 then s.clearLost (off / 4096) else s, true)

/-- An atomic on allocated memory (R200, R204, R211): a read place and a write place of its sector, whether or not a CSWAP writes
(R187). -/
def State.doAtomic (s : State) (r : MemReq) (ecc : EccReport) : State :=
  let e := atomBytes r.atype
  let n := r.span
  let rmw := sectorsOf r.offset n
  let (s, good) := s.readSectors rmw true ecc
  let s := s.countSectors 0x2001 rmw rmw
  if !good then s.answerMem r 4 0 []
  else
    let old := s.memBytesAt r.offset n
    let s := s.countGlobal 0x2003 none none 1
    if r.op = 6 then
      let swap := old == r.data.take e
      (if swap then s.writeRange r.offset (r.data.drop e) rmw else s.countPlaces 0x2102 rmw).answerMem r 0 (4 * b2n swap) old
    else
      let s := s.writeRange r.offset (atomSum r.atype old r.data r.count) rmw
      if r.op = 4 then s.answerMem r 0 0 old else if r.ack then s.answerMem r 0 0 [] else s

/-- A request enters the ordering stage: the state, or none while it waits for staging room (R201, R202). -/
def State.enterMem (s : State) (r : MemReq) (ecc : EccReport) : Option State :=
  if r.op = 3 ∧ (s.mgValid r.mg = false ∨ s.mgMembers r.mg = 0) then some (s.answerMem r 6 0 [])
  else if !s.allocated r.offset r.span then some (s.answerMem r 1 0 [])
  else match r.op with
    | 2 =>
      let (s, good) := s.writeMem r.offset r.data ecc
      some (if !good then s.answerMem r 4 0 [] else if r.ack then s.answerMem r 0 0 [] else s)
    | 4 => if s.stageRoom [r.lp] r.span then some (s.doAtomic r ecc) else none
    | 5 => some (s.doAtomic r ecc)
    | 6 => if s.stageRoom [r.lp] r.span then some (s.doAtomic r ecc) else none
    | _ =>
      let x : MemRead := { req := r, next := 0, skipped := [], bad := false }
      if s.fragmentFits x then
        let (s, x) := s.sendFragment x ecc
        some (if x.next < r.fragments ∨ r.op = 3 then s.updMem fun m => { m with reads := m.reads ++ [x] } else s)
      else none

/-! ## Migration (R213 to R216) -/

/-- The stack that waits as the spare. -/
def State.spareStack (s : State) : Option Nat := firstBelow 13 fun n => decide ((s.stack n).role = .spare)
def State.migrating (s : State) : Bool := decide (s.mem.migSt = .copying)

/-- A stack in service is due for migration, by the thresholds as they stand or because its corrected errors have passed CE_THRESH
within a window (R213). -/
def State.stackDue (s : State) (n : Nat) : Bool :=
  let x := s.stack n
  x.role == .inService && (s.mem.ueThresh.toNat ≤ x.ue || x.ceDue || decide (s.mem.ceThresh.toNat < x.ce) || x.dead)

def State.setRole (s : State) (n : Nat) (r : StackRole) : State := s.setStack n { s.stack n with role := r }
/-- A stack takes another role, which the wear record notes (R400, R431). -/
def State.changeStack (s : State) (n : Nat) (r : StackRole) : State := (s.setRole n r).roleChanged

/-- The migration of a stack onto the spare starts (R214, R216). -/
def State.startMigration (s : State) (src spare : Nat) (auto : Bool) : State :=
  let slot := s.mem.slotMap.findIdx (· == src)
  let noCopy := s.mem.noCopy || (s.stack src).dead
  ((s.changeStack src .source).changeStack spare .target).updMem fun m => { m with
    noCopy := false, migSt := .copying, migNoCopy := noCopy, migCause := auto, migSlot := slot, migFrom := src
    migTo := spare, progress := 0 }

/-- A mark RETIRED is made: blown at the next boundary (R395). -/
def State.retire (s : State) (n : Nat) : State :=
  (s.changeStack n .retired).updBist fun b => { b with toBlow := b.toBlow ++ [(1, n)] }

/-- The migration completes: the slot moves to the former spare (R215, R216). -/
def State.finishMigration (s : State) : State :=
  let m := s.mem
  let s := ((s.retire m.migFrom).changeStack m.migTo .inService).updMem fun m => { m with
    slotMap := m.slotMap.set m.migSlot m.migTo, migSt := if m.migNoCopy then .nocopyDone else .done, migNoCopy := false }
  let s := if m.migNoCopy then s.loseSlot m.migSlot else s
  { s with mgmt := { s.mgmt with deferred := s.mgmt.deferred.map fun d => match d.work with
    | .stackBringIn k none => if k = m.migFrom then { d with work := .stackBringIn k (some s.beat.count) } else d
    | _ => d } }

/-! ## The management controller's own work (R108) -/

/-- The n bytes of a pattern repeated from the first byte. -/
def patternBytes (p : Word) (n : Nat) : Bytes := (List.range n).map fun k => byteAt (leBytes 8 p.toNat) (k % 8)

/-- Carry out the memory work of a deferred command: the state, the status and the reply data (R108, R193, R211, R216). -/
def State.doMemWork (s : State) (w : Work) (ecc : EccReport) : State × BitVec 8 × Bytes :=
  match w with
  | .memFill off size p =>
    if !s.allocated off size then (s, stDeniedState, [])
    else
      let (s, good) := s.readSectors (partSectors off size) false ecc
      if !good then (s.countPlaces 0x2102 (partSectors off size), stInternalFault, [])
      else
        let s := s.writeRange off (patternBytes p size) []
        let first := (off + 4095) / 4096
        let whole := (List.range ((off + size) / 4096 - first)).map (first + ·)
        ((whole.filter s.isLost).foldl (fun s g => s.clearLost g) s, stOk, [])
  | .memRead off n =>
    if !s.allocated off n then (s, stDeniedState, [])
    else
      let (s, good) := s.readSectors (sectorsOf off n) true ecc
      let s := s.countSectors 0x2001 (sectorsOf off n) []
      if good then (s, stOk, s.memBytesAt off n) else (s, stInternalFault, [])
  | .memWrite off b =>
    if !s.allocated off b.length then (s, stDeniedState, [])
    else
      let (s, good) := s.writeMem off b ecc
      (s, if good then stOk else stInternalFault, [])
  | _ => (s, stOk, [])

/-- The work is memory work of the management controller. -/
def Work.isMem : Work → Bool
  | .memFill _ _ _ => true
  | .memRead _ _ => true
  | .memWrite _ _ => true
  | _ => false

end Sys2Proof.Machine
end

