-- ==== Sys2Proof/Machine/ControlWords.lean ====
section
/-! DEFINITION. The control word map: the value each word reads as (R48, R57, R71, R181, R218, R225, R287, R323, R354, R375,
R401, R419, R440, R458 to R463), what a write does, and the checks of R464 and R466. -/

namespace Sys2Proof.Machine

/-! ## Codes -/

/-- STATE of a stripe (R325). -/
def stripeCode : StripeSt → Nat
  | .disabled => 0
  | .absent => 1
  | .send => 2
  | .align => 3
  | .exchange => 4
  | .up => 5
  | .backoff => 6
def beatCode : BeatSt → Nat
  | .seek => 0
  | .locked => 1
  | .holdover => 2
  | .freerun => 3
  | .root => 4
def holdCode : HoldSt → Nat
  | .idle => 0
  | .up => 1
  | .holding => 2
  | .ended => 3
def fenceCode : FenceSt → Nat
  | .free => 0
  | .active => 1
  | .draining => 2
/-- ROLE of a stack (R218). -/
def stackCode : StackRole → Nat
  | .inService => 0
  | .spare => 1
  | .source => 2
  | .target => 3
  | .retired => 4
def migCode : MigSt → Nat
  | .idle => 0
  | .copying => 1
  | .done => 2
  | .nocopyDone => 3
/-- STATE of a session (R222). -/
def sessCode : SessSt → Nat
  | .free => 0
  | .idle => 1
  | .gathering => 2
  | .running => 3
  | .closing => 4
  | .aborted => 5
/-- Role codes of the wear record (R400). -/
def roleCode : Role → Nat
  | .inService => 0
  | .spare => 1
  | .out => 2
  | .unusable => 3

/-- The roles of units lo to lo + n - 1, two bits each. -/
def roleMap (role : Nat → Role) (lo n : Nat) : Nat :=
  ((List.range n).map fun k => roleCode (role (lo + k)) <<< (2 * k)).sum

/-! ## Identity, beat and agenda (R48, R57, R461) -/

def orderByte : Nat := match Config.orderCode with | .ma => 0 | .es => 1

def State.identityWord (s : State) : Nat → Word
  | 0x00 => fld 63 48 0x6412 ||| fld 47 40 orderByte ||| fld 39 32 Config.stepping.toNat
  | 0x08 => Config.serial
  | 0x10 => 0x400D1A6008010000
  | 0x18 => s.mgmt.scratch
  | _ => 0

/-- The words of the beat unit (R57); PHASE_ERR shows m modulo 2^16 (log entry 70). -/
def State.beatWord (s : State) : Nat → Word
  | 0x00 =>
    let b := s.beat
    fld 63 61 (beatCode b.st) ||| flg 60 (decide (b.st = .root)) ||| flg 59 b.drift ||| flg 58 b.rootConflict
      ||| flg 57 b.outlier ||| flg 56 b.freerunSeen ||| fld 55 53 b.period ||| fld 52 45 b.rootAddr.toNat
      ||| fld 44 28 b.holdBeats ||| fld 22 16 b.validPorts ||| fld 15 0 (wrapInt 16 b.phaseErr)
  | 0x08 => fld 47 0 s.beat.count.toNat
  | 0x10 => fld 16 0 s.beat.driftThresh
  | 0x18 => s.beat.tag
  | _ => 0

def State.agendaWord (s : State) (off : Nat) : Word :=
  if off < 0x2000 then (s.agEntry (off / 0x20)).word (off % 0x20 / 8)
  else if off = 0x2000 then
    fld 63 48 s.agenda.nextOrder ||| fld 40 32 s.pendingEntries.length ||| fld 24 16 (256 - s.pendingEntries.length)
  else 0

/-! ## Ports and lanes (R323, R354) -/

/-- LINK_DELAY of a port: stripe A's value, or stripe B's while A of a split port is not UP (R342, R354). -/
def PortSt.delayShown (p : PortSt) : Nat := if p.split ∧ p.a.st ≠ .up then p.b.linkDelay else p.a.linkDelay
/-- The widths of a stripe in use: those of a stripe that is UP. -/
def Stripe.txShown (x : Stripe) : Nat := if x.st = .up then x.txw else 0
def Stripe.rxShown (x : Stripe) : Nat := if x.st = .up then x.rxw else 0
/-- STATE_A and STATE_B (R354). -/
def PortSt.codeA (p : PortSt) : Nat := stripeCode p.a.st
def PortSt.codeB (p : PortSt) : Nat := if p.split then stripeCode p.b.st else 0
def PortSt.txB (p : PortSt) : Nat := if p.split then p.b.txShown else 0
def PortSt.rxB (p : PortSt) : Nat := if p.split then p.b.rxShown else 0

def PortSt.laneWord (p : PortSt) : Word :=
  fld 63 58 p.presetUsed ||| fld 57 55 p.cartMedia ||| fld 54 47 p.cartClass ||| fld 46 39 p.cartLen ||| flg 38 p.cartValid
    ||| flg 33 p.txAsleep ||| flg 32 p.rxAsleep ||| flg 31 p.sleepReqFail ||| flg 30 p.wakeFail ||| fld 23 16 p.autoWakes
    ||| fld 15 8 p.markerErrs ||| fld 7 0 p.slips
def PortSt.linkWord (p : PortSt) : Word :=
  fld 63 60 p.codeA ||| fld 59 56 p.codeB ||| fld 55 52 p.a.txShown ||| fld 51 48 p.a.rxShown ||| fld 47 44 p.txB
    ||| fld 43 40 p.rxB ||| fld 39 36 p.lastFail ||| fld 35 32 p.txSp ||| fld 31 28 p.rxSp ||| fld 27 24 p.backoffExp
    ||| fld 15 0 p.delayShown
def PortSt.linkErrWord (p : PortSt) : Word :=
  fld 63 48 p.replays ||| fld 47 32 p.naks ||| fld 31 24 p.lockLosses ||| fld 23 16 p.swaps ||| fld 15 8 p.widthDrops
    ||| fld 7 0 p.trainFails

def State.portWord (s : State) (off : Nat) : Word :=
  let p := s.port (off % 0x200 / 8)
  match off / 0x200 with
  | 0 => p.laneWord
  | 1 => p.linkWord
  | 2 => p.linkErrWord
  | _ => 0

/-! ## Switch core and recovery (R181, R461) -/

/-- Banks of a kind in service, those being copied out included (R394, R396). -/
def State.bufBanks (s : State) : Nat :=
  ((List.range 132).filter fun n => decide (s.bufRole n = .inService)).length
    + (s.bist.copies.filter fun c => decide (c.1 = .buffer)).length
/-- Spare banks that hold a bank's role: those numbered from the first spare that are in service. -/
def State.bufSparesUsed (s : State) : Nat := ((List.range 4).filter fun k => decide (s.bufRole (128 + k) = .inService)).length
def State.dreySparesUsed (s : State) : Nat := ((List.range 3).filter fun k => decide (s.dreyRole (96 + k) = .inService)).length
/-- BUF_CAP in KiB. -/
def State.bufCap (s : State) : Nat := 1024 * s.bufBanks
/-- BUF_USED in KiB: cells of 256 bytes that hold flits. -/
def State.bufUsed (s : State) : Nat := ((s.sw.held.map (·.2)).sum + 3) / 4
def PortRecov.holding (r : PortRecov) : Bool := decide (r.stA = .holding) || decide (r.stB = .holding)
/-- Ports with a logical port in HOLDING. -/
def State.holdingPorts (s : State) : Nat := ((List.range 64).filter fun n => (s.recovOf n).holding).length

def State.recovWord (s : State) (n : Nat) : Word :=
  let r := s.recovOf n
  fld 63 62 (holdCode r.stA) ||| fld 61 60 (if (s.port n).split then holdCode r.stB else 0) ||| fld 59 58 r.lastReturn
    ||| flg 57 r.expired ||| fld 47 16 r.holdEnd.toNat ||| fld 15 0 r.holdBeats.toNat

def State.switchWord (s : State) (off : Nat) : Word :=
  match off with
  | 0x00 => fld 63 61 s.bufSparesUsed ||| fld 60 54 s.holdingPorts ||| fld 49 32 s.bufCap ||| fld 17 0 s.bufUsed
  | 0x08 => fld 47 0 s.sw.stomped
  | 0x10 => fld 47 0 s.sw.heldAtBoundary
  | 0x18 => fld 47 32 s.recov.fenceRetry.toNat ||| fld 7 0 s.recov.fenceLimit.toNat
  | 0x20 =>
    flg 63 s.recov.fullSeen ||| flg 62 s.recov.limitSeen ||| fld 44 32 s.fences.length
      ||| fld 28 16 (s.fences.filter fun f => f.2.wildcard).length ||| fld 15 0 s.recov.badAcks
  | _ => if 0x100 ≤ off ∧ off < 0x300 then s.recovWord ((off - 0x100) / 8) else 0

def Fence.word (f : Fence) : Nat → Word
  | 0 => fld 63 62 (fenceCode f.st) ||| flg 61 f.wildcard ||| flg 60 f.mcast ||| fld 59 57 f.tc ||| fld 56 50 f.source
      ||| fld 49 43 f.target ||| fld 39 24 f.dest.toNat ||| fld 23 8 f.firstLost.toNat ||| fld 7 0 f.reason
  | _ => fld 63 16 f.beat.toNat ||| fld 15 8 f.repeats

/-! ## Fabric memory (R218) -/

/-- The slot a stack serves, 15 for none. -/
def State.slotOfStack (s : State) (n : Nat) : Nat := (firstBelow 12 fun k => s.mem.slotMap.getD k 15 == n).getD 15

def State.stackWord (s : State) (n : Nat) : Word :=
  let x := s.stack n
  fld 63 60 (stackCode x.role) ||| fld 59 56 (s.slotOfStack n) ||| fld 55 48 x.temp.toNat ||| fld 39 32 x.ue ||| fld 31 0 x.ce

def State.memWord (s : State) (off : Nat) : Word :=
  let m := s.mem
  match off with
  | 0x00 =>
    flg 63 m.autoMigrate ||| flg 62 m.noCopy ||| fld 61 60 m.share.toNat ||| fld 47 32 m.ceThresh.toNat
      ||| fld 7 0 m.ueThresh.toNat
  | 0x08 => fld 47 0 ((List.range 12).map fun k => (m.slotMap.getD k 0) <<< (4 * k)).sum
  | 0x10 =>
    fld 63 61 (migCode m.migSt) ||| flg 60 m.migCause ||| fld 59 56 m.migSlot ||| fld 55 52 m.migFrom ||| fld 51 48 m.migTo
      ||| fld 24 0 m.progress
  | 0x18 => fld 62 48 m.allocs.length ||| fld 18 0 s.largestFree
  | 0x20 =>
    fld 63 51 m.poison.length ||| fld 50 43 m.eccLost ||| flg 42 m.poisonFull ||| flg 41 m.lostSeen
      ||| fld 24 0 (min 0x1FFFFFF s.lostCount)
  | _ => if 0x100 ≤ off ∧ off < 0x168 then s.stackWord ((off - 0x100) / 8) else 0

/-! ## Collective engine and sessions (R225, R287) -/

def State.collWord (s : State) (off : Nat) : Word :=
  let c := s.coll
  match off with
  | 0x00 => flg 63 c.retain ||| fld 62 59 c.syncLog2.toNat ||| fld 47 32 c.stallBeats.toNat ||| fld 16 0 c.stageKib
  | 0x08 =>
    fld 63 47 s.quotaSum ||| fld 46 30 s.dreyUsed ||| fld 29 13 s.dreyCap ||| fld 12 11 s.dreySparesUsed
      ||| flg 10 c.ueSeen ||| flg 9 c.residueSeen
  | 0x10 => fld 63 48 c.resends ||| fld 47 32 c.recomputes ||| fld 31 16 c.badAcks ||| fld 15 0 c.discarded
  | _ => 0

def Session.word (x : Session) : Nat → Word
  | 0 => fld 63 60 (sessCode x.st) ||| flg 59 x.early ||| flg 58 x.beatSync ||| fld 57 56 (srcCode x.openerSrc)
      ||| fld 55 49 x.openerOrigin ||| fld 47 36 x.mg ||| fld 35 28 (popCount 128 x.members.toNat) ||| fld 16 0 x.quota
  | 1 => fld 63 32 x.epoch.toNat ||| fld 31 24 x.descSeen ||| fld 23 17 x.refLp ||| flg 16 x.refValid
      ||| fld 15 8 x.epochFlags.toNat
  | 2 => x.refHash
  | 3 => x.members.truncate 64
  | 4 => (x.members >>> 64).truncate 64
  | _ => 0

/-! ## Power (R375) -/

def State.powerWord (s : State) (off : Nat) : Word :=
  let p := s.power
  let telem (w : Nat) : Word :=
    let t := p.telem.getD w { avg := 0, peak := 0, blocks := 0, sum := 0, n := 0 }
    fld 63 48 t.avg ||| fld 47 32 t.peak ||| fld 31 0 t.blocks
  match off with
  | 0x00 =>
    flg 63 p.droopEn ||| fld 59 56 p.decafStep ||| fld 55 48 p.lightMv ||| fld 47 40 p.heavyMv ||| fld 39 32 p.headroom
      ||| fld 31 16 p.raiseHold
  | 0x08 =>
    fld 63 59 s.kEff ||| fld 58 54 s.kTarget ||| fld 53 49 p.kCap ||| fld 48 44 p.kRail ||| fld 43 39 p.kDroop
      ||| fld 38 35 p.curveTarget ||| fld 34 31 p.railEntry ||| flg 30 p.railMoving ||| flg 29 p.capUnmet
      ||| flg 28 p.lightSeen ||| flg 27 p.heavySeen ||| flg 26 p.raiseRefused ||| flg 25 p.designSeen ||| fld 15 0 p.now
  | 0x10 => fld 63 32 p.overrunMj ||| fld 31 16 p.capCuts ||| fld 15 0 p.droopTrips
  | 0x20 => telem 0
  | 0x28 => telem 1
  | 0x30 => telem 2
  | 0x38 => telem 3
  | _ => 0

/-! ## Self-test and spares (R401, R461) -/

/-- The partitions under test among lo to lo + n - 1. -/
def State.activeMask (s : State) (lo n : Nat) : Nat := maskOf ((List.range n).filter fun k => s.underTest (lo + k))
/-- Expected count of a partition (R378, R401). -/
def expectCount (n : Nat) : BitVec 32 := expectPatterns n
/-- RESULT of R382 as a number. -/
def BistRes.code (r : BistRes) : Nat := r.outcome * 4096 + r.stop * 256 + r.detail

def State.expectWord (n : Nat) : Nat → Word
  | 0 => Config.bistMisr n
  | _ => fld 47 32 (tokenOf (Config.bistMisr n) (expectCount n) n).toNat ||| fld 31 0 (expectCount n).toNat
def State.resultWord (s : State) (n : Nat) : Nat → Word
  | 0 => (s.result n).misr
  | 1 => fld 63 48 (s.result n).code ||| fld 47 32 (s.result n).token.toNat ||| fld 31 0 (s.result n).patterns.toNat
  | 2 => fld 47 0 (s.result n).beat.toNat
  | _ => 0

def State.bistWord (s : State) (off : Nat) : Word :=
  let b := s.bist
  if off < 0x40 then
    match off with
    | 0x00 => fld 31 16 b.slotWait.toNat ||| fld 15 0 b.gapBeats.toNat
    | 0x08 =>
      fld 63 58 b.slot ||| flg 57 b.run.isSome ||| flg 56 ((b.run.map Run.waiting).getD false) ||| flg 55 b.zeroised
        ||| flg 54 b.droopSeen ||| flg 53 b.capSeen ||| fld 47 0 b.slotBeat.toNat
    | 0x10 => fld 63 0 (s.activeMask 0 64)
    | 0x18 => fld 31 0 (s.activeMask 64 32)
    | 0x20 => flg 63 b.autoSpare ||| fld 15 8 b.bufThresh.toNat ||| fld 7 0 b.dreyThresh.toNat
    | 0x28 => flg 63 b.suspect ||| fld 51 0 (roleMap s.rcRole 0 26)
    | _ => 0
  else if off < 0x68 then fld 63 0 (roleMap s.bufRole (32 * ((off - 0x40) / 8)) (min 32 (132 - 32 * ((off - 0x40) / 8))))
  else if 0x80 ≤ off ∧ off < 0xA0 then
    fld 63 0 (roleMap s.dreyRole (32 * ((off - 0x80) / 8)) (min 32 (99 - 32 * ((off - 0x80) / 8))))
  else if 0x100 ≤ off ∧ off < 0x300 then
    let n := (off - 0x100) / 8
    fld 19 10 (sget b.rxBad n 0).toNat ||| fld 9 0 (sget b.txBad n 0).toNat
  else if 0x400 ≤ off ∧ off < 0xA00 then State.expectWord ((off - 0x400) / 0x10) (off % 0x10 / 8)
  else if 0xC00 ≤ off ∧ off < 0x1800 then s.resultWord ((off - 0xC00) / 0x20) (off % 0x20 / 8)
  else 0

/-! ## Counters (R419, R461) -/

def State.ctrWord (s : State) (off : Nat) : Word :=
  if off = 0 then fld 48 40 s.ctr.irqLevel ||| fld 39 24 s.ctr.lost ||| fld 8 0 s.ctr.samples.length
  else if off = 8 then flg 63 s.ctr.freeze
  else if 0x100 ≤ off ∧ off < 0x308 then
    let w := s.window ((off - 0x100) / 8)
    flg 63 w.pending.isSome ||| fld 48 32 w.window ||| fld 31 0 w.lastClose.toNat
  else if 0x2000 ≤ off ∧ off < 0x4800 then
    let c := s.counter ((off - 0x2000) / 8)
    flg 63 c.armed ||| fld 47 0 c.period.toNat
  else 0

/-! ## Security, management, sideband (R71, R440, R462, R463) -/

def State.securityWord (s : State) (off : Nat) : Word :=
  let fails (k : Nat) : Nat := sget s.mgmt.authFails k 0
  match off with
  | 0x00 => fld 3 0 s.mgmt.authReq.toNat
  | 0x08 => s.mgmt.tc7Allow.truncate 64
  | 0x10 => (s.mgmt.tc7Allow >>> 64).truncate 64
  | 0x18 => fld 63 32 (fails 0) ||| fld 31 0 (fails 1)
  | 0x20 => fld 63 32 (fails 2) ||| fld 31 0 (fails 3)
  | _ =>
    if 0x100 ≤ off ∧ off < 0x140 then
      let k := s.key ((off - 0x100) / 8)
      fld 63 16 k.epoch.toNat ||| flg 5 k.admin ||| fld 4 1 k.mask.toNat ||| flg 0 k.loaded
    else if 0x200 ≤ off ∧ off < 0x240 then fld 47 0 (sget s.mgmt.lastEpoch ((off - 0x200) / 8) 0).toNat
    else 0

/-- SEQ words of a pair (R71, R463). -/
def State.seqWord (s : State) (pair : Nat) : Word :=
  match sget s.mgmt.lastSeq pair none with
  | none => 0
  | some n => flg 32 true ||| fld 31 0 n.toNat

/-- A word of BAR0 (R71). -/
def State.barWord (s : State) (off : Nat) : Word :=
  let r := s.ring
  match off with
  | 0x00 => r.cmdBase
  | 0x08 => r.replyBase
  | 0x10 =>
    flg 31 r.enable ||| flg 30 r.overrun ||| flg 29 r.cfgErr ||| fld 13 12 r.replySlot ||| fld 9 8 r.cmdSlot
      ||| fld 3 0 r.slotsLog2
  | 0x18 => fld 31 0 r.tail.toNat
  | 0x20 => fld 31 0 r.head.toNat
  | 0x28 => fld 31 0 r.done.toNat
  | 0x30 => s.seqWord 0
  | 0x38 => fld 31 16 r.holdoff.toNat ||| flg 0 r.irqEn
  | _ => 0

/-- Bytes of the image store in use (R463). -/
def State.storeBytes (s : State) : Nat := (s.mgmt.images.map Image.length).sum

def State.mgmtWord (s : State) (off : Nat) : Word :=
  if off < 0x40 then s.barWord off
  else if off = 0x40 then s.seqWord 1
  else if off = 0x48 then s.seqWord 2
  else if off = 0x50 then fld 63 56 s.mgmt.lastScope ||| fld 55 48 s.mgmt.cause ||| fld 47 32 s.mgmt.setter.toNat
  else if off = 0x58 then fld 47 0 s.mgmt.resetBeat.toNat
  else if off = 0x60 then fld 54 48 s.mgmt.images.length ||| fld 22 0 s.storeBytes
  else if 0x108 ≤ off ∧ off < 0x150 then
    let t := (off - 0x100) / 8
    fld 63 32 (sget s.tables.gen t 0).toNat ||| fld 31 16 (holderCode (s.tableHolder t))
      ||| fld 15 0 (sget s.tables.lastStatus t 0).toNat
  else if 0x200 ≤ off ∧ off < 0x618 then
    let q := s.queue ((off - 0x200) / 8)
    fld 15 8 q.lost ||| fld 4 0 q.records.length
  else if 0x800 ≤ off ∧ off < 0xC00 then s.seqWord (3 + (off - 0x800) / 8)
  else if 0x1000 ≤ off ∧ off < 0x1200 then
    let n := 4 * ((off - 0x1000) / 8)
    let h (k : Nat) : Nat := holderCode (s.blockHolder (n + k))
    fld 63 48 (h 3) ||| fld 47 32 (h 2) ||| fld 31 16 (h 1) ||| fld 15 0 (h 0)
  else 0

def State.sideWord (s : State) (off : Nat) : Word :=
  let d := s.side
  match off with
  | 0x00 =>
    fld 63 56 d.chainAddr.toNat ||| fld 55 40 d.fabricId.toNat ||| flg 39 d.chainLost ||| flg 38 d.clearRefused
      ||| fld 15 0 d.frameErrs
  | 0x08 => fld 63 57 d.dynAddr.toNat ||| fld 56 50 d.staticAddr.toNat ||| fld 15 8 d.ibiEn.toNat ||| fld 7 0 d.xferErrs
  | 0x10 => flg 63 d.bmcAbsent ||| flg 62 d.absentSeen ||| fld 23 0 d.wdogBeats
  | 0x18 => fld 7 0 d.attn.toNat
  | 0x20 => fld 63 0 (maskOf ((List.range 64).filter fun n => (s.port n).allUp))
  | 0x28 => d.linkChange
  | 0x30 => d.presChange
  | _ =>
    if 0x40 ≤ off ∧ off < 0x80 then
      let m := s.mmb ((off - 0x40) / 8)
      flg 63 m.seated ||| flg 62 m.idValid ||| flg 61 m.busFault ||| flg 60 m.rtFault ||| fld 55 48 m.cables.toNat
        ||| fld 31 16 m.naks ||| fld 15 0 m.transfers
    else 0

/-! ## The map (R458 to R460) -/

/-- What a word reads as; an address the map does not list reads as zero (R99, R460). -/
def State.readWord (s : State) (addr : Nat) : Word :=
  let off := addr % 0x10000
  match addr / 0x10000 with
  | 0x00 => s.identityWord off
  | 0x01 => s.beatWord off
  | 0x02 => s.agendaWord off
  | 0x03 => s.portWord off
  | 0x04 => s.switchWord off
  | 0x05 => (s.fence (off / 0x10)).word (off % 0x10 / 8)
  | 0x06 => s.memWord off
  | 0x07 => s.collWord off
  | 0x08 => (s.session (off / 0x40)).word (off % 0x40 / 8)
  | 0x09 => (s.session (1024 + off / 0x40)).word (off % 0x40 / 8)
  | 0x0A => (s.session (2048 + off / 0x40)).word (off % 0x40 / 8)
  | 0x0B => (s.session (3072 + off / 0x40)).word (off % 0x40 / 8)
  | 0x0C => s.powerWord off
  | 0x0D => s.bistWord off
  | 0x0E => s.ctrWord off
  | 0x0F => s.securityWord off
  | 0x10 => s.mgmtWord off
  | 0x11 => s.sideWord off
  | _ => 0

/-- The partition whose test governs a word (R459, R464). -/
def wordPart (addr : Nat) : Option Nat :=
  let off := addr % 0x10000
  match addr / 0x10000 with
  | 0x03 => if off < 0x600 then some (off % 0x200 / 8) else none
  | 0x06 => if 0x100 ≤ off ∧ off < 0x168 then none else some 94
  | b => if b = 0x04 ∨ b = 0x05 ∨ (0x07 ≤ b ∧ b ≤ 0x0B) ∨ b = 0x0E then some 94 else none
/-- The word is under test (R464). -/
def State.wordTested (s : State) (addr : Nat) : Bool :=
  match wordPart addr with
  | none => false
  | some tp => s.underTest tp

/-! ## Access codes (R13) -/

/-- The bits of a word that are RW, W1C, WO and AGD. -/
structure Access where
  rw : Word
  w1c : Word
  wo : Word
  agd : Word
  deriving DecidableEq, Repr

def noAccess : Access := { rw := 0, w1c := 0, wo := 0, agd := 0 }

/-- Writable bits of the words of a block, by offset. -/
def access (addr : Nat) : Access :=
  let off := addr % 0x10000
  let rw (m : Word) : Access := { noAccess with rw := m }
  let wc (m : Word) : Access := { noAccess with w1c := m }
  match addr / 0x10000 with
  | 0x00 => if off = 0x18 then rw 0xFFFFFFFFFFFFFFFF else noAccess
  | 0x01 =>
    if off = 0 then wc 0x0700000000000000 else if off = 0x10 then rw 0x1FFFF
    else if off = 0x18 then { noAccess with agd := 0xFFFFFFFFFFFFFFFF } else noAccess
  | 0x03 => if off < 0x200 then wc 0xC0000000 else noAccess
  | 0x04 =>
    if off = 0x18 then rw 0x0000FFFF000000FF else if off = 0x20 then wc 0xC000000000000000
    else if 0x100 ≤ off ∧ off < 0x300 then { noAccess with rw := 0xFFFF, w1c := 0x0200000000000000 } else noAccess
  | 0x05 => if off % 0x10 = 8 then { noAccess with wo := 1 } else noAccess
  | 0x06 =>
    if off = 0 then rw 0xF000FFFF000000FF else if off = 0x20 then wc 0x0000060000000000 else noAccess
  | 0x07 => if off = 0 then rw 0xF800FFFF0001FFFF else if off = 8 then wc 0x600 else noAccess
  | 0x0C => if off = 0 then rw 0x8FFFFFFFFFFF0000 else if off = 8 then wc 0x3E000000 else noAccess
  | 0x0D =>
    if off = 0 then rw 0xFFFFFFFF else if off = 8 then wc 0x00E0000000000000
    else if off = 0x20 then rw 0x800000000000FFFF else noAccess
  | 0x0E =>
    if off = 0 then rw 0x0001FF0000000000 else if off = 8 then { noAccess with agd := 0x8000000000000000 } else noAccess
  | 0x0F =>
    if off = 0 then rw 0xF else if off = 8 ∨ off = 0x10 then rw 0xFFFFFFFFFFFFFFFF else noAccess
  | 0x11 =>
    if off = 0 then wc 0x000000C000000000 else if off = 8 then rw 0xFF00
    else if off = 0x10 then { noAccess with rw := 0xFFFFFF, w1c := 0x4000000000000000 }
    else if off = 0x18 then wc 0xFF else if off = 0x28 ∨ off = 0x30 then wc 0xFFFFFFFFFFFFFFFF
    else if 0x40 ≤ off ∧ off < 0x80 then wc 0x3000000000000000 else noAccess
  | _ => noAccess

/-- What a write of v with the bits of mask stores: the kept bits of RW and AGD fields, and no W1C or WO bit outside the mask
(R99). -/
def State.merged (s : State) (addr : Nat) (mask v : Word) : Word :=
  (s.readWord addr &&& ~~~mask &&& ((access addr).rw ||| (access addr).agd)) ||| (v &&& mask)

/-! ## Ranges (R57, R181, R218, R287, R375, R401, R419) -/

/-- An RW field of the word would leave the range its rule states (R466). -/
def State.rangeBad (addr : Nat) (v : Word) : Bool :=
  match addr with
  | 0x010010 => let n := wbits v 16 0; n < 1 || 65536 < n
  | 0x040018 => wbits v 47 32 == 0 || wbits v 7 0 == 0
  | 0x060000 => wbits v 61 60 == 3 || wbits v 7 0 == 0
  | 0x070000 => wbits v 16 0 < 1024 || 16384 < wbits v 16 0
  | 0x0C0000 =>
    wbits v 59 56 < 1 || 8 < wbits v 59 56 || wbits v 55 48 < 10 || 100 < wbits v 55 48
      || wbits v 47 40 ≤ wbits v 55 48 || wbits v 31 16 == 0
  | 0x0D0000 => wbits v 31 16 == 0
  | 0x0D0020 => wbits v 15 8 == 0 || wbits v 7 0 == 0
  | 0x0E0000 => wbits v 48 40 < 1 || 256 < wbits v 48 40
  | _ => false

/-! ## Writes (R13, R466) -/

/-- The causes that stand again at once after a clear (R431). -/
def State.standingCauses (s : State) : BitVec 8 :=
  (if (s.queue 1).records.isEmpty then 0 else 1) ||| (if (s.queue 2).records.isEmpty then 0 else 2)
    ||| (if s.ctr.irqLevel ≤ s.ctr.samples.length then 4 else 0)

/-- An acknowledged fence entry drains (R175, R180). -/
def State.drainFence (s : State) (n : Nat) : State :=
  s.setFence n { s.fence n with st := .draining, waits := false, ackAt := s.sw.nextId }

/-- The RW, W1C and WO fields of a word take a write (R13); its AGD fields do not. -/
def State.writeWord (s : State) (addr : Nat) (v : Word) : State :=
  let off := addr % 0x10000
  match addr / 0x10000 with
  | 0x00 => if off = 0x18 then { s with mgmt := { s.mgmt with scratch := v } } else s
  | 0x01 =>
    if off = 0 then
      s.updBeat fun b => { b with
        rootConflict := w1c b.rootConflict (wbit v 58), outlier := w1c b.outlier (wbit v 57)
        freerunSeen := w1c b.freerunSeen (wbit v 56) }
    else if off = 0x10 then s.updBeat fun b => { b with driftThresh := wbits v 16 0 }
    else s
  | 0x03 =>
    if off < 0x200 then s.updPort (off / 8) fun p => { p with
      sleepReqFail := w1c p.sleepReqFail (wbit v 31), wakeFail := w1c p.wakeFail (wbit v 30) }
    else s
  | 0x04 =>
    if off = 0x18 then
      { s with recov := { s.recov with fenceRetry := BitVec.ofNat 16 (wbits v 47 32), fenceLimit := v.truncate 8 } }
    else if off = 0x20 then
      { s with recov := { s.recov with
          fullSeen := w1c s.recov.fullSeen (wbit v 63), limitSeen := w1c s.recov.limitSeen (wbit v 62) } }
    else if 0x100 ≤ off ∧ off < 0x300 then
      let n := (off - 0x100) / 8
      s.setRecov n { s.recovOf n with expired := w1c (s.recovOf n).expired (wbit v 57), holdBeats := v.truncate 16 }
    else s
  | 0x05 =>
    if off % 0x10 = 8 ∧ wbit v 0 = true ∧ (s.fence (off / 0x10)).st = .active then s.drainFence (off / 0x10) else s
  | 0x06 =>
    if off = 0 then
      s.updMem fun m => { m with
        autoMigrate := wbit v 63, noCopy := wbit v 62, share := BitVec.ofNat 2 (wbits v 61 60)
        ceThresh := BitVec.ofNat 16 (wbits v 47 32), ueThresh := v.truncate 8 }
    else if off = 0x20 then
      s.updMem fun m => { m with poisonFull := w1c m.poisonFull (wbit v 42), lostSeen := w1c m.lostSeen (wbit v 41) }
    else s
  | 0x07 =>
    if off = 0 then
      { s with coll := { s.coll with
          retain := wbit v 63, syncLog2 := BitVec.ofNat 4 (wbits v 62 59), stallBeats := BitVec.ofNat 16 (wbits v 47 32)
          stageKib := if s.openSessions.isEmpty then wbits v 16 0 else s.coll.stageKib } }
    else if off = 8 then
      { s with coll := { s.coll with
          ueSeen := w1c s.coll.ueSeen (wbit v 10), residueSeen := w1c s.coll.residueSeen (wbit v 9) } }
    else s
  | 0x0C =>
    if off = 0 then
      s.updPower fun p => { p with
        droopEn := wbit v 63, decafStep := wbits v 59 56, lightMv := wbits v 55 48, heavyMv := wbits v 47 40
        headroom := wbits v 39 32, raiseHold := wbits v 31 16, kDroop := if wbit v 63 then p.kDroop else 16 }
    else if off = 8 then
      s.updPower fun p => { p with
        capUnmet := w1c p.capUnmet (wbit v 29), lightSeen := w1c p.lightSeen (wbit v 28)
        heavySeen := w1c p.heavySeen (wbit v 27), raiseRefused := w1c p.raiseRefused (wbit v 26)
        designSeen := w1c p.designSeen (wbit v 25) }
    else s
  | 0x0D =>
    if off = 0 then s.updBist fun b => { b with slotWait := BitVec.ofNat 16 (wbits v 31 16), gapBeats := v.truncate 16 }
    else if off = 8 then
      s.updBist fun b => { b with
        zeroised := w1c b.zeroised (wbit v 55), droopSeen := w1c b.droopSeen (wbit v 54)
        capSeen := w1c b.capSeen (wbit v 53) }
    else if off = 0x20 then
      s.updBist fun b => { b with
        autoSpare := wbit v 63, bufThresh := BitVec.ofNat 8 (wbits v 15 8), dreyThresh := v.truncate 8 }
    else s
  | 0x0E => if off = 0 then { s with ctr := { s.ctr with irqLevel := wbits v 48 40 } } else s
  | 0x0F =>
    if off = 0 then { s with mgmt := { s.mgmt with authReq := v.truncate 4 } }
    else if off = 8 then
      { s with mgmt := { s.mgmt with tc7Allow := (s.mgmt.tc7Allow >>> 64 <<< 64) ||| v.zeroExtend 128 } }
    else if off = 0x10 then
      { s with mgmt := { s.mgmt with
          tc7Allow := ((s.mgmt.tc7Allow.truncate 64 : Word).zeroExtend 128) ||| (v.zeroExtend 128 <<< 64) } }
    else s
  | 0x11 =>
    if off = 0 then
      { s with side := { s.side with
          chainLost := w1c s.side.chainLost (wbit v 39), clearRefused := w1c s.side.clearRefused (wbit v 38) } }
    else if off = 8 then { s with side := { s.side with ibiEn := BitVec.ofNat 8 (wbits v 15 8) } }
    else if off = 0x10 then
      { s with side := { s.side with
          absentSeen := w1c s.side.absentSeen (wbit v 62), wdogBeats := wbits v 23 0
          bmcAbsent := s.side.bmcAbsent && wbits v 23 0 != 0 } }
    else if off = 0x18 then
      ({ s with side := { s.side with attn := w1cBits s.side.attn (v.truncate 8) } }).attend s.standingCauses
    else if off = 0x28 then { s with side := { s.side with linkChange := w1cBits s.side.linkChange v } }
    else if off = 0x30 then { s with side := { s.side with presChange := w1cBits s.side.presChange v } }
    else if 0x40 ≤ off ∧ off < 0x80 then
      let b := (off - 0x40) / 8
      s.setPresence b { s.mmb b with busFault := w1c (s.mmb b).busFault (wbit v 61), rtFault := w1c (s.mmb b).rtFault (wbit v 60) }
    else s
  | _ => s

/-- A read clears the RC fields of its word, unless the word is under test (R13, R464). -/
def State.clearRc (s : State) (addr : Nat) : State :=
  let off := addr % 0x10000
  if s.wordTested addr then s
  else match addr / 0x10000 with
  | 0x03 =>
    if off < 0x200 then s.updPort (off / 8) fun p => { p with autoWakes := 0, markerErrs := 0, slips := 0 }
    else if 0x400 ≤ off ∧ off < 0x600 then
      s.updPort ((off - 0x400) / 8) fun p => { p with
        replays := 0, naks := 0, lockLosses := 0, swaps := 0, widthDrops := 0, trainFails := 0 }
    else s
  | 0x04 => if off = 0x20 then { s with recov := { s.recov with badAcks := 0 } } else s
  | 0x06 => if off = 0x20 then s.updMem fun m => { m with eccLost := 0 } else s
  | 0x07 =>
    if off = 0x10 then { s with coll := { s.coll with resends := 0, recomputes := 0, badAcks := 0, discarded := 0 } } else s
  | 0x0C => if off = 0x10 then s.updPower fun p => { p with capCuts := 0, droopTrips := 0 } else s
  | 0x0E => if off = 0 then { s with ctr := { s.ctr with lost := 0 } } else s
  | 0x11 =>
    if off = 0 then { s with side := { s.side with frameErrs := 0 } }
    else if off = 8 then { s with side := { s.side with xferErrs := 0 } }
    else if 0x40 ≤ off ∧ off < 0x80 then
      let b := (off - 0x40) / 8
      s.setMmb b { s.mmb b with naks := 0, transfers := 0 }
    else s
  | _ => s

/-! ## Checks of a write (R464, R466) -/

/-- Any change of these AUTH_REQ bits that a source of P or T may not make (R80). -/
def authChangeBad (src : Src) (old new : BitVec 4) : Bool :=
  let may := BitVec.ofNat 4 (1 <<< srcCode src)
  decide (old &&& ~~~new ≠ 0) || decide (new &&& ~~~old &&& ~~~may ≠ 0)
/-- The source is PCIe or TC7. -/
def lowSource (src : Src) : Bool := decide (src = .pcie) || decide (src = .tc7)

/-- A fixed rule keeps the source from writing the word with these bits (R80, R437, R462). -/
def State.fixedRule (s : State) (src : Src) (addr : Nat) (mask v : Word) : Bool :=
  lowSource src && (match addr with
    | 0x0F0000 => authChangeBad src s.mgmt.authReq (v.truncate 4)
    | 0x0F0008 => decide (v ≠ s.mgmt.tc7Allow.truncate 64)
    | 0x0F0010 => decide (v ≠ (s.mgmt.tc7Allow >>> 64).truncate 64)
    | 0x110008 => wbits mask 15 8 != 0
    | 0x110010 => wbits mask 23 0 != 0
    | _ => false)

/-- The write would change a word under test (R464). -/
def State.testBlocks (s : State) (addr : Nat) (v : Word) : Bool :=
  let a := access addr
  let old := s.readWord addr
  s.wordTested addr && (decide ((old ^^^ v) &&& (a.rw ||| a.agd) ≠ 0) || decide (old &&& v &&& a.w1c ≠ 0) || decide (v &&& a.wo ≠ 0))

/-- The words of a command: address, mask, value as it would be stored, and the offset of its value in the packet. -/
structure WordWrite where
  addr : Nat
  mask : Word
  value : Word
  off : Nat
  deriving DecidableEq, Repr

/-- The checks of R466 in order: a status and DETAIL, or none. -/
def State.writeCheck (s : State) (c : Cmd) (l : List WordWrite) : Option (BitVec 8 × Nat) :=
  match l.find? fun w => State.rangeBad w.addr w.value with
  | some w => some (stBadParam, w.off)
  | none =>
    if l.any fun w => s.fixedRule c.src w.addr w.mask w.value then some (stDeniedPrecedence, 0x8000)
    else match l.find? fun w => !mayChange (s.blockHolder (w.addr / 0x10000)) c.src c.origin with
      | some w => some (stDeniedPrecedence, holderCode (s.blockHolder (w.addr / 0x10000)))
      | none => if l.any fun w => s.testBlocks w.addr w.value then some (stBusyTest, 0) else none

end Sys2Proof.Machine
end

