-- ==== Sys2Proof/Machine/Params.lean ====
section
/-! DEFINITION. Step 7 of R63: the parameter ranges of every opcode (R95, R98 to R118 and the rules they name), as the byte
offset in the packet of the first field in error, and the frame in which an accepted command runs. -/

namespace Sys2Proof.Machine

/-- The first offset whose condition holds. -/
def firstBad (l : List (Bool × Nat)) : Option Nat := (l.find? fun x => x.1).map (·.2)

/-- Word addresses: alignment, count and block (R98, R99). -/
def State.cwRange (addr count most : Nat) : List (Bool × Nat) :=
  [(addr % 8 != 0, 32), (count == 0 || most < count, 36), (0x10000 < addr % 0x10000 + 8 * count, 36)]

/-- HANDLE names an image (R101). -/
def State.noImage (s : State) (h : BitVec 32) : Bool := (s.image h).isNone

def powerCapBad (n : Nat) : Bool := n != 0 && (n < 250 || 1500 < n)
/-- The offset and count of a memory command (R107). -/
def memRange (offset count : Nat) : List (Bool × Nat) :=
  [(offset % 64 != 0, 32), (count < 64 || 2048 < count || count % 64 != 0, 40)]
def portBad (p : Byte) : Bool × Nat := (64 ≤ p.toNat, 32)
def spareLaneBad (l : Nat) : Bool := 8 ≤ l && l != 9

/-- MG lists exactly the members (R110). -/
def State.membersListed (s : State) (mg members : Nat) : Bool := s.mgValid mg && s.mgMembers mg == members

/-- The partitions of a mask. -/
def partList (m : BitVec 96) : List Nat := bitList 96 m.toNat

/-- Groups 0x00 to 0x02. -/
def State.rangeLow (s : State) : Instr → Option Nat
  | .cwRead c addr count => firstBad (State.cwRange addr.toNat count.toNat 64 ++ [(!s.fits c (8 * count.toNat), 36)])
  | .cwWrite _ addr count _ _ => firstBad (State.cwRange addr.toNat count.toNat 32)
  | .cwModify _ addr mask _ => firstBad [(addr.toNat % 8 != 0, 32), (decide (mask &&& (access addr.toNat).agd ≠ 0), 40)]
  | .noticeRead c max => firstBad [(max.toNat == 0 || 16 < max.toNat || !s.fits c (8 + 24 * max.toNat), 32)]
  | .tableImageOpen _ table length =>
    let size := entrySize table.toNat
    let n := length.toNat
    firstBad [(!tableDefined table.toNat, 32), (n % 4 != 0 || n < 64 + size || 64 + 1024 * (size + 4) < n, 36)]
  | .tableImageWrite _ handle offset data =>
    let len := ((s.image handle).map Image.length).getD 0
    firstBad [(s.noImage handle, 32), (offset.toNat % 4 != 0 || len < offset.toNat + data.length, 36)]
  | .tableImageSeal _ handle => firstBad [(s.noImage handle, 32)]
  | .tableStage _ handle _ => firstBad [(s.noImage handle, 32)]
  | .tableImageDiscard _ handle => firstBad [(s.noImage handle, 32)]
  | .tableRead c table first count =>
    let t := table.toNat
    firstBad [(!tableDefined t, 32), (tableSize t ≤ first.toNat, 36),
      (count.toNat == 0 || tableSize t < first.toNat + count.toNat || !s.fits c (8 + entrySize t * count.toNat), 40)]
  | .tableStatus _ table => firstBad [(!tableDefined table.toNat, 32)]
  | .tableImageList c first max =>
    firstBad [(64 ≤ first.toNat, 32), (max.toNat == 0 || 64 < max.toNat || !s.fits c (8 + 12 * max.toNat), 33)]
  | .hold _ kind id => firstBad [(2 ≤ kind.toNat, 32), (kind == 0 && !tableDefined id.toNat, 33)]
  | .release _ kind id => firstBad [(2 ≤ kind.toNat, 32), (kind == 0 && !tableDefined id.toNat, 33)]
  | .beatPeriodSet _ period _ => firstBad [(4 < period.toNat, 32)]
  | .agendaStageCwWrite _ _ a _ => firstBad [(decide (a >>> 24 ≠ 0) || wbits a 2 0 != 0, 48)]
  | .agendaStagePowerStep _ _ a b => firstBad [(decide (a >>> 8 ≠ 0), 48), (decide (b ≠ 0), 56)]
  | .agendaStageBistStop _ _ a b => firstBad [(decide (a >>> 8 ≠ 0), 48), (decide (b ≠ 0), 56)]
  | .agendaStageBistStart _ _ a b => firstBad [(decide (a >>> 8 ≠ 0), 48), (decide (b ≠ 0), 56)]
  | .agendaStageMark _ _ _ b => firstBad [(decide (b ≠ 0), 56)]
  | .agendaCancel _ entry _ => firstBad [(256 ≤ entry.toNat, 32)]
  | .agendaRead c first count =>
    firstBad [(256 ≤ first.toNat, 32),
      (count.toNat == 0 || 16 < count.toNat || 256 < first.toNat + count.toNat || !s.fits c (32 * count.toNat), 34)]
  | _ => none

/-- Groups 0x03 to 0x05. -/
def State.rangeMid (s : State) : Instr → Option Nat
  | .portStatus _ p => firstBad [portBad p]
  | .portAdminDisable _ p mode => firstBad [portBad p, (1 < mode.toNat && mode != 0xFF, 34)]
  | .portAdminEnable _ p mode => firstBad [portBad p, (1 < mode.toNat && mode != 0xFF, 34)]
  | .portAdminRetrain _ p mode => firstBad [portBad p, (1 < mode.toNat && mode != 0xFF, 34)]
  | .portSleep _ p dirs => firstBad [portBad p, (dirs == 0 || 3 < dirs.toNat, 33)]
  | .portWake _ p dirs => firstBad [portBad p, (dirs == 0 || 3 < dirs.toNat, 33)]
  | .laneStatus _ p => firstBad [portBad p]
  | .eyeScan c p lane h v dwell =>
    let big (x : Byte) : Bool := x == 0 || 64 < x.toNat
    firstBad [portBad p, (8 < lane.toNat, 33), (big h || !s.fits c (2 * h.toNat * max 1 v.toNat), 34), (big v, 35),
      (dwell.toNat < 20 || 40 < dwell.toNat, 36)]
  | .eqOverride _ p lane ctle => firstBad [portBad p, (9 < lane.toNat, 33), (31 < ctle.toNat && ctle != 0xFF, 34)]
  | .spareSwap _ p dir lane => firstBad [portBad p, (1 < dir.toNat, 33), (spareLaneBad lane.toNat, 34)]
  | .spareRestore _ p dir lane => firstBad [portBad p, (1 < dir.toNat, 33), (spareLaneBad lane.toNat, 34)]
  | .cartRead c bus dev _ offset count =>
    firstBad [(8 ≤ bus.toNat, 32), (128 ≤ dev.toNat, 33), (256 ≤ offset.toNat, 36),
      (count.toNat == 0 || 256 < count.toNat || !s.fits c count.toNat, 38)]
  | .cartWrite _ bus dev _ offset count _ =>
    firstBad [(8 ≤ bus.toNat, 32), (128 ≤ dev.toNat, 33), (256 ≤ offset.toNat, 36),
      (count.toNat == 0 || 128 < count.toNat, 38)]
  | .voqRead _ i o _ => firstBad [(128 ≤ i.toNat, 32), (128 ≤ o.toNat, 33)]
  | .creditRead _ lp => firstBad [(128 ≤ lp.toNat, 32)]
  | .portDrain _ lp _ timeout => firstBad [(128 ≤ lp.toNat, 32), (timeout == 0, 34)]
  | .heldDiscard _ p => firstBad [portBad p]
  | .memAlloc _ size _ => firstBad [(size == 0, 32)]
  | .memFill _ _ size _ => firstBad [(size == 0, 40)]
  | .memRead c offset count => firstBad (memRange offset.toNat count.toNat ++ [(!s.fits c count.toNat, 40)])
  | .memWrite _ offset count _ => firstBad (memRange offset.toNat count.toNat)
  | .eccLogRead c max => firstBad [(max.toNat == 0 || 64 < max.toNat || !s.fits c (8 + 16 * max.toNat), 32)]
  | _ => none

/-- Groups 0x06 to 0x0F. -/
def State.rangeHigh (s : State) : Instr → Option Nat
  | .sessionOpen _ sid mg flags members quota =>
    firstBad [(4096 ≤ sid.toNat && sid != 0xFFFF, 32), (4096 ≤ mg.toNat, 34), (4 ≤ flags.toNat, 36),
      (members == 0 || !s.membersListed mg.toNat members.toNat, 40), (0x1FFFF < quota.toNat, 56)]
  | .sessionClose _ sid => firstBad [(4096 ≤ sid.toNat, 32)]
  | .sessionCloseForce _ sid => firstBad [(4096 ≤ sid.toNat, 32)]
  | .sessionStatus _ sid => firstBad [(4096 ≤ sid.toNat, 32)]
  | .sessionList _ first => firstBad [(first.toNat % 1024 != 0 || 4096 ≤ first.toNat, 32)]
  | .ceilingSet _ cap => firstBad [(powerCapBad cap.toNat, 32)]
  | .hostRequestSet _ cap => firstBad [(powerCapBad cap.toNat, 32)]
  | .bistRun _ parts _ =>
    firstBad [(parts == 0 || (partList parts).any fun n => n == 95 || !bitAt (s.entry 8 n) 63, 32)]
  | .bistResult _ part => firstBad [(96 ≤ part.toNat, 32)]
  | .bistAbort _ part => firstBad [(96 ≤ part.toNat && part != 0xFF, 32)]
  | .spareBringInStack _ unit => firstBad [(13 ≤ unit.toNat, 34)]
  | .spareBringIn _ kind unit =>
    firstBad [(kind.toNat < 2 || 4 < kind.toNat, 32),
      ((if kind = 2 then 26 else if kind = 3 then 132 else 99) ≤ unit.toNat, 34)]
  | .ctrRead c bank first count =>
    let b := bank.toNat
    firstBad [(bankBad b, 32), (bankSize b ≤ first.toNat, 34),
      (count.toNat == 0 || bankSize b < first.toNat + count.toNat || !s.fits c (8 * count.toNat), 36)]
  | .ctrSelect _ bank index event =>
    let b := bank.toNat
    firstBad [(bankBad b, 32), (bankSize b ≤ index.toNat, 34), (!eventFits (counterOf b index.toNat) event.toNat, 36)]
  | .ctrWindowSet _ bank window => firstBad [(bankBad bank.toNat, 32), (window == 0 || 65536 < window.toNat, 36)]
  | .sampleConfig _ bank index period enable =>
    let b := bank.toNat
    firstBad [(bankBad b, 32), (bankSize b ≤ index.toNat, 34), (period.toNat < 256 || 2 ^ 48 ≤ period.toNat, 36),
      (1 < enable.toNat, 44)]
  | .sampleRead c max => firstBad [(max.toNat == 0 || 64 < max.toNat || !s.fits c (8 + 32 * max.toNat), 32)]
  | .keyLoad _ slot mask flags epoch _ =>
    firstBad [(8 ≤ slot.toNat, 32), (16 ≤ mask.toNat, 33), (2 ≤ flags.toNat, 34),
      (slot.toNat < 8 && epoch.toNat ≤ (sget s.mgmt.lastEpoch slot.toNat 0).toNat, 36)]
  | .keyClear _ slot => firstBad [(8 ≤ slot.toNat, 32)]
  | .authReqSet _ bits => firstBad [(16 ≤ bits.toNat, 32)]
  | .resetPort _ unit => firstBad [(64 ≤ unit.toNat, 33)]
  | .resetSwitch _ unit => firstBad [(unit != 0, 33)]
  | .resetMemory _ unit => firstBad [(unit != 0, 33)]
  | .resetCollective _ unit => firstBad [(unit != 0, 33)]
  | .resetManagement _ unit => firstBad [(unit != 0, 33)]
  | .resetModule _ unit => firstBad [(unit != 0, 33)]
  | _ => none

/-- The byte offset in the packet of the first parameter in error (R62, R63 step 7). -/
def State.paramError (s : State) (i : Instr) : Option Nat :=
  match s.rangeLow i with
  | some n => some n
  | none => match s.rangeMid i with
    | some n => some n
    | none => s.rangeHigh i

/-- Run an accepted command: nothing while the management controller is closed, BAD_PARAM for a parameter in error, else its
effect (R63). -/
def State.opcode (s : State) (i : Instr) (c : Cmd) (op : BitVec 16) (body : State) : Out :=
  if s.live ∧ s.mgmtInReset = false then
    match s.paramError i with
    | some off => .next (s.deny c op stBadParam off)
    | none => .next body
  else .next s

/-! ## Step 9: units in reset and under test (R391, R453) -/

/-- A reply that a check gives, or the effect. -/
def State.gate (s : State) (c : Cmd) (op : BitVec 16) (why : Option (BitVec 8 × Nat)) (body : State) : State :=
  match why with
  | some (st, detail) => s.deny c op st detail
  | none => body

/-- The unit of a command: in reset DENIED_STATE, under test BUSY_TEST. -/
def unitGate (inReset tested : Bool) : Option (BitVec 8 × Nat) :=
  if inReset then some (stDeniedState, 0) else if tested then some (stBusyTest, 0) else none
def State.portGate (s : State) (n : Nat) : Option (BitVec 8 × Nat) := unitGate (s.portInReset n) (s.underTest n)
def State.switchGate (s : State) : Option (BitVec 8 × Nat) := unitGate s.switchInReset (s.underTest 94)
def State.memGate (s : State) : Option (BitVec 8 × Nat) := unitGate s.memInReset (s.underTest 94)
def State.collGate (s : State) : Option (BitVec 8 × Nat) := unitGate s.collInReset (s.underTest 94)

/-- Precedence over an object with this holder (R79). -/
def holdGate (holder : Option (Src × Nat)) (c : Cmd) : Option (BitVec 8 × Nat) :=
  if mayChange holder c.src c.origin then none else some (stDeniedPrecedence, holderCode holder)
/-- A condition that DENIED_STATE answers. -/
def stateGate (bad : Bool) : Option (BitVec 8 × Nat) := if bad then some (stDeniedState, 0) else none
def roomGate (bad : Bool) : Option (BitVec 8 × Nat) := if bad then some (stNoResource, 0) else none
/-- The first check that fails. -/
def firstGate (l : List (Option (BitVec 8 × Nat))) : Option (BitVec 8 × Nat) := l.findSome? id

/-- The beat as the six bytes of a reply. -/
def beatBytes (b : Beat) : Bytes := leBytes 6 b.toNat

end Sys2Proof.Machine
end

