-- ==== Sys2Proof/Machine/OpLinks.lean ====
section
/-! DEFINITION. The opcodes of the group 0x03 (R104, R105): ports, sleep, lanes, eye scans, equaliser overrides, lane spares and
the cartridge bus. -/

namespace Sys2Proof.Machine

/-! ## Status (R104, R354) -/

/-- PORT_STATUS (R104, R354). -/
def execPortStatus (c : Cmd) (port : Byte) (s : State) : Out :=
  let n := port.toNat
  let p := s.port n
  let data := leBytes 1 (p.codeA + 16 * p.codeB) ++ leBytes 1 (b2n p.split) ++ leBytes 1 (p.a.rxShown + 16 * p.a.txShown)
    ++ leBytes 1 (p.rxB + 16 * p.txB) ++ leBytes 1 p.txSp ++ leBytes 1 p.rxSp ++ leBytes 2 p.delayShown
    ++ leBytes 4 p.attempts ++ leBytes 4 p.replaysAll ++ leBytes 1 (b2n (s.present n))
    ++ leBytes 1 (b2n p.txAsleep + 2 * b2n p.rxAsleep) ++ leBytes 6 p.stateBeat.toNat ++ zeros 8
  s.opcode (.portStatus c port) c 0x0300 (s.ok c 0x0300 data)

/-- A receive lane has header lock, or its clock is locked (R332, R333). -/
def PortSt.laneLocked (p : PortSt) (lane : Nat) : Bool :=
  if !p.lanePowered false lane then false
  else if lane = 9 then p.clockLocked
  else
    let x := p.stripe (laneSide p.split lane)
    if lane < 8 then x.st == .up || bitAt x.locked.toNat lane
    else (p.sides.any fun sd => bitAt (p.stripe sd).locked.toNat 8) || (p.anyUp && p.rxSp != 15)

/-- CTLE code of a receive lane (R311, R313); RX.CK has a fixed equaliser (R309). -/
def PortSt.ctleOf (p : PortSt) (lane : Nat) : Nat :=
  if lane = 9 then 0
  else match (p.lane lane).ctle with
    | some v => v.toNat
    | none => bitsAt p.preset.toNat 31 27

/-- A record of LANE_STATUS (R104). -/
def PortSt.laneRecord (p : PortSt) (tx : Bool) (lane : Nat) : Bytes :=
  let sp := if tx then p.txSp else p.rxSp
  let role := if lane < 8 then 0 else if lane = 9 then 3 else if sp = 15 then 1 else if sp = 9 then 3 else 2
  let locked := !tx && p.laneLocked lane
  leBytes 1 (b2n (p.lanePowered tx lane) + 2 * b2n locked + 4 * role) ++ leBytes 1 (if tx then 0 else p.ctleOf lane)
    ++ leBytes 2 (if tx then 0 else (p.lane lane).errors)

/-- LANE_STATUS (R104). -/
def execLaneStatus (c : Cmd) (port : Byte) (s : State) : Out :=
  let p := s.port port.toNat
  let side (tx : Bool) : Bytes := ((List.range 10).map fun k => p.laneRecord tx k).flatten
  s.opcode (.laneStatus c port) c 0x0303 (s.ok c 0x0303 (side true ++ side false))

/-! ## PORT_ADMIN (R105, R326, R340, R356) -/

/-- MODE names another mode than the port's. -/
def PortSt.modeChange (p : PortSt) (mode : Byte) : Bool := mode != 0xFF && (mode == 1) != p.split

/-- DISABLE: every stripe is DISABLED and the replay state is lost (R165, R326, R356). -/
def State.disablePort (s : State) (n : Nat) : State :=
  if !(s.port n).enabled then s
  else
    let s := s.updPort n fun p => { p with enabled := false, scans := [] }
    let s := s.finishAll (fun w => match w with | .eyeScan p _ _ _ _ => p == n | _ => false) stDeniedState 0
    let s := (s.port n).sides.foldl (fun (s : State) sd => s.stripeDown n sd 15 .disabled) s
    (s.lpsOf n).foldl (fun (s : State) lp => s.dropReplay lp) s

/-- ENABLE: each stripe enters SEND, or ABSENT without presence (R105, R340, R355, R356). -/
def State.enablePort (s : State) (n : Nat) (mode : Byte) : State :=
  if (s.port n).enabled then s
  else
    let s := s.updPort n fun p => { p with
      enabled := true, split := if mode = 0xFF then p.split else mode == 1, attempts := 0, backoffExp := 0, lastFail := 0 }
    let here := s.present n
    (s.port n).sides.foldl (fun (s : State) sd => if here then s.enterSend n sd else s.setStripeSt n sd .absent) s

/-- RETRAIN: every stripe that is not ABSENT goes to SEND (R105, R170). -/
def State.retrainPort (s : State) (n : Nat) : State :=
  (s.port n).sides.foldl (fun (s : State) sd =>
    if ((s.port n).stripe sd).st = .absent then s else s.stripeDown n sd 15 .send) s

/-- PORT_ADMIN DISABLE (R105). -/
def execPortAdminDisable (c : Cmd) (port : Byte) (mode : Byte) (s : State) : Out :=
  let n := port.toNat
  s.opcode (.portAdminDisable c port mode) c 0x0301
    (s.gate c 0x0301 (firstGate [s.portGate n, stateGate ((s.port n).modeChange mode)]) ((s.disablePort n).ok c 0x0301 []))

/-- PORT_ADMIN ENABLE (R105, R397). -/
def execPortAdminEnable (c : Cmd) (port : Byte) (mode : Byte) (s : State) : Out :=
  let n := port.toNat
  let p := s.port n
  let bad := (p.modeChange mode && p.enabled) || bitAt s.bist.portUnusable.toNat n
  s.opcode (.portAdminEnable c port mode) c 0x0301
    (s.gate c 0x0301 (firstGate [s.portGate n, stateGate bad]) ((s.enablePort n mode).ok c 0x0301 []))

/-- PORT_ADMIN RETRAIN (R105, R170). -/
def execPortAdminRetrain (c : Cmd) (port : Byte) (mode : Byte) (s : State) : Out :=
  let n := port.toNat
  let p := s.port n
  s.opcode (.portAdminRetrain c port mode) c 0x0301
    (s.gate c 0x0301 (firstGate [s.portGate n, stateGate (p.modeChange mode || !p.enabled)])
      ((s.retrainPort n).ok c 0x0301 []))

/-! ## PORT_SLEEP (R105, R317 to R321) -/

/-- A virtual output queue toward the port holds flits (R317). -/
def State.voqHolds (s : State) (n : Nat) : Bool :=
  s.sw.frames.any fun q => q.outLp != q.inLp && (s.lpsOf n).contains q.outLp

/-- Ask the partner to sleep (1) or wake (0) its TX; the request wakes the module's own TX (R318, R321). -/
def State.askSleep (s : State) (n action : Nat) : State :=
  ((s.updPort n fun p => { p with sleepOut := p.sleepOut ++ [action] }).flushSleepOut n).autoWake n

/-- PORT_SLEEP, action sleep (R317, R321). -/
def execPortSleep (c : Cmd) (port : Byte) (dirs : Byte) (s : State) : Out :=
  let n := port.toNat
  let d := dirs.toNat
  let p := s.port n
  let bad := !p.allUp || (bitAt d 0 && s.voqHolds n)
  let t := s.defer c 0x0302 (.sleep n d false s.beat.count)
  let t := if bitAt d 1 && !p.rxAsleep then t.askSleep n 1 else t
  let q := t.port n
  let t := if bitAt d 0 && (!q.txAsleep || q.txWaking != 0) then t.updPort n fun p => { p with txSleeping := true } else t
  s.opcode (.portSleep c port dirs) c 0x0302
    (s.gate c 0x0302 (firstGate [s.portGate n, stateGate bad]) (t.sleepCheck n))

/-- PORT_SLEEP, action wake (R319, R321). -/
def execPortWake (c : Cmd) (port : Byte) (dirs : Byte) (s : State) : Out :=
  let n := port.toNat
  let d := dirs.toNat
  let p := s.port n
  let t := if bitAt d 0 then (s.abandonSleep n).startWake n else s
  let t := t.defer c 0x0302 (.sleep n d true s.beat.count)
  let t := if bitAt d 1 && p.rxAsleep then t.askSleep n 0 else t
  s.opcode (.portWake c port dirs) c 0x0302
    (s.gate c 0x0302 (firstGate [s.portGate n, stateGate (!p.allUp)]) (t.sleepCheck n))

/-! ## EYE_SCAN and EQ_OVERRIDE (R313 to R316) -/

/-- Eye scans that run in the module (R315). -/
def State.scansRun (s : State) : Nat := (s.ports.map fun e => e.2.scans.length).sum

/-- EYE_SCAN begins (R314, R315). -/
def execEyeScan (c : Cmd) (port : Byte) (lane : Byte) (hSteps : Byte) (vSteps : Byte) (dwell : Byte) (s : State) : Out :=
  let n := port.toNat
  let k := lane.toNat
  let p := s.port n
  let bad := !p.lanePowered false k || (k == 8 && p.rxSp == 9) || p.rxAsleep || p.scans.contains k || 16 ≤ s.scansRun
  let t := s.updPort n fun p => { p with scans := p.scans ++ [k] }
  s.opcode (.eyeScan c port lane hSteps vSteps dwell) c 0x0304
    (s.gate c 0x0304 (firstGate [s.portGate n, stateGate bad])
      (t.defer c 0x0304 (.eyeScan n k hSteps.toNat vSteps.toNat dwell.toNat)))

/-- EYE_SCAN_COMPLETE (R314): the counts of the grid, row by row. -/
def execEyeScanComplete (port : Port) (lane : Lane) (counts : List (BitVec 16)) (s : State) : Out :=
  let n := port.val
  let mine (w : Work) : Bool := match w with
    | .eyeScan p l h v _ => p == n && l == lane.val && counts.length == h * v
    | _ => false
  if s.live ∧ s.mgmt.deferred.any (fun d => mine d.work) then
    .next ((s.updPort n fun p => { p with scans := p.scans.filter fun l => l != lane.val }).finishWork mine stOk 0
      (counts.map fun x => leBytes 2 x.toNat).flatten)
  else .next s

/-- EQ_OVERRIDE (R105, R313); the fixed equaliser of RX.CK takes no code (R309; log entry 41). -/
def execEqOverride (c : Cmd) (port : Byte) (lane : Byte) (ctle : Byte) (s : State) : Out :=
  let n := port.toNat
  let p := s.port n
  let carrying := p.rxSp != 15 || (match p.rxJob with | some j => j.doubled | none => false)
  let bad := p.enabled && !(lane == 8 && !carrying)
  let code : Option (BitVec 5) := if ctle = 0xFF then none else some (ctle.truncate 5)
  let t := if lane = 9 then s else s.updPort n fun p => p.setLane lane.toNat { p.lane lane.toNat with ctle := code }
  s.opcode (.eqOverride c port lane ctle) c 0x0305
    (s.gate c 0x0305 (firstGate [s.portGate n, stateGate bad]) (t.ok c 0x0305 []))

/-! ## SPARE_SWAP and SPARE_RESTORE (R105, R353) -/

/-- DIR of a spare command (R104). -/
def dirOf (b : Byte) : Dir := if b = 0 then .tx else .rx

/-- A spare command starts, or waits for a change of its direction to end (R353; log entry 41). -/
def State.startSpare (s : State) (c : Cmd) (op : BitVec 16) (n : Nat) (d : Dir) (lane : Nat) (restore : Bool) : State :=
  let t := s.defer c op (.spare n d lane restore)
  if (s.port n).jobRuns d then t else t.goSpare n d lane restore

/-- SPARE_SWAP (R105, R353). -/
def execSpareSwap (c : Cmd) (port : Byte) (dir : Byte) (lane : Byte) (s : State) : Out :=
  let n := port.toNat
  let d := dirOf dir
  s.opcode (.spareSwap c port dir lane) c 0x0306
    (s.gate c 0x0306 (firstGate [s.portGate n, stateGate (s.spareBad n d lane.toNat false)])
      (s.startSpare c 0x0306 n d lane.toNat false))

/-- SPARE_RESTORE (R105, R353). -/
def execSpareRestore (c : Cmd) (port : Byte) (dir : Byte) (lane : Byte) (s : State) : Out :=
  let n := port.toNat
  let d := dirOf dir
  s.opcode (.spareRestore c port dir lane) c 0x0307
    (s.gate c 0x0307 (firstGate [s.portGate n, stateGate (s.spareBad n d lane.toNat true)])
      (s.startSpare c 0x0307 n d lane.toNat true))

/-! ## The cartridge bus (R104, R433, R436) -/

/-- The work belongs to a cartridge bus. -/
def Work.onBus (w : Work) (bus : Nat) : Bool := match w with | .cart b _ _ _ _ _ _ => b == bus | _ => false

/-- What a transfer puts on its bus: the page select, then the access (R434, R436). -/
def State.busAccess (s : State) : Work → State
  | .cart bus dev page off count write data =>
    let s := if page = 0xFF then s else s.emit (.mmbWrite bus dev 0x7F (BitVec.ofNat 8 page))
    if write then (List.range data.length).foldl (fun (s : State) k => s.emit (.mmbWrite bus dev (off + k) (byteAt data k))) s
    else s.emit (.mmbRead bus dev page off count)
  | _ => s

/-- A training attempt of a port of the bus waits for identity reads or re-timer writes (R435, R436). -/
def State.identityWaits (s : State) (bus : Nat) : Bool :=
  (List.range 8).any fun k => let p := s.port (8 * bus + k); p.sides.any fun sd => (p.stripe sd).readOwed || (p.stripe sd).rtOwed

/-- The first deferred transfer of a bus is marked as served. -/
def markServed (bus : Nat) : List Deferred → List Deferred
  | [] => []
  | d :: l => if d.work.onBus bus then { d with served := true } :: l else d :: markServed bus l

/-- The oldest transfer of a bus is put on it, unless one is on it already or identity work comes before it (R436; log entry 67). -/
def State.serveCart (s : State) (bus : Nat) : State :=
  match s.mgmt.deferred.find? fun d => d.work.onBus bus with
  | some d =>
    if d.served || s.identityWaits bus then s
    else { s with mgmt := { s.mgmt with deferred := markServed bus s.mgmt.deferred } }.busAccess d.work
  | none => s

/-- A transfer joins its bus (R436). -/
def State.startCart (s : State) (c : Cmd) (op : BitVec 16) (bus : Nat) (w : Work) : State := (s.defer c op w).serveCart bus

/-- The oldest transfer of a bus ends, and the next one is served (R436). -/
def State.endCart (s : State) (bus : Nat) (st : BitVec 8) (data : Bytes) : State :=
  (s.finishWork (fun w => w.onBus bus) st 0 data).serveCart bus

/-- CART_READ begins (R104, R436). -/
def execCartRead (c : Cmd) (bus : Byte) (dev : Byte) (page : Byte) (offset : BitVec 16) (count : BitVec 16) (s : State) :
    Out :=
  let w := Work.cart bus.toNat dev.toNat page.toNat offset.toNat count.toNat false []
  s.opcode (.cartRead c bus dev page offset count) c 0x0310
    (s.gate c 0x0310 (stateGate (!(s.mmb bus.toNat).seated)) (s.startCart c 0x0310 bus.toNat w))

/-- CART_WRITE begins (R104, R391, R436). -/
def execCartWrite (c : Cmd) (bus : Byte) (dev : Byte) (page : Byte) (offset : BitVec 16) (count : BitVec 16) (data : Bytes)
    (s : State) : Out :=
  let w := Work.cart bus.toNat dev.toNat page.toNat offset.toNat count.toNat true data
  let tested := (List.range 8).any fun k => s.underTest (8 * bus.toNat + k)
  s.opcode (.cartWrite c bus dev page offset count data) c 0x0311
    (s.gate c 0x0311 (firstGate [stateGate (!(s.mmb bus.toNat).seated), unitGate false tested])
      (s.startCart c 0x0311 bus.toNat w))

/-- CART_TRANSFER_DONE (R433, R436, R440): the oldest CART_READ or CART_WRITE of the bus ends; one that is not acknowledged
answers DENIED_STATE. -/
def execCartTransferDone (bus : Fin 8) (acked : Bool) (data : Bytes) (s : State) : Out :=
  let b := bus.val
  let m := s.mmb b
  match s.mgmt.deferred.find? fun d => d.work.onBus b with
  | none => .next s
  | some d =>
    let want := match d.work with | .cart _ _ _ _ n write _ => if write then 0 else n | _ => 0
    if !s.live || !d.served then .next s
    else if !acked then .next ((s.setMmb b { m with naks := satAdd 0xFFFF m.naks 1, timeouts := 0 }).endCart b stDeniedState [])
    else if data.length ≠ want then .next s
    else .next ((s.setMmb b { m with transfers := satAdd 0xFFFF m.transfers 1, timeouts := 0 }).endCart b stOk data)

end Sys2Proof.Machine
end

