-- ==== Sys2Proof/Machine/Cartridges.lean ====
section
/-! DEFINITION. Cartridges and their buses (R433 to R436, R440): presence, cable identity and re-timers. -/

namespace Sys2Proof.Machine

/-- CART_PRES_CHANGE (R341, R433). -/
def execCartPresChange (bus : Fin 8) (seated : Bool) (s : State) : Out :=
  if !s.live then .next s else .next (s.setPresence bus.val { s.mmb bus.val with seated := seated })

/-- A read of CABLES ends: with the byte, or not acknowledged (R433, R440). -/
def State.cablesRead (s : State) (bus : Nat) : Option Byte → State
  | some v =>
    let m := s.mmb bus
    s.setPresence bus { m with cables := v, transfers := satAdd 0xFFFF m.transfers 1, timeouts := 0 }
  | none => s.setMmb bus { s.mmb bus with naks := satAdd 0xFFFF (s.mmb bus).naks 1, timeouts := 0 }

/-- The module reads CABLES: page 0, byte 3 of the identity memory (R434). -/
def State.readCables (s : State) (bus : Nat) (cables : Option Byte) : State :=
  ((s.emit (.mmbWrite bus 0x50 0x7F 0)).emit (.mmbRead bus 0x50 0 3 1)).cablesRead bus cables

/-- MMB_INT (R433). -/
def execMmbInt (bus : Fin 8) (cables : Option Byte) (s : State) : Out :=
  let m := s.mmb bus.val
  if s.live && m.seated && !m.busFault then .next (s.readCables bus.val cables) else .next s

/-- PRESENCE_POLL (R433). -/
def execPresencePoll (bus : Fin 8) (cables : Option Byte) (s : State) : Out :=
  let m := s.mmb bus.val
  if s.live && m.seated && !m.busFault then .next (s.readCables bus.val cables) else .next s

/-- MMB_RETRY (R433): the bus of a BUS_FAULT is tried again; the flag waits for software (W1C). -/
def execMmbRetry (bus : Fin 8) (cables : Option Byte) (s : State) : Out :=
  let m := s.mmb bus.val
  if s.live && m.seated && m.busFault then .next (s.readCables bus.val cables) else .next s

/-- MMB_TRANSFER_TIMEOUT (R433): nine clock pulses and a stop; the third in a row sets BUS_FAULT. A CART_READ or CART_WRITE that
is in service on the bus is the transfer that ends (log entry 26). -/
def execMmbTransferTimeout (bus : Fin 8) (s : State) : Out :=
  let b := bus.val
  if !s.live then .next s
  else
    let m := s.mmb b
    let n := satAdd 3 m.timeouts 1
    let t := (s.emit (.mmbClear b)).setPresence b { m with timeouts := n, busFault := m.busFault || n == 3 }
    .next (if t.mgmt.deferred.any fun d => d.served && d.work.onBus b then t.endCart b stDeniedState [] else t)

/-! ## Re-timers (R435) -/

/-- RT_FAULT of a bus is set (R431, R435). -/
def State.retimerFault (s : State) (bus : Nat) : State :=
  (s.setMmb bus { s.mmb bus with rtFault := true }).attend 0x80

/-- A transfer of a bus ended (R440). -/
def State.countTransfer (s : State) (bus : Nat) (acked : Bool) : State :=
  let m := s.mmb bus
  s.setMmb bus (if acked then { m with transfers := satAdd 0xFFFF m.transfers 1, timeouts := 0 }
    else { m with naks := satAdd 0xFFFF m.naks 1, timeouts := 0 })

/-- The status of re-timer k of a port: one that cannot be reached, or is not healthy, sets RT_FAULT (R435). -/
def State.pollRetimer (s : State) (bus : Nat) (page : Bytes) (k : Nat) (status : Option Byte) : State :=
  let s := s.emit (.mmbRead bus (byteField page (4 + k) 1) 0xFF (byteField page 8 1) 1)
  match status with
  | none => (s.countTransfer bus false).retimerFault bus
  | some v =>
    let s := s.countTransfer bus true
    if v &&& byteAt page 9 = byteAt page 10 then s else s.retimerFault bus

/-- RETIMER_POLL (R435). -/
def execRetimerPoll (port : Port) (statuses : List (Option Byte)) (s : State) : Out :=
  let n := port.val
  if !s.live || !(s.port n).anyUp then .next s
  else match (s.port n).retimers with
    | none => .next s
    | some (page, count) =>
      .next ((List.range count).foldl (fun (s : State) k => s.pollRetimer (n / 8) page k (statuses.getD k none)) s)

/-! ## Identity (R312, R434, R435) -/

/-- The CRC of page 0 covers bytes 0 to 2 and 4 to 29 (R434). -/
def page0Crc (b : Bytes) : Bool := byteField b 30 2 == crc16 (slice b 0 3 ++ slice b 4 26)
/-- The CRC of a cable page covers bytes 0 to 29 (R434). -/
def cableCrc (b : Bytes) : Bool := byteField b 30 2 == crc16 (slice b 0 30)

/-- The identity of a cable is valid (R434). -/
def identityValid (page0 page : Bytes) : Bool :=
  page0Crc page0 && byteField page0 0 2 == 0x4B43 && byteField page0 2 1 == 1 && cableCrc page
    && decide (1 ≤ byteField page 0 1) && decide (byteField page 0 1 ≤ 3)

/-- What a port looks up from the pages read: the identity, or none (R312, R323). -/
def PortSt.identity (p : PortSt) : Option Bytes → PortSt
  | some b => { p with
      cartMedia := byteField b 0 1, cartClass := byteField b 1 1, cartLen := byteField b 2 1, cartValid := true
      cable := some b }
  | none => { p with cartMedia := 0, cartClass := 0, cartLen := 0, cartValid := false, cable := none }

/-- One page of the identity memory is read (R434, R440). -/
def State.readPage (s : State) (bus page : Nat) (b : Option Bytes) : State :=
  ((s.emit (.mmbWrite bus 0x50 0x7F (BitVec.ofNat 8 page))).emit (.mmbRead bus 0x50 page 0 32)).countTransfer bus b.isSome

/-- Page 0 has been read: ID_VALID and the live CABLES byte follow (R434, R440). -/
def State.page0Read (s : State) (bus : Nat) : Option Bytes → State
  | some b => s.setPresence bus { s.mmb bus with idValid := page0Crc b, cables := byteAt b 3 }
  | none => s.setMmb bus { s.mmb bus with idValid := false }

/-- Restart re-timer k before SEND (R435). -/
def State.restartRetimer (s : State) (bus : Nat) (page : Bytes) (k : Nat) (acked : Bool) : State :=
  let s := s.emit (.mmbWrite bus (byteField page (4 + k) 1) (byteField page 6 1) (byteAt page 7))
  let s := s.countTransfer bus acked
  if acked then s else s.retimerFault bus

/-- Page 0 and the cable's page of a port are read, and its identity follows (R312, R434). -/
def State.readIdentity (s : State) (port : Nat) (page0 page : Option Bytes) : State :=
  let bus := port / 8
  let s := ((s.readPage bus 0 page0).page0Read bus page0).readPage bus (port % 8 + 1) page
  let ident : Option Bytes := match page0, page with
    | some a, some b => if identityValid a b then some b else none
    | _, _ => none
  s.updPort port fun p => p.identity ident

/-- The re-timers of a port are restarted; `acks` are their acknowledgements (R435). -/
def State.restartRetimers (s : State) (port : Nat) (acks : List Bool) : State :=
  match (s.port port).retimers with
  | none => s
  | some (b, count) => (List.range count).foldl (fun (s : State) k => s.restartRetimer (port / 8) b k (acks.getD k false)) s

/-- A stripe can start an attempt that has the identity pages read again first (R435). -/
def Stripe.starts (x : Stripe) : Bool := x.st == .disabled || x.st == .absent || x.st == .backoff

/-- The bus work of R435 is done for a stripe: an attempt that waited for it begins to send, with the preset that the pages read
select; one that has not started yet needs no other read (log entry 66). -/
def State.attemptReady (s : State) (port : Nat) (read : Bool) (sd : Side) : State :=
  let x := (s.port port).stripe sd
  if x.readOwed || x.rtOwed then
    let s := s.updStripe port sd fun x => { x with readOwed := false, rtOwed := false }
    (if read then s.latchPreset port else s).sendTraining port sd
  else if x.starts then s.updStripe port sd fun x => { x with identFresh := true }
  else s

/-- CART_IDENTITY_READ (R312, R434 to R436): before SEND of an attempt the pages are read, when it starts from DISABLED, ABSENT or
BACKOFF, and the re-timers of an ACTIVE medium are restarted; then the transfers that waited for the bus are served. -/
def execCartIdentityRead (port : Port) (page0 : Option Bytes) (page : Option Bytes) (acks : List Bool) (s : State) : Out :=
  let n := port.val
  let p := s.port n
  let read := p.sides.any fun sd => (p.stripe sd).readOwed || (p.stripe sd).starts
  let write := p.sides.any fun sd => (p.stripe sd).rtOwed
  if !s.live || !(read || write) || !(s.mmb (n / 8)).seated then .next s
  else
    let s := (if read then s.readIdentity n page0 page else s).restartRetimers n acks
    .next ((p.sides.foldl (fun (s : State) sd => s.attemptReady n read sd) s).serveCart (n / 8))

end Sys2Proof.Machine
end

