-- ==== Sys2Proof/Machine/Collectives.lean ====
section
/-! DEFINITION. The collective engine: descriptors (R233, R235), contributions (R264, R270, R271), results and commits (R271,
R276), damage (R277), abort acknowledgements (R283), beat-synchronous release (R286) and stalls (R287). -/

namespace Sys2Proof.Machine

/-- The epoch R223 expects next. -/
def Session.nextEpoch (x : Session) : BitVec 32 := x.epoch + 1

/-- The session's member on an LP that discards frames after an abort (R281). -/
def Session.discards (x : Session) (lp : Nat) : Bool :=
  x.st == .aborted && x.roster.any fun m => m.lp == lp && !m.acked

/-- A reference descriptor is accepted (R235, R269); D = 0 aborts with QUOTA. -/
def State.beginEpoch (s : State) (sid lp : Nat) (b : Bytes) : State :=
  let x := s.session sid
  let d := parseDesc b
  let n := x.roster.length
  let (need, retain, depth) := dreyPlan s.coll.retain x.quota n d
  let start (m : Member) : Member :=
    let r := contribRange d n (rankOf x.roster m.lp) m.lp
    { m with
      accepted := m.lp == lp, nextChunk := r.1 / 2 ^ d.ceLog2, nextContrib := 0, nextOffset := 0
      finished := decide (r.2 ≤ r.1), acked := false, got := [] }
  let s := s.setSession sid { x with
    st := if n = 1 then .running else .gathering
    epoch := d.epoch, descSeen := 1, refLp := lp, refValid := true, refHash := descHash b, epochFlags := 0
    desc := some d, chunks := [], low := 0, depth := depth, need := need, retain := retain, barrierWaits := false
    lastAccept := s.beat.localBeats, roster := x.roster.map start }
  let s := s.countGlobal 0x3001 none none 1
  if d.op ≠ 6 ∧ depth = 0 then s.abortEpoch sid 6 none else s

/-- A BARRIER whose descriptors have all matched ends, at once or at its release (R226, R271, R286). -/
def State.barrierCheck (s : State) (sid : Nat) : State :=
  let x := s.session sid
  match x.desc with
  | some d =>
    if x.st = .running ∧ d.op = 6 then
      (if x.beatSync then s.setSession sid { x with barrierWaits := true } else s.endEpoch sid)
    else s
  | none => s

/-- A descriptor frame at the head of its flow (R233, R235): none while it waits for the current epoch to end (R224). The flow of a
member is that of the descriptor that is accepted from it, or of the last one while none is (R235, R266). -/
def State.takeDesc (s : State) (lp : Nat) (foreign : Bool) (f : InFrame) : Option State :=
  let sid := frameSid f
  let x := s.session sid
  let b := frameData f
  let epoch := BitVec.ofNat 32 (byteField b 12 4)
  if s.isForeign foreign f then some (s.foreignMarker lp f)
  else if x.st = .free ∨ x.st = .closing ∨ bitAt x.members.toNat lp = false ∨ descHdrOk f = false ∨ x.discards lp = true then
    some (s.dropColl lp f)
  else if (x.current ∨ x.st = .aborted) ∧ epoch = x.nextEpoch ∧ descMalformed x.members.toNat b = false then none
  else
    let s := (s.freeFrame lp f).setSession sid { x with
      roster := updMember x.roster lp fun m =>
        if m.accepted then m else { m with known := true, src := f.hdr.src, dest := f.hdr.dest, tc := f.hdr.tc.toNat } }
    let x := s.session sid
    some (
      if descMalformed x.members.toNat b then s.abortEpoch sid 1 (some lp)
      else if epoch ≠ (if x.current then x.epoch else x.nextEpoch) then s.abortEpoch sid 2 (some lp)
      else if !x.current then (s.beginEpoch sid lp b).barrierCheck sid
      else if descHash b ≠ x.refHash then s.abortEpoch sid 0x40 (some lp)
      else if x.roster.any fun m => m.lp == lp && m.accepted then s.countDiscard
      else
        let seen := x.descSeen + 1
        ((s.setSession sid { x with
          descSeen := seen, st := if seen = x.roster.length then .running else x.st, lastAccept := s.beat.localBeats
          roster := updMember x.roster lp fun m => { m with accepted := true } }).countGlobal 0x3001 none none 1).barrierCheck sid)

/-- The next frame of a member after one of n data bytes in a portion of p bytes (R263). -/
def Member.advance (m : Member) (d : Desc) (range : Nat × Nat) (n p : Nat) : Member :=
  if m.nextOffset + n < p then { m with nextOffset := m.nextOffset + n }
  else if m.nextContrib + 1 < d.cpm then { m with nextOffset := 0, nextContrib := m.nextContrib + 1 }
  else
    { m with
      nextOffset := 0, nextContrib := 0, nextChunk := m.nextChunk + 1
      finished := decide (range.2 ≤ chunkLo d (m.nextChunk + 1)) }

/-- The open chunks once chunk c is open: those before it open first (R271). -/
def Session.openTo (x : Session) (c : Nat) : List Chunk :=
  let next := match x.chunks.getLast? with | some y => y.num + 1 | none => x.low
  x.chunks ++ (List.range (c + 1 - next)).map fun k => newChunk (next + k) x.beatSync

/-- Add an accepted COLL_DATA frame to its chunk, opened when need be (R270, R271). -/
def State.addData (s : State) (sid lp : Nat) (d : Desc) (m : Member) (f : InFrame) (p : Nat) : State :=
  let x := s.session sid
  let range := contribRange d x.roster.length (rankOf x.roster lp) lp
  let data := frameData f
  let c := m.nextChunk
  let last := byteField f.content 1 1 == 1
  let s := s.setSession sid { x with
    chunks := (x.openTo c).map fun y => if y.num == c then y.take d x.roster lp m.nextContrib x.retain data last else y
    lastAccept := s.beat.localBeats
    roster := updMember x.roster lp fun m => m.advance d range data.length p }
  let s := s.countGlobal 0x3002 none none 1
  if reduces d then countPasses (groupsAdded d c m.nextOffset (m.nextOffset + data.length) last) 0x3101 1 sid c s else s

/-- A COLL_DATA frame at the head of its flow (R264, R270, R271): none while it waits at the entry for its chunk to open, for
staging room, or for a cluster. -/
def State.takeData (s : State) (lp : Nat) (foreign : Bool) (f : InFrame) : Option State :=
  let sid := frameSid f
  let x := s.session sid
  let epoch := BitVec.ofNat 32 (byteField f.content 8 4)
  let data := frameData f
  let inEpoch := x.current || x.st == .closing
  if s.isForeign foreign f then some (s.foreignMarker lp f)
  else if x.st = .free ∨ bitAt x.members.toNat lp = false ∨ dataHdrOk f = false ∨ x.discards lp = true then
    some (s.dropColl lp f)
  else if (x.epoch - epoch).toNat < 2 ^ 31 ∧ (epoch ≠ x.epoch ∨ inEpoch = false) then some (s.dropColl lp f)
  else match x.roster.find? (fun m => m.lp == lp), x.desc with
    | some m, some d =>
      if inEpoch = false ∨ epoch ≠ x.epoch ∨ m.accepted = false then some ((s.freeFrame lp f).abortEpoch sid 3 (some lp))
      else if x.st = .closing ∧ x.low ≤ byteField f.content 12 4
          ∧ (x.chunks.any fun c => c.num == byteField f.content 12 4) = false then some (s.dropColl lp f)
      else
        let range := contribRange d x.roster.length (rankOf x.roster lp) lp
        let r := inChunk d m.nextChunk range
        let p := portionBytes d.inFmt (r.2 - r.1)
        let size := min 4096 (p - m.nextOffset)
        if m.finished ∨ m.dest ≠ f.hdr.dest ∨ m.tc ≠ f.hdr.tc.toNat ∨ byteField f.content 12 4 ≠ m.nextChunk ∨ byteField f.content 6 1 ≠ m.nextContrib
            ∨ byteField f.content 16 4 ≠ m.nextOffset ∨ data.length ≠ size
            ∨ byteField f.content 1 1 ≠ b2n (decide (m.nextOffset + size = p)) then
          some ((s.freeFrame lp f).abortEpoch sid 4 (some lp))
        else if x.low + x.depth ≤ m.nextChunk ∨ s.stageLeft < 4 ∨ (reduces d ∧ s.clusters = []) then none
        else some ((s.freeFrame lp f).addData sid lp d m f p)
    | _, _ => some ((s.freeFrame lp f).abortEpoch sid 3 (some lp))

/-- An ABORT_ACK (R283); a COLL_CTRL frame of another kind is discarded (R274). -/
def State.takeAck (s : State) (lp : Nat) (f : InFrame) : State :=
  let sid := frameSid f
  let x := s.session sid
  let c := frameBytes f
  if byteField c 0 1 ≠ 0x20 then s.dropColl lp f
  else
    let s := s.freeFrame lp f
    let fields := hdrThl f.hdr == 32 && c.length == 32 && byteField c 1 1 < 2 && byteField c 3 1 < 16
      && frameFabric f == s.side.fabricId.toNat && byteField c 7 1 == 0 && byteField c 30 2 == 0
    let flowOk (m : Member) := !m.known || (m.dest == f.hdr.dest && m.tc == f.hdr.tc.toNat)
    let good := x.st == .aborted && fields && byteField c 8 4 == x.epoch.toNat
      && x.roster.any fun m => m.lp == lp && !m.acked && flowOk m
    if !good then { s with coll := { s.coll with badAcks := satAdd 0xFFFF s.coll.badAcks 1 } }
    else
      let roster := updMember x.roster lp fun m => { m with acked := true }
      s.setSession sid { x with roster := roster, st := if roster.all fun m => m.acked then .idle else .aborted }

/-- A frame at the head of its flow, by its type. -/
def State.takeColl (s : State) (lp : Nat) (foreign : Bool) (f : InFrame) : Option State :=
  if f.hdr.ftype = 3 then s.takeDesc lp foreign f
  else if f.hdr.ftype = 4 then s.takeData lp foreign f
  else some (s.takeAck lp f)

/-- A frame arrives at the engine: behind a frame of its flow that waits, or taken, or waiting (R224, R270). -/
def State.collArrive (s : State) (x : Diverted) : State :=
  let wait (s : State) : State := { s with coll := { s.coll with entry := s.coll.entry ++ [x] } }
  if s.coll.entry.any (sameFlow x.lp x.frame.hdr) then wait s
  else match s.takeColl x.lp x.foreign x.frame with
    | some s' => s'
    | none => wait s

/-- A collective frame is given to the engine (R123, R131). -/
def State.collGiven (s : State) (lp : Nat) (foreign : Bool) (f : InFrame) : State :=
  match s.claim lp foreign f with
  | (s, none) => s
  | (s, some x) => s.collArrive x

/-- The engine takes frames: it is neither in reset nor without central logic (R376, R391). -/
def State.collRuns (s : State) : Bool := s.live && !s.collInReset && !s.underTest 94

/-- COLL_DESC_RECEIVED (R233, R235, R275). -/
def execCollDescReceived (lp : Lp) (foreign : Bool) (frame : InFrame) (s : State) : Out :=
  if !s.collRuns || frame.hdr.ftype != 3 || !frameGiven frame then .next s
  else .next (s.collGiven lp.val foreign frame)

/-- COLL_DATA_RECEIVED (R264, R271, R275). -/
def execCollDataReceived (lp : Lp) (foreign : Bool) (frame : InFrame) (s : State) : Out :=
  if !s.collRuns || frame.hdr.ftype != 4 || !frameGiven frame then .next s
  else .next (s.collGiven lp.val foreign frame)

/-- ABORT_ACK_RECEIVED (R283). -/
def execAbortAckReceived (lp : Lp) (foreign : Bool) (frame : InFrame) (s : State) : Out :=
  if !s.collRuns || frame.hdr.ftype != 6 || !frameGiven frame then .next s
  else .next (s.collGiven lp.val foreign frame)

/-- The waiting frames that head their flows (R224, R270). -/
def State.entryHeads (s : State) : List Diverted :=
  s.coll.entry.filter fun x => decide (s.coll.entry.find? (sameFlow x.lp x.frame.hdr) = some x)

/-- Take a frame that waits at the entry, if it may be taken now. -/
def State.admitEntry (s : State) (x : Diverted) : Option State :=
  if s.coll.entry.contains x then
    { s with coll := { s.coll with entry := dropFirst (fun y => decide (y = x)) s.coll.entry } }.takeColl x.lp x.foreign x.frame
  else none

/-- Take the first frame of a list that may be taken; a frame that waits holds back its own flow only (R224). -/
def State.admitFirst (s : State) : List Diverted → State
  | [] => s
  | x :: l => match s.admitEntry x with
    | some t => t
    | none => s.admitFirst l

/-- COLL_ENTRY_ADMIT (R270, R271): the first frame of the LP that heads its flow at the entry and may be admitted is. -/
def execCollEntryAdmit (lp : Lp) (s : State) : Out :=
  if !s.collRuns then .next s else .next (s.admitFirst (s.entryHeads.filter fun x => x.lp == lp.val))

/-- NEXT_EPOCH_DESC_TAKE_UP (R224): after the epoch has ended, the waiting descriptors of the session are taken up. -/
def execNextEpochDescTakeUp (sid : Fin 4096) (s : State) : Out :=
  if !s.collRuns || (s.session sid.val).st != .idle then .next s
  else
    let l := s.entryHeads.filter fun x => x.frame.hdr.ftype == 3 && frameSid x.frame == sid.val
    .next (l.foldl (fun s x => (s.admitEntry x).getD s) s)

/-- CHUNK_FINISH (R237, R271): a complete and released chunk whose predecessors are finished is converted and its results queued, once
every descriptor of the epoch has been compared. -/
def execChunkFinish (sid : Fin 4096) (chunk : BitVec 32) (s : State) : Out :=
  let x := s.session sid.val
  if !s.collRuns || !(x.current || x.st == .closing) then .next s
  else match x.chunks.find? fun c => c.num == chunk.toNat with
    | none => .next s
    | some ch =>
      if ch.complete && ch.released && !ch.finished && x.descSeen == x.roster.length && (x.chunks.all fun c => chunk.toNat ≤ c.num || c.finished) then
        .next (s.finishChunk sid.val ch)
      else .next s

/-- Take the oldest result frame of an LP that awaits its CRC report. -/
def State.takeChecking (s : State) (lp : Nat) : Option (AgentFrame × State) :=
  match s.sw.checking.find? fun a => a.lp == lp with
  | none => none
  | some a =>
    some (a, { s with sw := { s.sw with checking := dropFirst (fun b : AgentFrame => b.lp == lp) s.sw.checking } })

/-- The session still runs the epoch and chunk of a result frame. -/
def State.resultChunk (s : State) (a : AgentFrame) : Option Chunk :=
  let x := s.session a.sid
  if (x.current || x.st == .closing) && decide (x.epoch = a.epoch) then x.chunks.find? fun c => c.num == a.chunk else none

/-- RESULT_FRAME_PASSED (R271): the last flit of a result frame has left unstomped. -/
def execResultFramePassed (lp : Lp) (s : State) : Out :=
  if !s.live then .next s
  else match s.takeChecking lp.val with
    | none => .next s
    | some (a, s) =>
      let s := s.sentWhole a.lp a.hdr a.content
      match s.resultChunk a with
      | none => .next s
      | some ch =>
        let x := s.session a.sid
        .next (s.setSession a.sid { x with
          chunks := x.chunks.map fun c => if c.num == ch.num then { c with toPass := c.toPass - 1 } else c
          roster := updMember x.roster a.lp fun m => { m with got := addSorted m.got a.chunk } })

/-- Change the element that is k-th from the end among those that satisfy p. -/
def updFromEnd {α : Type} (p : α → Bool) (f : α → α) (k : Nat) (l : List α) : List α :=
  let after (i : Nat) := ((l.drop (i + 1)).filter p).length
  ((List.range l.length).zip l).map fun y => if p y.2 && after y.1 == k then f y.2 else y.2

/-- The header of the last flit of a result frame (R122). -/
def resultEnd (h : Hdr) : Bool := h.ftype == 5 && (h.pos == 0 || h.pos == 3)

/-- Stomp the last flit of the k-th latest result frame that an LP has sent, in the replay buffer and, if it still waits there, at the
lanes (R125, R276). -/
def Stripe.stompResult (x : Stripe) (k : Nat) : Stripe :=
  let bad (h : Hdr) : Hdr := { h with stomp := 0xB }
  { x with
    replay := updFromEnd (fun f : TxFlit => resultEnd f.hdr && !f.stomped)
      (fun f => { f with stomped := true, hdr := bad f.hdr }) k x.replay
    txLine := updFromEnd (fun i : LineItem => match i with | .flit f => resultEnd (flitHdr f) && decide (checkFlit f = .good) | _ => false)
      (fun i => match i with | .flit f => .flit (wireFlit (bad (flitHdr f)) (flitPayload f) true) | y => y) k x.txLine }

/-- RESULT_RESEND (R276): the frame failed its check as it left; it is stomped with BUFFER_ECC and sent again ahead of the
later frames of its port, or the epoch aborts at the fourth failure. -/
def execResultResend (lp : Lp) (s : State) : Out :=
  if !s.live then .next s
  else match s.takeChecking lp.val with
    | none => .next s
    | some (a, s) =>
      let later := (s.sw.checking.filter fun b => b.lp == lp.val).length
      let s := s.setLpStripe lp.val ((s.lpStripe lp.val).stompResult later)
      let s := s.emit (.stomped a.lp a.hdr a.content 0xB)
      let s := { s with sw := { s.sw with stomped := satAdd (2 ^ 48 - 1) s.sw.stomped 1 } }
      let s := (s.countLp lp.val 0x0109 (some a.hdr.tc.toNat) (some 0xB) 1).countSlots lp.val 0x0202 (some 2) (hdrCount a.hdr)
      match s.resultChunk a with
      | none => .next s
      | some _ =>
        if 4 ≤ a.fails + 1 then .next (s.abortEpoch a.sid 8 (some lp.val))
        else
          let again := { a with
            fails := a.fails + 1, content := patch a.content 1 [byteAt a.content 1 ||| 2] }
          let s := { s with coll := { s.coll with resends := satAdd 0xFFFF s.coll.resends 1 } }
          let before := s.sw.agentOut.takeWhile fun f => !(f.lp == lp.val && f.agent == 1)
          .next { s with sw := { s.sw with agentOut := before ++ [again] ++ s.sw.agentOut.drop before.length } }

/-- CHUNK_COMMIT (R159, R271): all result frames of the lowest chunk have passed. -/
def execChunkCommit (sid : Fin 4096) (chunk : BitVec 32) (s : State) : Out :=
  let x := s.session sid.val
  if !s.collRuns || !(x.current || x.st == .closing) || x.low != chunk.toNat then .next s
  else match x.chunks.find? fun c => c.num == chunk.toNat with
    | none => .next s
    | some ch => if ch.finished && ch.toPass == 0 then .next (s.commitChunk sid.val ch) else .next s

/-- SLOT_GROUP_DAMAGED (R277, R278): recomputed from the retained operands, or the epoch aborts with CHUNK_LOST. -/
def execSlotGroupDamaged (sid : Fin 4096) (chunk : BitVec 32) (group : Nat) (kind : DamageKind) (s : State) : Out :=
  if !s.collRuns then .next s else .next (s.damageGroup sid.val chunk.toNat group kind)

/-- The lowest-ranked member with a descriptor or portion outstanding, among the chunks that may be open (R279; log entry
21). -/
def Session.laggard (x : Session) : Option Nat :=
  (x.roster.find? fun m => !m.accepted || (!m.finished && decide (m.nextChunk < x.low + x.depth))).map (·.lp)

/-- STALL_TIMEOUT (R279, R287). -/
def execStallTimeout (sid : Fin 4096) (s : State) : Out :=
  let x := s.session sid.val
  if !s.collRuns || !x.current || s.coll.stallBeats == 0 then .next s
  else if x.lastAccept + s.coll.stallBeats.toNat + 1 ≤ s.beat.localBeats then .next (s.abortEpoch sid.val 9 x.laggard)
  else .next s

/-- BEAT_SYNC_RELEASE (R53, R286): at step 6 of a boundary, once nothing of step 5 is left. -/
def execBeatSyncRelease (s : State) : Out :=
  if s.collRuns && s.beat.stepsDue && s.nextStep5.isNone then .next s.beatSyncRelease else .next s

end Sys2Proof.Machine
end

