-- ==== Sys2Proof/Machine/OpControl.lean ====
section
/-! DEFINITION. The opcodes of the groups 0x00 and 0x02: identity, control words, notices, beat and agenda (R56, R58, R96, R98,
R99, R102, R103). -/

namespace Sys2Proof.Machine

/-! ## 0x00xx (R98, R99) -/

/-- The data of IDENTITY_READ. -/
def State.identityData (s : State) : Bytes :=
  leBytes 2 0x6412 ++ leBytes 1 orderByte ++ leBytes 1 Config.stepping.toNat ++ leBytes 8 Config.serial.toNat
    ++ leBytes 1 s.side.chainAddr.toNat ++ zeros 1 ++ leBytes 2 s.side.fabricId.toNat ++ zeros 16

/-- IDENTITY_READ (R98). -/
def execIdentityRead (c : Cmd) (s : State) : Out := s.opcode (.identityRead c) c 0x0000 (s.ok c 0x0000 s.identityData)

/-- The addresses of a run of words. -/
def wordRun (addr count : Nat) : List Nat := (List.range count).map fun k => addr + 8 * k

/-- Read words at one instant, then clear their RC fields (R13, R465). -/
def State.readRun (s : State) (addr count : Nat) : Bytes × State :=
  (((wordRun addr count).map fun a => leBytes 8 (s.readWord a).toNat).flatten, (wordRun addr count).foldl State.clearRc s)

/-- CW_READ (R98, R465). -/
def execCwRead (c : Cmd) (addr : BitVec 32) (count : BitVec 16) (s : State) : Out :=
  let (data, t) := s.readRun addr.toNat count.toNat
  s.opcode (.cwRead c addr count) c 0x0001 (t.ok c 0x0001 data)

/-- The words of a CW_WRITE with the offsets of their values in the packet. -/
def cwWrites (addr : Nat) (values : List Word) : List WordWrite :=
  (List.range values.length).map fun k =>
    { addr := addr + 8 * k, mask := 0xFFFFFFFFFFFFFFFF, value := values.getD k 0, off := 48 + 8 * k }

/-- The agenda entries of the AGD fields of a CW_WRITE (R56, R99). -/
def agdItems (l : List WordWrite) : List StageItem :=
  (l.filter fun w => decide ((access w.addr).agd ≠ 0)).map fun w =>
    { action := 2, a := BitVec.ofNat 64 w.addr, b := w.value, entries := 0 }

/-- CW_WRITE (R14, R56, R99, R466). -/
def execCwWrite (c : Cmd) (addr : BitVec 32) (count : BitVec 16) (spec : TargetSpec) (values : List Word) (s : State) : Out :=
  let l := cwWrites addr.toNat values
  let items := agdItems l
  let why := firstGate [s.writeCheck c l, if items.isEmpty then none else s.stageCheck c spec items true]
  let t := l.foldl (fun (s : State) w => s.writeWord w.addr w.value) s
  let (t, recs) := t.stageAll c spec items
  s.opcode (.cwWrite c addr count spec values) c 0x0002
    (s.gate c 0x0002 why (t.ok c 0x0002 (leBytes 4 items.length ++ recs)))

/-- CW_MODIFY (R13, R99, R466). -/
def execCwModify (c : Cmd) (addr : BitVec 32) (mask : Word) (value : Word) (s : State) : Out :=
  let a := addr.toNat
  let v := s.merged a mask value
  let why := s.writeCheck c [{ addr := a, mask := mask, value := v, off := 48 }]
  s.opcode (.cwModify c addr mask value) c 0x0003
    (s.gate c 0x0003 why (((s.writeWord a v).clearRc a).ok c 0x0003 (leBytes 8 (s.readWord a).toNat)))

/-- A notice record (R96). -/
def noticeRecord (n : Notice) : Bytes :=
  leBytes 2 n.entry ++ leBytes 2 n.order.toNat ++ leBytes 1 n.action ++ leBytes 1 n.state ++ leBytes 2 n.status.toNat
    ++ leBytes 6 n.doneBeat.toNat ++ leBytes 2 n.detail.toNat ++ leBytes 8 n.paramA.toNat

/-- NOTICE_READ (R96, R98, R99). -/
def execNoticeRead (c : Cmd) (max : Byte) (s : State) : Out :=
  let pair := pairOf c.src c.origin
  let q := s.queue pair
  let l := q.records.take max.toNat
  let q' : NoticeQueue := { records := q.records.drop max.toNat, lost := 0 }
  let t := { s with mgmt := { s.mgmt with notices := sput s.mgmt.notices pair q' defaultQueue } }
  s.opcode (.noticeRead c max) c 0x0008
    (t.ok c 0x0008 (leBytes 1 l.length ++ leBytes 1 q.lost ++ zeros 6 ++ (l.map noticeRecord).flatten))

/-! ## 0x02xx (R58, R102, R103) -/

/-- BEAT_STATUS_READ (R102). -/
def execBeatStatusRead (c : Cmd) (s : State) : Out :=
  s.opcode (.beatStatusRead c) c 0x0200
    (s.ok c 0x0200 (leBytes 8 (s.readWord 0x010000).toNat ++ leBytes 8 (s.readWord 0x010008).toNat))

/-- Stage one entry and answer its stage record, or why not (R50, R94). -/
def State.stageReply (s : State) (c : Cmd) (op : BitVec 16) (spec : TargetSpec) (item : StageItem) : State :=
  let (t, recs) := s.stageAll c spec [item]
  s.gate c op (s.stageCheck c spec [item] true) (t.ok c op recs)

/-- BEAT_ROOT_SET (R35, R102). -/
def execBeatRootSet (c : Cmd) (root : Byte) (spec : TargetSpec) (s : State) : Out :=
  s.opcode (.beatRootSet c root spec) c 0x0201
    (s.stageReply c 0x0201 spec { action := 6, a := root.zeroExtend 64, b := 0, entries := 0 })

/-- BEAT_PERIOD_SET (R38, R102). -/
def execBeatPeriodSet (c : Cmd) (period : Byte) (spec : TargetSpec) (s : State) : Out :=
  s.opcode (.beatPeriodSet c period spec) c 0x0202
    (s.stageReply c 0x0202 spec { action := 7, a := period.zeroExtend 64, b := 0, entries := 0 })

/-- AGENDA_STAGE of CW_WRITE (R49, R102). -/
def execAgendaStageCwWrite (c : Cmd) (spec : TargetSpec) (paramA : Word) (paramB : Word) (s : State) : Out :=
  s.opcode (.agendaStageCwWrite c spec paramA paramB) c 0x0210
    (s.stageReply c 0x0210 spec { action := 2, a := paramA, b := paramB, entries := 0 })

/-- AGENDA_STAGE of POWER_STEP (R49, R102). -/
def execAgendaStagePowerStep (c : Cmd) (spec : TargetSpec) (paramA : Word) (paramB : Word) (s : State) : Out :=
  s.opcode (.agendaStagePowerStep c spec paramA paramB) c 0x0210
    (s.stageReply c 0x0210 spec { action := 3, a := paramA, b := paramB, entries := 0 })

/-- AGENDA_STAGE of BIST_STOP (R49, R102). -/
def execAgendaStageBistStop (c : Cmd) (spec : TargetSpec) (paramA : Word) (paramB : Word) (s : State) : Out :=
  s.opcode (.agendaStageBistStop c spec paramA paramB) c 0x0210
    (s.stageReply c 0x0210 spec { action := 4, a := paramA, b := paramB, entries := 0 })

/-- AGENDA_STAGE of BIST_START (R49, R102). -/
def execAgendaStageBistStart (c : Cmd) (spec : TargetSpec) (paramA : Word) (paramB : Word) (s : State) : Out :=
  s.opcode (.agendaStageBistStart c spec paramA paramB) c 0x0210
    (s.stageReply c 0x0210 spec { action := 5, a := paramA, b := paramB, entries := 0 })

/-- AGENDA_STAGE of MARK (R49, R102). -/
def execAgendaStageMark (c : Cmd) (spec : TargetSpec) (paramA : Word) (paramB : Word) (s : State) : Out :=
  s.opcode (.agendaStageMark c spec paramA paramB) c 0x0210
    (s.stageReply c 0x0210 spec { action := 8, a := paramA, b := paramB, entries := 0 })

/-- AGENDA_CANCEL, in the order of checks of R103. -/
def execAgendaCancel (c : Cmd) (entry : BitVec 16) (order : BitVec 16) (s : State) : Out :=
  let x := s.agEntry entry.toNat
  let why :=
    if x.st = .free ∨ x.order % 65536 ≠ order.toNat then some (stDeniedState, 0)
    else firstGate [holdGate (some (x.src, x.origin)) c, stateGate (x.st != .pending)]
  s.opcode (.agendaCancel c entry order) c 0x0211
    (s.gate c 0x0211 why ((s.finishEntry entry.toNat .cancelled stDeniedState 0).ok c 0x0211 []))

/-- AGENDA_READ (R102, R103). -/
def execAgendaRead (c : Cmd) (first : BitVec 16) (count : BitVec 16) (s : State) : Out :=
  let data := ((List.range count.toNat).map fun k =>
    ((List.range 4).map fun w => leBytes 8 ((s.agEntry (first.toNat + k)).word w).toNat).flatten).flatten
  s.opcode (.agendaRead c first count) c 0x0212 (s.ok c 0x0212 data)

end Sys2Proof.Machine
end

