-- ==== Sys2Proof/Machine/OpTables.lean ====
section
/-! DEFINITION. The opcodes of the group 0x01: table images, live tables and holds (R80, R86 to R91, R100, R101). -/

namespace Sys2Proof.Machine

/-- Bytes of the image store (R88). -/
def storeSize : Nat := 4194304

/-- The first handle from h on that names no image; n bounds the search. -/
def State.freeHandle (s : State) : Nat → BitVec 32 → BitVec 32
  | 0, h => h
  | n + 1, h => if (s.image h).isNone then h else s.freeHandle n (h + 1)

/-- TABLE_IMAGE_OPEN (R88, R100, R101). -/
def execTableImageOpen (c : Cmd) (table : Byte) (length : BitVec 32) (s : State) : Out :=
  let l := s.mgmt.images
  let h := s.freeHandle 64 (Config.imageHandle s.mgmt.imagesOpened)
  let im : Image := { handle := h, table := table.toNat, length := length.toNat, bytes := [], st := .opened }
  let why := firstGate [holdGate (s.tableHolder table.toNat) c,
    roomGate (64 ≤ l.length || storeSize < s.storeBytes + length.toNat)]
  s.opcode (.tableImageOpen c table length) c 0x0100
    (s.gate c 0x0100 why
      ({ s with mgmt := { s.mgmt with images := l ++ [im], imagesOpened := s.mgmt.imagesOpened + 1 } }.ok c 0x0100
        (leBytes 4 h.toNat)))

/-- The image with bytes written from an offset. -/
def Image.write (im : Image) (off : Nat) (b : Bytes) : Image :=
  { im with bytes := (List.range b.length).foldl (fun m k => sput m (off + k) (byteAt b k) 0) im.bytes }

/-- The table an image is for. -/
def State.imageTable (s : State) (h : BitVec 32) : Nat := ((s.image h).map Image.table).getD 0
/-- The state an image is in. -/
def State.imageIs (s : State) (h : BitVec 32) (st : ImageSt) : Bool := ((s.image h).map Image.st) == some st

/-- TABLE_IMAGE_WRITE (R88, R100, R101). -/
def execTableImageWrite (c : Cmd) (handle : BitVec 32) (offset : BitVec 32) (data : Bytes) (s : State) : Out :=
  let why := firstGate [holdGate (s.tableHolder (s.imageTable handle)) c, stateGate (!s.imageIs handle .opened)]
  let images := s.mgmt.images.map fun im => if im.handle = handle then im.write offset.toNat data else im
  s.opcode (.tableImageWrite c handle offset data) c 0x0101
    (s.gate c 0x0101 why ({ s with mgmt := { s.mgmt with images := images } }.ok c 0x0101 []))

/-- TABLE_IMAGE_SEAL begins; its checks end with SEAL_COMPLETE (R89, R100, R101). -/
def execTableImageSeal (c : Cmd) (handle : BitVec 32) (s : State) : Out :=
  s.opcode (.tableImageSeal c handle) c 0x0102
    (s.gate c 0x0102 (stateGate (!s.imageIs handle .opened))
      ((s.setImageSt handle .sealing).defer c 0x0102 (.seal handle)))

/-- SEAL_COMPLETE: the checks of R89 end, and the deferred command is answered; a discarded image answers DENIED_STATE. -/
def execSealComplete (handle : BitVec 32) (s : State) : Out :=
  let mine (w : Work) : Bool := w == .seal handle
  if s.live ∧ s.mgmtInReset = false ∧ s.mgmt.deferred.any (fun d => mine d.work) then
    match s.image handle with
    | none => .next (s.finishWork mine stDeniedState 0 [])
    | some im =>
      match s.sealCheck im with
      | .ok =>
        .next ((s.setImageSt handle .sealed).finishWork mine stOk 0
          (leBytes 1 im.table ++ zeros 1 ++ leBytes 2 im.count ++ leBytes 4 im.gen.toNat))
      | .crc => .next ((s.dropImage handle).finishWork mine stTableCrc 0 [])
      | .bad detail => .next ((s.dropImage handle).finishWork mine stBadParam detail [])
  else .next s

/-- Rule 7 of R50 for an image and a beat (R27, R101). -/
def State.imageMayStage (s : State) (im : Image) (target : Beat) : Bool :=
  let others := s.pendingEntries.filter fun e =>
    e.2.action == 1 && paramLow e.2.paramA 31 == im.handle.toNat && e.2.target != target
  (im.st == .sealed || im.st == .staged) && others.isEmpty
    && !(im.table == 2 && im.entries.any fun e => s.groupInUse e.1)

/-- TABLE_STAGE (R50, R54, R100, R101). -/
def execTableStage (c : Cmd) (handle : BitVec 32) (spec : TargetSpec) (s : State) : Out :=
  let im := (s.image handle).getD { handle := handle, table := 0, length := 0, bytes := [], st := .failed }
  let item : StageItem :=
    { action := 1, a := fld 63 56 im.table ||| fld 31 0 handle.toNat, b := 0, entries := im.count }
  let (t, recs) := s.stageAll c spec [item]
  let why := s.stageCheck c spec [item] (s.imageMayStage im (s.specTarget spec))
  s.opcode (.tableStage c handle spec) c 0x0103
    (s.gate c 0x0103 why ((t.setImageSt handle .staged).ok c 0x0103 recs))

/-- TABLE_IMAGE_DISCARD (R88, R100). -/
def execTableImageDiscard (c : Cmd) (handle : BitVec 32) (s : State) : Out :=
  s.opcode (.tableImageDiscard c handle) c 0x0104
    (s.gate c 0x0104 (stateGate (s.imageIs handle .staged)) ((s.dropImage handle).ok c 0x0104 []))

/-- The test of TP-94 keeps TABLE_READ from these tables (R391). -/
def centralTable (t : Nat) : Bool := t == 1 || t == 2 || t == 3 || t == 9

/-- TABLE_READ (R100, R391). -/
def execTableRead (c : Cmd) (table : Byte) (first : BitVec 32) (count : BitVec 16) (s : State) : Out :=
  let t := table.toNat
  let data := ((List.range count.toNat).map fun k => leBytes (entrySize t) (s.entry t (first.toNat + k))).flatten
  s.opcode (.tableRead c table first count) c 0x0105
    (s.gate c 0x0105 (unitGate false (centralTable t && s.underTest 94))
      (s.ok c 0x0105 (leBytes 4 (sget s.tables.gen t 0).toNat ++ zeros 4 ++ data)))

/-- TABLE_STATUS (R100). -/
def execTableStatus (c : Cmd) (table : Byte) (s : State) : Out :=
  let t := table.toNat
  s.opcode (.tableStatus c table) c 0x0106
    (s.ok c 0x0106 (leBytes 4 (sget s.tables.gen t 0).toNat ++ leBytes 2 (holderCode (s.tableHolder t))
      ++ leBytes 2 (sget s.tables.lastStatus t 0).toNat ++ leBytes 6 (sget s.tables.lastBeat t 0).toNat
      ++ leBytes 2 (sget s.tables.lastDetail t 0).toNat ++ leBytes 4 (tableSize t) ++ zeros 4))

/-- STATE of an image (R100); an image whose SEAL runs is OPEN. -/
def imageCode : ImageSt → Nat
  | .opened => 0
  | .sealing => 0
  | .sealed => 1
  | .staged => 2
  | .failed => 3

/-- TABLE_IMAGE_LIST (R100). -/
def execTableImageList (c : Cmd) (first : Byte) (max : Byte) (s : State) : Out :=
  let l := (s.mgmt.images.drop first.toNat).take max.toNat
  let record (im : Image) : Bytes :=
    leBytes 4 im.handle.toNat ++ leBytes 1 im.table ++ leBytes 1 (imageCode im.st) ++ zeros 2 ++ leBytes 4 im.length
  s.opcode (.tableImageList c first max) c 0x0107
    (s.ok c 0x0107 (leBytes 1 l.length ++ zeros 3 ++ leBytes 4 s.storeBytes ++ (l.map record).flatten))

/-- The holder of an object of HOLD: a table for KIND 0, a block for KIND 1 (R100). -/
def State.holderOf (s : State) (kind id : Nat) : Option (Src × Nat) := if kind = 0 then s.tableHolder id else s.blockHolder id
def State.setHolder (s : State) (kind id : Nat) (h : Option (Src × Nat)) : State :=
  if kind = 0 then { s with mgmt := { s.mgmt with tableHolds := sput s.mgmt.tableHolds id h none } }
  else { s with mgmt := { s.mgmt with blockHolds := sput s.mgmt.blockHolds id h none } }

/-- HOLD (R79, R80, R100). -/
def execHold (c : Cmd) (kind : Byte) (id : Byte) (s : State) : Out :=
  let h := s.holderOf kind.toNat id.toNat
  s.opcode (.hold c kind id) c 0x0108
    (s.gate c 0x0108 (holdGate h c)
      ((s.setHolder kind.toNat id.toNat (some (c.src, c.origin))).ok c 0x0108 (leBytes 2 (holderCode h))))

/-- RELEASE (R80, R100). -/
def execRelease (c : Cmd) (kind : Byte) (id : Byte) (s : State) : Out :=
  let h := s.holderOf kind.toNat id.toNat
  s.opcode (.release c kind id) c 0x0109
    (s.gate c 0x0109 (firstGate [holdGate h c, stateGate h.isNone])
      ((s.setHolder kind.toNat id.toNat none).ok c 0x0109 []))

end Sys2Proof.Machine
end

