-- ==== Sys2Proof/Machine/OpTest.lean ====
section
/-! DEFINITION. The opcodes of the groups 0x08 to 0x0A: self-test and spares, counters, keys and access (R113 to R117, R388 to
R392, R399, R400, R410 to R417). -/

namespace Sys2Proof.Machine

/-! ## Self-test (R113, R114, R388, R389) -/

/-- The partitions that hold the unit of a deferred command in progress (R97, R376). -/
def Work.parts : Work → List Nat
  | .sleep p _ _ _ => [p]
  | .eyeScan p _ _ _ _ => [p]
  | .spare p _ _ _ => [p]
  | .cart b _ _ _ _ _ _ => (List.range 8).map (8 * b + ·)
  | .drain _ _ _ _ => [94]
  | .memFill _ _ _ => [94]
  | .memRead _ _ => [94]
  | .memWrite _ _ => [94]
  | .close _ => [94]
  | .bringIn k n _ => [unitPart k n]
  | _ => []

/-- A unit of the partition is in reset (R453). -/
def State.partInReset (s : State) (tp : Nat) : Bool :=
  if tp < 64 then s.portInReset tp
  else if tp < 90 then s.collInReset
  else if tp < 92 then s.switchInReset
  else if tp < 94 then s.collInReset
  else s.switchInReset || s.memInReset || s.collInReset

/-- The checks of R389 from the second on, with those of R97 and R453. -/
def State.runGate (s : State) (parts : List Nat) : Option (BitVec 8 × Nat) :=
  firstGate [
    unitGate false (parts.any s.underTest),
    stateGate s.bist.run.isSome,
    stateGate (parts.any fun n => n < 64 && !s.portQuiet n),
    stateGate (parts.contains 94 && !s.centralQuiet),
    stateGate (s.mgmt.deferred.any fun d => d.work.parts.any parts.contains),
    stateGate (parts.any s.partInReset),
    roomGate (parts.any fun n => 90 ≤ n && n < 94 && !s.spareOf n)]

/-- The active run of these partitions before its first slot starts (R388 step 1). -/
def newRun (parts : List (Nat × Entry)) : Run :=
  { parts := parts, ended := [], begun := false, slot := ((parts.map fun x => entrySlot x.2).foldl min 63), slotOn := false,
    waiting := false, waitFrom := 0, nextDue := 0, startBeat := 0, endedAt := 0, triedAt := 0 }

/-- BIST_RUN (R63, R113, R114, R388 step 1, R389): the first slot is staged and the run is active. -/
def execBistRun (c : Cmd) (parts : BitVec 96) (spec : TargetSpec) (s : State) : Out :=
  let l := partList parts
  let r := newRun (l.map fun n => (n, s.entry 8 n))
  let item : StageItem := { action := 5, a := BitVec.ofNat 64 r.slot, b := 0, entries := 0 }
  let why := firstGate [s.stageGate c (s.specTarget spec) [item], s.runGate l, s.stageCheck c spec [item] true]
  let t := (s.stageAll c spec [item]).1.updBist fun b => { b with run := some r }
  s.opcode (.bistRun c parts spec) c 0x0800 (s.gate c 0x0800 why (t.defer c 0x0800 (.bistRun parts)))

/-- BIST_RESULT (R113, R382, R461). -/
def execBistResult (c : Cmd) (part : Byte) (s : State) : Out :=
  let r := s.result part.toNat
  let data := leBytes 8 r.misr.toNat ++ leBytes 4 r.patterns.toNat ++ leBytes 2 r.token.toNat ++ leBytes 2 r.code
    ++ leBytes 6 r.beat.toNat ++ zeros 2
  s.opcode (.bistResult c part) c 0x0801 (s.ok c 0x0801 data)

/-- BIST_ABORT (R113, R383, R392): the tests stop, and the command completes after their restores. -/
def execBistAbort (c : Cmd) (part : Byte) (s : State) : Out :=
  let l := (if part = 0xFF then List.range 96 else [part.toNat]).filter s.underTest
  let t := (l.foldl (fun (s : State) tp => s.stopTest 1 tp) s).defer c 0x0802 (.bistAbort l)
  s.opcode (.bistAbort c part) c 0x0802 (s.gate c 0x0802 (stateGate l.isEmpty) t.abortCheck)

/-! ## Spares (R399, R400) -/

/-- A port with a direction below full width (R400). -/
def PortSt.degraded (p : PortSt) : Bool :=
  let full := if p.split then 4 else 8
  p.sides.any fun sd =>
    let x := p.stripe sd
    x.st == .up && (x.txw < full || x.rxw < full)

/-- The numbers of the spare banks of a kind, ascending, filled up with 0xFF (R400). -/
def State.spareBytes (s : State) (k : SpareKind) (n : Nat) : Bytes :=
  let l := (List.range (kindUnits k)).filter fun b => s.bankRole k b == .spare
  ((l ++ List.replicate n 0xFF).take n).map fun b => BitVec.ofNat 8 b
/-- UNUSABLE banks of a kind (R400). -/
def State.unusableBanks (s : State) (k : SpareKind) : Nat :=
  ((List.range (kindUnits k)).filter fun b => s.bankRole k b == .unusable).length
/-- The ports that satisfy p. -/
def State.countPorts (s : State) (p : PortSt → Bool) : Nat := ((List.range 64).filter fun n => p (s.port n)).length

/-- The wear record (R400). -/
def State.wearRecord (s : State) : Bytes :=
  let roles := ((List.range 13).map fun n => stackCode (s.stack n).role <<< (4 * n)).sum
  leBytes 1 1 ++ leBytes 1 (b2n s.bist.suspect) ++ zeros 2 ++ leBytes 8 roles ++ leBytes 8 (roleMap s.rcRole 0 26)
    ++ s.spareBytes .buffer 4 ++ leBytes 1 (s.unusableBanks .buffer) ++ s.spareBytes .drey 3
    ++ leBytes 1 (s.unusableBanks .drey) ++ leBytes 1 (s.countPorts fun p => p.txSp != 15)
    ++ leBytes 1 (s.countPorts fun p => p.rxSp != 15) ++ leBytes 1 (s.countPorts PortSt.degraded)
    ++ leBytes 8 s.bist.portUnusable.toNat ++ leBytes 6 s.bist.lastChange.toNat ++ leBytes 2 s.bist.changes ++ zeros 16

/-- SPARE_STATUS (R113, R400). -/
def execSpareStatus (c : Cmd) (s : State) : Out := s.opcode (.spareStatus c) c 0x0803 (s.ok c 0x0803 s.wearRecord)

/-- SPARE_BRING_IN of a stack (R114, R214, R215): the migration starts. -/
def execSpareBringInStack (c : Cmd) (unit : BitVec 16) (s : State) : Out :=
  let n := unit.toNat
  let bad := (s.stack n).role != .inService || s.migrating
  let t := (s.startMigration n (s.spareStack.getD 12) false).defer c 0x0804 (.stackBringIn n none)
  s.opcode (.spareBringInStack c unit) c 0x0804
    (s.gate c 0x0804 (firstGate [unitGate s.memInReset false, stateGate bad, roomGate s.spareStack.isNone]) t)

/-- KIND of SPARE_BRING_IN (R113). -/
def kindOf (b : Byte) : SpareKind := if b = 2 then .cluster else if b = 3 then .buffer else .drey

/-- SPARE_BRING_IN of a cluster or a bank (R394, R399): a cluster's spare takes over at once, a bank's at the end of the
copy. -/
def execSpareBringIn (c : Cmd) (kind : Byte) (unit : BitVec 16) (s : State) : Out :=
  let k := kindOf kind
  let n := unit.toNat
  let tp := unitPart k n
  let bad := s.bankRole k n != .inService || s.underTest tp
  let spare := s.nextSpare k n
  let done := if k = .cluster then some s.beat.count else none
  let t := (s.bringOut k n (spare.getD 0)).defer c 0x0804 (.bringIn k n done)
  s.opcode (.spareBringIn c kind unit) c 0x0804
    (s.gate c 0x0804 (firstGate [unitGate (s.partInReset tp) false, stateGate bad, roomGate spare.isNone]) t)

/-! ## Counters (R115, R410 to R417) -/

/-- The 0x09xx opcodes while TP-94 is under test (R391, R418). -/
def State.ctrGate (s : State) : Option (BitVec 8 × Nat) := unitGate false (s.underTest 94)

/-- A snapshot clears WRAP and REPROG of a counter it reports (R411). -/
def State.snapshot (s : State) (n : Nat) : State := s.setCounter n { s.counter n with wrap := false, reprog := false }

/-- CTR_READ (R115, R410, R411). -/
def execCtrRead (c : Cmd) (bank : Byte) (first : BitVec 16) (count : BitVec 16) (s : State) : Out :=
  let l := (List.range count.toNat).map fun k => counterOf bank.toNat (first.toNat + k)
  let data := (l.map fun n => leBytes 8 (s.counterWord n).toNat).flatten
  let t := l.foldl (fun (s : State) n => s.snapshot n) s
  s.opcode (.ctrRead c bank first count) c 0x0900 (s.gate c 0x0900 s.ctrGate (t.ok c 0x0900 data))

/-- CTR_SELECT (R115, R412): pending until the next boundary; it changes the COUNTER_EVENT table, whose hold counts (R79). -/
def execCtrSelect (c : Cmd) (bank : Byte) (index : BitVec 16) (event : BitVec 16) (s : State) : Out :=
  let n := counterOf bank.toNat index.toNat
  let t := s.setCounter n { s.counter n with select := some event }
  s.opcode (.ctrSelect c bank index event) c 0x0901
    (s.gate c 0x0901 (firstGate [holdGate (sget s.mgmt.tableHolds 9 none) c, s.ctrGate]) (t.ok c 0x0901 []))

/-- The number of a bank's window, 64 the global one (R419). -/
def bankWindow (b : Nat) : Nat := if b = 0xFF then 64 else b

/-- CTR_WINDOW_SET (R115, R413): pending until the next boundary. A hold on a control-word block does not bear on it (log entry
69). -/
def execCtrWindowSet (c : Cmd) (bank : Byte) (window : BitVec 32) (s : State) : Out :=
  let b := bankWindow bank.toNat
  let t := s.setWindow b { s.window b with pending := some window.toNat }
  s.opcode (.ctrWindowSet c bank window) c 0x0902 (s.gate c 0x0902 s.ctrGate (t.ok c 0x0902 []))

/-- SAMPLE_CONFIG (R115, R415). -/
def execSampleConfig (c : Cmd) (bank : Byte) (index : BitVec 16) (period : Word) (enable : Byte) (s : State) : Out :=
  let n := counterOf bank.toNat index.toNat
  let t := s.setCounter n { s.counter n with
    armed := enable != 0, period := period.truncate 48, countdown := period.toNat, due := [] }
  s.opcode (.sampleConfig c bank index period enable) c 0x0903 (s.gate c 0x0903 s.ctrGate (t.ok c 0x0903 []))

/-- SAMPLE_READ (R115, R416, R417): the oldest records, which it removes. -/
def execSampleRead (c : Cmd) (max : Byte) (s : State) : Out :=
  let l := s.ctr.samples.take max.toNat
  let t : State := { s with ctr := { s.ctr with samples := s.ctr.samples.drop max.toNat } }
  s.opcode (.sampleRead c max) c 0x0904
    (s.gate c 0x0904 s.ctrGate (t.ok c 0x0904 (leBytes 1 l.length ++ zeros 7 ++ (l.map sampleBytes).flatten)))

/-! ## Keys and access (R77, R82, R83, R116, R117) -/

/-- A source that may load and clear keys (R80, R83, R117). -/
def State.keyAdmin (s : State) (c : Cmd) : Bool :=
  permits srcSI c.src || (c.auth && (s.key c.keySlot).loaded && (s.key c.keySlot).admin)
/-- The refusal of a change that a fixed rule excludes (R62, R80). -/
def fixedGate (bad : Bool) : Option (BitVec 8 × Nat) := if bad then some (stDeniedPrecedence, 0x8000) else none

/-- Put a key slot: deferred commands authenticated under it lose their tags (R97). -/
def State.putKey (s : State) (n : Nat) (k : KeySlot) : State :=
  let s := s.setKey n k
  { s with mgmt := { s.mgmt with deferred := s.mgmt.deferred.map fun d =>
      if d.cmd.auth && d.cmd.keySlot == n then { d with keyKept := false } else d } }

/-- The reply of a command that has changed a key slot: no tag when it was authenticated under that slot (R97, R117). -/
def State.keyReply (s : State) (c : Cmd) (op : BitVec 16) (n : Nat) : State :=
  s.complete c op (!(c.auth && c.keySlot == n)) stOk 0 []

/-- KEY_LOAD (R83, R116, R117). -/
def execKeyLoad (c : Cmd) (slot : Byte) (mask : Byte) (flags : Byte) (epoch : BitVec 48) (key : BitVec 256) (s : State) :
    Out :=
  let n := slot.toNat
  let k : KeySlot := { loaded := true, mask := mask.truncate 4, admin := bitAt flags.toNat 0, epoch := epoch, key := key }
  let t := s.putKey n k
  let t : State := { t with mgmt := { t.mgmt with lastEpoch := sput t.mgmt.lastEpoch n epoch 0 } }
  s.opcode (.keyLoad c slot mask flags epoch key) c 0x0A00
    (s.gate c 0x0A00 (fixedGate (!s.keyAdmin c)) (t.keyReply c 0x0A00 n))

/-- KEY_CLEAR (R83, R116, R117). -/
def execKeyClear (c : Cmd) (slot : Byte) (s : State) : Out :=
  let n := slot.toNat
  s.opcode (.keyClear c slot) c 0x0A01
    (s.gate c 0x0A01 (fixedGate (!s.keyAdmin c)) ((s.putKey n defaultKey).keyReply c 0x0A01 n))

/-- KEY_STATUS (R116). -/
def execKeyStatus (c : Cmd) (s : State) : Out :=
  s.opcode (.keyStatus c) c 0x0A02
    (s.ok c 0x0A02 ((List.range 8).map fun n => leBytes 8 (s.securityWord (0x100 + 8 * n)).toNat).flatten)

/-- AUTH_REQ_SET (R80, R82, R116, R117). -/
def execAuthReqSet (c : Cmd) (bits : Byte) (s : State) : Out :=
  let v : BitVec 4 := bits.truncate 4
  let t : State := { s with mgmt := { s.mgmt with authReq := v } }
  s.opcode (.authReqSet c bits) c 0x0A03
    (s.gate c 0x0A03 (fixedGate (lowSource c.src && authChangeBad c.src s.mgmt.authReq v)) (t.ok c 0x0A03 []))

/-- TC7_ALLOW_SET (R77, R116): a cleared LP's waiting command frames are discarded when they come to be taken. -/
def execTc7AllowSet (c : Cmd) (allow : BitVec 128) (s : State) : Out :=
  let t : State := { s with mgmt := { s.mgmt with tc7Allow := allow } }
  s.opcode (.tc7AllowSet c allow) c 0x0A04 (t.ok c 0x0A04 [])

/-- AUTH_FAIL_READ (R82, R116). -/
def execAuthFailRead (c : Cmd) (s : State) : Out :=
  s.opcode (.authFailRead c) c 0x0A05
    (s.ok c 0x0A05 ((List.range 4).map fun k => leBytes 4 (sget s.mgmt.authFails k 0)).flatten)

end Sys2Proof.Machine
end

