-- ==== Sys2Proof/Machine/OpUnits.lean ====
section
/-! DEFINITION. The opcodes of the groups 0x04 to 0x07: switch core, fabric memory, collective sessions and power (R106 to R112,
R191, R285, R366, R372, R373). -/

namespace Sys2Proof.Machine

/-! ## 0x04xx (R106) -/

/-- SWITCH_STATUS (R106). -/
def execSwitchStatus (c : Cmd) (s : State) : Out :=
  let data := leBytes 4 s.bufUsed ++ leBytes 4 s.bufCap ++ leBytes 1 s.bufSparesUsed ++ leBytes 1 s.holdingPorts ++ zeros 6
    ++ leBytes 8 s.sw.stomped ++ leBytes 8 s.sw.heldAtBoundary
  s.opcode (.switchStatus c) c 0x0400 (s.gate c 0x0400 s.switchGate (s.ok c 0x0400 data))

/-- A record of VOQ_READ: flits that wait and frames of one queue (R106, R133). -/
def State.voqRecord (s : State) (i o tc : Nat) : Bytes :=
  let l := s.sw.frames.filter fun q => q.inLp == i && q.outLp == o && q.tc == tc
  leBytes 4 (l.map fun q => q.arrived - q.crossed).sum ++ leBytes 2 l.length ++ zeros 2

/-- VOQ_READ (R106). -/
def execVoqRead (c : Cmd) (inLp : Byte) (outLp : Byte) (classes : Byte) (s : State) : Out :=
  let data := ((List.range 8).map fun tc =>
    if bitAt classes.toNat tc then s.voqRecord inLp.toNat outLp.toNat tc else zeros 8).flatten
  s.opcode (.voqRead c inLp outLp classes) c 0x0401 (s.gate c 0x0401 s.switchGate (s.ok c 0x0401 data))

/-- CREDIT_READ (R106, R137). -/
def execCreditRead (c : Cmd) (lp : Byte) (s : State) : Out :=
  let data := ((List.range 8).map fun tc => leBytes 4 (sget s.sw.credits (lpTc lp.toNat tc) 0)).flatten
  s.opcode (.creditRead c lp) c 0x0402 (s.gate c 0x0402 s.switchGate (s.ok c 0x0402 data))

/-- PORT_DRAIN begins to wait (R106). -/
def execPortDrain (c : Cmd) (lp : Byte) (classes : Byte) (timeout : BitVec 16) (s : State) : Out :=
  s.opcode (.portDrain c lp classes timeout) c 0x0403
    (s.gate c 0x0403 s.switchGate
      (s.defer c 0x0403 (.drain lp.toNat classes.toNat s.beat.localBeats timeout.toNat)))

/-- PORT_DRAIN_TEST (R106): the test of a boundary, after step 3 of R53. -/
def execPortDrainTest (s : State) : Out := if s.live && s.beat.stepsDue then .next s.testDrains else .next s

/-- HELD_DISCARD (R106, R168): the holds of the port end as DISCARDED. -/
def execHeldDiscard (c : Cmd) (port : Byte) (s : State) : Out :=
  let n := port.toNat
  let lps := [2 * n, 2 * n + 1].filter fun lp => decide (s.holdOf lp = .holding)
  let (t, gone) := lps.foldl (fun (acc : State × Nat) lp =>
    let (t, k) := acc.1.endHold lp 8
    (t, acc.2 + k)) (s, 0)
  s.opcode (.heldDiscard c port) c 0x0404
    (s.gate c 0x0404 (firstGate [s.switchGate, stateGate lps.isEmpty]) (t.ok c 0x0404 (leBytes 4 gone)))

/-! ## 0x05xx (R107, R108, R191) -/

/-- MEM_STATUS (R107). -/
def execMemStatus (c : Cmd) (s : State) : Out :=
  let serving := (List.range 13).filter fun n => (s.stack n).role == .inService || (s.stack n).role == .source
  let source := firstBelow 13 fun n => (s.stack n).role == .source
  let data := leBytes 8 memBytes ++ leBytes 8 (s.memFree * allocGranule) ++ leBytes 2 (maskOf serving)
    ++ leBytes 1 (s.spareStack.getD 0xFF) ++ leBytes 1 (source.getD 0xFF) ++ leBytes 4 s.mem.corrected
    ++ leBytes 4 s.mem.uncorrected ++ zeros 4
  s.opcode (.memStatus c) c 0x0500 (s.gate c 0x0500 s.memGate (s.ok c 0x0500 data))

/-- The granules that a size takes (R191). -/
def granulesOf (size : Nat) : Nat := (size + allocGranule - 1) / allocGranule
/-- Put an allocation among the others by its first granule. -/
def addAlloc (a : Alloc) (l : List Alloc) : List Alloc :=
  (l.filter fun x => decide (x.first < a.first)) ++ [a] ++ l.filter fun x => decide (a.first ≤ x.first)

/-- The lowest free run of n granules, when another allocation may be made (R191). -/
def State.firstFit (s : State) (n : Nat) : Option Nat :=
  if 16384 ≤ s.mem.allocs.length then none else (s.freeRuns.find? fun r => decide (n ≤ r.2)).map (·.1)

/-- MEM_ALLOC (R107, R191). -/
def execMemAlloc (c : Cmd) (size : Word) (owner : Word) (s : State) : Out :=
  let n := granulesOf size.toNat
  let body := match s.memGate with
    | some (st, detail) => s.deny c 0x0501 st detail
    | none => match s.firstFit n with
      | none => s.deny c 0x0501 stNoResource 0
      | some k =>
        (s.updMem fun m => { m with allocs := addAlloc { first := k, count := n, owner := owner } m.allocs }).ok c 0x0501
          (leBytes 8 (k * allocGranule))
  s.opcode (.memAlloc c size owner) c 0x0501 body

/-- MEM_FREE (R107, R108, R193): OFFSET names the start of an allocation. -/
def execMemFree (c : Cmd) (offset : Word) (s : State) : Out :=
  let starts (a : Alloc) : Bool := a.first * allocGranule == offset.toNat
  let t := s.updMem fun m => { m with allocs := m.allocs.filter fun a => !starts a }
  s.opcode (.memFree c offset) c 0x0502
    (s.gate c 0x0502 (firstGate [s.memGate, stateGate (!s.mem.allocs.any starts)]) (t.ok c 0x0502 []))

/-- MEM_FILL enters the memory request unit (R107, R108). -/
def execMemFill (c : Cmd) (offset : Word) (size : Word) (pattern : Word) (s : State) : Out :=
  s.opcode (.memFill c offset size pattern) c 0x0503
    (s.gate c 0x0503 (firstGate [s.memGate, stateGate (!s.allocated offset.toNat size.toNat)])
      (s.defer c 0x0503 (.memFill offset.toNat size.toNat pattern)))

/-- MEM_READ enters the memory request unit (R107, R108). -/
def execMemRead (c : Cmd) (offset : Word) (count : BitVec 16) (s : State) : Out :=
  s.opcode (.memRead c offset count) c 0x0504
    (s.gate c 0x0504 (firstGate [s.memGate, stateGate (!s.allocated offset.toNat count.toNat)])
      (s.defer c 0x0504 (.memRead offset.toNat count.toNat)))

/-- MEM_WRITE enters the memory request unit (R107, R108). -/
def execMemWrite (c : Cmd) (offset : Word) (count : BitVec 16) (data : Bytes) (s : State) : Out :=
  s.opcode (.memWrite c offset count data) c 0x0505
    (s.gate c 0x0505 (firstGate [s.memGate, stateGate (!s.allocated offset.toNat count.toNat)])
      (s.defer c 0x0505 (.memWrite offset.toNat data)))

/-- A record of ECC_LOG_READ (R107, R212). -/
def eccBytes (r : EccRecord) : Bytes :=
  leBytes 1 r.stack ++ leBytes 1 (b2n r.uncorrected) ++ zeros 2 ++ leBytes 8 r.offset ++ leBytes 4 r.beat.toNat

/-- ECC_LOG_READ (R107, R212): the most recent records, oldest first. -/
def execEccLogRead (c : Cmd) (max : Byte) (s : State) : Out :=
  let l := s.mem.eccLog.drop (s.mem.eccLog.length - max.toNat)
  s.opcode (.eccLogRead c max) c 0x0507
    (s.gate c 0x0507 s.memGate (s.ok c 0x0507 (leBytes 1 l.length ++ zeros 7 ++ (l.map eccBytes).flatten)))

/-! ## 0x06xx (R109, R110, R285) -/

/-- The first free SID from a number on, around the end: "any free" (R109; log entry 5). -/
def State.freeSid (s : State) (start : Nat) : Option Nat :=
  ((List.range 4096).map fun k => (start + k) % 4096).find? fun n => decide ((s.session n).st = .free)

/-- The session that SESSION_OPEN makes (R109, R110, R223, R225). -/
def openedSession (c : Cmd) (mg flags members quota : Nat) : Session :=
  { defaultSession with
    st := .idle, early := bitAt flags 0, beatSync := bitAt flags 1, openerSrc := c.src, openerOrigin := c.origin, mg := mg
    members := BitVec.ofNat 128 members, quota := quota, roster := newRoster members }

/-- SESSION_OPEN (R109, R110, R221, R267). -/
def execSessionOpen (c : Cmd) (sid : BitVec 16) (mg : BitVec 16) (flags : Byte) (members : BitVec 128) (quota : BitVec 32)
    (s : State) : Out :=
  let any := sid == 0xFFFF
  let (w, s') := s.draw
  let bad := s.groupInUse mg.toNat || (bitAt flags.toNat 1 && s.beat.st == .freerun)
    || (!any && decide ((s.session sid.toNat).st ≠ .free))
  let full := decide (s.dreyCap < s.quotaSum + quota.toNat + s.coll.stageKib)
  let (t, target) := if any then (s', s.freeSid w.toNat) else (s, some sid.toNat)
  let why := firstGate [s.collGate, stateGate bad, roomGate (full || target.isNone)]
  let n := target.getD 0
  s.opcode (.sessionOpen c sid mg flags members quota) c 0x0600
    (s.gate c 0x0600 why
      ((t.setSession n (openedSession c mg.toNat flags.toNat members.toNat quota.toNat)).ok c 0x0600 (leBytes 2 n)))

/-- Why a SESSION_CLOSE is refused: another source's session, a state that forbids it, or no session (R63, R110). -/
def State.closeGate (s : State) (c : Cmd) (sid : Nat) : Option (BitVec 8 × Nat) :=
  let x := s.session sid
  firstGate [if x.st = .free then none else holdGate (some (x.openerSrc, x.openerOrigin)) c, s.collGate, stateGate (x.st == .free)]

/-- SESSION_CLOSE without FORCE (R110, R285). -/
def execSessionClose (c : Cmd) (sid : BitVec 16) (s : State) : Out :=
  let n := sid.toNat
  let x := s.session n
  let body :=
    if x.st = .idle ∨ x.st = .aborted then ((s.dropEntry n).freeSession n).ok c 0x0601 []
    else ((s.setSession n { x with st := .closing }).defer c 0x0601 (.close n)).closeCheck n
  s.opcode (.sessionClose c sid) c 0x0601
    (s.gate c 0x0601 (firstGate [s.closeGate c n, stateGate (x.st == .closing)]) body)

/-- SESSION_CLOSE with FORCE (R110, R285): the epoch aborts with FORCE_CLOSED and the session is FREE. -/
def execSessionCloseForce (c : Cmd) (sid : BitVec 16) (s : State) : Out :=
  let n := sid.toNat
  let x := s.session n
  let t := if x.st = .idle ∨ x.st = .aborted then s else s.abortEpoch n 0xB none
  s.opcode (.sessionCloseForce c sid) c 0x0601
    (s.gate c 0x0601 (s.closeGate c n) (((t.dropEntry n).freeSession n).ok c 0x0601 []))

/-- SESSION_STATUS (R109, R222, R288). -/
def execSessionStatus (c : Cmd) (sid : BitVec 16) (s : State) : Out :=
  let x := s.session sid.toNat
  let data := leBytes 1 (sessCode x.st) ++ zeros 1 ++ leBytes 2 x.lastStatus.toNat ++ leBytes 2 x.detail.toNat ++ zeros 2
    ++ leBytes 8 x.committedAll ++ leBytes 8 x.retractions ++ zeros 8
  s.opcode (.sessionStatus c sid) c 0x0602 (s.gate c 0x0602 s.collGate (s.ok c 0x0602 data))

/-- SESSION_LIST (R109). -/
def execSessionList (c : Cmd) (first : BitVec 16) (s : State) : Out :=
  let low := first.toNat
  let mine := (s.openSessions.map (·.1)).filter fun n => decide (low ≤ n) && decide (n < low + 1024)
  let data := leBytes 128 (maskOf (mine.map (· - low)))
  s.opcode (.sessionList c first) c 0x0603 (s.gate c 0x0603 s.collGate (s.ok c 0x0603 data))

/-- ENGINE_STATUS (R109). -/
def execEngineStatus (c : Cmd) (s : State) : Out :=
  let rc (p : Nat → Bool) : Bytes := leBytes 4 (maskOf ((List.range 26).filter p))
  let data := rc (fun n => s.rcRole n == .inService) ++ rc (fun n => s.underTest (64 + n)) ++ leBytes 4 s.dreyUsed
    ++ leBytes 4 s.dreyCap ++ leBytes 2 s.openSessions.length ++ zeros 14
  s.opcode (.engineStatus c) c 0x0604 (s.gate c 0x0604 s.collGate (s.ok c 0x0604 data))

/-! ## 0x07xx (R111, R112, R366, R372, R373) -/

/-- POWER_STATUS (R111). -/
def execPowerStatus (c : Cmd) (s : State) : Out :=
  let p := s.power
  let data := leBytes 2 p.cap.1 ++ leBytes 1 p.cap.2 ++ leBytes 1 s.kEff ++ leBytes 2 p.ceiling ++ leBytes 2 p.hostReq
    ++ leBytes 2 p.now ++ zeros 2 ++ leBytes 4 p.overrunMj
  s.opcode (.powerStatus c) c 0x0700 (s.ok c 0x0700 data)

/-- EFFECTIVE_CAP and SETTER, the data of the cap commands (R111). -/
def State.capData (s : State) : Bytes := leBytes 2 s.power.cap.1 ++ leBytes 1 s.power.cap.2 ++ zeros 1

/-- The ceiling is set, or cleared with its hold by a CAP of 0 (R366). -/
def State.putCeiling (s : State) (c : Cmd) (cap : Nat) : State :=
  let s := s.updPower fun p => { p with ceiling := cap, ceilingSrc := c.src }
  { s with mgmt := { s.mgmt with ceilingHold := if cap = 0 then none else some (c.src, c.origin) } }

/-- The host request is set, or cleared with its hold (R366). -/
def State.putHostReq (s : State) (c : Cmd) (cap : Nat) : State :=
  let s := s.updPower fun p => { p with hostReq := cap, hostSrc := c.src }
  { s with mgmt := { s.mgmt with hostHold := if cap = 0 then none else some (c.src, c.origin) } }

/-- A cap that has passed the precedence checks: refused when it would raise the effective cap while the board controller is
absent, else in force (R112, R368, R372); a command of the board controller itself is never refused so (R439). -/
def State.capReply (s : State) (c : Cmd) (op : BitVec 16) (t : State) : State :=
  if c.src ≠ .i3c ∧ s.side.bmcAbsent = true ∧ s.effCap < t.effCap then s.refuseRaise.deny c op stDeniedState 0
  else
    let t := t.capChanged s.effCap
    t.ok c op t.capData

/-- CEILING_SET (R79, R80, R111, R112, R366). -/
def execCeilingSet (c : Cmd) (cap : BitVec 16) (s : State) : Out :=
  s.opcode (.ceilingSet c cap) c 0x0701
    (if mayChange s.mgmt.ceilingHold c.src c.origin then s.capReply c 0x0701 (s.putCeiling c cap.toNat)
     else s.reply c 0x0701 stDeniedPrecedence (holderCode s.mgmt.ceilingHold) s.capData)

/-- HOST_REQUEST_SET (R79, R80, R111, R112, R366): a request above the ceiling is not recorded. -/
def execHostRequestSet (c : Cmd) (cap : BitVec 16) (s : State) : Out :=
  let above := s.power.ceiling != 0 && decide (s.power.ceiling < cap.toNat)
  s.opcode (.hostRequestSet c cap) c 0x0702
    (if mayChange s.mgmt.hostHold c.src c.origin = false then
       s.reply c 0x0702 stDeniedPrecedence (holderCode s.mgmt.hostHold) s.capData
     else if above then s.reply c 0x0702 stDeniedPrecedence (holderCode s.mgmt.ceilingHold) s.capData
     else s.capReply c 0x0702 (s.putHostReq c cap.toNat))

/-- TELEMETRY_READ (R111, R373): CLEAR_PEAK counts from the Sideband Chain and I3C only, and clears after the read. -/
def execTelemetryRead (c : Cmd) (flags : Byte) (s : State) : Out :=
  let data := (s.power.telem.map fun t => leBytes 2 t.avg ++ leBytes 2 t.peak).flatten
  let clear := bitAt flags.toNat 0 && permits srcSI c.src
  let t := if clear then s.updPower fun p => { p with telem := p.telem.map fun w => { w with peak := 0 } } else s
  s.opcode (.telemetryRead c flags) c 0x0703 (t.ok c 0x0703 data)

end Sys2Proof.Machine
end

