-- ==== Sys2Proof/Machine/ResetOps.lean ====
section
/-! DEFINITION. The shared operations of resets (R97, R119, R451 to R456): what each scope covers and clears, and what a reset land
and a power-on leave. -/

namespace Sys2Proof.Machine

/-! ## Scopes (R451) -/

/-- The partitions of the units that a scope covers (R376, R451). -/
def coverParts (scope unit : Nat) : List Nat :=
  match scope with
  | 1 => [unit]
  | 2 => List.range 95
  | 3 => [94]
  | 4 => 92 :: 93 :: 94 :: (List.range 26).map (64 + ·)
  | 6 => List.range 95
  | _ => []

/-- The partitions whose test makes RESET answer BUSY_TEST: all that the scope holds (R119; log entry 64). -/
def busyParts (scope unit : Nat) : List Nat := coverParts scope unit

/-- A reset lies within another's scope (R451, R452). -/
def resetWithin (scope unit outer outerUnit : Nat) : Bool :=
  if scope = outer then scope != 1 || unit == outerUnit
  else outer == 6 || (outer == 2 && (scope == 1 || scope == 4))

/-- The unit of a deferred command lies in the scope (R97): MANAGEMENT covers the controller that carries out each of them. -/
def Work.inScope (w : Work) (scope unit : Nat) : Bool :=
  let onPort : Option Nat := match w with
    | .sleep p _ _ _ => some p
    | .eyeScan p _ _ _ _ => some p
    | .spare p _ _ _ => some p
    | _ => none
  match scope with
  | 1 => onPort == some unit
  | 2 => onPort.isSome || (match w with
      | .drain _ _ _ _ => true
      | .close _ => true
      | .bringIn _ _ _ => true
      | _ => false)
  | 3 => w.isMem || (match w with | .stackBringIn _ _ => true | _ => false)
  | 4 => (match w with
      | .close _ => true
      | .bringIn k _ _ => k != .buffer
      | _ => false)
  | _ => true

/-! ## What a scope clears (R455, R456) -/

/-- A stripe after a reset: only LOCAL_EPOCH is kept, so that the next link-up carries a new one (R338, R454). -/
def Stripe.afterReset (x : Stripe) : Stripe := { defaultStripe with localEpoch := x.localEpoch }

/-- A port after PORT: enable, mode and the cartridge's identity are kept (R455). -/
def PortSt.afterReset (p : PortSt) : PortSt :=
  { defaultPort with
    enabled := p.enabled, split := p.split, a := p.a.afterReset, b := p.b.afterReset, stateBeat := p.stateBeat
    presetUsed := p.presetUsed, preset := p.preset, cartMedia := p.cartMedia, cartClass := p.cartClass
    cartLen := p.cartLen, cartValid := p.cartValid, cable := p.cable }

/-- A port's counter bank after a reset: zero, with REPROG set (R455). -/
def State.zeroBank (s : State) (n : Nat) : State :=
  (bankCounters n).foldl (fun (s : State) k =>
    s.setCounter k { s.counter k with run := 0, frozen := 0, wrap := false, reprog := true, startedLate := true }) s

/-- Every stripe of the port is DISABLED while a reset holds it. -/
def State.stopStripes (s : State) (n : Nat) : State :=
  (s.setStripeSt n .a .disabled).setStripeSt n .b .disabled

/-- The pacers of a port stand at 2,048 and its egress merges served the management controller last (R142, R146). -/
def State.resetEgress (s : State) (n : Nat) : State :=
  [2 * n, 2 * n + 1].foldl (fun (s : State) lp =>
    let s := s.setPace lp 2048
    { s with sw := { s.sw with served := sput s.sw.served lp 5 5 } }) s

/-- PORT begins (R142, R146, R165, R451): the port goes down, and its lanes, stripes, replay state, egress and counters are
cleared. -/
def State.clearPort (s : State) (n : Nat) : State :=
  let s := (s.port n).sides.foldl (fun (s : State) sd =>
    if ((s.port n).stripe sd).st = .up then s.stripeDown n sd 0 .disabled else s) s
  (((s.stopStripes n).updPort n PortSt.afterReset).zeroBank n).resetEgress n

/-- A port under SWITCH or MODULE: no frame is held and no fence raised (R454). -/
def State.wipePort (s : State) (n : Nat) : State := ((s.stopStripes n).updPort n PortSt.afterReset).zeroBank n

/-- An enabled port trains again from SEND when its reset ends (R341, R451). -/
def State.resumePort (s : State) (n : Nat) : State :=
  if !(s.port n).enabled then s
  else
    let here := s.present n
    (s.port n).sides.foldl (fun (s : State) sd => if here then s.enterSend n sd else s.setStripeSt n sd .absent) s

/-- The switch core with nothing queued, and the pool that the banks in service and the guarantees leave (R134, R396). -/
def State.emptySwitch (s : State) : Switch :=
  { resetSwitch with sharedFree := (4096 * s.bufBanks : Nat) - (s.guarSum : Nat) }

/-- Hold and fence state after SWITCH: the RW fields are kept (R456). -/
def State.emptyRecov (s : State) : Recov :=
  { resetRecov with
    ports := s.recov.ports.foldl (fun m e => sput m e.1 { defaultRecov with holdBeats := e.2.holdBeats } defaultRecov) []
    fenceRetry := s.recov.fenceRetry, fenceLimit := s.recov.fenceLimit }

/-- The collective engine with no session; the RW fields and the clusters known to be bad are kept (R455, R456). -/
def Coll.emptied (c : Coll) : Coll :=
  { resetColl with
    retain := c.retain, syncLog2 := c.syncLog2, stallBeats := c.stallBeats, stageKib := c.stageKib, residueBad := c.residueBad }

/-- The engine resets: the frames at its entry are discarded, and every session is FREE (R285, R451). -/
def State.clearColl (s : State) : State :=
  let s := s.coll.entry.foldl (fun (s : State) x => s.dropColl x.lp x.frame) s
  { s with coll := s.coll.emptied, mgmt := { s.mgmt with markerWait := false } }

/-- The memory subsystem after MEMORY: content, allocations, slot map, poison, LOST marks and migration are kept, as are the RW
fields; the logs and counts are cleared (R455, R456). -/
def FabMem.afterReset (m : FabMem) : FabMem :=
  { m with
    poisonFull := false, lostSeen := false, eccLog := [], eccLost := 0, corrected := 0, uncorrected := 0
    stackRegs := (List.range 13).foldl (fun l n =>
      let x := sget l n (defaultStack n)
      sput l n { x with temp := 0, ue := 0, ce := 0, ceDue := false } (defaultStack n)) m.stackRegs }

/-- The memory subsystem after MODULE: its RW fields return to their reset values as well (R455, R456). -/
def FabMem.afterModule (m : FabMem) : FabMem :=
  { m.afterReset with autoMigrate := true, noCopy := false, share := 1, ceThresh := 0x1000, ueThresh := 4 }

/-- SWITCH begins (R451, R454): no fence is raised, no marker leaves, and staged memory responses are discarded. -/
def State.clearSwitch (s : State) : State :=
  let s := (List.range 64).foldl (fun (s : State) n => s.wipePort n) s
  { s with
    sw := s.emptySwitch, recov := s.emptyRecov, coll := s.coll.emptied
    mem := { s.mem with waiting := [], reads := [] }, mgmt := { s.mgmt with markerWait := false } }

/-- The management controller after MANAGEMENT: LAST_EPOCH, SCRATCH and RESET_STATUS are kept, and no hold is left (R455,
R456). -/
def Mgmt.afterReset (m : Mgmt) : Mgmt :=
  { resetMgmt with
    lastEpoch := m.lastEpoch, imagesOpened := m.imagesOpened, scratch := m.scratch, lastScope := m.lastScope, cause := m.cause
    setter := m.setter, resetBeat := m.resetBeat, resets := m.resets, running := m.running, markerWait := m.markerWait }

/-- MANAGEMENT begins (R451, R455, R456). -/
def State.clearMgmt (s : State) : State :=
  { s with
    mgmt := s.mgmt.afterReset, ring := resetRing, agenda := resetAgenda
    side := { s.side with
      wdogBeats := 0x3D090, ibiEn := 0xFD, bmcAbsent := false, wdogCount := 0, absentSeen := false, ibiDue := false } }

/-- The port counter banks are zero with REPROG set, and the others as after reset (R455). -/
def State.clearCounters (s : State) : State :=
  let s := { s with ctr := resetCtr }
  (List.range 64).foldl (fun (s : State) n => s.zeroBank n) s

/-- The tables, the switch, the management registers and the counters of a module reset (R454). -/
def State.clearShared (s : State) : State :=
  let s := { s with tables := resetTables }
  s.clearSwitch.clearMgmt.clearCounters

/-- Every port is disabled and unsplit (R454). -/
def State.disablePorts (s : State) : State :=
  (List.range 64).foldl (fun (s : State) n => s.updPort n fun p => { p with enabled := false, split := false }) s

/-- MODULE begins (R451, R455, R456): SWITCH, MEMORY and MANAGEMENT, the tables, the counters, the ports' enables and modes,
CURVE_TARGET and the RW fields of every block but beat, power and sideband. -/
def State.clearModule (s : State) : State :=
  let s := s.clearShared.disablePorts
  { s with
    mem := s.mem.afterModule
    coll := { resetColl with residueBad := s.coll.residueBad }, recov := resetRecov
    mgmt := { s.mgmt with scratch := 0 }
    power := { s.power with curveTarget := s.curveTop }
    bist := { s.bist with
      slotWait := 0x100, gapBeats := 4, autoSpare := true, bufThresh := 4, dreyThresh := 4, run := none, slot := 0 } }

/-! ## The start of a reset (R97, R119, R451, R453) -/

/-- The tests that a reset covers stop with RESET, and nothing is left to restore (R383). -/
def State.stopForReset (s : State) (l : List Nat) : State :=
  let l := l.filter s.underTest
  let s := l.foldl (fun (s : State) tp => s.stopTest 8 tp) s
  (l.foldl (fun (s : State) tp => s.endRestore tp) s).abortCheck

/-- A collective marker still waits for an egress merge. -/
def State.markersWait (s : State) : Bool :=
  (s.sw.agentOut.any fun f => f.agent == 1 && f.hdr.ftype == 6)
    || s.sw.current.any fun e => match e.2 with
      | some c => (match c.agent with | some a => a.agent == 1 && a.hdr.ftype == 6 | none => false)
      | none => false

/-- COLLECTIVE begins: the open epochs abort with RESET, and the engine resets once the markers have left (R285, R451). -/
def State.beginColl (s : State) : State :=
  let s := s.collResetAborts
  if s.markersWait then { s with mgmt := { s.mgmt with markerWait := true } } else s.clearColl

/-- The stacks hold their content in self-refresh (R445). -/
def State.selfRefreshOn (s : State) : State := { s with pkg := { s.pkg with selfRefresh := true } }

/-- SB_FWD is driven: a change shows on the land (R420). -/
def State.setFwd (s : State) (high : Bool) : State :=
  if s.pkg.sbFwd = high then s else { s with pkg := { s.pkg with sbFwd := high } }.emit (.sbFwd high)

/-- A staged reset starts at the beat count in force. -/
def State.startReset (s : State) (r : ResetReq) : State :=
  let now := s.beat.count
  let s := s.stopForReset (coverParts r.scope r.unit)
  let s := s.finishAll (fun w => w.inScope r.scope r.unit) stAborted 0xFF0C
  let s := { s with mgmt := { s.mgmt with
    resets := s.mgmt.resets.filter (· != r), running := s.mgmt.running ++ [{ r with start := now }], lastScope := r.scope
    cause := 2, setter := r.setter, resetBeat := now } }
  match r.scope with
  | 1 => s.clearPort r.unit
  | 2 => s.clearSwitch
  | 3 => { s with mem := s.mem.afterReset, pkg := { s.pkg with selfRefresh := true } }
  | 4 => s.beginColl
  | 5 => s.clearMgmt.setFwd false
  | _ => s.clearModule.selfRefreshOn.setFwd false

/-- The duration of a scope in 0.25 ns units (R451). -/
def resetLength : Nat → Nat
  | 1 => 4000
  | 2 => 160000
  | 3 => 8000000
  | 4 => 32000
  | 5 => 80000
  | _ => 8400000

/-- The first boundary after a running reset has ended, at the present beat length (R451, R452). -/
def State.beatAfter (s : State) (r : ResetReq) : Beat := r.start + BitVec.ofNat 48 (resetLength r.scope / s.beat.length.toNat + 1)

/-- A reset that waited starts at the beat that its reply gave, or at the next boundary when that has passed or followed a
COLLECTIVE reset, whose end its markers decide (R118, R452; log entry 5). -/
def State.dueReset (s : State) (after : Nat) (x : ResetReq) : ResetReq :=
  let start := if after ≠ 4 ∧ beatFuture s.beat.count x.start = true then x.start else s.beat.count + 1
  { x with waits := false, start := start, since := s.beat.localBeats + (start - s.beat.count - 1).toNat }

/-- The oldest running reset ends, and its units resume; resets that wait for the end have their boundary ahead (R451, R452). -/
def State.endReset (s : State) : State :=
  match s.mgmt.running with
  | [] => s
  | r :: rest =>
    let s := if r.scope = 4 ∧ s.mgmt.markerWait = true then s.clearColl else s
    let waiting := if rest.isEmpty then
        s.mgmt.resets.map fun x => if x.waits then s.dueReset r.scope x else x
      else s.mgmt.resets
    let s := { s with
      mgmt := { s.mgmt with running := rest, resets := waiting }
      pkg := { s.pkg with selfRefresh := s.pkg.selfRefresh && r.scope != 3 && r.scope != 6 } }
    match r.scope with
    | 1 => s.resumePort r.unit
    | 2 => (List.range 64).foldl (fun (s : State) n => s.resumePort n) s
    | 5 => { s with side := { s.side with wdogCount := 0 } }.setFwd (!s.mgmtInReset)
    | 6 => { s with side := { s.side with wdogCount := 0 } }.setFwd (!s.mgmtInReset)
    | _ => s

/-! ## Reset land and power-on (R444 to R449, R455, R456) -/

/-- The roles of the units of a kind from the fuse marks: the lowest usable units serve, the others are spare (R395). -/
def fuseRoles (fuses : List (Nat × Nat)) (kind units service spare : Nat) : SMap Role :=
  let usable := (List.range units).filter fun n => !fuses.contains (kind, n)
  (List.range units).foldl (fun m n =>
    let r : Role := if !usable.contains n then .unusable else if (usable.take service).contains n then .inService else .spare
    sput m n r (defaultRole spare n)) []

/-- Badger and Burrow after a reset land, before the fuse array is read: marks that wait to be blown are kept (R395, R455). -/
def Bist.afterLand (b : Bist) : Bist :=
  { resetBist with fuses := b.fuses, toBlow := b.toBlow, rc := b.rc, buf := b.buf, drey := b.drey, portUnusable := b.portUnusable, changes := b.changes }

/-- The package while a land holds the module; SB_FWD is low (R420). -/
def Pkg.atLand (p : Pkg) (ph : Phase) : Pkg := { p with phase := ph, selfRefresh := true, sbFwd := false }

/-- What a reset land leaves (R445, R455): fabric memory content, slot map, poison, LOST marks and migration, LAST_EPOCH and the
fuses; everything else is as after reset. -/
def State.landReset (s : State) : State :=
  { State.reset with
    pkg := s.pkg.atLand .rst
    mem := { resetMem with
      cells := s.mem.cells, powerOns := s.mem.powerOns, slotMap := s.mem.slotMap, stackRegs := s.mem.afterReset.stackRegs
      migSt := s.mem.migSt, migNoCopy := s.mem.migNoCopy, migCause := s.mem.migCause, migSlot := s.mem.migSlot
      migFrom := s.mem.migFrom, migTo := s.mem.migTo, progress := s.mem.progress, poison := s.mem.poison
      lostSlots := s.mem.lostSlots, lostCleared := s.mem.lostCleared, lostGranules := s.mem.lostGranules }
    mgmt := { resetMgmt with lastEpoch := s.mgmt.lastEpoch, imagesOpened := s.mgmt.imagesOpened, cause := 1 }
    ports := s.ports.foldl (fun m e =>
      sput m e.1 { defaultPort with a := e.2.a.afterReset, b := e.2.b.afterReset } defaultPort) []
    bist := s.bist.afterLand
    side := resetSide s.pkg.trayPos, out := s.out ++ (if s.pkg.sbFwd then [.sbFwd false] else []), draws := s.draws, pending := s.pending }

/-- What POR_N low leaves (R444, R455): nothing but the fuses and the land levels; the content of fabric memory is open. -/
def State.powerOnReset (s : State) : State :=
  { State.reset with
    pkg := { s.pkg.atLand .por with rolesTaken := false }
    mem := { resetMem with powerOns := s.mem.powerOns + 1 }
    bist := { resetBist with fuses := s.bist.fuses }
    mgmt := { resetMgmt with imagesOpened := s.mgmt.imagesOpened }
    side := resetSide s.pkg.trayPos, out := s.out ++ (if s.pkg.sbFwd then [.sbFwd false] else []), draws := s.draws, pending := s.pending }

/-- An instruction of the test access port that holds the module (R485). -/
def tapHolds (code : BitVec 8) : Bool := code == 0x00 || code == 0x03 || code == 0x04 || code == 0x40
/-- A land or the test access port holds the module in reset. -/
def State.heldInReset (s : State) : Bool := s.pkg.porLow || s.pkg.rstLow || tapHolds s.pkg.tap

/-- RST_N goes low, or an instruction that acts like it is loaded (R445, R485). -/
def State.holdLand (s : State) : State := if s.pkg.porLow then s else s.landReset

/-- The sequence of R447 starts when nothing holds the module any more; a land that cut a power-on short leaves the stacks' roles to
be taken (R395). -/
def State.startSequence (s : State) (land : Bool) : State :=
  if s.heldInReset then { s with pkg := { s.pkg with phase := if s.pkg.porLow then .por else .rst } }
  else { s with pkg := { s.pkg with phase := .fuses, fromLand := land && s.pkg.rolesTaken }, mgmt := { s.mgmt with cause := b2n land } }

/-- The straps as sampled at a rising edge (R428, R446). -/
def State.sampleStraps (s : State) (trayPos : Nat) (bist : Bool) : State :=
  { s with
    pkg := { s.pkg with trayPos := trayPos, bistStrap := bist }
    side := { s.side with staticAddr := BitVec.ofNat 7 (0x30 + trayPos) } }

/-- The key store is zeroised: every slot EMPTY, ZEROISED set, LAST_EPOCH kept (R384). -/
def State.zeroise (s : State) : State :=
  let later := s.mgmt.deferred.map fun d => ({ d with keyKept := false } : Deferred)
  let s := { s with mgmt := { s.mgmt with keys := [], deferred := later } }
  s.updBist fun b => { b with zeroised := true }

/-- Load an instruction of the test access port (R384, R484, R485). -/
def State.loadTap (s : State) (code : BitVec 8) : State :=
  let was := tapHolds s.pkg.tap
  let s := { s with pkg := { s.pkg with tap := code } }
  let s := if tapHolds code && !was then s.holdLand else s
  let s := if code = 0x40 then s.zeroise else s
  if was && !tapHolds code then s.startSequence true else s

/-- The units take their roles from the fuse array, and the lane marks are cleared (R395, R447 step 1); after a power-on the slot
map is built from the stacks in service (R190). -/
def State.readFuses (s : State) : State :=
  let f := s.bist.fuses ++ s.bist.toBlow
  let s := s.updBist fun b => { b with
    rc := fuseRoles f 2 26 24 24, buf := fuseRoles f 3 132 128 128, drey := fuseRoles f 4 99 96 96, txBad := [], rxBad := []
    portUnusable := BitVec.ofNat 64 (maskOf ((List.range 64).filter fun n => f.contains (5, n))) }
  let s := { s with sw := s.emptySwitch, pkg := { s.pkg with rolesTaken := true } }
  if s.pkg.fromLand then s
  else
    let usable := (List.range 13).filter fun n => !f.contains (1, n)
    let serving := usable.take 12
    let retired := (List.range 13).filter fun n => f.contains (1, n)
    let short := (List.range 12).filter fun k => decide (serving.length ≤ k)
    let s := (List.range 13).foldl (fun (s : State) n =>
      s.setRole n (if retired.contains n then .retired else if serving.contains n then .inService else .spare)) s
    let s := s.updMem fun m => { m with
      slotMap := (List.range 12).map fun k => serving.getD k (retired.getLastD 0) }
    short.foldl (fun (s : State) k => s.loseSlot k) s

/-- A stack has failed training (R448): RETIRED in the fuse array; the spare takes its slot, after a land as a NOCOPY migration;
without a usable stack the slot keeps it and is marked LOST. -/
def State.failStack (s : State) (bad : List Nat) (n : Nat) : State :=
  let slot := s.mem.slotMap.findIdx (· == n)
  let s := if s.bist.fuses.contains (1, n) then s
    else (s.updBist fun b => { b with fuses := b.fuses ++ [(1, n)] }).emit (.fuse 1 n)
  let s := (s.setStack n { s.stack n with dead := true }).changeStack n .retired
  let toward := s.migrating && s.mem.migTo == n
  if toward then (s.changeStack s.mem.migFrom .inService).updMem fun m => { m with migSt := .idle, migNoCopy := false }
  else if 12 ≤ slot then s
  else match firstBelow 13 fun k => ((s.stack k).role == .spare || (s.stack k).role == .target) && !bad.contains k with
    | none => s.loseSlot slot
    | some sp =>
      let s := (s.changeStack sp .inService).updMem fun m => { m with slotMap := m.slotMap.set slot sp }
      if s.pkg.fromLand then
        (s.loseSlot slot).updMem fun m => { m with
          migSt := .nocopyDone, migCause := true, migSlot := slot, migFrom := n, migTo := sp, migNoCopy := false }
      else s

/-- A partition's result of the power-on self-test acts as for any run; every bank of a half has been marched (R447, R449). -/
def State.powerOnTest (s : State) (tp : Nat) (te : TestEnd) : State :=
  let s := (s.startTest tp).endTest tp { te with banks := (halfBanks tp).length } true 0
  s.endRestore tp

/-- The power-on self-test runs the slots of the stagger table's reset contents: the last of them stands in BIST_STATUS, with the beat
of its start, which the manual does not fix (R387, R401, R447 step 2b; log entry 5). -/
def State.powerOnSlots (s : State) : State :=
  let (w, s) := s.draw
  s.updBist fun b => { b with
    slot := ((List.range 95).map fun n => entrySlot (s.entry 8 n)).foldl max 0, slotBeat := w.truncate 48 }

end Sys2Proof.Machine
end

