-- ==== Sys2Proof/Machine/Resets.lean ====
section
/-! DEFINITION. Resets: the RESET opcodes (R118, R119, R451 to R453), the lands, the power-on sequence (R443 to R449), the test
access port (R384, R484, R485) and the thermal trip (R489). -/

namespace Sys2Proof.Machine

/-! ## RESET (R118, R119, R452, R453) -/

/-- A RESET that lies within no other is staged (R119, R452): for the next boundary, or for the one after the running reset; only the
end of a COLLECTIVE reset, which waits for its markers, is an open value (log entry 5). -/
def State.stageReset (s : State) (c : Cmd) (scope unit : Nat) : State :=
  let code : BitVec 16 := BitVec.ofNat 16 (srcCode c.src + 4 * c.origin)
  let waits := !s.mgmt.running.isEmpty
  let (w, s') := s.draw
  let (s, start) :=
    match s.mgmt.running.getLast?, s.mgmt.resets.find? fun x => x.waits with
    | none, _ => (s, s.beat.count + 1)
    | some _, some x => (s, x.start)
    | some r, none => if r.scope = 4 then (s', w.truncate 48) else (s, s.beatAfter r)
  let r : ResetReq := { scope := scope, unit := unit, setter := code, start := start, waits := waits, since := s.beat.localBeats }
  let kept := s.mgmt.resets.filter fun x =>
    !(resetWithin x.scope x.unit scope unit && x.waits == waits && (waits || x.since == r.since))
  ({ s with mgmt := { s.mgmt with resets := kept ++ [r] } }).ok c 0x0F00 (beatBytes start)

/-- The effect of RESET: within another reset it answers that one's start beat and adds nothing (R452). -/
def State.runReset (s : State) (c : Cmd) (scope unit : Nat) : State :=
  if (busyParts scope unit).any s.underTest then s.deny c 0x0F00 stBusyTest 0
  else match (s.mgmt.running ++ s.mgmt.resets).find? fun x => resetWithin scope unit x.scope x.unit with
    | some x => s.ok c 0x0F00 (beatBytes x.start)
    | none => s.stageReset c scope unit

/-- RESET scope 1 (R118, R451). -/
def execResetPort (c : Cmd) (unit : Byte) (s : State) : Out :=
  s.opcode (.resetPort c unit) c 0x0F00 (s.runReset c 1 unit.toNat)
/-- RESET scope 2 (R118, R451). -/
def execResetSwitch (c : Cmd) (unit : Byte) (s : State) : Out := s.opcode (.resetSwitch c unit) c 0x0F00 (s.runReset c 2 0)
/-- RESET scope 3 (R118, R451). -/
def execResetMemory (c : Cmd) (unit : Byte) (s : State) : Out := s.opcode (.resetMemory c unit) c 0x0F00 (s.runReset c 3 0)
/-- RESET scope 4 (R118, R451). -/
def execResetCollective (c : Cmd) (unit : Byte) (s : State) : Out :=
  s.opcode (.resetCollective c unit) c 0x0F00 (s.runReset c 4 0)
/-- RESET scope 5 (R118, R451). -/
def execResetManagement (c : Cmd) (unit : Byte) (s : State) : Out :=
  s.opcode (.resetManagement c unit) c 0x0F00 (s.runReset c 5 0)
/-- RESET scope 6 (R118, R451). -/
def execResetModule (c : Cmd) (unit : Byte) (s : State) : Out := s.opcode (.resetModule c unit) c 0x0F00 (s.runReset c 6 0)

/-- RESET_STATUS (R118, R453). -/
def execResetStatus (c : Cmd) (s : State) : Out :=
  let m := s.mgmt
  let data := leBytes 1 m.lastScope ++ leBytes 1 m.cause ++ leBytes 2 m.setter.toNat ++ beatBytes m.resetBeat ++ zeros 6
  s.opcode (.resetStatus c) c 0x0F01 (s.ok c 0x0F01 data)

/-- RESET_START (R119, R452): the oldest reset whose boundary has come starts, after the steps of R53. -/
def execResetStart (s : State) : Out :=
  if !s.live || s.beat.stepsDue then .next s
  else match s.mgmt.resets.find? fun r => !r.waits && decide (r.since < s.beat.localBeats) with
    | none => .next s
    | some r => .next (s.startReset r)

/-- RESET_MARKER_WAIT_EXPIRY (R451): 16 beats after its start, COLLECTIVE waits no longer for its markers. -/
def execResetMarkerWaitExpiry (s : State) : Out :=
  let due := s.mgmt.running.any fun r => r.scope == 4 && decide (16 ≤ (s.beat.count - r.start).toNat)
  if s.live && s.mgmt.markerWait && due then .next s.clearColl else .next s

/-- RESET_END (R451, R452): the duration of the oldest running reset ends; COLLECTIVE's begins when its markers have left. -/
def execResetEnd (s : State) : Out :=
  let held := (s.mgmt.running.head?.map ResetReq.scope) == some 4 && s.mgmt.markerWait && s.markersWait
  if !s.live || held then .next s else .next s.endReset

/-! ## Lands (R443 to R446) -/

/-- POR_N_FALL (R444, R455): every unit is held in reset. -/
def execPorNFall (s : State) : Out :=
  if s.pkg.porLow then .next s
  else
    let t := s.powerOnReset
    .next { t with pkg := { t.pkg with porLow := true } }

/-- POR_N_RISE (R444, R446, R447): the power-on sequence starts; a low pulse shorter than 1 us has undefined effect. -/
def execPorNRise (trayPos : Fin 4) (bistStrap : Bool) (lowLongEnough : Bool) (s : State) : Out :=
  if !s.pkg.porLow then .next s
  else if !lowLongEnough then .fault .undefinedPorPulse
  else
    let t := { s with pkg := { s.pkg with porLow := false } }
    .next ((t.sampleStraps trayPos.val bistStrap).startSequence false)

/-- RST_N_ASSERT (R445, R452): a reset-land reset at once. -/
def execRstNAssert (s : State) : Out :=
  if s.pkg.rstLow then .next s
  else
    let t := s.holdLand
    .next { t with pkg := { t.pkg with rstLow := true } }

/-- RST_N_RELEASE (R445, R446): the sequence starts at step 1. -/
def execRstNRelease (trayPos : Fin 4) (bistStrap : Bool) (s : State) : Out :=
  if !s.pkg.rstLow then .next s
  else
    let t := { s with pkg := { s.pkg with rstLow := false } }
    .next ((t.sampleStraps trayPos.val bistStrap).startSequence true)

/-- RAIL_LEAVES_REGULATION (R443, R489): the content of fabric memory is lost with a stack supply; THERMTRIP_N is released when
VAUX falls below 10 %. -/
def execRailLeavesRegulation (rail : Rail) (belowTenPercent : Bool) (s : State) : Out :=
  if rail = .vmpp ∨ rail = .vmdd ∨ rail = .vmq then
    .next (s.updMem fun m => { m with cells := [], powerOns := m.powerOns + 1 })
  else if rail = .vaux ∧ belowTenPercent = true ∧ s.pkg.tripped = true then
    .next ({ s with pkg := { s.pkg with tripped := false } }.emit (.thermtrip false))
  else .next s

/-- PERST_N_ASSERT (R450, R480): it resets the endpoint's link as the PCIe base specification says, and nothing of the module. -/
def execPerstNAssert (s : State) : Out := .next s

/-- THERMTRIP (R489): the core clock stops, the stacks enter self-refresh, and nothing is sent any more. -/
def execThermtrip (s : State) : Out :=
  if s.pkg.tripped then .next s
  else .next ({ s with pkg := { s.pkg with tripped := true, selfRefresh := true } }.emit (.thermtrip true) |>.setFwd false)

/-! ## The power-on sequence (R447 to R449) -/

/-- The sequence may go on. -/
def State.sequencing (s : State) : Bool := !s.pkg.tripped && !s.heldInReset

/-- FUSE_READ_DONE (R190, R395, R447 step 1). -/
def execFuseReadDone (s : State) : Out :=
  if s.sequencing ∧ s.pkg.phase = .fuses then
    let t := s.readFuses
    .next { t with pkg := { t.pkg with phase := .testing (!s.pkg.bistStrap) false } }
  else .next s

/-- POWER_ON_SELF_TEST_DONE (R384, R385, R447 step 2, R449): the key store is zeroised, and the results of the partitions act. -/
def execPowerOnSelfTestDone (results : List (Nat × TestEnd)) (s : State) : Out :=
  match s.pkg.phase with
  | .testing false train =>
    if !s.sequencing then .next s
    else
      let t := (results.foldl (fun (s : State) r => s.powerOnTest r.1 r.2) s.zeroise).powerOnSlots
      .next { t with pkg := { t.pkg with phase := .testing true train } }
  | _ => .next s

/-- STACK_TRAINING_DONE (R447 step 3, R448). -/
def execStackTrainingDone (failed : List Nat) (s : State) : Out :=
  match s.pkg.phase with
  | .testing bist false =>
    if !s.sequencing then .next s
    else
      let t := failed.foldl (fun (s : State) n => s.failStack failed n) s
      .next { t with pkg := { t.pkg with phase := .testing bist true } }
  | _ => .next s

/-- MANAGEMENT_READY (R447 step 4, R450): all four sources open. -/
def execManagementReady (s : State) : Out :=
  if s.sequencing ∧ s.pkg.phase = .testing true true then
    .next ({ s with pkg := { s.pkg with phase := .ready, selfRefresh := false } }.setFwd true)
  else .next s

/-! ## The test access port (R384, R445, R484, R485) -/

/-- TRST_N_ASSERT (R445, R484): only the port is reset; a held module is released. -/
def execTrstNAssert (s : State) : Out := .next (s.loadTap 0x01)
/-- TAP_EXTEST (R485). -/
def execTapExtest (s : State) : Out := .next (s.loadTap 0x00)
/-- TAP_IDCODE (R484). -/
def execTapIdcode (s : State) : Out := .next (s.loadTap 0x01)
/-- TAP_SAMPLE_PRELOAD (R484). -/
def execTapSamplePreload (s : State) : Out := .next (s.loadTap 0x02)
/-- TAP_CLAMP (R485). -/
def execTapClamp (s : State) : Out := .next (s.loadTap 0x03)
/-- TAP_HIGHZ (R485). -/
def execTapHighz (s : State) : Out := .next (s.loadTap 0x04)
/-- TAP_SCAN_ACCESS (R384, R485): the key store is zeroised before any chain shifts. -/
def execTapScanAccess (s : State) : Out := .next (s.loadTap 0x40)
/-- TAP_BYPASS (R484): BYPASS, or a reserved code, which selects it. -/
def execTapBypass (code : TapCode) (s : State) : Out :=
  if [0x00, 0x01, 0x02, 0x03, 0x04, 0x40].contains code then .next s else .next (s.loadTap code)
/-- TAP_INSTRUCTION_RELEASE (R485): another instruction replaces a holding one, and the sequence runs with CAUSE 1. -/
def execTapInstructionRelease (code : TapCode) (s : State) : Out :=
  if tapHolds s.pkg.tap && !tapHolds code then .next (s.loadTap code) else .next s

end Sys2Proof.Machine
end

