-- ==== Sys2Proof/Machine/CommandPath.lean ====
section
/-! DEFINITION. COMMAND_DISPATCH: the rotation among sources and origins (R66, R67), the arrival checks (R63 to R65, R82) and
the opcode that an accepted packet runs (log entry 9). -/

namespace Sys2Proof.Machine

/-! ## The rotation (R66, R67) -/

/-- The sources in turn after the one served last. -/
def sourcesAfter : Src → List Src
  | .sb => [.i3c, .pcie, .tc7, .sb]
  | .i3c => [.pcie, .tc7, .sb, .i3c]
  | .pcie => [.tc7, .sb, .i3c, .pcie]
  | .tc7 => [.sb, .i3c, .pcie, .tc7]

/-- The pairs of a source in turn: TC7 origins ascending after the one served last. -/
def State.pairsInTurn (s : State) (src : Src) : List (Src × Nat) :=
  match src with
  | .tc7 => (List.range 128).map fun k => (.tc7, (s.mgmt.lastOrigin + 1 + k) % 128)
  | src => [(src, 0)]

/-- The packet of a pair that may start: its oldest, unless 16 deferred commands are outstanding, or it has FENCE and one is
(R59, R66). -/
def State.readyPacket (s : State) (pair : Nat) : Option Packet :=
  match s.mgmt.arrivals.find? fun p => p.pair == pair with
  | none => none
  | some p =>
    let n := s.deferredOf pair
    if 16 ≤ n ∨ (pktFence p.bytes = true ∧ n ≠ 0) then none else some p

/-- The next command to start (R67). -/
def State.nextPacket (s : State) : Option ((Src × Nat) × Packet) :=
  (((sourcesAfter s.mgmt.lastSource).map s.pairsInTurn).flatten).findSome? fun k =>
    (s.readyPacket (pairOf k.1 k.2)).map fun p => (k, p)

/-- The controller takes a packet. -/
def State.takePacket (s : State) (k : Src × Nat) : State :=
  { s with mgmt := { s.mgmt with
      arrivals := dropFirst (fun p => p.pair == pairOf k.1 k.2) s.mgmt.arrivals
      lastSource := k.1
      lastOrigin := if k.1 = .tc7 then k.2 else s.mgmt.lastOrigin } }

/-! ## Arrival checks (R63) -/

/-- The maximum LENGTH of a source (R69, R72). -/
def State.lengthLimit (s : State) : Src → Nat
  | .pcie => slotBytes s.ring.cmdSlot
  | .sb => 512
  | _ => 4096

/-- Step 1: LENGTH breaks R60 or differs from the bytes delivered. -/
def State.lengthBad (s : State) (src : Src) (p : Packet) : Bool :=
  let n := pktLength p.bytes
  let auth := bitAt (byteField p.bytes 1 1) 0
  p.tooLong || decide (p.bytes.length < 32) || n % 4 != 0 || decide (n < if auth then 48 else 32)
    || decide (s.lengthLimit src < n) || n != p.bytes.length

/-- Step 2: SRC_KIND and ORIGIN name the source that delivered the packet. -/
def senderBad (src : Src) (origin : Nat) (b : Bytes) : Bool := byteField b 8 1 != srcCode src || byteField b 12 2 != origin

/-- Step 3: authentication as the source requires (R82, R84). -/
def State.authBad (s : State) (c : Cmd) (b : Bytes) : Bool :=
  if c.auth then
    let k := s.key c.keySlot
    let body := b.take (b.length - 16)
    !k.loaded || !permits k.mask.toNat c.src || b.drop (b.length - 16) != gcmTag (keyBytes k) (gcmIv c false k.epoch) body
  else permits s.mgmt.authReq.toNat c.src

/-- Step 4: SEQ lies in the sequence window (R64). -/
def State.inWindow (s : State) (pair : Nat) (seq : BitVec 32) : Bool :=
  match sget s.mgmt.lastSeq pair none with
  | none => true
  | some q => 1 ≤ (seq - q).toNat && (seq - q).toNat < 2 ^ 31

/-- An I3C packet that passes step 3 ends the controller's absence (R437, R439). -/
def State.seeController (s : State) (src : Src) : State :=
  match src with
  | .i3c => { s with side := { s.side with wdogCount := 0, bmcAbsent := false } }
  | _ => s

/-- The completed reply to a SEQ that the reply store of the pair holds (R65, R69, R76): on PCIe the most recent slot of
another command. -/
def State.storedReply (s : State) (c : Cmd) : Option Reply :=
  match c.src with
  | .pcie =>
    let l := (s.ring.slots.map (·.2)).filter fun x =>
      x.index != c.index && x.reply.status != stPending && x.reply.cmd.seq == c.seq
    let age (x : RingSlot) : Nat := (s.ring.head.toNat + 2 ^ 32 - x.index % 2 ^ 32) % 2 ^ 32
    ((sortBy (fun x y => decide (age x ≤ age y)) l).head?).map RingSlot.reply
  | src =>
    (s.mgmt.stores.reverse.find? fun e =>
      e.pair == pairOf src c.origin && !e.dup && e.reply.status != stPending && e.reply.cmd.seq == c.seq).map Stored.reply

/-- A stored reply for the slot that returns it again: its tag covers PHASE (R85), so on PCIe it is made anew for a slot of the other
PHASE while the slot's key is still the one that made it (log entry 69). -/
def State.retag (s : State) (r : Reply) (index : Nat) : Reply :=
  let moved : Reply := { r with replayed := true, cmd := { r.cmd with index := index } }
  let k := s.key r.cmd.keySlot
  if !r.tag.isEmpty && k.loaded && (tagReply k (s.replyPhase r.cmd) r).tag == r.tag then tagReply k (s.replyPhase moved.cmd) moved
  else moved

/-- A packet outside the window: the stored reply again with REPLAYED, else DENIED_STATE (R65). -/
def State.replay (s : State) (c : Cmd) (op : BitVec 16) : State :=
  match s.storedReply c with
  | some r => s.deliver (s.retag r c.index) true
  | none => s.completeAs true c op true stDeniedState 0 []

/-! ## The opcodes -/

/-- Run the row that an accepted packet of the groups 0x00 to 0x02 spells. -/
def runLow (i : Instr) (s : State) : Option Out :=
  match i with
  | .identityRead c => some (execIdentityRead c s)
  | .cwRead c a n => some (execCwRead c a n s)
  | .cwWrite c a n t v => some (execCwWrite c a n t v s)
  | .cwModify c a m v => some (execCwModify c a m v s)
  | .noticeRead c m => some (execNoticeRead c m s)
  | .tableImageOpen c t n => some (execTableImageOpen c t n s)
  | .tableImageWrite c h o d => some (execTableImageWrite c h o d s)
  | .tableImageSeal c h => some (execTableImageSeal c h s)
  | .tableStage c h t => some (execTableStage c h t s)
  | .tableImageDiscard c h => some (execTableImageDiscard c h s)
  | .tableRead c t f n => some (execTableRead c t f n s)
  | .tableStatus c t => some (execTableStatus c t s)
  | .tableImageList c f m => some (execTableImageList c f m s)
  | .hold c k d => some (execHold c k d s)
  | .release c k d => some (execRelease c k d s)
  | .beatStatusRead c => some (execBeatStatusRead c s)
  | .beatRootSet c r t => some (execBeatRootSet c r t s)
  | .beatPeriodSet c p t => some (execBeatPeriodSet c p t s)
  | .agendaStageCwWrite c t a b => some (execAgendaStageCwWrite c t a b s)
  | .agendaStagePowerStep c t a b => some (execAgendaStagePowerStep c t a b s)
  | .agendaStageBistStop c t a b => some (execAgendaStageBistStop c t a b s)
  | .agendaStageBistStart c t a b => some (execAgendaStageBistStart c t a b s)
  | .agendaStageMark c t a b => some (execAgendaStageMark c t a b s)
  | .agendaCancel c e o => some (execAgendaCancel c e o s)
  | .agendaRead c f n => some (execAgendaRead c f n s)
  | _ => none

/-- The same for the groups 0x03 to 0x05. -/
def runMid (i : Instr) (s : State) : Option Out :=
  match i with
  | .portStatus c p => some (execPortStatus c p s)
  | .portAdminDisable c p m => some (execPortAdminDisable c p m s)
  | .portAdminEnable c p m => some (execPortAdminEnable c p m s)
  | .portAdminRetrain c p m => some (execPortAdminRetrain c p m s)
  | .portSleep c p d => some (execPortSleep c p d s)
  | .portWake c p d => some (execPortWake c p d s)
  | .laneStatus c p => some (execLaneStatus c p s)
  | .eyeScan c p l h v d => some (execEyeScan c p l h v d s)
  | .eqOverride c p l e => some (execEqOverride c p l e s)
  | .spareSwap c p d l => some (execSpareSwap c p d l s)
  | .spareRestore c p d l => some (execSpareRestore c p d l s)
  | .cartRead c b d p o n => some (execCartRead c b d p o n s)
  | .cartWrite c b d p o n x => some (execCartWrite c b d p o n x s)
  | .switchStatus c => some (execSwitchStatus c s)
  | .voqRead c i o k => some (execVoqRead c i o k s)
  | .creditRead c l => some (execCreditRead c l s)
  | .portDrain c l k t => some (execPortDrain c l k t s)
  | .heldDiscard c p => some (execHeldDiscard c p s)
  | .memStatus c => some (execMemStatus c s)
  | .memAlloc c n o => some (execMemAlloc c n o s)
  | .memFree c o => some (execMemFree c o s)
  | .memFill c o n p => some (execMemFill c o n p s)
  | .memRead c o n => some (execMemRead c o n s)
  | .memWrite c o n d => some (execMemWrite c o n d s)
  | .eccLogRead c m => some (execEccLogRead c m s)
  | _ => none

/-- The same for the groups 0x06 to 0x0F. -/
def runHigh (i : Instr) (s : State) : Option Out :=
  match i with
  | .sessionOpen c d g f m q => some (execSessionOpen c d g f m q s)
  | .sessionClose c d => some (execSessionClose c d s)
  | .sessionCloseForce c d => some (execSessionCloseForce c d s)
  | .sessionStatus c d => some (execSessionStatus c d s)
  | .sessionList c f => some (execSessionList c f s)
  | .engineStatus c => some (execEngineStatus c s)
  | .powerStatus c => some (execPowerStatus c s)
  | .ceilingSet c w => some (execCeilingSet c w s)
  | .hostRequestSet c w => some (execHostRequestSet c w s)
  | .telemetryRead c f => some (execTelemetryRead c f s)
  | .bistRun c p t => some (execBistRun c p t s)
  | .bistResult c p => some (execBistResult c p s)
  | .bistAbort c p => some (execBistAbort c p s)
  | .spareStatus c => some (execSpareStatus c s)
  | .spareBringInStack c u => some (execSpareBringInStack c u s)
  | .spareBringIn c k u => some (execSpareBringIn c k u s)
  | .ctrRead c b f n => some (execCtrRead c b f n s)
  | .ctrSelect c b i e => some (execCtrSelect c b i e s)
  | .ctrWindowSet c b w => some (execCtrWindowSet c b w s)
  | .sampleConfig c b i p e => some (execSampleConfig c b i p e s)
  | .sampleRead c m => some (execSampleRead c m s)
  | .keyLoad c k m f e x => some (execKeyLoad c k m f e x s)
  | .keyClear c k => some (execKeyClear c k s)
  | .keyStatus c => some (execKeyStatus c s)
  | .authReqSet c b => some (execAuthReqSet c b s)
  | .tc7AllowSet c a => some (execTc7AllowSet c a s)
  | .authFailRead c => some (execAuthFailRead c s)
  | .resetPort c u => some (execResetPort c u s)
  | .resetSwitch c u => some (execResetSwitch c u s)
  | .resetMemory c u => some (execResetMemory c u s)
  | .resetCollective c u => some (execResetCollective c u s)
  | .resetManagement c u => some (execResetManagement c u s)
  | .resetModule c u => some (execResetModule c u s)
  | .resetStatus c => some (execResetStatus c s)
  | _ => none

/-- Run the row that an accepted packet spells. -/
def runOpcode (i : Instr) (s : State) : Out :=
  match runLow i s with
  | some o => o
  | none => match runMid i s with
    | some o => o
    | none => (runHigh i s).getD (.next s)

/-- Steps 7 to 9 for a packet whose opcode and length are right: the first field in error answers BAD_PARAM (R62, R63). -/
def State.runParams (s : State) (c : Cmd) (op : BitVec 16) (b p : Bytes) : Out :=
  let body := (paramReserved op.toNat p).map (· + 32)
  match parseParams c op.toNat p with
  | none => .next (s.completeAs false c op true stBadOpcode 0 [])
  | some (.bad off) =>
    .next (s.complete c op true stBadParam ((minOff (minOff (hdrReserved b) body) (some (off + 32))).getD 0) [])
  | some (.row i) =>
    match minOff (minOff (hdrReserved b) body) (s.paramError i) with
    | some off => .next (s.complete c op true stBadParam off [])
    | none => runOpcode i s

/-- The checks of R63 in order, and the command. -/
def State.runPacket (s : State) (src : Src) (origin : Nat) (p : Packet) : Out :=
  let b := p.bytes
  let c := parseCmd src origin p.index b
  let op : BitVec 16 := BitVec.ofNat 16 (pktOpcode b)
  let plain := { c with auth := false }
  if s.lengthBad src p then .next (s.complete plain op true stBadLength (expectLength op.toNat c.auth) [])
  else if byteField b 0 1 ≠ 1 then .next (s.complete plain op true stBadParam 0 [])
  else if senderBad src origin b ∨ s.authBad c b then .next (s.complete plain op true stDeniedAuth 0 [])
  else
    let s := s.seeController src
    let pair := pairOf src origin
    if !s.inWindow pair c.seq then .next (s.replay c op)
    else
      let s := { s with mgmt := { s.mgmt with lastSeq := sput s.mgmt.lastSeq pair (some c.seq) none } }
      let params := slice b 32 (b.length - 32 - 16 * b2n c.auth)
      if !sourceMay op.toNat src params then .next (s.complete c op true stBadOpcode 0 [])
      else if !lengthOk op.toNat params then .next (s.complete c op true stBadLength (expectLength op.toNat c.auth) [])
      else s.runParams c op b params

/-! ## COMMAND_DISPATCH (R66 to R68) -/

/-- The resets whose boundary has come start between commands (R452). -/
def State.startResets (s : State) : State :=
  s.mgmt.resets.foldl (fun (s : State) _ =>
    match s.mgmt.resets.find? fun r => !r.waits && decide (r.since < s.beat.localBeats) with
    | none => s
    | some r => s.startReset r) s

/-- What is due at a command boundary: steps 2 to 6 of R53, then the resets (R68, R452). -/
def State.commandBoundary (s : State) : State := (if s.beat.stepsDue then s.boundarySteps else s).startResets

/-- COMMAND_DISPATCH (R63, R66 to R68). -/
def execCommandDispatch (s : State) : Out :=
  if !s.isOpen then .next s
  else
    let s := s.commandBoundary
    if !s.isOpen then .next s
    else match s.nextPacket with
      | none => .next s
      | some (k, p) => (s.takePacket k).runPacket k.1 k.2 p

end Sys2Proof.Machine
end

