-- ==== Sys2Proof/Machine/Counters.lean ====
section
/-! DEFINITION. The counters' own events (R412 to R417). -/

namespace Sys2Proof.Machine

/-- WINDOW_CLOSE (R413): the window of a bank that ends at this boundary closes. -/
def execWindowClose (bank : Fin 65) (s : State) : Out :=
  if s.live && s.beat.stepsDue then .next (s.endWindow bank.val) else .next s

/-- CTR_SELECT_APPLY (R412). -/
def execCtrSelectApply (counter : Fin 1280) (s : State) : Out :=
  if s.live && s.beat.stepsDue then .next (s.applySelect counter.val) else .next s

/-- WINDOW_SET_APPLY (R413). -/
def execWindowSetApply (bank : Fin 65) (s : State) : Out :=
  if s.live && s.beat.stepsDue then .next (s.applyWindow bank.val) else .next s

/-- SAMPLE_CAPTURE (R415, R416): the record of the oldest expiry of a counter, with its context when one has come. -/
def execSampleCapture (bank : Byte) (index : Byte) (s : State) : Out :=
  if bankBad bank.toNat || bankSize bank.toNat ≤ index.toNat then .next s
  else
  let n := counterOf bank.toNat index.toNat
  let c := s.counter n
  match c.due with
  | [] => .next s
  | x :: rest =>
    if !s.live then .next s
    else
      let event := bitsAt (s.eventEntry n) 63 48
      let (kind, unit, most) := skidOf event
      let r : Sample :=
        { bank := if n < 1024 then n / 16 else 0xFF, kind := if x.isSome then kind else 0,
          index := if n < 1024 then n % 16 else n - 1024, event := BitVec.ofNat 16 event, skidUnit := unit, skidMax := most,
          beat := s.beat.count, value := s.counterWord n, context := x }
      .next ((s.setCounter n { c with due := rest }).pushSample r)

end Sys2Proof.Machine
end

