-- ==== Sys2Proof/Machine/Links.lean ====
section
/-! DEFINITION. Link training: the clock, header lock, alignment, exchange and UP (R332 to R339), failed attempts (R340),
presence (R341) and the received blocks (R302 to R304). -/

namespace Sys2Proof.Machine

/-- Whether Burrow has marked the RX lane bad (R397). -/
def State.rxLaneBad (s : State) (port lane : Nat) : Bool := bitAt (sget s.bist.rxBad port 0).toNat lane

/-- RX_CLOCK_LOCK (R332): RX.CK locks for a port with a stripe in SEND; a clock that returns under a lane change is trained
(R353). -/
def execRxClockLock (port : Port) (s : State) : Out :=
  let n := port.val
  let p := s.port n
  if !s.lineOk n || s.rxLaneBad n 9 then .next s
  else if p.sides.any fun sd => (p.stripe sd).hunting then
    let s := s.updPort n fun p => { p with clockLocked := true }
    .next (p.sides.foldl (fun s sd => s.updStripe n sd fun x => { x with energySeen := true }) s)
  else match p.rxJob with
    | some j => if j.lane = 9 ∧ j.sent = 1 then .next (s.setPort n { p with rxJob := some { j with locked := true } }) else .next s
    | none => .next s

/-- CK_ON_SP_TIMEOUT (R332): the RX takes its clock from RX.SP. -/
def execCkOnSpTimeout (port : Port) (s : State) : Out :=
  let n := port.val
  let p := s.port n
  if s.lineOk n && !p.clockLocked && s.rxSpareIdle n && (p.sides.any fun sd => (p.stripe sd).hunting) then
    let s := (s.updPort n fun p => { p with clockLocked := true, ckOnSp := true }).setRxSp n 9
    .next (p.sides.foldl (fun s sd => s.updStripe n sd fun x => { x with energySeen := true }) s)
  else .next s

/-- The physical lanes of the set that a stripe in SEND must lock (R334). -/
def huntSet (split : Bool) (sd : Side) (x : Stripe) : List Nat :=
  if x.rxw = 0 then stripeLanes split sd else x.rxLanes.map fun k => if x.spWant = k then 8 else k

/-- A stripe in SEND enters ALIGN once every lane of its set is locked (R334). -/
def State.tryAlign (s : State) (port : Nat) (sd : Side) : State :=
  let p := s.port port
  let x := p.stripe sd
  if x.st = .send ∧ (huntSet p.split sd x).all (fun k => bitAt x.locked.toNat k) = true then
    let full := stripeLanes p.split sd
    let s := s.updStripe port sd fun x =>
      if x.rxw = 0 then { x with rxw := full.length, rxFirst := full.headD 0 } else x
    (s.setStripeSt port sd .align).sendTraining port sd
  else s

/-- LANE_HEADER_LOCK (R333, R334): a data lane, or the spare asked for, locks, the spare in ALIGN too when a lane was lost there
(R335); a LANE_ID that names another lane is counted.
Under traffic the spare or the returning lane of a lane change locks (R351). -/
def execLaneHeaderLock (port : Port) (side : Side) (lane : Fin 9) (laneId : BitVec 4) (s : State) : Out :=
  let n := port.val
  let k := lane.val
  let p := s.port n
  let x := p.stripe side
  let mismatch := s.updPort n fun p => { p with trainFails := satAdd 255 p.trainFails 1 }
  if !s.lineOk n || s.rxLaneBad n k || (side == .b && !p.split) then .next s
  else if x.hunting = true ∨ (x.st = .align ∧ k = 8) then
    let mine := if k = 8 then decide (x.spWant < 8) else (stripeLanes p.split side).contains k
    if !p.clockLocked || !mine then .next s
    else if laneId.toNat ≠ k then .next mismatch
    else
      let s := s.updStripe n side fun x => { x with locked := x.locked ||| BitVec.ofNat 9 (1 <<< k) }
      .next ((s.sendTraining n side).tryAlign n side)
  else match p.rxJob with
    | some j =>
      if x.st = .up ∧ j.side = side ∧ j.sent = 1 ∧ k = (if j.restore then j.lane else 8) then
        if laneId.toNat ≠ k then .next mismatch
        else .next (s.setPort n { p with rxJob := some { j with locked := true } })
      else .next s
    | none => .next s

/-- Lanes of a stripe in training are lost: the spare is asked for, or the width is halved (R334, R349). -/
def State.settleLanes (s : State) (port : Nat) (side : Side) (lanes bad : List Nat) : State :=
  match resolveLanes (s.rxSpareIdle port) lanes bad with
  | none => s
  | some (sp, half) =>
    let set := half.getD lanes
    let s := s.updStripe port side fun x => { x with
      rxw := set.length, rxFirst := set.headD 0, spWant := sp.getD (if set.contains x.spWant then x.spWant else 15) }
    let s := match sp with
      | some k => (s.setRxSp port k).updPort port fun p => { p.freshLane 8 with rxDropped := p.rxDropped ||| BitVec.ofNat 10 (1 <<< k) }
      | none => s
    s.sendTraining port side

/-- T_LANE_WAIT_EXPIRY (R334, R349): the lanes not yet locked are lost: the spare is asked for, the width is halved, or the
stripe goes on hunting until T_HUNT. -/
def execTLaneWaitExpiry (port : Port) (side : Side) (s : State) : Out :=
  let n := port.val
  let p := s.port n
  let x := p.stripe side
  if !s.lineOk n || !x.hunting || x.locked == 0 || x.rxw != 0 then .next s
  else
    let lanes := stripeLanes p.split side
    .next ((s.settleLanes n side lanes (lanes.filter fun k => !bitAt x.locked.toNat k)).tryAlign n side)

/-- TX.SP sends for a role; it starts at RD- when it was unpowered (R298, R334). -/
def PortSt.spareOn (p : PortSt) : PortSt :=
  { p with spOff := false, txRd := if p.lanePowered true 8 then p.txRd else clearLanes p.txRd [8] }

/-- The role of TX.SP follows the partner's records, which power it down when they ask nothing of it (R332, R334). -/
def State.followSpare (s : State) (port : Nat) (sd : Side) (r : TrainRec) : State :=
  let p := s.port port
  let want := if r.ckOnSp then 9 else r.spWant.toNat % 16
  let mine := p.txSp = 15 ∨ p.txSp = 9 ∨ laneSide p.split p.txSp = sd
  if ¬mine then s
  else if want = 15 then (s.updPort port fun p => { p with spOff := true }).setTxSp port 15
  else if want = 9 then (s.updPort port PortSt.spareOn).setTxSp port 9
  else if want < 8 ∧ laneSide p.split want = sd then
    ((s.updPort port PortSt.spareOn).setTxSp port want).updPort port fun p =>
      { p with txDropped := p.txDropped ||| BitVec.ofNat 10 (1 <<< want) }
  else s

/-- The skew of a stripe's lanes, in 0.25 ns units, that the deskew buffers of 1,280 UI can take (R335). -/
def deskewUnits : Int := 40

/-- A good record in ALIGN shows when its lane delivers a block: the latest of lanes that deliver one BLOCK_COUNT further apart than
the deskew buffers reach is treated as lost (R335). -/
def State.noteArrival (s : State) (port : Nat) (sd : Side) (lane : Nat) (r : TrainRec) (arrival : BitVec 32) : State :=
  let p := s.port port
  let x := p.stripe sd
  if x.st ≠ .align ∨ (huntSet p.split sd x).contains lane = false then s
  else
    let l := (x.arrivals.filter fun y => y.1 != lane) ++ [(lane, r.blockCount, arrival)]
    let same := (l.filter fun y => y.2.1 == r.blockCount).map fun y => (y.1, (y.2.2 - arrival).toInt)
    let late := same.foldl (fun (a : Nat × Int) y => if a.2 < y.2 then y else a) (lane, 0)
    let early := same.foldl (fun (a : Int) y => min a y.2) 0
    let s := s.updStripe port sd fun x => { x with arrivals := l }
    if late.2 - early ≤ deskewUnits then s
    else
      let k := if late.1 = 8 then x.spWant else late.1
      (s.updStripe port sd fun x => { x with
        arrivals := [], locked := x.locked &&& ~~~(BitVec.ofNat 9 (1 <<< late.1)) }).settleLanes port sd x.rxLanes [k]

/-- The middle of a list of numbers, the mean of the two middle ones when they are even in number; times two (R337). -/
def medianTwice (l : List Nat) : Nat :=
  let m := sortBy (fun a b : Nat => decide (a ≤ b)) l
  m.getD ((m.length - 1) / 2) 0 + m.getD (m.length / 2) 0

/-- A record of the partner in EXCHANGE whose version and mode agree: flags, READY records, the return and the round trip
(R337 to R339). -/
def Stripe.exchange (x : Stripe) (samples : Nat) (r : TrainRec) (arrival : BitVec 32) : Stripe :=
  let seq := r.rxNext.toNat
  let x : Stripe := { x with
    peerAligned := r.rxAligned, seenEpoch := r.localEpoch, peerWidth := r.rxWidth.toNat, peerFirst := r.rxFirst.toNat
    peerNext := seq
    readySeen := if r.phase = 5 then x.readySeen + 1 else x.readySeen
    resumed := x.replayValid && r.replayValid && x.peerEpoch == r.localEpoch && r.peerEpoch == x.localEpoch
      && decide (seqDist x.acked seq ≤ seqDist x.acked x.txNext) }
  if x.lastEcho = some r.echoStamp ∨ samples ≤ x.rtts.length then x
  else
    let rtts := x.rtts ++ [(arrival - r.echoStamp - r.turn).toNat]
    let x := { x with rtts := rtts, lastEcho := some r.echoStamp }
    if rtts.length = samples then { x with linkDelay := medianTwice rtts / 4, delayKnown := true } else x

/-- TRAINING_RECORD (R331, R336 to R339). -/
def execTrainingRecord (port : Port) (side : Side) (lane : Fin 9) (record : TrainRec) (arrival : BitVec 32) (s : State) :
    Out :=
  let n := port.val
  let p := s.port n
  let x := p.stripe side
  if !s.lineOk n || (side == .b && !p.split) || !x.training then .next s
  else if !record.crcGood || !record.reservedZero then .next (s.codeErrors n lane.val 1)
  else
    let s := s.updStripe n side fun x => { x with stampIn := record.stamp, stampAt := arrival, peerTSyms := record.tSyms }
    let s := (s.followSpare n side record).noteArrival n side lane.val record arrival
    if x.st ≠ .exchange then .next s
    else if record.version ≠ 1 then .next (s.failAttempt n side 5)
    else if record.split ≠ p.split then .next (s.failAttempt n side 4)
    else
      let before := s.phaseOf x
      let s := s.updStripe n side fun x => x.exchange (s.timing 6) record arrival
      .next (if s.phaseOf ((s.port n).stripe side) = before then s else s.sendTraining n side)

/-- ALIGN_CONFIRMED (R335): the stripe enters EXCHANGE; under traffic the trained spare or returning lane is aligned, and
READY is sent (R351). -/
def execAlignConfirmed (port : Port) (side : Side) (s : State) : Out :=
  let n := port.val
  let p := s.port n
  let x := p.stripe side
  if !s.lineOk n then .next s
  else if x.st = .align then
    if (huntSet p.split side x).any fun k => !bitAt x.locked.toNat k then .next s
    else
    let s := s.updStripe n side fun x => { x with aligned := true }
    .next ((s.setStripeSt n side .exchange).sendTraining n side)
  else match p.rxJob with
    | some j =>
      if x.st = .up ∧ j.side = side ∧ j.sent = 1 ∧ j.locked = true then
        let m := s.laneBody n j.side j.lane j.hitless j.restore j.body.width.toNat j.body.first.toNat
        .next ((s.setPort n { p with rxJob := some { j with sent := 2, body := m } }).sendLane n j.side 2 m)
      else .next s
    | none => .next s

/-- A stripe enters UP (R136, R299, R338, R339, R340); its LP is up for the hold rule when the INIT flit has come as well (R168). -/
def State.stripeUp (s : State) (port : Nat) (sd : Side) : State :=
  let lp := lpOf port sd
  let x := (s.port port).stripe sd
  let others := (s.port port).anyUp
  let s := s.setStripeSt port sd .up
  let s := if x.resumed then s else s.dropReplay lp
  let s := s.updStripe port sd fun x => { x with
    txw := x.peerWidth, txFirst := x.peerFirst, trainRun := 0, zSeen := false, partFlit := [], flits := []
    localEpoch := if x.resumed then x.localEpoch else nextLinkEpoch x.localEpoch
    peerEpoch := if x.resumed then x.seenEpoch else nextLinkEpoch x.seenEpoch }
  let s := s.updPort port fun p =>
    let clear := stripeLanes p.split sd ++ (if others then [] else [8, 9])
    clear.foldl (fun (p : PortSt) k => p.setLane k { p.lane k with errors := 0, hdrErrs := 0, recent := [] })
      { p with backoffExp := 0 }
  let s := if x.resumed then (s.updStripe port sd fun y => y.ackTo x.peerNext).resend lp else s.putSync lp
  s.initCredits lp

/-- STRIPE_UP (R339): both sides have sent and received READY_BLOCKS READY records. -/
def execStripeUp (port : Port) (side : Side) (s : State) : Out :=
  let n := port.val
  let x := (s.port n).stripe side
  if s.lineOk n && x.st == .exchange && s.phaseOf x == 5 && decide (s.timing 7 ≤ x.readySeen)
      && [2, 4, 8].contains x.peerWidth then
    .next (s.stripeUp n side)
  else .next s

/-- T_HUNT_EXPIRY (R355, R356). -/
def execTHuntExpiry (port : Port) (side : Side) (s : State) : Out :=
  let x := (s.port port.val).stripe side
  if s.lineOk port.val && x.hunting then
    .next (s.failAttempt port.val side (if x.locked = 0 then 1 else 6))
  else .next s

/-- T_ALIGN_EXPIRY (R355, R356). -/
def execTAlignExpiry (port : Port) (side : Side) (s : State) : Out :=
  if s.lineOk port.val && ((s.port port.val).stripe side).st == .align then .next (s.failAttempt port.val side 2)
  else .next s

/-- T_EXCHANGE_EXPIRY (R355, R356). -/
def execTExchangeExpiry (port : Port) (side : Side) (s : State) : Out :=
  if s.lineOk port.val && ((s.port port.val).stripe side).st == .exchange then .next (s.failAttempt port.val side 3)
  else .next s

/-- BACKOFF_END (R340). -/
def execBackoffEnd (port : Port) (side : Side) (s : State) : Out :=
  if s.lineOk port.val && ((s.port port.val).stripe side).st == .backoff then .next (s.enterSend port.val side)
  else .next s

/-- ENERGY_DETECTED (R320, R340, R390): energy ends a backoff whose attempt saw none, and wakes a sleeping RX direction; on a
port under test it stops the test. -/
def execEnergyDetected (port : Port) (s : State) : Out :=
  let n := port.val
  let woken := s.live && s.bist.active.contains n && (s.port n).rxAsleep
  if woken then .next ((s.stopTest 7 n).updPort n fun p => { p with rxWaking := 1 })
  else if !s.lineOk n then .next s
  else
    let p := s.port n
    let s := if p.rxAsleep ∧ p.rxWaking = 0 then
        (s.setPort n { p with rxWaking := 1 }).emit (.lanesPower n .rx true)
      else s
    .next (p.sides.foldl (fun s sd =>
      let x := (s.port n).stripe sd
      if x.st = .backoff ∧ x.energySeen = false then s.enterSend n sd
      else if x.hunting then s.updStripe n sd fun x => { x with energySeen := true }
      else s) s)

/-- PRESENCE_SETTLED (R340, R356): the ABSENT stripes of a present port enter SEND with BACKOFF_EXP at 0. -/
def execPresenceSettled (port : Port) (s : State) : Out :=
  let n := port.val
  let p := s.port n
  if !s.lineOk n || !p.enabled || !s.present n then .next s
  else
    let absent := p.sides.filter fun sd => decide ((p.stripe sd).st = .absent)
    if absent.isEmpty then .next s
    else .next (absent.foldl (fun s sd => s.enterSend n sd) (s.setPort n { p with backoffExp := 0 }))

/-- A lane of a stripe in training loses header lock, or its clock recovery or phase tracker reports loss (R348). -/
def State.trainingLoss (s : State) (port : Nat) (sd : Side) (lane : Nat) : State :=
  let p := s.port port
  let x := p.stripe sd
  let clock := lane == (if p.ckOnSp then 8 else 9)
  let inSet := (huntSet p.split sd x).contains lane
  match x.st with
  | .send => if clock then s.updStripe port sd fun x => { x with locked := 0 }
    else s.updStripe port sd fun x => { x with locked := x.locked &&& ~~~(BitVec.ofNat 9 (1 <<< lane)) }
  | .align => if clock ∨ inSet then s.enterSend port sd else s
  | .exchange => if clock ∨ inSet then s.enterSend port sd else s
  | _ => s

/-- LANE_LOCK_LOSS (R348, R349). -/
def execLaneLockLoss (port : Port) (lane : Lane) (s : State) : Out :=
  let n := port.val
  let k := lane.val
  if !s.lineOk n then .next s
  else
    let p := s.port n
    let s := p.sides.foldl (fun s sd => s.trainingLoss n sd k) s
    let p := s.port n
    if p.anyUp then (if p.rxAsleep then .next s else .next (s.loseLane n k))
    else if k = (if p.ckOnSp then 8 else 9) then .next (s.setPort n { p with clockLocked := false })
    else .next s

/-! ## Received blocks (R302, R303, R304) -/

/-- What a block is after it has been decoded: the header taken, the lanes (by position) with a header error, the code errors
by position, the stream, and whether a partly received flit was dropped. -/
structure BlockDone where
  head : Nat
  headErrs : List Bool
  errs : List Nat
  read : BlockRead
  slip : Bool
  deriving DecidableEq, Repr

/-- Decide the header and read the payload of a decoded block. -/
def blockDone (part : Bytes) (syms : List (List (Option Nat))) : BlockDone :=
  let heads := syms.map fun l => l.getD 0 none
  let maj := majority heads
  let h := maj.getD 256
  let data := h = 256 ∨ h = 257
  let read := if data then readPayload (if h = 257 then [] else part) syms else { part := part, items := [], errs := [] }
  let errs := (List.range syms.length).map fun i =>
    let l := syms.getD i []
    b2n (l.getD 0 none).isNone
      + (if data then (read.errs.filter fun e => e == i).length else ((l.drop 1).filter fun x => x.isNone).length)
  { head := h, headErrs := heads.map fun x => maj.isNone || x != maj, errs := errs, read := read,
    slip := decide (h = 257) && !part.isEmpty }

/-- The lanes of a block by physical number, with their errors of this block and whether each loses lock (R299, R348). -/
def State.noteLanes (s : State) (port : Nat) (lanes : List (Nat × Option Bool × Bool × Nat)) : State × List Nat :=
  lanes.foldl (fun (acc : State × List Nat) x =>
    let l := ((acc.1).port port).lane x.1
    let run := if x.2.2.1 then l.hdrErrs + 1 else 0
    let recent := (x.2.2.2 :: l.recent).take (s.timing 12)
    let lost := decide (s.timing 13 ≤ run) || decide (s.timing 11 ≤ recent.sum)
    let l' : LaneSt := { l with
      rd := x.2.1, hdrErrs := if lost then 0 else run, recent := if lost then [] else recent }
    let s' := ((acc.1).updPort port fun p => p.setLane x.1 l').codeErrors port x.1 x.2.2.2
    (s', if lost then acc.2 ++ [x.1] else acc.2)) (s, [])

/-- The symbols of a block on one lane that carries no flit stream: its disparity is carried on and its code errors are counted
(R299, R330). -/
def State.laneBlockIn (s : State) (port lane : Nat) (symbols : List Level) : State :=
  let (syms, rd) := s.decodeLane false ((s.port port).lane lane).rd (dataGroups symbols)
  (s.updPort port fun p => p.setLane lane { p.lane lane with rd := rd }).codeErrors port lane
    (syms.filter fun x => x.isNone).length

/-- A block on the lanes of a stripe in training: code errors of its locked lanes and of the clock lane are counted; the records
that it carries come as TRAINING_RECORD (R299, R330, R331). -/
def State.trainingBlockIn (s : State) (port : Nat) (sd : Side) (lanes : List (List Level)) (clock : List Level) : State :=
  let p := s.port port
  let x := p.stripe sd
  let set := huntSet p.split sd x
  let s := if p.clockLocked then (s.decodeClock port (clockGroups clock)).2 else s
  if lanes.length ≠ set.length then s
  else (set.zip lanes).foldl (fun s y => if bitAt x.locked.toNat y.1 then s.laneBlockIn port y.1 y.2 else s) s

/-- RX_BLOCK (R289, R290, R299, R302 to R305, R320, R348): the symbols of one block on the lanes of a stripe, in the order of its
logical lanes, and what the clock lane has carried meanwhile beside the marker sequences, which come as MARKER_RECEIVED. -/
def execRxBlock (port : Port) (side : Side) (lanes : List (List Level)) (clock : List Level) (s : State) : Out :=
  let n := port.val
  let p := s.port n
  let x := p.stripe side
  if !s.lineOk n || (side == .b && !p.split) then .next s
  else if x.training then .next (s.trainingBlockIn n side lanes clock)
  else if x.st != .up || x.rxw == 0 || lanes.length != x.rxw || (p.rxAsleep && p.rxWaking != 2) then .next s
  else
    let phys := x.rxLanes.map p.physLane
    let decoded := (phys.zip lanes).map fun y => (y.1, s.decodeLane false (p.lane y.1).rd (dataGroups y.2))
    let b := blockDone x.partFlit (decoded.map fun y => y.2.1)
    if p.rxAsleep && b.head != 257 then
      .next ((phys.zip lanes).foldl (fun (s : State) y => s.laneBlockIn n y.1 y.2) (s.decodeClock n (clockGroups clock)).2)
    else
      let ck := s.decodeLane true (p.lane p.rxClock).rd (clockGroups clock)
      let ckNote := if clock.isEmpty then [] else [(p.rxClock, ck.2, false, (ck.1.filter fun x => x.isNone).length)]
      let (s, lost) := s.noteLanes n
        (((decoded.zip (b.headErrs.zip b.errs)).map fun y => (y.1.1, y.1.2.2, y.2.1, y.2.2)) ++ ckNote)
      let s := if p.rxAsleep then (s.updPort n fun p => { p with rxAsleep := false, rxWaking := 0 }).sleepCheck n else s
      let s := if b.slip then s.updPort n fun p => { p with slips := satAdd 255 p.slips 1 } else s
      let run := if b.head = 259 then x.trainRun + 1 else 0
      let s := s.updStripe n side fun x => { x with
        partFlit := b.read.part, flits := x.flits ++ (if b.slip then [.fault] else []) ++ b.read.items
        trainRun := run, zSeen := decide (b.head = 258) }
      if run ≠ 0 ∧ s.timing 4 ≤ run then .next (s.stripeDown n side 14 .send)
      else
        let s := s.takeFaults (lpOf n side)
        let p' := s.port n
        let asleep := ck.1.contains (some 264) || (p'.sides.all fun sd => (p'.stripe sd).st != .up || (p'.stripe sd).zSeen)
        if asleep then .next (s.rxSleep n) else .next (lost.foldl (fun s k => s.loseLane n k) s)

end Sys2Proof.Machine
end

