-- ==== Sys2Proof/Machine/Memory.lean ====
section
/-! DEFINITION. The fabric memory's events: requests (R194 to R206), stacks (R185, R212, R213, R218) and migration (R213 to
R216). -/

namespace Sys2Proof.Machine

/-- A MEM_REQ frame of an operation reaches the agent (R194, R195, R197, R201): it is answered FOREIGN or BAD_REQ, or waits at
the agent's entry and holds its cells there. Every such event brings a frame of a reserved operation too; a frame of another operation
or type is no such event. -/
def State.memArrive (s : State) (op : Nat) (lp : Nat) (foreign : Bool) (f : InFrame) : State :=
  let code := byteField f.content 0 1
  let mine := code == op || code == 0 || decide (6 < code)
  if !s.live || s.switchInReset || s.underTest 94 || f.hdr.ftype != 1 || !mine || !frameGiven f then s
  else match s.claim lp foreign f with
    | (s, none) => s
    | (s, some x) =>
      let r := memReqOf lp f x.id
      if foreign || s.side.fabricId == 0xFFFF || byteField f.content 4 2 != s.side.fabricId.toNat then
        (s.freeFrame lp f).answerMem r 2 0 []
      else if !memReqOk f r then (s.freeFrame lp f).answerMem r 3 0 []
      else s.updMem fun m => { m with waiting := m.waiting ++ [r] }

/-- MEM_REQ_READ (R195 to R197, R200). -/
def execMemReqRead (lp : Lp) (foreign : Bool) (frame : InFrame) (s : State) : Out :=
  .next (s.memArrive 1 lp.val foreign frame)
/-- MEM_REQ_WRITE (R195 to R197, R200). -/
def execMemReqWrite (lp : Lp) (foreign : Bool) (frame : InFrame) (s : State) : Out :=
  .next (s.memArrive 2 lp.val foreign frame)
/-- MEM_REQ_MCAST_READ (R195 to R197, R206). -/
def execMemReqMcastRead (lp : Lp) (foreign : Bool) (frame : InFrame) (s : State) : Out :=
  .next (s.memArrive 3 lp.val foreign frame)
/-- MEM_REQ_FADD (R195 to R197, R204). -/
def execMemReqFadd (lp : Lp) (foreign : Bool) (frame : InFrame) (s : State) : Out :=
  .next (s.memArrive 4 lp.val foreign frame)
/-- MEM_REQ_ADD (R195 to R197, R204). -/
def execMemReqAdd (lp : Lp) (foreign : Bool) (frame : InFrame) (s : State) : Out :=
  .next (s.memArrive 5 lp.val foreign frame)
/-- MEM_REQ_CSWAP (R195 to R197, R204). -/
def execMemReqCswap (lp : Lp) (foreign : Bool) (frame : InFrame) (s : State) : Out :=
  .next (s.memArrive 6 lp.val foreign frame)

/-- The memory request unit runs: no reset or test holds it (R376, R451). -/
def State.memRuns (s : State) : Bool := s.live && !s.memInReset && !s.switchInReset && !s.underTest 94

/-- MEM_REQUEST_ENTRY (R201, R202): the first waiting request of a logical port is carried out when it may be; the cells of
its frame are freed. -/
def execMemRequestEntry (lp : Lp) (ecc : EccReport) (s : State) : Out :=
  if !s.memRuns then .next s
  else match s.mem.waiting.find? fun r => r.lp == lp.val with
    | none => .next s
    | some r =>
      let s' := s.updMem fun m => { m with waiting := dropFirst (fun r => r.lp == lp.val) m.waiting }
      match s'.enterMem r ecc with
      | none => .next s
      | some t =>
        let k := s.stackOf (r.offset / 4096)
        .next ((t.freeCells r.lp r.tc r.cells).ctxUnit 2 k (.memory k r.op r.offset r.lp))

/-- MEM_FRAGMENT_READ (R200, R201, R206): the next fragment of a read, or its MDONE once every fragment has been sent. -/
def execMemFragmentRead (lp : Lp) (tag : BitVec 16) (ecc : EccReport) (s : State) : Out :=
  let mine (x : MemRead) : Bool := x.req.lp == lp.val && x.req.tag == tag
  if !s.memRuns then .next s
  else match s.mem.reads.find? mine with
    | none => .next s
    | some x =>
      let rest := s.updMem fun m => { m with reads := dropFirst mine m.reads }
      let keep (s : State) (y : MemRead) : State := s.updMem fun m => { m with
        reads := s.mem.reads.map fun z => if z = x then y else z }
      if x.next < x.req.fragments then
        if !s.fragmentFits x then .next s
        else
          let (s', y) := s.sendFragment x ecc
          if y.next < x.req.fragments ∨ x.req.op = 3 then .next (keep s' y)
          else .next ((rest.sendFragment x ecc).1)
      else if s.mcastPending x.req then .next s
      else .next (rest.sendMem x.req.lp x.req (if x.bad then 4 else 0) 0x0B x.req.offset 0 0 [])

/-- STACK_POLL (R212, R218): temperature and the counts of the stack's own error check and scrub. -/
def execStackPoll (stack : Fin 13) (temp : Byte) (corrected : BitVec 32) (uncorrected : Byte) (s : State) : Out :=
  let n := stack.val
  if !s.live then .next s
  else .next ((s.setStack n { s.stack n with temp := temp }).addErrors n corrected.toNat uncorrected.toNat)

/-- CE_WINDOW_END (R213, R218). -/
def execCeWindowEnd (s : State) : Out :=
  if !s.live then .next s
  else .next ((List.range 13).foldl (fun s n => s.setStack n { s.stack n with ce := 0 }) s)

/-- STACK_UNRESPONSIVE (R213). -/
def execStackUnresponsive (stack : Fin 13) (s : State) : Out :=
  if !s.live then .next s else .next (s.setStack stack.val { s.stack stack.val with dead := true })

/-- REFRESH_MANAGEMENT_REQUEST (R185): honoured at once; it leaves no trace in the state. -/
def execRefreshManagementRequest (stack : Fin 13) (s : State) : Out :=
  match stack with
  | _ => .next s

/-- MIGRATION_AUTO_START (R213): the lowest-numbered due stack. -/
def execMigrationAutoStart (s : State) : Out :=
  if !s.live || s.memInReset || !s.mem.autoMigrate || s.migrating then .next s
  else match firstBelow 13 s.stackDue, s.spareStack with
    | some n, some sp => .next (s.startMigration n sp true)
    | _, _ => .next s

/-- MIGRATION_GRANULE_COPIED (R214, R216, R409): uncorrected sectors of the source stay poisoned, or the granule is LOST; the copy
spends the granule's 64 places of the source. -/
def execMigrationGranuleCopied (uncorrected : List (Fin 64)) (s : State) : Out :=
  let m := s.mem
  if !s.live || s.memInReset || m.migSt != .copying || m.migNoCopy || decide (slotGranules ≤ m.progress) then .next s
  else
    let g := m.progress * 12 + m.migSlot
    let s := uncorrected.foldl (fun s k =>
      let sector := 64 * g + k.val
      let s := s.uncorrected sector
      if s.mem.poison.contains sector then s
      else s.updMem fun m => { m with lostGranules := addSorted m.lostGranules g, lostSeen := true }) s
    let s := (s.countGlobal 0x2102 none (some m.migFrom) 64).countGlobal 0x2100 none (some m.migFrom) 64
    .next (s.updMem fun m => { m with progress := m.progress + 1 })

/-- MIGRATION_COMPLETE (R215, R216): at the boundary after the copy. -/
def execMigrationComplete (s : State) : Out :=
  let m := s.mem
  if s.live && !s.memInReset && m.migSt == .copying && (m.migNoCopy || m.progress == slotGranules) then
    .next s.finishMigration
  else .next s

/-- MEM_CMD_COMPLETE (R108): the oldest memory command enters the ordering stage and completes. -/
def execMemCmdComplete (ecc : EccReport) (s : State) : Out :=
  if !s.memRuns then .next s
  else match s.mgmt.deferred.find? fun d => d.work.isMem with
    | none => .next s
    | some d =>
      let (s, st, data) := s.doMemWork d.work ecc
      .next (s.finishWork Work.isMem st 0 data)

end Sys2Proof.Machine
end

