-- ==== Sys2Proof/Machine/Recovery.lean ====
section
/-! DEFINITION. Recovery: a port that goes down (R165), the end of a hold (R168), fence notices and acknowledgements (R176 to
R180). -/

namespace Sys2Proof.Machine

/-- PORT_DOWN (R165, R182): the stripes that are UP go down with this cause, to ABSENT when presence is lost (R341), else to
SEND (R356). -/
def execPortDown (port : Port) (cause : Fin 16) (s : State) : Out :=
  let n := port.val
  if !s.live || cause.val == 0 then .next s
  else if cause.val = 7 then
    .next ((s.port n).sides.foldl (fun s sd =>
      if ((s.port n).stripe sd).st = .up then s.stripeDown n sd 7 .absent else s) s)
  else .next (s.portDownAll n cause.val)

/-- HOLD_EXPIRY (R166, R168): the holds of the port whose end has come end as EXPIRED. -/
def execHoldExpiry (port : Port) (s : State) : Out :=
  if !s.live then .next s
  else .next ([2 * port.val, 2 * port.val + 1].foldl (fun (s : State) lp =>
    if s.holdOf lp = .holding ∧ beatReached s.beat.count (s.holdEndOf lp) = true then (s.endHold lp 7).1 else s) s)

/-- FENCE_NOTICE_REPEAT (R176); a repeat that falls due while its LP is down waits for the link-up. -/
def execFenceNoticeRepeat (fence : Fin 4096) (s : State) : Out :=
  let f := s.fence fence.val
  if s.live && f.st == .active && !f.waits && decide (s.recov.fenceRetry.toNat ≤ (s.beat.count - f.noticed).toNat) then
    .next (s.sendFenceNotice fence.val true)
  else .next s

/-- An ACTIVE entry is acknowledged: frames admitted from now on pass (R178). -/
def State.ackFence (s : State) (n : Nat) : State :=
  s.setFence n { s.fence n with st := .draining, ackAt := s.sw.nextId }

/-- A FENCE_ACK matches its entry (R177, R178). -/
def ackMatches (f : Fence) (lp : Nat) (x : InFrame) : Bool :=
  let b := frameData x
  let fl := byteField b 1 1
  hdrCount x.hdr == 1 && byteField b 0 1 == 2 && fl < 8 && byteField b 3 1 == f.tc && byteField b 12 20 == 0
    && f.st == .active && f.source == lp && byteField b 8 1 == lp && x.hdr.tc.toNat == f.tc
    && byteField b 4 2 == f.dest.toNat && byteField b 6 2 == f.firstLost.toNat
    && byteField b 9 1 == (if f.mcast then f.target else 0) && bitAt fl 0 == f.wildcard && bitAt fl 1 == f.mcast

/-- FENCE_ACK_RECEIVED (R178): a NOTICE frame that is no matching acknowledgement is counted in BAD_ACKS. -/
def execFenceAckReceived (lp : Lp) (frame : InFrame) (s : State) : Out :=
  if !s.live || s.switchInReset || frame.hdr.ftype != 8 || !frameGiven frame then .next s
  else match s.claim lp.val false frame with
    | (s, none) => .next s
    | (s, some _) =>
      let s := s.freeFrame lp.val frame
      let n := byteField (frameData frame) 10 2
      if n < 4096 ∧ ackMatches (s.fence n) lp.val frame = true then .next (s.ackFence n)
      else .next { s with recov := { s.recov with badAcks := satAdd 0xFFFF s.recov.badAcks 1 } }

/-- A frame admitted before the acknowledgement of a fence entry is still in the module (R175). -/
def State.fenceBusy (s : State) (f : Fence) : Bool :=
  let old (inLp tc : Nat) (dest : BitVec 16) (target : Option Nat) (id : Nat) : Bool :=
    decide (id < f.ackAt) && fenceCovers f inLp tc dest target
  let st (target : Option Nat) (x : Staged) : Bool := old x.inLp x.hdr.tc.toNat x.hdr.dest target x.id
  (s.sw.frames.any fun q => old q.inLp q.tc q.hdr.dest (if q.inLp = q.outLp then some f.target else none) q.id)
    || (s.sw.slotFifo.any fun e => e.2.any (st none)) || (s.sw.mcFifo.any fun e => e.2.any (st (some e.1)))
    || (s.sw.current.any fun e => match e.2 with
      | some c => c.agent.isNone && st (if c.source = 2 then some e.1 else none) c.st
      | none => false)
    || (s.sw.diverted.any fun d => old d.lp d.frame.hdr.tc.toNat d.frame.hdr.dest none d.id)
    || (s.sw.arriving.any fun e => match e.2 with
      | .diverted d => old d.lp d.frame.hdr.tc.toNat d.frame.hdr.dest none d.id
      | _ => false)
    || (s.coll.entry.any fun d => old d.lp d.frame.hdr.tc.toNat d.frame.hdr.dest none d.id)
    || (s.mem.waiting.any fun r => old r.lp r.tc r.dest none r.id)

/-- FENCE_DRAINED (R175). -/
def execFenceDrained (fence : Fin 4096) (s : State) : Out :=
  let f := s.fence fence.val
  if s.live && f.st == .draining && !s.fenceBusy f then .next (s.setFence fence.val defaultFence) else .next s

/-- FENCE_RELEASE (R180, R181). -/
def execFenceRelease (fence : Fin 4096) (s : State) : Out :=
  if s.live && (s.fence fence.val).st == .active then .next (s.ackFence fence.val) else .next s

end Sys2Proof.Machine
end

