-- ==== Sys2Proof/Machine/Dispatch.lean ====
section
/-! DEFINITION. One arm per command: each calls the meaning of its row. -/

namespace Sys2Proof.Machine

/-- The effect of a command on everything but the queue. -/
def exec (i : Instr) (s : State) : Host.Outcome State Fault Refusal :=
  match i with
  | .porNRise trayPos bistStrap lowLongEnough => Sys2Proof.Machine.execPorNRise trayPos bistStrap lowLongEnough s
  | .rstNRelease trayPos bistStrap => Sys2Proof.Machine.execRstNRelease trayPos bistStrap s
  | .powerOnSelfTestDone results => Sys2Proof.Machine.execPowerOnSelfTestDone results s
  | .stackTrainingDone failed => Sys2Proof.Machine.execStackTrainingDone failed s
  | .tapBypass code => Sys2Proof.Machine.execTapBypass code s
  | .tapInstructionRelease code => Sys2Proof.Machine.execTapInstructionRelease code s
  | .beatBoundary detectorsLow => Sys2Proof.Machine.execBeatBoundary detectorsLow s
  | .markerReceived port arrival start groups => Sys2Proof.Machine.execMarkerReceived port arrival start groups s
  | .tableApply entry => Sys2Proof.Machine.execTableApply entry s
  | .agendaCwWrite entry => Sys2Proof.Machine.execAgendaCwWrite entry s
  | .powerStep entry => Sys2Proof.Machine.execPowerStep entry s
  | .bistStop entry => Sys2Proof.Machine.execBistStop entry s
  | .bistStart entry => Sys2Proof.Machine.execBistStart entry s
  | .beatRoot entry => Sys2Proof.Machine.execBeatRoot entry s
  | .beatPeriod entry => Sys2Proof.Machine.execBeatPeriod entry s
  | .mark entry => Sys2Proof.Machine.execMark entry s
  | .pcieCmdFetch slotBytes => Sys2Proof.Machine.execPcieCmdFetch slotBytes s
  | .cmdTailWrite value => Sys2Proof.Machine.execCmdTailWrite value s
  | .replyDoneWrite value => Sys2Proof.Machine.execReplyDoneWrite value s
  | .ringCfgWrite value => Sys2Proof.Machine.execRingCfgWrite value s
  | .ringBaseWrite reply value => Sys2Proof.Machine.execRingBaseWrite reply value s
  | .bar0Write offset value => Sys2Proof.Machine.execBar0Write offset value s
  | .tc7CmdFrame lp foreign frame => Sys2Proof.Machine.execTc7CmdFrame lp foreign frame s
  | .i3cCommand xfer packet => Sys2Proof.Machine.execI3cCommand xfer packet s
  | .i3cSelect seq => Sys2Proof.Machine.execI3cSelect seq s
  | .i3cPrivateRead endsEarly => Sys2Proof.Machine.execI3cPrivateRead endsEarly s
  | .entdaa addr => Sys2Proof.Machine.execEntdaa addr s
  | .setdasa static addr => Sys2Proof.Machine.execSetdasa static addr s
  | .setmwl length => Sys2Proof.Machine.execSetmwl length s
  | .setmrl length => Sys2Proof.Machine.execSetmrl length s
  | .rstact action => Sys2Proof.Machine.execRstact action s
  | .sbEnumSurvey wire => Sys2Proof.Machine.execSbEnumSurvey wire s
  | .sbEnumAssign wire => Sys2Proof.Machine.execSbEnumAssign wire s
  | .sbEnumCommit wire => Sys2Proof.Machine.execSbEnumCommit wire s
  | .sbEnumClear wire => Sys2Proof.Machine.execSbEnumClear wire s
  | .sbCmd wire => Sys2Proof.Machine.execSbCmd wire s
  | .sbRead wire => Sys2Proof.Machine.execSbRead wire s
  | .sbSelect wire => Sys2Proof.Machine.execSbSelect wire s
  | .sbSeqQuery wire => Sys2Proof.Machine.execSbSeqQuery wire s
  | .sbPoll wire => Sys2Proof.Machine.execSbPoll wire s
  | .sbFrameForward wire => Sys2Proof.Machine.execSbFrameForward wire s
  | .cartPresChange bus seated => Sys2Proof.Machine.execCartPresChange bus seated s
  | .mmbInt bus cables => Sys2Proof.Machine.execMmbInt bus cables s
  | .presencePoll bus cables => Sys2Proof.Machine.execPresencePoll bus cables s
  | .mmbTransferTimeout bus => Sys2Proof.Machine.execMmbTransferTimeout bus s
  | .mmbRetry bus cables => Sys2Proof.Machine.execMmbRetry bus cables s
  | .retimerPoll port statuses => Sys2Proof.Machine.execRetimerPoll port statuses s
  | .cartIdentityRead port page0 page acks => Sys2Proof.Machine.execCartIdentityRead port page0 page acks s
  | .rxClockLock port => Sys2Proof.Machine.execRxClockLock port s
  | .ckOnSpTimeout port => Sys2Proof.Machine.execCkOnSpTimeout port s
  | .laneHeaderLock port side lane laneId => Sys2Proof.Machine.execLaneHeaderLock port side lane laneId s
  | .tLaneWaitExpiry port side => Sys2Proof.Machine.execTLaneWaitExpiry port side s
  | .trainingRecord port side lane record arrival => Sys2Proof.Machine.execTrainingRecord port side lane record arrival s
  | .alignConfirmed port side => Sys2Proof.Machine.execAlignConfirmed port side s
  | .stripeUp port side => Sys2Proof.Machine.execStripeUp port side s
  | .tHuntExpiry port side => Sys2Proof.Machine.execTHuntExpiry port side s
  | .tAlignExpiry port side => Sys2Proof.Machine.execTAlignExpiry port side s
  | .tExchangeExpiry port side => Sys2Proof.Machine.execTExchangeExpiry port side s
  | .backoffEnd port side => Sys2Proof.Machine.execBackoffEnd port side s
  | .energyDetected port => Sys2Proof.Machine.execEnergyDetected port s
  | .presenceSettled port => Sys2Proof.Machine.execPresenceSettled port s
  | .laneLockLoss port lane => Sys2Proof.Machine.execLaneLockLoss port lane s
  | .rxBlock port side lanes clock => Sys2Proof.Machine.execRxBlock port side lanes clock s
  | .laneReqSpare port msg => Sys2Proof.Machine.execLaneReqSpare port msg s
  | .laneReady port msg => Sys2Proof.Machine.execLaneReady port msg s
  | .laneReqWidth port msg => Sys2Proof.Machine.execLaneReqWidth port msg s
  | .laneAsk port msg => Sys2Proof.Machine.execLaneAsk port msg s
  | .laneSwitched port msg => Sys2Proof.Machine.execLaneSwitched port msg s
  | .laneDone port msg => Sys2Proof.Machine.execLaneDone port msg s
  | .laneRefuse port msg => Sys2Proof.Machine.execLaneRefuse port msg s
  | .laneMsgRepeat port side => Sys2Proof.Machine.execLaneMsgRepeat port side s
  | .swapTimeout port dir => Sys2Proof.Machine.execSwapTimeout port dir s
  | .hitlessSwitch port => Sys2Proof.Machine.execHitlessSwitch port s
  | .hitlessAbandon port dir => Sys2Proof.Machine.execHitlessAbandon port dir s
  | .flitReceived lp flit => Sys2Proof.Machine.execFlitReceived lp flit s
  | .flitCrcError lp => Sys2Proof.Machine.execFlitCrcError lp s
  | .nakRepeat lp => Sys2Proof.Machine.execNakRepeat lp s
  | .nakReceived lp ackSeq next => Sys2Proof.Machine.execNakReceived lp ackSeq next s
  | .replayStartReceived lp ackSeq start => Sys2Proof.Machine.execReplayStartReceived lp ackSeq start s
  | .ackReceived lp ackSeq => Sys2Proof.Machine.execAckReceived lp ackSeq s
  | .ackTimeout lp => Sys2Proof.Machine.execAckTimeout lp s
  | .ackDue lp => Sys2Proof.Machine.execAckDue lp s
  | .creditFlitReceived lp init counts => Sys2Proof.Machine.execCreditFlitReceived lp init counts s
  | .sleepFlitWake port => Sys2Proof.Machine.execSleepFlitWake port s
  | .sleepFlitSleep port => Sys2Proof.Machine.execSleepFlitSleep port s
  | .sleepFlitRefuse port => Sys2Proof.Machine.execSleepFlitRefuse port s
  | .txSleepEnter port => Sys2Proof.Machine.execTxSleepEnter port s
  | .txAutoWake port => Sys2Proof.Machine.execTxAutoWake port s
  | .txWakeSettled port => Sys2Proof.Machine.execTxWakeSettled port s
  | .wakePreambleEnd port => Sys2Proof.Machine.execWakePreambleEnd port s
  | .rxWakeAlignTimeout port => Sys2Proof.Machine.execRxWakeAlignTimeout port s
  | .rxWakeSyncTimeout port => Sys2Proof.Machine.execRxWakeSyncTimeout port s
  | .sleepReqTimeout port => Sys2Proof.Machine.execSleepReqTimeout port s
  | .frameHeadIngress lp frame => Sys2Proof.Machine.execFrameHeadIngress lp frame s
  | .creditIssue lp => Sys2Proof.Machine.execCreditIssue lp s
  | .creditFlush lp => Sys2Proof.Machine.execCreditFlush lp s
  | .egressMergeSelect lp => Sys2Proof.Machine.execEgressMergeSelect lp s
  | .underrun lp => Sys2Proof.Machine.execUnderrun lp s
  | .portDown port cause => Sys2Proof.Machine.execPortDown port cause s
  | .holdExpiry port => Sys2Proof.Machine.execHoldExpiry port s
  | .fenceNoticeRepeat fence => Sys2Proof.Machine.execFenceNoticeRepeat fence s
  | .fenceAckReceived lp frame => Sys2Proof.Machine.execFenceAckReceived lp frame s
  | .fenceDrained fence => Sys2Proof.Machine.execFenceDrained fence s
  | .fenceRelease fence => Sys2Proof.Machine.execFenceRelease fence s
  | .memReqRead lp foreign frame => Sys2Proof.Machine.execMemReqRead lp foreign frame s
  | .memReqWrite lp foreign frame => Sys2Proof.Machine.execMemReqWrite lp foreign frame s
  | .memReqMcastRead lp foreign frame => Sys2Proof.Machine.execMemReqMcastRead lp foreign frame s
  | .memReqFadd lp foreign frame => Sys2Proof.Machine.execMemReqFadd lp foreign frame s
  | .memReqAdd lp foreign frame => Sys2Proof.Machine.execMemReqAdd lp foreign frame s
  | .memReqCswap lp foreign frame => Sys2Proof.Machine.execMemReqCswap lp foreign frame s
  | .memRequestEntry lp ecc => Sys2Proof.Machine.execMemRequestEntry lp ecc s
  | .memFragmentRead lp tag ecc => Sys2Proof.Machine.execMemFragmentRead lp tag ecc s
  | .stackPoll stack temp corrected uncorrected => Sys2Proof.Machine.execStackPoll stack temp corrected uncorrected s
  | .stackUnresponsive stack => Sys2Proof.Machine.execStackUnresponsive stack s
  | .refreshManagementRequest stack => Sys2Proof.Machine.execRefreshManagementRequest stack s
  | .migrationGranuleCopied uncorrected => Sys2Proof.Machine.execMigrationGranuleCopied uncorrected s
  | .collDescReceived lp foreign frame => Sys2Proof.Machine.execCollDescReceived lp foreign frame s
  | .collDataReceived lp foreign frame => Sys2Proof.Machine.execCollDataReceived lp foreign frame s
  | .abortAckReceived lp foreign frame => Sys2Proof.Machine.execAbortAckReceived lp foreign frame s
  | .nextEpochDescTakeUp sid => Sys2Proof.Machine.execNextEpochDescTakeUp sid s
  | .collEntryAdmit lp => Sys2Proof.Machine.execCollEntryAdmit lp s
  | .chunkFinish sid chunk => Sys2Proof.Machine.execChunkFinish sid chunk s
  | .resultFramePassed lp => Sys2Proof.Machine.execResultFramePassed lp s
  | .resultResend lp => Sys2Proof.Machine.execResultResend lp s
  | .chunkCommit sid chunk => Sys2Proof.Machine.execChunkCommit sid chunk s
  | .slotGroupDamaged sid chunk group kind => Sys2Proof.Machine.execSlotGroupDamaged sid chunk group kind s
  | .stallTimeout sid => Sys2Proof.Machine.execStallTimeout sid s
  | .powerSample watts => Sys2Proof.Machine.execPowerSample watts s
  | .bistPartitionDone part result => Sys2Proof.Machine.execBistPartitionDone part result s
  | .bistSlotDeadline ends => Sys2Proof.Machine.execBistSlotDeadline ends s
  | .bistRestore part => Sys2Proof.Machine.execBistRestore part s
  | .bankCopyDone kind copy => Sys2Proof.Machine.execBankCopyDone kind copy s
  | .spareAutoBringIn kind unit => Sys2Proof.Machine.execSpareAutoBringIn kind unit s
  | .windowClose bank => Sys2Proof.Machine.execWindowClose bank s
  | .ctrSelectApply counter => Sys2Proof.Machine.execCtrSelectApply counter s
  | .windowSetApply bank => Sys2Proof.Machine.execWindowSetApply bank s
  | .sampleCapture bank index => Sys2Proof.Machine.execSampleCapture bank index s
  | .sealComplete handle => Sys2Proof.Machine.execSealComplete handle s
  | .eyeScanComplete port lane counts => Sys2Proof.Machine.execEyeScanComplete port lane counts s
  | .cartTransferDone bus acked data => Sys2Proof.Machine.execCartTransferDone bus acked data s
  | .memCmdComplete ecc => Sys2Proof.Machine.execMemCmdComplete ecc s
  | .identityRead c => Sys2Proof.Machine.execIdentityRead c s
  | .cwRead c addr count => Sys2Proof.Machine.execCwRead c addr count s
  | .cwWrite c addr count spec values => Sys2Proof.Machine.execCwWrite c addr count spec values s
  | .cwModify c addr mask value => Sys2Proof.Machine.execCwModify c addr mask value s
  | .noticeRead c max => Sys2Proof.Machine.execNoticeRead c max s
  | .tableImageOpen c table length => Sys2Proof.Machine.execTableImageOpen c table length s
  | .tableImageWrite c handle offset data => Sys2Proof.Machine.execTableImageWrite c handle offset data s
  | .tableImageSeal c handle => Sys2Proof.Machine.execTableImageSeal c handle s
  | .tableStage c handle spec => Sys2Proof.Machine.execTableStage c handle spec s
  | .tableImageDiscard c handle => Sys2Proof.Machine.execTableImageDiscard c handle s
  | .tableRead c table first count => Sys2Proof.Machine.execTableRead c table first count s
  | .tableStatus c table => Sys2Proof.Machine.execTableStatus c table s
  | .tableImageList c first max => Sys2Proof.Machine.execTableImageList c first max s
  | .hold c kind id => Sys2Proof.Machine.execHold c kind id s
  | .release c kind id => Sys2Proof.Machine.execRelease c kind id s
  | .beatStatusRead c => Sys2Proof.Machine.execBeatStatusRead c s
  | .beatRootSet c root spec => Sys2Proof.Machine.execBeatRootSet c root spec s
  | .beatPeriodSet c period spec => Sys2Proof.Machine.execBeatPeriodSet c period spec s
  | .agendaStageCwWrite c spec paramA paramB => Sys2Proof.Machine.execAgendaStageCwWrite c spec paramA paramB s
  | .agendaStagePowerStep c spec paramA paramB => Sys2Proof.Machine.execAgendaStagePowerStep c spec paramA paramB s
  | .agendaStageBistStop c spec paramA paramB => Sys2Proof.Machine.execAgendaStageBistStop c spec paramA paramB s
  | .agendaStageBistStart c spec paramA paramB => Sys2Proof.Machine.execAgendaStageBistStart c spec paramA paramB s
  | .agendaStageMark c spec paramA paramB => Sys2Proof.Machine.execAgendaStageMark c spec paramA paramB s
  | .agendaCancel c entry order => Sys2Proof.Machine.execAgendaCancel c entry order s
  | .agendaRead c first count => Sys2Proof.Machine.execAgendaRead c first count s
  | .portStatus c port => Sys2Proof.Machine.execPortStatus c port s
  | .portAdminDisable c port mode => Sys2Proof.Machine.execPortAdminDisable c port mode s
  | .portAdminEnable c port mode => Sys2Proof.Machine.execPortAdminEnable c port mode s
  | .portAdminRetrain c port mode => Sys2Proof.Machine.execPortAdminRetrain c port mode s
  | .portSleep c port dirs => Sys2Proof.Machine.execPortSleep c port dirs s
  | .portWake c port dirs => Sys2Proof.Machine.execPortWake c port dirs s
  | .laneStatus c port => Sys2Proof.Machine.execLaneStatus c port s
  | .eyeScan c port lane hSteps vSteps dwell => Sys2Proof.Machine.execEyeScan c port lane hSteps vSteps dwell s
  | .eqOverride c port lane ctle => Sys2Proof.Machine.execEqOverride c port lane ctle s
  | .spareSwap c port dir lane => Sys2Proof.Machine.execSpareSwap c port dir lane s
  | .spareRestore c port dir lane => Sys2Proof.Machine.execSpareRestore c port dir lane s
  | .cartRead c bus dev page offset count => Sys2Proof.Machine.execCartRead c bus dev page offset count s
  | .cartWrite c bus dev page offset count data => Sys2Proof.Machine.execCartWrite c bus dev page offset count data s
  | .switchStatus c => Sys2Proof.Machine.execSwitchStatus c s
  | .voqRead c inLp outLp classes => Sys2Proof.Machine.execVoqRead c inLp outLp classes s
  | .creditRead c lp => Sys2Proof.Machine.execCreditRead c lp s
  | .portDrain c lp classes timeout => Sys2Proof.Machine.execPortDrain c lp classes timeout s
  | .heldDiscard c port => Sys2Proof.Machine.execHeldDiscard c port s
  | .memStatus c => Sys2Proof.Machine.execMemStatus c s
  | .memAlloc c size owner => Sys2Proof.Machine.execMemAlloc c size owner s
  | .memFree c offset => Sys2Proof.Machine.execMemFree c offset s
  | .memFill c offset size pattern => Sys2Proof.Machine.execMemFill c offset size pattern s
  | .memRead c offset count => Sys2Proof.Machine.execMemRead c offset count s
  | .memWrite c offset count data => Sys2Proof.Machine.execMemWrite c offset count data s
  | .eccLogRead c max => Sys2Proof.Machine.execEccLogRead c max s
  | .sessionOpen c sid mg flags members quota => Sys2Proof.Machine.execSessionOpen c sid mg flags members quota s
  | .sessionClose c sid => Sys2Proof.Machine.execSessionClose c sid s
  | .sessionCloseForce c sid => Sys2Proof.Machine.execSessionCloseForce c sid s
  | .sessionStatus c sid => Sys2Proof.Machine.execSessionStatus c sid s
  | .sessionList c first => Sys2Proof.Machine.execSessionList c first s
  | .engineStatus c => Sys2Proof.Machine.execEngineStatus c s
  | .powerStatus c => Sys2Proof.Machine.execPowerStatus c s
  | .ceilingSet c cap => Sys2Proof.Machine.execCeilingSet c cap s
  | .hostRequestSet c cap => Sys2Proof.Machine.execHostRequestSet c cap s
  | .telemetryRead c flags => Sys2Proof.Machine.execTelemetryRead c flags s
  | .bistRun c parts spec => Sys2Proof.Machine.execBistRun c parts spec s
  | .bistResult c part => Sys2Proof.Machine.execBistResult c part s
  | .bistAbort c part => Sys2Proof.Machine.execBistAbort c part s
  | .spareStatus c => Sys2Proof.Machine.execSpareStatus c s
  | .spareBringInStack c unit => Sys2Proof.Machine.execSpareBringInStack c unit s
  | .spareBringIn c kind unit => Sys2Proof.Machine.execSpareBringIn c kind unit s
  | .ctrRead c bank first count => Sys2Proof.Machine.execCtrRead c bank first count s
  | .ctrSelect c bank index event => Sys2Proof.Machine.execCtrSelect c bank index event s
  | .ctrWindowSet c bank window => Sys2Proof.Machine.execCtrWindowSet c bank window s
  | .sampleConfig c bank index period enable => Sys2Proof.Machine.execSampleConfig c bank index period enable s
  | .sampleRead c max => Sys2Proof.Machine.execSampleRead c max s
  | .keyLoad c slot mask flags epoch key => Sys2Proof.Machine.execKeyLoad c slot mask flags epoch key s
  | .keyClear c slot => Sys2Proof.Machine.execKeyClear c slot s
  | .keyStatus c => Sys2Proof.Machine.execKeyStatus c s
  | .authReqSet c bits => Sys2Proof.Machine.execAuthReqSet c bits s
  | .tc7AllowSet c allow => Sys2Proof.Machine.execTc7AllowSet c allow s
  | .authFailRead c => Sys2Proof.Machine.execAuthFailRead c s
  | .resetPort c unit => Sys2Proof.Machine.execResetPort c unit s
  | .resetSwitch c unit => Sys2Proof.Machine.execResetSwitch c unit s
  | .resetMemory c unit => Sys2Proof.Machine.execResetMemory c unit s
  | .resetCollective c unit => Sys2Proof.Machine.execResetCollective c unit s
  | .resetManagement c unit => Sys2Proof.Machine.execResetManagement c unit s
  | .resetModule c unit => Sys2Proof.Machine.execResetModule c unit s
  | .resetStatus c => Sys2Proof.Machine.execResetStatus c s
  | .rxWakeBlockAlignment port => Sys2Proof.Machine.execRxWakeBlockAlignment port s
  | .railLeavesRegulation rail belowTenPercent => Sys2Proof.Machine.execRailLeavesRegulation rail belowTenPercent s
  | .porNFall => Sys2Proof.Machine.execPorNFall s
  | .rstNAssert => Sys2Proof.Machine.execRstNAssert s
  | .fuseReadDone => Sys2Proof.Machine.execFuseReadDone s
  | .managementReady => Sys2Proof.Machine.execManagementReady s
  | .trstNAssert => Sys2Proof.Machine.execTrstNAssert s
  | .tapExtest => Sys2Proof.Machine.execTapExtest s
  | .tapIdcode => Sys2Proof.Machine.execTapIdcode s
  | .tapSamplePreload => Sys2Proof.Machine.execTapSamplePreload s
  | .tapClamp => Sys2Proof.Machine.execTapClamp s
  | .tapHighz => Sys2Proof.Machine.execTapHighz s
  | .tapScanAccess => Sys2Proof.Machine.execTapScanAccess s
  | .thermtrip => Sys2Proof.Machine.execThermtrip s
  | .perstNAssert => Sys2Proof.Machine.execPerstNAssert s
  | .vreqFrame => Sys2Proof.Machine.execVreqFrame s
  | .vreqFault => Sys2Proof.Machine.execVreqFault s
  | .vreqFaultClear => Sys2Proof.Machine.execVreqFaultClear s
  | .railSettled => Sys2Proof.Machine.execRailSettled s
  | .boundarySteps => Sys2Proof.Machine.execBoundarySteps s
  | .beatFollowUpdate => Sys2Proof.Machine.execBeatFollowUpdate s
  | .lockAcquired => Sys2Proof.Machine.execLockAcquired s
  | .holdoverEntry => Sys2Proof.Machine.execHoldoverEntry s
  | .drift => Sys2Proof.Machine.execDrift s
  | .freerunEntry => Sys2Proof.Machine.execFreerunEntry s
  | .commandDispatch => Sys2Proof.Machine.execCommandDispatch s
  | .i3cSeqQuery => Sys2Proof.Machine.execI3cSeqQuery s
  | .enec => Sys2Proof.Machine.execEnec s
  | .disec => Sys2Proof.Machine.execDisec s
  | .rstdaa => Sys2Proof.Machine.execRstdaa s
  | .getmwl => Sys2Proof.Machine.execGetmwl s
  | .getmrl => Sys2Proof.Machine.execGetmrl s
  | .getpid => Sys2Proof.Machine.execGetpid s
  | .getbcr => Sys2Proof.Machine.execGetbcr s
  | .getdcr => Sys2Proof.Machine.execGetdcr s
  | .getstatus => Sys2Proof.Machine.execGetstatus s
  | .ibiRaise => Sys2Proof.Machine.execIbiRaise s
  | .bmcAbsent => Sys2Proof.Machine.execBmcAbsent s
  | .sbFrameDiscard => Sys2Proof.Machine.execSbFrameDiscard s
  | .chainLost => Sys2Proof.Machine.execChainLost s
  | .ingressHoldRelease => Sys2Proof.Machine.execIngressHoldRelease s
  | .superCellTime => Sys2Proof.Machine.execSuperCellTime s
  | .multicastRelease => Sys2Proof.Machine.execMulticastRelease s
  | .ceWindowEnd => Sys2Proof.Machine.execCeWindowEnd s
  | .migrationAutoStart => Sys2Proof.Machine.execMigrationAutoStart s
  | .migrationComplete => Sys2Proof.Machine.execMigrationComplete s
  | .beatSyncRelease => Sys2Proof.Machine.execBeatSyncRelease s
  | .droopLightTrip => Sys2Proof.Machine.execDroopLightTrip s
  | .droopHeavyTrip => Sys2Proof.Machine.execDroopHeavyTrip s
  | .droopFurtherStep => Sys2Proof.Machine.execDroopFurtherStep s
  | .bistSlotRetry => Sys2Proof.Machine.execBistSlotRetry s
  | .slotWaitExpiry => Sys2Proof.Machine.execSlotWaitExpiry s
  | .bistSlotEnd => Sys2Proof.Machine.execBistSlotEnd s
  | .bistNextSlot => Sys2Proof.Machine.execBistNextSlot s
  | .fuseBlow => Sys2Proof.Machine.execFuseBlow s
  | .resetStart => Sys2Proof.Machine.execResetStart s
  | .resetMarkerWaitExpiry => Sys2Proof.Machine.execResetMarkerWaitExpiry s
  | .resetEnd => Sys2Proof.Machine.execResetEnd s
  | .portDrainTest => Sys2Proof.Machine.execPortDrainTest s
  | .spareBringInComplete => Sys2Proof.Machine.execSpareBringInComplete s
  | .replyIrqHoldoffEnd => Sys2Proof.Machine.execReplyIrqHoldoffEnd s

end Sys2Proof.Machine
end

