-- ==== Sys2Proof/Machine/Idle.lean ====
section
/-! DEFINITION. A source cycle in which the block carries out no command: the time that the slot and cycle counters count (R360,
R407 to R409; log entries 3 and 15). -/

namespace Sys2Proof.Machine

/-- Source cycle i of a run of 16 yields a core edge at step k (R360). -/
def coreEdge (i k : Nat) : Bool := decide (i * k / 16 < (i + 1) * k / 16)

/-! ## Egress slots (R407) -/

/-- The frames at the heads of an LP's merge sources: class, and whether next-hop credits let the merge choose it (R142, R146,
R156, R175). -/
def State.mergeHeads (s : State) (lp : Nat) : List (Nat × Bool) :=
  let staged (slot : Option Nat) (l : List Staged) : List (Nat × Bool) :=
    let target := match slot with | some _ => none | none => some lp
    match l.find? fun x => !s.fenced x.inLp x.hdr.tc.toNat x.hdr.dest target x.id with
    | none => []
    | some x => if slot.any fun u => s.behindOther lp u x then [] else [(x.hdr.tc.toNat, sget s.sw.credits (lpTc lp x.hdr.tc.toNat) 0 != 0)]
  let agent (k : Nat) : List (Nat × Bool) :=
    match s.sw.agentOut.find? (fun f => f.lp == lp && f.agent == k) with
    | none => []
    | some f => [(f.hdr.tc.toNat, decide (hdrCount f.hdr ≤ s.creditFree lp f.hdr.tc.toNat))]
  ((s.slotsOf lp).map fun u => staged (some u) (s.fifo u)).flatten ++ staged none (s.mcFifoOf lp) ++ agent 0 ++ agent 1
    ++ agent 2

/-- What holds a ready flit: a lane change, a full replay buffer or missing credits; none when it could leave (R407). -/
def State.heldBy (s : State) (lp : Nat) (credit : Bool) : Option (Nat × Nat) :=
  if (s.port (lpPort lp)).halted (lpSide lp) then some (0x0204, 2)
  else if s.replayDepth lp ≤ (s.lpStripe lp).replay.length then some (0x0204, 1)
  else if !credit then some (0x0204, 0)
  else none

/-- The heading and cause of an egress slot that carries no flit; none when a flit could leave in it, which the command that sends
the flit counts (R407). -/
def State.idleHeading (s : State) (lp : Nat) : Option (Nat × Nat) :=
  match s.currentOf lp with
  | some c =>
    if c.st.fault.isSome then s.heldBy lp true
    else if c.st.flits.isEmpty then some (0x0203, 1)
    else s.heldBy lp (sget s.sw.credits (lpTc lp c.st.hdr.tc.toNat) 0 != 0)
  | none =>
    let heads := s.mergeHeads lp
    if heads.isEmpty then some (0x0203, 0) else s.heldBy lp (heads.any (·.2))

/-- Egress slots of an LP that end in source cycle i: 787.5 x 10^6 x width/8 a second of 2.0 x 10^9 cycles, while its TX stripe is
UP and awake (R407). -/
def State.slotsDue (s : State) (lp i : Nat) : Nat :=
  if s.lpUp lp && (s.port (lpPort lp)).txAwake then
    let w := (s.lpStripe lp).txw
    (i + 1) * 63 * w / 1280 - i * 63 * w / 1280
  else 0

/-- The egress slots of source cycle i (R407). -/
def State.idleSlots (s : State) (i : Nat) : State :=
  (List.range 128).foldl (fun s lp =>
    match s.idleHeading lp with
    | some (h, a) => s.countSlots lp h (some a) (s.slotsDue lp i)
    | none => s) s

/-! ## Core cycles (R406, R408, R409) -/

/-- Classes in which a frame of the LP could leave but for next-hop credits (R406). -/
def State.stalled (s : State) (lp : Nat) : List Nat :=
  if !s.canSend lp then []
  else match s.currentOf lp with
    | some c =>
      let tc := c.st.hdr.tc.toNat
      if c.st.fault.isNone && !c.st.flits.isEmpty && sget s.sw.credits (lpTc lp tc) 0 == 0 then [tc] else []
    | none => distinct (((s.mergeHeads lp).filter fun x => !x.2).map (·.1))

/-- The cycle's stalls of an LP for credits, and its classes that the issue rule caps (R134, R406). -/
def State.portCycle (s : State) (lp : Nat) : State :=
  if !s.lpUp lp then s
  else
    let s := (s.stalled lp).foldl (fun s c => s.countLp lp 0x010B (some c) none 1) s
    ((List.range 8).filter fun c => !s.mayIssue lp c).foldl (fun s c => s.countLp lp 0x0113 (some c) none 1) s

/-- A range of fabric memory has a sector on the stack (R189). -/
def State.onStack (s : State) (off n k : Nat) : Bool :=
  (List.range ((off + n - 1) / 4096 + 1 - off / 4096)).any fun g => s.stackOf (off / 4096 + g) == k

/-- The first fragment or the answer of a waiting request finds no staging room (R201). -/
def State.lacksRoom (s : State) (r : MemReq) : Bool :=
  s.allocated r.offset r.span
    && (match r.op with
        | 1 => !s.stageRoom [r.lp] (r.fragLen 0)
        | 3 => !s.stageRoom (s.readTargets { req := r, next := 0, skipped := [], bad := false }).1 (r.fragLen 0)
        | 4 => !s.stageRoom [r.lp] r.span
        | 6 => !s.stageRoom [r.lp] r.span
        | _ => false)

/-- The next fragment of a read finds no staging room (R201). -/
def State.fragmentLacksRoom (s : State) (x : MemRead) : Bool :=
  decide (x.next < x.req.fragments) && !s.stageRoom (s.readTargets x).1 (x.req.fragLen x.next)

/-- A request waits for staging room: the first of an LP, or a read under way (R201, R406). -/
def State.stageWaits (s : State) : Bool :=
  (s.mem.waiting.any fun r => decide (s.mem.waiting.find? (fun q => q.lp == r.lp) = some r) && s.lacksRoom r)
    || s.mem.reads.any s.fragmentLacksRoom

/-- A request for the stack waits at the ordering stage or for staging room (R409). -/
def State.stackHeld (s : State) (k : Nat) : Bool :=
  (s.mem.waiting.any fun r => s.onStack r.offset r.span k)
    || s.mem.reads.any fun x =>
      s.fragmentLacksRoom x && s.onStack (x.req.offset + 4096 * x.next) (x.req.fragLen x.next) k

/-- The memory's core cycle: 16 unused places of each stack in service, and a wait for staging room (R406, R409). -/
def State.memCycle (s : State) : State :=
  if !s.memRuns then s
  else
    let used := s.mem.slotMap.filter fun k => (s.stack k).role == .inService || (s.stack k).role == .source
    let s := used.foldl (fun s k =>
      (s.countGlobal (if s.stackHeld k then 0x2104 else 0x2103) none (some k) 16).countGlobal 0x2100 none (some k) 16) s
    if s.stageWaits then s.countGlobal 0x2007 none none 1 else s

/-- A complete chunk waits for its beat-synchronous release (R286). -/
def State.syncWaits (s : State) : Bool :=
  s.openSessions.any fun e => e.2.beatSync && e.2.chunks.any fun c => c.complete && !c.released

/-- The engine's core cycle: one idle slot of each cluster in service that is not under test, and a wait at the entry (R406,
R408). -/
def State.engineCycle (s : State) : State :=
  if !s.collRuns then s
  else
    let waits := !s.coll.entry.isEmpty
    let code := if waits || s.syncWaits then 0x3105 else 0x3104
    let l := (List.range 26).filter fun n => decide (s.rcRole n = .inService) && !s.underTest (64 + n)
    let s := l.foldl (fun s k => (s.countGlobal code none (some k) 1).countGlobal 0x3100 none (some k) 1) s
    if waits then s.countGlobal 0x3007 none none 1 else s

/-- What counts in a core cycle without a command. -/
def State.coreCycle (s : State) : State :=
  let s := if s.switchInReset then s else (List.range 128).foldl (fun s lp => s.portCycle lp) s
  s.memCycle.engineCycle

/-- One cycle of the 2.0 GHz source in which no command is carried out: the block time of 2.5 ns that may start in it (R300), the
egress slots that end in it, a cartridge transfer that its bus has become free for (R436), and a core cycle or a swallowed one (R360,
R407). -/
def State.idleCycle (s : State) : State :=
  if !s.live then s
  else
    let i := s.power.cycle
    let s := s.updPower fun p => { p with cycle := (i + 1) % 1280, time := p.time + 2 }
    let s := (List.range 8).foldl (fun (s : State) b => s.serveCart b) s
    let s := if i % 5 = 0 then (List.range 64).foldl (fun (s : State) n => s.portBlock n) s else s
    let s := if s.switchInReset then s else s.idleSlots i
    if coreEdge (i % 16) s.kEff then s.coreCycle else s.countGlobal 0x4004 none none 1

end Sys2Proof.Machine
end

