-- ==== Sys2Proof/Safety.lean ====
section
/-! DEFINITION. What counts as a safe step, and the invariant that every step keeps. -/

namespace Sys2Proof

/-- A step from s answers a next state: the block neither stops with a fault nor refuses. -/
def Safe (s : Machine.State) : Prop := ∃ t, Machine.step s = .next t

namespace Machine

/-- The ring configuration is one that R73 accepts. -/
def RingOk (r : Ring) : Prop :=
  4 ≤ r.slotsLog2 ∧ r.slotsLog2 ≤ 12 ∧ r.cmdSlot < 3 ∧ r.replySlot < 3 ∧ r.cmdBase &&& 0xFFF = 0 ∧ r.replyBase &&& 0xFFF = 0

/-- The static I3C address is the one of the sampled strap (R428, R446). -/
def StrapOk (s : State) : Prop := s.pkg.trayPos < 4 ∧ s.side.staticAddr = BitVec.ofNat 7 (0x30 + s.pkg.trayPos)

/-- What every step keeps: the bytes of fabric memory stand in canonical form, an accepted ring configuration stays one that R73
accepts, and the static I3C address stays that of the sampled strap (R428, R446). -/
def Inv (s : State) : Prop := Memory.wf s.mem.cells = true ∧ RingOk s.ring ∧ StrapOk s

end Machine

end Sys2Proof
end

