-- ==== Sys2Proof/Certificates/Slice0/Obligations.lean ====
section
/-! DEFINITION. The statements for the provers, over the words that they share. -/

namespace Sys2Proof.Claims

open Sys2Proof.Machine

/-- The management controller takes command packets: management is ready, no land and no thermal trip holds the module, and no
reset covers the controller (R450, R453, R489). -/
def Open (s : State) : Prop := s.live = true ∧ s.mgmtInReset = false

/-- No shared unit is in reset or under test (R391, R453). -/
def SharedFree (s : State) : Prop :=
  s.switchInReset = false ∧ s.memInReset = false ∧ s.collInReset = false ∧ s.underTest 94 = false

/-- The port is neither in reset nor under test (R391, R453). -/
def PortFree (s : State) (n : Nat) : Prop := s.portInReset n = false ∧ s.underTest n = false

/-- From s to t only the reply path has moved: reply stores and ring, the frames of the management agent, what has been sent, free
values, and the counters. -/
def OnlyReplied (s t : State) : Prop :=
  t = { s with
    mgmt := { s.mgmt with stores := t.mgmt.stores, authFails := t.mgmt.authFails }, ring := t.ring
    sw := { s.sw with agentOut := t.sw.agentOut }, out := t.out, draws := t.draws
    ctr := { s.ctr with counters := t.ctr.counters } }
  ∧ s.out <+: t.out

/-- The opcodes that only read: the command, the opcode and the bytes of reply data of the opcode table (R98 to R118). -/
def reads : Instr → Option (Cmd × BitVec 16 × Nat)
  | .identityRead c => some (c, 0x0000, 32)
  | .tableRead c table _ count => some (c, 0x0105, 8 + entrySize table.toNat * count.toNat)
  | .tableStatus c _ => some (c, 0x0106, 24)
  | .beatStatusRead c => some (c, 0x0200, 16)
  | .agendaRead c _ count => some (c, 0x0212, 32 * count.toNat)
  | .portStatus c _ => some (c, 0x0300, 32)
  | .laneStatus c _ => some (c, 0x0303, 80)
  | .switchStatus c => some (c, 0x0400, 32)
  | .voqRead c _ _ _ => some (c, 0x0401, 64)
  | .creditRead c _ => some (c, 0x0402, 32)
  | .memStatus c => some (c, 0x0500, 32)
  | .sessionStatus c _ => some (c, 0x0602, 32)
  | .sessionList c _ => some (c, 0x0603, 128)
  | .engineStatus c => some (c, 0x0604, 32)
  | .powerStatus c => some (c, 0x0700, 16)
  | .bistResult c _ => some (c, 0x0801, 24)
  | .spareStatus c => some (c, 0x0803, 64)
  | .keyStatus c => some (c, 0x0A02, 64)
  | .authFailRead c => some (c, 0x0A05, 16)
  | .resetStatus c => some (c, 0x0F01, 16)
  | _ => none

/-- The command packet that an opcode row carries out, with its opcode; none for the rows that are no opcode. -/
def packetOf : Instr → Option (Cmd × BitVec 16)
  | .identityRead c => some (c, 0x0000)
  | .cwRead c _ _ => some (c, 0x0001)
  | .cwWrite c _ _ _ _ => some (c, 0x0002)
  | .cwModify c _ _ _ => some (c, 0x0003)
  | .noticeRead c _ => some (c, 0x0008)
  | .tableImageOpen c _ _ => some (c, 0x0100)
  | .tableImageWrite c _ _ _ => some (c, 0x0101)
  | .tableImageSeal c _ => some (c, 0x0102)
  | .tableStage c _ _ => some (c, 0x0103)
  | .tableImageDiscard c _ => some (c, 0x0104)
  | .tableRead c _ _ _ => some (c, 0x0105)
  | .tableStatus c _ => some (c, 0x0106)
  | .tableImageList c _ _ => some (c, 0x0107)
  | .hold c _ _ => some (c, 0x0108)
  | .release c _ _ => some (c, 0x0109)
  | .beatStatusRead c => some (c, 0x0200)
  | .beatRootSet c _ _ => some (c, 0x0201)
  | .beatPeriodSet c _ _ => some (c, 0x0202)
  | .agendaStageCwWrite c _ _ _ => some (c, 0x0210)
  | .agendaStagePowerStep c _ _ _ => some (c, 0x0210)
  | .agendaStageBistStop c _ _ _ => some (c, 0x0210)
  | .agendaStageBistStart c _ _ _ => some (c, 0x0210)
  | .agendaStageMark c _ _ _ => some (c, 0x0210)
  | .agendaCancel c _ _ => some (c, 0x0211)
  | .agendaRead c _ _ => some (c, 0x0212)
  | .portStatus c _ => some (c, 0x0300)
  | .portAdminDisable c _ _ => some (c, 0x0301)
  | .portAdminEnable c _ _ => some (c, 0x0301)
  | .portAdminRetrain c _ _ => some (c, 0x0301)
  | .portSleep c _ _ => some (c, 0x0302)
  | .portWake c _ _ => some (c, 0x0302)
  | .laneStatus c _ => some (c, 0x0303)
  | .eyeScan c _ _ _ _ _ => some (c, 0x0304)
  | .eqOverride c _ _ _ => some (c, 0x0305)
  | .spareSwap c _ _ _ => some (c, 0x0306)
  | .spareRestore c _ _ _ => some (c, 0x0307)
  | .cartRead c _ _ _ _ _ => some (c, 0x0310)
  | .cartWrite c _ _ _ _ _ _ => some (c, 0x0311)
  | .switchStatus c => some (c, 0x0400)
  | .voqRead c _ _ _ => some (c, 0x0401)
  | .creditRead c _ => some (c, 0x0402)
  | .portDrain c _ _ _ => some (c, 0x0403)
  | .heldDiscard c _ => some (c, 0x0404)
  | .memStatus c => some (c, 0x0500)
  | .memAlloc c _ _ => some (c, 0x0501)
  | .memFree c _ => some (c, 0x0502)
  | .memFill c _ _ _ => some (c, 0x0503)
  | .memRead c _ _ => some (c, 0x0504)
  | .memWrite c _ _ _ => some (c, 0x0505)
  | .eccLogRead c _ => some (c, 0x0507)
  | .sessionOpen c _ _ _ _ _ => some (c, 0x0600)
  | .sessionClose c _ => some (c, 0x0601)
  | .sessionCloseForce c _ => some (c, 0x0601)
  | .sessionStatus c _ => some (c, 0x0602)
  | .sessionList c _ => some (c, 0x0603)
  | .engineStatus c => some (c, 0x0604)
  | .powerStatus c => some (c, 0x0700)
  | .ceilingSet c _ => some (c, 0x0701)
  | .hostRequestSet c _ => some (c, 0x0702)
  | .telemetryRead c _ => some (c, 0x0703)
  | .bistRun c _ _ => some (c, 0x0800)
  | .bistResult c _ => some (c, 0x0801)
  | .bistAbort c _ => some (c, 0x0802)
  | .spareStatus c => some (c, 0x0803)
  | .spareBringInStack c _ => some (c, 0x0804)
  | .spareBringIn c _ _ => some (c, 0x0804)
  | .ctrRead c _ _ _ => some (c, 0x0900)
  | .ctrSelect c _ _ _ => some (c, 0x0901)
  | .ctrWindowSet c _ _ => some (c, 0x0902)
  | .sampleConfig c _ _ _ _ => some (c, 0x0903)
  | .sampleRead c _ => some (c, 0x0904)
  | .keyLoad c _ _ _ _ _ => some (c, 0x0A00)
  | .keyClear c _ => some (c, 0x0A01)
  | .keyStatus c => some (c, 0x0A02)
  | .authReqSet c _ => some (c, 0x0A03)
  | .tc7AllowSet c _ => some (c, 0x0A04)
  | .authFailRead c => some (c, 0x0A05)
  | .resetPort c _ => some (c, 0x0F00)
  | .resetSwitch c _ => some (c, 0x0F00)
  | .resetMemory c _ => some (c, 0x0F00)
  | .resetCollective c _ => some (c, 0x0F00)
  | .resetManagement c _ => some (c, 0x0F00)
  | .resetModule c _ => some (c, 0x0F00)
  | .resetStatus c => some (c, 0x0F01)
  | _ => none

/-- The run of a BIST_RUN (R388 step 1). -/
def runOf (s : State) (parts : BitVec 96) : Run := newRun ((partList parts).map fun n => (n, s.entry 8 n))

/-- The BIST_START entry of the first slot of a run (R388 step 1). -/
def startOf (r : Run) : StageItem := { action := 5, a := BitVec.ofNat 64 r.slot, b := 0, entries := 0 }

/-- The beat at which a bring-in has taken over, once it has (R399). -/
def broughtIn : Work → Option Beat
  | .bringIn _ _ d => d
  | .stackBringIn _ d => d
  | _ => none

/-- The ceiling and its hold as CEILING_SET records them (R366). -/
def withCeiling (s : State) (c : Cmd) (cap : Nat) : State :=
  { s with
    power := { s.power with ceiling := cap, ceilingSrc := c.src }
    mgmt := { s.mgmt with ceilingHold := if cap = 0 then none else some (c.src, c.origin) } }

/-- The host request and its hold as HOST_REQUEST_SET records them (R366). -/
def withHostRequest (s : State) (c : Cmd) (cap : Nat) : State :=
  { s with
    power := { s.power with hostReq := cap, hostSrc := c.src }
    mgmt := { s.mgmt with hostHold := if cap = 0 then none else some (c.src, c.origin) } }

/-- From s to t only links have moved: ports, the link-change flags, counters, and what is sent. -/
def OnlyLinks (s t : State) : Prop :=
  t = { s with
    ports := t.ports, out := t.out, ctr := { s.ctr with counters := t.ctr.counters }
    side := { s.side with linkChange := t.side.linkChange, attn := t.side.attn, ibiDue := t.side.ibiDue } }
  ∧ s.out <+: t.out

/-- Of the ports only port n has moved. -/
def OnlyPort (s t : State) (n : Nat) : Prop := OnlyLinks s t ∧ ∀ k, k ≠ n → t.port k = s.port k

/-- A flit as an LP hands it to its lanes: LINK carries RX_NEXT and the CRC is formed anew (R125, R343, R345). -/
def wireOf (s : State) (lp : Nat) (h : Hdr) (payload : Bytes) (stomped : Bool) : BitVec 2048 :=
  wireFlit { h with link := BitVec.ofNat 16 (16 * (s.lpStripe lp).rxNext) } payload stomped

/-- From p to q only what the TX lanes of the port still have to carry has moved, and the acknowledgement that a flit carries. -/
def OnlyLine (p q : PortSt) : Prop :=
  q = { p with
    a := { p.a with txLine := q.a.txLine, ackOwed := q.a.ackOwed }, b := { p.b with txLine := q.b.txLine, ackOwed := q.b.ackOwed } }

/-- No INIT flit and no SLEEP flit waits for a place in the replay buffer of an LP (R345). -/
def NothingWaits (s : State) (lp : Nat) : Prop := (s.lpStripe lp).initOwed = false ∧ (s.port (lpPort lp)).sleepOut = []

/-- No spare command of the port is outstanding (R353). -/
def NoSpareWork (s : State) (n : Nat) : Prop := ∀ d ∈ s.mgmt.deferred, ∀ e l r, d.work ≠ .spare n e l r

/-- The stripe hunts from the start: SEND, no width, no lane locked, the spare idle for it, and one more attempt (R340, R352). -/
def Hunts (s t : State) (n : Nat) (sd : Side) : Prop :=
  ((t.port n).stripe sd).st = .send ∧ ((t.port n).stripe sd).txw = 0 ∧ ((t.port n).stripe sd).rxw = 0
  ∧ ((t.port n).stripe sd).locked = 0 ∧ ((t.port n).stripe sd).spWant = 15
  ∧ (t.port n).attempts = satAdd (2 ^ 32 - 1) (s.port n).attempts 1

/-- The attempt has failed with a code: counted, and the stripe backs off (R340, R355). -/
def BacksOff (s t : State) (n : Nat) (sd : Side) (code : Nat) : Prop :=
  OnlyPort s t n ∧ ((t.port n).stripe sd).st = .backoff ∧ (t.port n).lastFail = code
  ∧ (t.port n).trainFails = satAdd 255 (s.port n).trainFails 1 ∧ (t.port n).backoffExp = min 15 ((s.port n).backoffExp + 1)

/-- The next packet is the only one, of this source and origin, and nothing else is due at the command boundary (R66, R67). -/
def OneArrival (s : State) (src : Src) (origin : Nat) (p : Packet) : Prop :=
  Open s ∧ s.beat.stepsDue = false ∧ s.mgmt.resets = [] ∧ s.mgmt.deferred = [] ∧ s.mgmt.arrivals = [p]
  ∧ p.pair = pairOf src origin ∧ origin < 128 ∧ (src ≠ .tc7 → origin = 0)

/-- A chain frame, and a REPLY in the place of a READ, as the module sends them, with the bytes on the wire (R421). -/
def chainOut (f : SbFrame) : Emission := .sbFrame f (sbWire f)
def chainReply (f : SbFrame) (r : Option Reply) : Emission := .sbReply f r (sbWire f)

/-- A port whose cartridge's pages are to be read again before its next attempt (R435). -/
def identityStale (p : PortSt) : PortSt :=
  { p with a := { p.a with identFresh := false }, b := { p.b with identFresh := false } }

/-- The ports whose presence is lost have their pages to be read again, and no other port moves (R435). -/
def OnlyStale (s t : State) : Prop :=
  ∀ k, t.port k = if s.present k = true ∧ t.present k = false then identityStale (s.port k) else s.port k

/-- A chain frame whose hops have not run out, as the module sends it on (R424 step 1). -/
def hopped (s : State) (f : SbFrame) : SbFrame :=
  { f with
    hops := f.hops + 1
    attnMap := if s.side.chainAddr ≠ 0xFF ∧ s.attnPending = true then f.attnMap ||| (1 <<< s.side.chainAddr.toNat) else f.attnMap }

/-- The oldest diverted frame of an LP, class and DEST is this one, with the admission number id; nothing waits at the collective
engine, and the buffer's ECC reports no error of its cells (R20, R131, R224). -/
def HeadsFlow (s : State) (lp : Nat) (foreign : Bool) (f : InFrame) (id : Nat) : Prop :=
  s.sw.diverted.find? (sameFlow lp f.hdr) = some { lp := lp, foreign := foreign, frame := f, id := id } ∧ s.coll.entry = []
  ∧ f.cells = []

/-- That frame is taken from those that wait for local agents. -/
def withoutHead (s : State) (lp : Nat) (f : InFrame) : State :=
  { s with sw := { s.sw with diverted := dropFirst (sameFlow lp f.hdr) s.sw.diverted } }

/-- A frame given to an agent while none of its flow waits passes the ingress first: when it is then diverted, the command is
carried out on it, and otherwise nothing more happens (R123, R131). -/
def ArrivesFirst (i : Instr) (lp : Nat) (f : InFrame) (s : State) : Prop :=
  s.portInReset (lpPort lp) = false → s.switchInReset = false → s.sw.diverted.any (sameFlow lp f.hdr) = false →
    ((s.arriveFrame lp f).sw.diverted.any (sameFlow lp f.hdr) = true → exec i s = exec i (s.arriveFrame lp f))
    ∧ ((s.arriveFrame lp f).sw.diverted.any (sameFlow lp f.hdr) = false → exec i s = .next (s.arriveFrame lp f))

/-- From s to t the head of a frame has been discarded on an LP for a reason of R131: nothing joined a queue or an agent, and the
port's counters have counted it. -/
def Discarded (s t : State) (lp : Nat) (f : InFrame) (reason : Nat) : Prop :=
  t = { s with sw := t.sw, ctr := { s.ctr with counters := t.ctr.counters } }
  ∧ t.sw.frames = s.sw.frames ∧ t.sw.heads = s.sw.heads ∧ t.sw.diverted = s.sw.diverted
  ∧ t.ctr.counters = ((if frameGiven f = true then (s.countRx lp f.hdr).ctxFlit lp true f.hdr else s).countLp lp 0x0107
      (some f.hdr.tc.toNat) (some reason) 1).ctr.counters

/-- From s to t the head of a frame has joined the queue of input lp toward out (for a group, its own LP stands for out). -/
def Admitted (s t : State) (lp out : Nat) (f : InFrame) : Prop :=
  ∃ q : QFrame, t.sw.frames = s.sw.frames ++ [q] ∧ q.inLp = lp ∧ q.outLp = out ∧ q.hdr = f.hdr ∧ q.tc = f.hdr.tc.toNat

end Sys2Proof.Claims

open Sys2Proof Sys2Proof.Machine Sys2Proof.Claims

/-- For every command c and state s, the step of s with c put at the front of its queue is exec of c on s with the queue's rest;
for every state s whose queue is empty, a step answers s after one source cycle without a command. The queue, and that such a
step is one cycle of the core clock's source, are the model's own: log entry 3. (03_command_packets.md.) -/
def Obligations.StepTakesTheFrontCommand : Prop :=
  (∀ (c : Instr) (s : State), step { s with pending := c :: s.pending } = exec c s)
  ∧ ∀ s : State, s.pending = [] → step s = .next s.idleCycle

/-- For every state s with Inv s, if the step of s answers a next state t, then Inv t: the bytes of fabric memory stay in
canonical form, the configuration of the PCIe ring stays one that R73 accepts (4 to 12 for SLOTS_LOG2, defined slot sizes,
bases at 4 KiB), and the static I3C address stays 0x30 plus the sampled TRAY_POS (R428, R446). (07_fabric_memory.md,
03_command_packets.md, 16_reset_init.md.) -/
def Obligations.StepKeepsInvariant : Prop :=
  ∀ s t : State, Inv s → step s = .next t → Inv t

/-- State.reset has Inv. What State.reset holds where the manual gives no value is the model's choice: log entries 2 and 4.
(16_reset_init.md.) -/
def Obligations.ResetHasInvariant : Prop :=
  Inv State.reset

/-- For every command c and states s and t, if exec of c on s answers next t, then t has the queue of s, everything s had sent is
still there, in order, at the front of what t has sent, and t has drawn at least the free values that s had drawn. The queue,
the record of what was sent and the count of free values are the model's own: log entries 3, 5 and 11.
(03_command_packets.md.) -/
def Obligations.CommandsKeepQueueAndPast : Prop :=
  ∀ (c : Instr) (s t : State), exec c s = .next t → t.pending = s.pending ∧ s.out <+: t.out ∧ s.draws ≤ t.draws

/-- For every state, every command other than POR_N_RISE answers a next state. POR_N_RISE stops with the fault undefinedPorPulse
when POR_N was low for less than 1 µs, which R444 says has undefined effect, and answers a next state otherwise.
(16_reset_init.md.) -/
def Obligations.OnlyShortPorPulseStops : Prop :=
  (∀ (c : Instr) (s : State), (∀ n b k, c ≠ .porNRise n b k) → ∃ t, exec c s = .next t)
  ∧ (∀ (n : Fin 4) (b k : Bool) (s : State), s.pkg.porLow = true → k = false →
      exec (.porNRise n b k) s = .fault .undefinedPorPulse)
  ∧ ∀ (n : Fin 4) (b k : Bool) (s : State), (s.pkg.porLow = true → k = true) → ∃ t, exec (.porNRise n b k) s = .next t

/-- For every opcode row and every state in which the management controller takes packets: when a parameter is in error, exec
answers the reply BAD_PARAM whose DETAIL is the byte offset of the first field in error (R62, R63 step 7), and only the reply
path has moved. (03_command_packets.md, 04_opcodes.md.) -/
def Obligations.BadParameterChangesNothing : Prop :=
  ∀ (i : Instr) (c : Cmd) (op : BitVec 16) (s : State) (off : Nat), packetOf i = some (c, op) → Open s →
    s.paramError i = some off → exec i s = .next (s.deny c op stBadParam off) ∧ OnlyReplied s (s.deny c op stBadParam off)

/-- For every opcode row and every state in which management is not ready, a land or a thermal trip holds the module, or a reset
covers the management controller, exec answers the state unchanged (R450, R453, R489). (16_reset_init.md, 04_opcodes.md.) -/
def Obligations.ClosedControllerTakesNothing : Prop :=
  ∀ (i : Instr) (c : Cmd) (op : BitVec 16) (s : State), packetOf i = some (c, op) → ¬ Open s → exec i s = .next s

/-- For IDENTITY_READ, TABLE_READ, TABLE_STATUS, BEAT_STATUS_READ, AGENDA_READ, PORT_STATUS, LANE_STATUS, SWITCH_STATUS,
VOQ_READ, CREDIT_READ, MEM_STATUS, SESSION_STATUS, SESSION_LIST, ENGINE_STATUS, POWER_STATUS, BIST_RESULT, SPARE_STATUS,
KEY_STATUS, AUTH_FAIL_READ and RESET_STATUS: in every state in which the management controller takes packets and no shared
unit is in reset or under test, when no parameter is in error, exec answers the reply OK with exactly the bytes of data that
the opcode table states, and only the reply path has moved. (04_opcodes.md, 03_command_packets.md.) -/
def Obligations.ReadingOpcodesOnlyRead : Prop :=
  ∀ (i : Instr) (c : Cmd) (op : BitVec 16) (n : Nat) (s : State), reads i = some (c, op, n) → Open s → SharedFree s →
    s.paramError i = none →
    ∃ data : Bytes, data.length = n ∧ exec i s = .next (s.ok c op data) ∧ OnlyReplied s (s.ok c op data)

/-- In every state in which the management controller takes packets and no parameter is in error: CW_READ answers the values of
all its words as they stood before the command (R465) and leaves them read-cleared; CW_WRITE of words without AGD fields,
when no check refuses it, writes its values in ascending address order (R14, R99) and answers N = 0; CW_MODIFY, when no check
refuses it, writes the word merged under MASK, clears its RC fields and answers the old value (R99). (04_opcodes.md,
17_control_words.md.) -/
def Obligations.ControlWordOpcodes : Prop :=
  (∀ (c : Cmd) (addr : BitVec 32) (count : BitVec 16) (s : State), Open s → s.paramError (.cwRead c addr count) = none →
    exec (.cwRead c addr count) s = .next (((wordRun addr.toNat count.toNat).foldl State.clearRc s).ok c 0x0001
      (((wordRun addr.toNat count.toNat).map fun a => leBytes 8 (s.readWord a).toNat).flatten)))
  ∧ (∀ (c : Cmd) (addr : BitVec 32) (count : BitVec 16) (spec : TargetSpec) (values : List Word) (s : State), Open s →
      s.paramError (.cwWrite c addr count spec values) = none → agdItems (cwWrites addr.toNat values) = [] →
      s.writeCheck c (cwWrites addr.toNat values) = none →
      exec (.cwWrite c addr count spec values) s = .next (((cwWrites addr.toNat values).foldl
        (fun (t : State) w => t.writeWord w.addr w.value) s).ok c 0x0002 [0, 0, 0, 0]))
  ∧ ∀ (c : Cmd) (addr : BitVec 32) (mask value : Word) (s : State), Open s → s.paramError (.cwModify c addr mask value) = none →
      s.writeCheck c [{ addr := addr.toNat, mask := mask, value := s.merged addr.toNat mask value, off := 48 }] = none →
      exec (.cwModify c addr mask value) s = .next (((s.writeWord addr.toNat (s.merged addr.toNat mask value)).clearRc addr.toNat).ok
        c 0x0003 (leBytes 8 (s.readWord addr.toNat).toNat))

/-- In every state in which the management controller takes packets and no shared unit is in reset or under test, when no
parameter is in error: NOTICE_READ answers OK, and of the queue of the command's pair the MAX oldest notices are gone and
LOST is zero (R99); SAMPLE_READ answers OK and the MAX oldest samples are gone (R416); ECC_LOG_READ and TABLE_IMAGE_LIST
answer OK with at most 8 bytes and MAX records of 16 and of 12 bytes, and move only the reply path. In each reply byte 0
counts the records. (04_opcodes.md, 03_command_packets.md, 14_counters.md.) -/
def Obligations.LogReadsRemoveWhatTheyAnswer : Prop :=
  (∀ (c : Cmd) (max : Byte) (s : State), Open s → s.paramError (.noticeRead c max) = none →
    ∃ (t : State) (data : Bytes), exec (.noticeRead c max) s = .next (t.ok c 0x0008 data)
      ∧ t.queue (pairOf c.src c.origin) = { records := (s.queue (pairOf c.src c.origin)).records.drop max.toNat, lost := 0 }
      ∧ t = { s with mgmt := { s.mgmt with notices := t.mgmt.notices } }
      ∧ (byteAt data 0).toNat = min max.toNat (s.queue (pairOf c.src c.origin)).records.length
      ∧ data.length = 8 + 24 * (byteAt data 0).toNat)
  ∧ (∀ (c : Cmd) (max : Byte) (s : State), Open s → SharedFree s → s.paramError (.sampleRead c max) = none →
      ∃ data : Bytes,
        exec (.sampleRead c max) s = .next (({ s with ctr := { s.ctr with samples := s.ctr.samples.drop max.toNat } } : State).ok
          c 0x0904 data)
        ∧ (byteAt data 0).toNat = min max.toNat s.ctr.samples.length)
  ∧ (∀ (c : Cmd) (max : Byte) (s : State), Open s → SharedFree s → s.paramError (.eccLogRead c max) = none →
      ∃ data : Bytes, exec (.eccLogRead c max) s = .next (s.ok c 0x0507 data) ∧ OnlyReplied s (s.ok c 0x0507 data)
        ∧ (byteAt data 0).toNat = min max.toNat s.mem.eccLog.length ∧ data.length = 8 + 16 * (byteAt data 0).toNat)
  ∧ ∀ (c : Cmd) (first max : Byte) (s : State), Open s → s.paramError (.tableImageList c first max) = none →
      ∃ data : Bytes, exec (.tableImageList c first max) s = .next (s.ok c 0x0107 data) ∧ OnlyReplied s (s.ok c 0x0107 data)
        ∧ (byteAt data 0).toNat = min max.toNat (s.mgmt.images.length - first.toNat)
        ∧ data.length = 8 + 12 * (byteAt data 0).toNat

/-- In every state in which the management controller takes packets, no parameter is in error and precedence (R79) allows the
change: TABLE_IMAGE_OPEN adds an OPEN image of the table and length under a handle that no image has, when fewer than 64
images and room in the 4 MiB store are there (R88), and answers it; TABLE_IMAGE_WRITE writes its bytes into the named OPEN
image and no other; TABLE_IMAGE_SEAL of an OPEN image stands deferred; SEAL_COMPLETE makes an image that passes the checks of
R89 SEALED and answers TABLE_ID, ENTRY_COUNT and TABLE_GEN, and removes one whose IMG_CRC fails with TABLE_CRC;
TABLE_IMAGE_DISCARD removes an image that is not STAGED. (04_opcodes.md, 03_command_packets.md.) -/
def Obligations.TableImageLife : Prop :=
  (∀ (c : Cmd) (table : Byte) (len : BitVec 32) (s : State), Open s → s.paramError (.tableImageOpen c table len) = none →
    mayChange (s.tableHolder table.toNat) c.src c.origin = true → s.mgmt.images.length < 64 →
    s.storeBytes + len.toNat ≤ 4194304 →
    ∃ h : BitVec 32, s.image h = none ∧ exec (.tableImageOpen c table len) s = .next (({ s with mgmt := { s.mgmt with
        images := s.mgmt.images ++ [{ handle := h, table := table.toNat, length := len.toNat, bytes := [], st := .opened }]
        imagesOpened := s.mgmt.imagesOpened + 1 } } : State).ok c 0x0100 (leBytes 4 h.toNat)))
  ∧ (∀ (c : Cmd) (h off : BitVec 32) (data : Bytes) (s : State), Open s → s.paramError (.tableImageWrite c h off data) = none →
      mayChange (s.tableHolder (s.imageTable h)) c.src c.origin = true → s.imageIs h .opened = true →
      exec (.tableImageWrite c h off data) s = .next (({ s with mgmt := { s.mgmt with
          images := s.mgmt.images.map fun im => if im.handle = h then im.write off.toNat data else im } } : State).ok c 0x0101 []))
  ∧ (∀ (c : Cmd) (h : BitVec 32) (s : State), Open s → s.paramError (.tableImageSeal c h) = none → s.imageIs h .opened = true →
      exec (.tableImageSeal c h) s = .next ((s.setImageSt h .sealing).defer c 0x0102 (.seal h)))
  ∧ (∀ (h : BitVec 32) (im : Image) (s : State), Open s → s.image h = some im → (∃ d ∈ s.mgmt.deferred, d.work = .seal h) →
      (s.sealCheck im = .ok → exec (.sealComplete h) s = .next ((s.setImageSt h .sealed).finishWork (fun w => w == .seal h) stOk 0
        (leBytes 1 im.table ++ [0] ++ leBytes 2 im.count ++ leBytes 4 im.gen.toNat)))
      ∧ (s.sealCheck im = .crc → exec (.sealComplete h) s =
          .next ((s.dropImage h).finishWork (fun w => w == .seal h) stTableCrc 0 [])))
  ∧ ∀ (c : Cmd) (h : BitVec 32) (s : State), Open s → s.paramError (.tableImageDiscard c h) = none → s.imageIs h .staged = false →
      exec (.tableImageDiscard c h) s = .next ((s.dropImage h).ok c 0x0104 [])

/-- In every state in which the management controller takes packets, no parameter is in error and precedence (R79) allows the
change: HOLD makes the source and origin of the command the holder of the table or block and answers the previous HOLDER
(R100), and RELEASE of a held object leaves it unheld (R80, R100). The holder of every other table and block, and all else
but the reply path, is unchanged. Where precedence denies it, both answer DENIED_PRECEDENCE with the holder in DETAIL.
(04_opcodes.md, 03_command_packets.md.) -/
def Obligations.HoldsAreTakenAndReleased : Prop :=
  (∀ (c : Cmd) (kind id : Byte) (s : State), Open s → s.paramError (.hold c kind id) = none →
    (mayChange (s.holderOf kind.toNat id.toNat) c.src c.origin = true →
      ∃ t : State, exec (.hold c kind id) s = .next (t.ok c 0x0108 (leBytes 2 (holderCode (s.holderOf kind.toNat id.toNat))))
        ∧ t.holderOf kind.toNat id.toNat = some (c.src, c.origin)
        ∧ (∀ k n, (k = 0 ↔ kind.toNat = 0) → n ≠ id.toNat → t.holderOf k n = s.holderOf k n)
        ∧ (∀ k n, ¬(k = 0 ↔ kind.toNat = 0) → t.holderOf k n = s.holderOf k n)
        ∧ t = { s with mgmt := { s.mgmt with tableHolds := t.mgmt.tableHolds, blockHolds := t.mgmt.blockHolds } })
    ∧ (mayChange (s.holderOf kind.toNat id.toNat) c.src c.origin = false →
        exec (.hold c kind id) s = .next (s.deny c 0x0108 stDeniedPrecedence (holderCode (s.holderOf kind.toNat id.toNat)))))
  ∧ ∀ (c : Cmd) (kind id : Byte) (s : State), Open s → s.paramError (.release c kind id) = none →
      (mayChange (s.holderOf kind.toNat id.toNat) c.src c.origin = true → (s.holderOf kind.toNat id.toNat).isSome = true →
        ∃ t : State, exec (.release c kind id) s = .next (t.ok c 0x0109 [])
          ∧ t.holderOf kind.toNat id.toNat = none
          ∧ (∀ k n, (k = 0 ↔ kind.toNat = 0) → n ≠ id.toNat → t.holderOf k n = s.holderOf k n)
          ∧ (∀ k n, ¬(k = 0 ↔ kind.toNat = 0) → t.holderOf k n = s.holderOf k n)
          ∧ t = { s with mgmt := { s.mgmt with tableHolds := t.mgmt.tableHolds, blockHolds := t.mgmt.blockHolds } })
      ∧ (mayChange (s.holderOf kind.toNat id.toNat) c.src c.origin = false →
          exec (.release c kind id) s = .next (s.deny c 0x0109 stDeniedPrecedence (holderCode (s.holderOf kind.toNat id.toNat))))

/-- In every state in which the management controller takes packets, no parameter is in error and no check of R50 refuses it,
each of BEAT_ROOT_SET, BEAT_PERIOD_SET, AGENDA_STAGE of CW_WRITE, POWER_STEP, BIST_STOP, BIST_START and MARK, and TABLE_STAGE
makes one entry PENDING with the action, parameters, target, LATEPOL, NOTIFY and source of the command and the next ORDER,
and answers its stage record: ENTRY and ORDER modulo 65,536 (R48, R94). Besides the agenda, only notices, image states, what
is sent and the attention causes of superseded entries may move (R52, R55); TABLE_STAGE leaves its image STAGED.
(02_fabric_beat.md, 03_command_packets.md, 04_opcodes.md.) -/
def Obligations.StagingMakesOnePendingEntry : Prop :=
  ∀ (c : Cmd) (spec : TargetSpec) (s : State), Open s →
    let stages (i : Instr) (op : BitVec 16) (item : StageItem) (mayMove : Bool) : Prop :=
      s.paramError i = none → s.stageCheck c spec [item] mayMove = none →
      ∃ (e : Nat) (t : State), exec i s = .next (t.ok c op (leBytes 2 e ++ leBytes 2 (s.agenda.nextOrder % 65536)))
        ∧ t.agEntry e = { st := .pending, action := item.action, latePol := spec.latePol, notify := spec.notify, src := c.src
                          origin := c.origin, target := s.specTarget spec, order := s.agenda.nextOrder, doneBeat := 0
                          paramA := item.a, paramB := item.b, next := spec.next || s.specPassed spec, due := false }
        ∧ t.agenda.nextOrder = s.agenda.nextOrder + 1
        ∧ t = { s with agenda := t.agenda, mgmt := { s.mgmt with notices := t.mgmt.notices, images := t.mgmt.images }
                       side := { s.side with attn := t.side.attn, ibiDue := t.side.ibiDue }, out := t.out }
    (∀ root : Byte, stages (.beatRootSet c root spec) 0x0201 ⟨6, root.zeroExtend 64, 0, 0⟩ true)
    ∧ (∀ period : Byte, stages (.beatPeriodSet c period spec) 0x0202 ⟨7, period.zeroExtend 64, 0, 0⟩ true)
    ∧ (∀ a b : Word, stages (.agendaStageCwWrite c spec a b) 0x0210 ⟨2, a, b, 0⟩ true)
    ∧ (∀ a b : Word, stages (.agendaStagePowerStep c spec a b) 0x0210 ⟨3, a, b, 0⟩ true)
    ∧ (∀ a b : Word, stages (.agendaStageBistStop c spec a b) 0x0210 ⟨4, a, b, 0⟩ true)
    ∧ (∀ a b : Word, stages (.agendaStageBistStart c spec a b) 0x0210 ⟨5, a, b, 0⟩ true)
    ∧ (∀ a b : Word, stages (.agendaStageMark c spec a b) 0x0210 ⟨8, a, b, 0⟩ true)
    ∧ ∀ (h : BitVec 32) (im : Image), s.image h = some im →
        stages (.tableStage c h spec) 0x0103 ⟨1, fld 63 56 im.table ||| fld 31 0 h.toNat, 0, im.count⟩
          (s.imageMayStage im (s.specTarget spec))

/-- In every state in which the management controller takes packets, when ENTRY is PENDING with the ORDER given and precedence
(R79) allows it, AGENDA_CANCEL answers OK, the entry is CANCELLED with DONE_BEAT the beat count, and every other entry is
unchanged; when the entry is FREE or its ORDER differs, it answers DENIED_STATE and nothing but the reply path moves (R102,
R103). (02_fabric_beat.md, 04_opcodes.md.) -/
def Obligations.CancelEndsOnePendingEntry : Prop :=
  ∀ (c : Cmd) (entry order : BitVec 16) (s : State), Open s → entry.toNat < 256 →
    ((s.agEntry entry.toNat).st = .pending → (s.agEntry entry.toNat).order % 65536 = order.toNat →
      mayChange (some ((s.agEntry entry.toNat).src, (s.agEntry entry.toNat).origin)) c.src c.origin = true →
      ∃ t : State, exec (.agendaCancel c entry order) s = .next (t.ok c 0x0211 [])
        ∧ (t.agEntry entry.toNat).st = .cancelled ∧ (t.agEntry entry.toNat).doneBeat = s.beat.count
        ∧ ∀ n, n ≠ entry.toNat → t.agEntry n = s.agEntry n)
    ∧ ((s.agEntry entry.toNat).st = .free ∨ (s.agEntry entry.toNat).order % 65536 ≠ order.toNat →
        exec (.agendaCancel c entry order) s = .next (s.deny c 0x0211 stDeniedState 0))

/-- In every state in which management is ready, the steps and the update of the ending beat are done and no COMMIT has named
this module, BEAT_BOUNDARY leaves the count of a pending step to the root's count where there is one (R43), and otherwise one
more than the old, modulo 2^48 (R33); the markers of the old beat are gone, the new beat's update and steps are due, and the
tables, switch core, fabric memory, collectives and self-test are unchanged, and of each port all but what waits for its TX
clock lane, which a marker joins (R40, R306). A target lies in the future exactly when (target - count) modulo 2^48 is 1 to
2^47 - 1 (R33). (02_fabric_beat.md.) -/
def Obligations.BoundaryCountsOneBeat : Prop :=
  (∀ (low : Bool) (s : State), s.live = true → s.beat.stepsDue = false → s.beat.followed = true → s.beat.rootNext = false →
    ∃ t, exec (.beatBoundary low) s = .next t
      ∧ t.beat.count = (match s.beat.stepTo with | some n => n | none => s.beat.count + 1)
      ∧ t.beat.stepTo = none ∧ t.beat.markers = [] ∧ t.beat.followed = false ∧ t.beat.stepsDue = true
      ∧ t.beat.localBeats = s.beat.localBeats + 1 ∧ t.beat.st = s.beat.st ∧ t.beat.rootAddr = s.beat.rootAddr
      ∧ (∀ n, t.port n = { s.port n with ckOut := (t.port n).ckOut })
      ∧ t = { s with beat := t.beat, agenda := t.agenda, ctr := { s.ctr with windows := t.ctr.windows }, power := t.power, ports := t.ports
                     side := { s.side with sinceIbi := t.side.sinceIbi, wdogCount := t.side.wdogCount }, out := t.out })
  ∧ ∀ now t : Beat, beatFuture now t = true ↔
      1 ≤ (t.toNat + 2 ^ 48 - now.toNat) % 2 ^ 48 ∧ (t.toNat + 2 ^ 48 - now.toNat) % 2 ^ 48 ≤ 2 ^ 47 - 1

/-- In every state in which management is ready: MARKER_RECEIVED of the 14 code groups that stand for a RELAY marker of the
configured root, on a port whose clock is locked, decodes them on the clock lane (R305, R306) and keeps it as the port's
marker with the estimate arrival - ACC_DELAY - link delay (R42); BEAT_FOLLOW_UPDATE without a marker repeats the learned
length and counts a missed beat (R43), and with one marker takes its estimate as the phase error and its period in force,
with nothing missed; LOCK_ACQUIRED locks from SEEK after 8 close beats and from HOLDOVER and FREERUN after one (R45, R47);
HOLDOVER_ENTRY, FREERUN_ENTRY and DRIFT act at 3 missed beats, at 65,536 beats held and above DRIFT_THRESH (R43, R46). Each
changes the beat unit alone, but that decoding carries on the lane's disparity and may count its code errors; groups that
stand for no marker are discarded and counted (R306). (02_fabric_beat.md.) -/
def Obligations.BeatUnitFollowsTheRoot : Prop :=
  (∀ (port : Port) (arrival : Int) (start : BitVec 10) (groups : List (BitVec 10)) (count : Beat) (acc period : Nat) (s : State) (d : Nat),
    s.live = true → PortFree s port.val → (s.port port.val).clockLocked = true → (s.port port.val).rxAsleep = false →
    (s.port port.val).delay = some d → acc < 65536 → acc + d ≤ 2000 → period ≤ 4 → s.beat.rootAddr ≠ 0xFF → s.beat.st ≠ .root →
    markerOf (s.decodeClock port.val (start :: groups)).1 = some (markerWord count acc s.beat.rootAddr period 2) →
    ∃ t, exec (.markerReceived port arrival start groups) s = .next t
      ∧ t = { (s.decodeClock port.val (start :: groups)).2 with beat := { s.beat with
          markers := (s.beat.markers.filter fun x => x.port != port.val)
            ++ [{ port := port.val, est := arrival - acc - d, count := count, period := period }] } }
      ∧ (∀ n, n ≠ port.val → t.port n = s.port n)
      ∧ t = { s with beat := t.beat, ports := t.ports, ctr := { s.ctr with counters := t.ctr.counters } })
  ∧ (∀ (port : Port) (arrival : Int) (start : BitVec 10) (groups : List (BitVec 10)) (s : State), s.live = true → PortFree s port.val →
      (s.port port.val).clockLocked = true → (s.port port.val).rxAsleep = false →
      markerOf (s.decodeClock port.val (start :: groups)).1 = none →
      ∃ t, exec (.markerReceived port arrival start groups) s = .next t ∧ t.beat = s.beat
        ∧ (t.port port.val).markerErrs = satAdd 255 (s.port port.val).markerErrs 1 ∧ (∀ n, n ≠ port.val → t.port n = s.port n)
        ∧ t = { s with ports := t.ports, ctr := { s.ctr with counters := t.ctr.counters } })
  ∧ (∀ s : State, s.live = true → s.beat.followed = false → s.beat.st ≠ .root → s.beat.markers = [] →
      ∃ t, exec .beatFollowUpdate s = .next t ∧ t = { s with beat := t.beat } ∧ t.beat.length = s.beat.learned
        ∧ t.beat.missed = s.beat.missed + 1 ∧ t.beat.followed = true ∧ t.beat.count = s.beat.count ∧ t.beat.st = s.beat.st)
  ∧ (∀ (s : State) (m : Marker), s.live = true → s.beat.followed = false → s.beat.st ≠ .root → s.beat.markers = [m] →
      ∃ t, exec .beatFollowUpdate s = .next t ∧ t = { s with beat := t.beat } ∧ t.beat.phaseErr = m.est
        ∧ t.beat.period = m.period ∧ t.beat.missed = 0 ∧ t.beat.validPorts = 1 ∧ t.beat.followed = true
        ∧ t.beat.count = s.beat.count)
  ∧ (∀ s : State, s.live = true → (s.beat.st = .seek ∧ 8 ≤ s.beat.lockRun
        ∨ (s.beat.st = .holdover ∨ s.beat.st = .freerun) ∧ 1 ≤ s.beat.lockRun) →
      exec .lockAcquired s = .next { s with beat := { s.beat with st := .locked, drift := false, everLocked := true } })
  ∧ (∀ s : State, s.live = true → s.beat.st = .locked → 3 ≤ s.beat.missed →
      exec .holdoverEntry s = .next { s with beat := { s.beat with st := .holdover } })
  ∧ (∀ s : State, s.live = true → s.beat.st = .holdover → 65536 ≤ s.beat.holdBeats →
      exec .freerunEntry s = .next { s with beat := { s.beat with st := .freerun, freerunSeen := true } })
  ∧ ∀ s : State, s.live = true → (s.beat.st = .holdover ∨ s.beat.st = .freerun) → s.beat.driftThresh < s.beat.holdBeats →
      exec .drift s = .next { s with beat := { s.beat with drift := true } }

/-- In every state in which management is ready and the steps of a boundary are due, when an entry is the next item of step 5
(R53, R388), precedence (R81) allows it and its unit is not in reset: MARK has no effect (R49); BEAT_PERIOD at the root sets
the period (R38); BEAT_ROOT sets the root (R36); POWER_STEP to a valid entry sets CURVE_TARGET while the board controller is
present (R365); a CW_WRITE of BEAT_TAG writes TAG; BIST_STOP stops the slot and BIST_START starts a slot of the run that is
active; TABLE_APPLY applies its image (R90, R91); and in each case the entry is then APPLIED with DONE_BEAT the count. An
entry that precedence denies is FAILED. (02_fabric_beat.md, 12_power.md, 13_selftest_spares.md, 17_control_words.md.) -/
def Obligations.DueEntriesApply : Prop :=
  ∀ (e : Fin 256) (s : State), s.live = true → s.beat.stepsDue = true → s.nextStep5 = some (.entry e.val) →
    let x := s.agEntry e.val
    let ends (i : Instr) (u : State) : Prop := exec i s = .next (u.finishEntry e.val .applied stOk 0)
      ∧ ((u.finishEntry e.val .applied stOk 0).agEntry e.val).st = .applied
      ∧ ((u.finishEntry e.val .applied stOk 0).agEntry e.val).doneBeat = u.beat.count
    (mayChange (s.entryHolder x.action x.paramA) x.src x.origin = true → s.entryInReset x = false →
      (x.action = 8 → ends (.mark e) s)
      ∧ (x.action = 7 → s.beat.st = .root → ends (.beatPeriod e) { s with beat := { s.beat with period := paramLow x.paramA 2 } })
      ∧ (x.action = 6 → ends (.beatRoot e) (s.setRoot (BitVec.ofNat 8 (paramLow x.paramA 7))))
      ∧ (x.action = 3 → s.curveValid (paramLow x.paramA 7) = true → s.side.bmcAbsent = false →
          ends (.powerStep e) { s with power := { s.power with curveTarget := paramLow x.paramA 7 } })
      ∧ (x.action = 2 → paramLow x.paramA 23 = 0x010018 →
          ends (.agendaCwWrite e) { s with beat := { s.beat with tag := x.paramB } })
      ∧ (x.action = 4 → ends (.bistStop e) (s.stopSlot (paramLow x.paramA 7)))
      ∧ (∀ r, x.action = 5 → s.bist.run = some r → r.slotOn = false →
          (∃ y ∈ r.parts, entrySlot y.2 = paramLow x.paramA 7) → ends (.bistStart e) (s.startSlot (paramLow x.paramA 7)))
      ∧ ∀ im, x.action = 1 → s.image (BitVec.ofNat 32 (paramLow x.paramA 31)) = some im → (s.applyImage im).2.1 = stOk →
          ends (.tableApply e) (s.applyImage im).1)
    ∧ (x.action = 8 → mayChange (s.entryHolder x.action x.paramA) x.src x.origin = false →
        exec (.mark e) s = .next (s.finishEntry e.val .failed stDeniedPrecedence (holderCode (s.entryHolder x.action x.paramA))))

/-- In every state in which management is ready and the steps of a boundary are due: BOUNDARY_STEPS runs steps 2 to 6 of R53,
after which none are due; WINDOW_CLOSE closes the window of its bank that ends here, which reads LAST_CLOSE as the beat count
(R413); CTR_SELECT_APPLY puts the pending EVENT of its counter in force (R412); WINDOW_SET_APPLY puts the pending length of
its bank in force (R413); PORT_DRAIN_TEST ends exactly the drains whose test answers (R106). Outside a boundary's steps the
five do nothing. (02_fabric_beat.md, 14_counters.md, 04_opcodes.md.) -/
def Obligations.BoundaryStepsRunOnce : Prop :=
  (∀ s : State, s.live = true → s.beat.stepsDue = true →
    (exec .boundarySteps s = .next s.boundarySteps ∧ s.boundarySteps.beat.stepsDue = false)
    ∧ (∀ b : Fin 65, (s.window b.val).due = true → ¬(b.val = 64 ∧ s.underTest 94 = true) →
        exec (.windowClose b) s = .next (s.closeWindow b.val)
        ∧ ((s.closeWindow b.val).window b.val).lastClose = s.beat.count ∧ ((s.closeWindow b.val).window b.val).due = false
        ∧ s.closeWindow b.val = { s with ctr := (s.closeWindow b.val).ctr })
    ∧ (∀ (b : Fin 65) (n : Nat), (s.window b.val).pending = some n →
        ∃ t, exec (.windowSetApply b) s = .next t ∧ (t.window b.val).window = n ∧ (t.window b.val).pending = none
          ∧ t = { s with ctr := t.ctr })
    ∧ (∀ (k : Fin 1280) (ev : BitVec 16), (s.counter k.val).select = some ev →
        ∃ t, exec (.ctrSelectApply k) s = .next t ∧ bitsAt (t.eventEntry k.val) 63 48 = ev.toNat
          ∧ (t.counter k.val).select = none ∧ (t.counter k.val).run = 0 ∧ (t.counter k.val).reprog = true
          ∧ t = { s with ctr := t.ctr, tables := t.tables })
    ∧ exec .portDrainTest s = .next s.testDrains)
  ∧ ∀ s : State, s.live = true → s.beat.stepsDue = false → exec .boundarySteps s = .next s
      ∧ (∀ b, exec (.windowClose b) s = .next s ∧ exec (.windowSetApply b) s = .next s)
      ∧ (∀ k, exec (.ctrSelectApply k) s = .next s) ∧ exec .portDrainTest s = .next s

/-- In State.reset, the EVENT field of the counter event table entry of counter i of each port bank is the i-th code of the list
for port banks, that of global counter i, 0 to 15, the i-th code of the list for the global bank, and that of global counters
16 to 255 NONE. (R405.) -/
def Obligations.CountersSelectTheirResetEvents : Prop :=
  (∀ (bank : Fin 64) (i : Fin 16), bitsAt (State.reset.entry 9 (16 * bank.val + i.val)) 63 48
      = [0x0101, 0x0102, 0x0105, 0x0106, 0x0107, 0x0108, 0x0109, 0x010B, 0x010C, 0x010D, 0x0200, 0x0201, 0x0202, 0x0203, 0x0204,
         0x0111].getD i.val 0)
  ∧ (∀ i : Fin 16, bitsAt (State.reset.entry 9 (1024 + i.val)) 63 48
      = [0x3100, 0x3101, 0x3102, 0x3103, 0x3104, 0x3105, 0x2100, 0x2101, 0x2102, 0x2103, 0x2104, 0x1001, 0x1002, 0x3007, 0x2007,
         0x4004].getD i.val 0)
  ∧ ∀ i : Fin 256, 16 ≤ i.val → bitsAt (State.reset.entry 9 (1024 + i.val)) 63 48 = 0

/-- In every state in which management is ready: POWER_SAMPLE sets POWER_NOW, adds the excess over the effective cap to OVERRUN
(R371), and lowers K_CAP by one, not below 8, exactly when the sample is above the cap or 1,650 W, or the mean of the last
16,384 samples is above 1,500 W (R358, R368); with DROOP_EN = 1, DROOP_LIGHT_TRIP lowers K_DROOP by DECAF_STEP to 8 at least
and DROOP_HEAVY_TRIP to 8, each counting one trip, and DROOP_FURTHER_STEP lowers it again after a trip in the same beat
(R361); VREQ_FRAME moves CODE by one step toward RAIL_ENTRY and sends its frame (R477); RAIL_SETTLED raises K_RAIL (R364);
VREQ_FAULT sets K_RAIL to 8 and its cause, and VREQ_FAULT_CLEAR sends the code again (R478). (12_power.md, 18_package.md.) -/
def Obligations.PowerUnitActs : Prop :=
  (∀ (w : Nat) (s : State), s.live = true → ∃ t, exec (.powerSample w) s = .next t
      ∧ t.power.now = min 0xFFFF w ∧ t.power.overrun = s.power.overrun + (w - s.effCap) * 1024
      ∧ t.power.kCap = (if s.effCap < w ∨ 1650 < w
            ∨ (((w :: s.power.samples).take 16384).length = 16384 ∧ 1500 * 16384 < ((w :: s.power.samples).take 16384).sum)
          then min s.power.kCap (max 8 (s.power.kCap - 1)) else s.power.kCap)
      ∧ t = { s with power := t.power, side := { s.side with attn := t.side.attn, ibiDue := t.side.ibiDue } })
  ∧ (∀ s : State, s.live = true → s.power.droopEn = true →
      (∃ t, exec .droopLightTrip s = .next t ∧ t = { s with power := t.power }
        ∧ t.power.kDroop = max 8 (s.power.kDroop - s.power.decafStep)
        ∧ t.power.droopTrips = satAdd 0xFFFF s.power.droopTrips 1 ∧ t.power.lightSeen = true)
      ∧ (∃ u : State, exec .droopHeavyTrip s = .next u.droopStops ∧ u = { s with power := u.power } ∧ u.power.kDroop = 8
        ∧ u.power.droopTrips = satAdd 0xFFFF s.power.droopTrips 1 ∧ u.power.heavySeen = true)
      ∧ (s.power.droopBeat = true → exec .droopFurtherStep s = .next { s with power := { s.power with
          kDroop := max 8 (s.power.kDroop - s.power.decafStep) } }))
  ∧ (∀ s : State, s.live = true → s.power.railMoving = true → s.power.vreqFault = false →
      (s.power.code < s.railCode → ∃ t, exec .vreqFrame s = .next t ∧ t.power.code = s.power.code + 1
        ∧ t.power.railMoving = true ∧ t.out = s.out ++ [.vreq (Machine.vreqFrame (s.power.code + 1))]
        ∧ t = { s with power := t.power, out := t.out })
      ∧ (s.railCode < s.power.code → ∃ t, exec .vreqFrame s = .next t ∧ t.power.code = s.power.code - 1
        ∧ t.power.railMoving = decide (s.railCode + 1 < s.power.code)
        ∧ t.out = s.out ++ [.vreq (Machine.vreqFrame (s.power.code - 1))] ∧ t = { s with power := t.power, out := t.out })
      ∧ (s.power.code = s.railCode → exec .railSettled s = .next { s with power := { s.power with
          kRail := s.curveK s.power.railEntry, railMoving := false } }))
  ∧ (∀ s : State, s.live = true → ∃ t, exec .vreqFault s = .next t ∧ t.power.kRail = 8 ∧ t.power.vreqFault = true
      ∧ t.power.capUnmet = true ∧ t.side.attn = s.side.attn ||| 0x20
      ∧ t = { s with power := t.power, side := { s.side with attn := t.side.attn, ibiDue := t.side.ibiDue } })
  ∧ ∀ s : State, s.live = true → s.power.vreqFault = true → ∃ t, exec .vreqFaultClear s = .next t
      ∧ t.power.vreqFault = false ∧ t.power.code = s.power.code ∧ t.out = s.out ++ [.vreq (Machine.vreqFrame s.power.code)]
      ∧ t = { s with power := t.power, out := t.out }

/-- In every state in which the management controller takes packets, with a cap of 0 or 250 to 1,500 W: CEILING_SET, when
precedence (R79) allows it and no absent board controller forbids the raise (R112, R372; a command of I3C is its own, R439),
records the ceiling and its setter, takes its hold, or clears it for a cap of 0 (R366), applies the change of the effective
cap (R368) and answers EFFECTIVE_CAP and SETTER; HOST_REQUEST_SET does the same for the host request when it is not above the
ceiling, and records nothing above it (R112); a source that precedence denies changes nothing, and a raise that is forbidden
is answered DENIED_STATE and sets RAISE_REFUSED alone. TELEMETRY_READ answers 16 bytes, and clears the peaks only under
CLEAR_PEAK from the Sideband Chain or I3C (R373). (12_power.md, 04_opcodes.md.) -/
def Obligations.CapsAreSetAndHeld : Prop :=
  (∀ (c : Cmd) (cap : BitVec 16) (s : State), Open s → cap = 0 ∨ 250 ≤ cap.toNat ∧ cap.toNat ≤ 1500 →
    (mayChange s.mgmt.ceilingHold c.src c.origin = true →
        (c.src ≠ .i3c → s.side.bmcAbsent = true → (withCeiling s c cap.toNat).effCap ≤ s.effCap) →
      exec (.ceilingSet c cap) s = .next (((withCeiling s c cap.toNat).capChanged s.effCap).ok c 0x0701
        ((withCeiling s c cap.toNat).capChanged s.effCap).capData))
    ∧ (mayChange s.mgmt.ceilingHold c.src c.origin = false → OnlyReplied s (s.reply c 0x0701 stDeniedPrecedence
          (holderCode s.mgmt.ceilingHold) s.capData)
        ∧ exec (.ceilingSet c cap) s = .next (s.reply c 0x0701 stDeniedPrecedence (holderCode s.mgmt.ceilingHold) s.capData))
    ∧ (mayChange s.mgmt.hostHold c.src c.origin = true → (s.power.ceiling = 0 ∨ cap.toNat ≤ s.power.ceiling) →
        (c.src ≠ .i3c → s.side.bmcAbsent = true → (withHostRequest s c cap.toNat).effCap ≤ s.effCap) →
        exec (.hostRequestSet c cap) s = .next (((withHostRequest s c cap.toNat).capChanged s.effCap).ok c 0x0702
          ((withHostRequest s c cap.toNat).capChanged s.effCap).capData))
    ∧ (mayChange s.mgmt.hostHold c.src c.origin = true → s.power.ceiling ≠ 0 → s.power.ceiling < cap.toNat →
        exec (.hostRequestSet c cap) s = .next (s.reply c 0x0702 stDeniedPrecedence (holderCode s.mgmt.ceilingHold) s.capData))
    ∧ (mayChange s.mgmt.ceilingHold c.src c.origin = true → c.src ≠ .i3c → s.side.bmcAbsent = true →
        s.effCap < (withCeiling s c cap.toNat).effCap →
        ∃ t : State, exec (.ceilingSet c cap) s = .next (t.deny c 0x0701 stDeniedState 0) ∧ t.power = { s.power with raiseRefused := true }
          ∧ t = { s with power := t.power, side := { s.side with attn := t.side.attn, ibiDue := t.side.ibiDue } }))
  ∧ (∀ s : State, s.effCap = (if s.power.ceiling = 0 ∧ s.power.hostReq = 0 then 1500
      else if s.power.ceiling = 0 then s.power.hostReq else if s.power.hostReq = 0 then s.power.ceiling
      else min s.power.ceiling s.power.hostReq))
  ∧ ∀ (c : Cmd) (flags : Byte) (s : State), Open s → s.power.telem.length = 4 →
      ∃ (t : State) (data : Bytes), exec (.telemetryRead c flags) s = .next (t.ok c 0x0703 data) ∧ data.length = 16
        ∧ t = { s with power := { s.power with telem := t.power.telem } }
        ∧ t.power.telem = (if bitAt flags.toNat 0 = true ∧ (c.src = .sb ∨ c.src = .i3c)
            then s.power.telem.map fun w => { w with peak := 0 } else s.power.telem)

/-- In every state in which management is ready: BIST_RUN, when no check refuses it, stages BIST_START of its lowest slot, holds
the run active and stands deferred (R388, R389); BIST_ABORT of partitions under test stops them and stands deferred until
their restores (R392); BIST_PARTITION_DONE of a partition under test ends its test, in a memory half once no bank is left to
march: the MISR takes the words of the report by the step of R380 and the count goes on, the outcome is PASS when signature,
count and lanes are as expected, and outside the ports the result holds that signature and count and the beat, with FAIL when
either is not the expected one (R381, R382); BIST_RESTORE ends the restore of a partition (R379). At their places in step 5
(R26, R388) BIST_SLOT_END and BIST_SLOT_DEADLINE end a slot, whose members have finished or whose LEN_BEATS have passed,
BIST_SLOT_RETRY and BIST_NEXT_SLOT start one, and SLOT_WAIT_EXPIRY gives one up. The order of slots beside the entries of
step 5 is the model's: log entry 63. (13_selftest_spares.md, 04_opcodes.md.) -/
def Obligations.SelfTestRuns : Prop :=
  (∀ (c : Cmd) (parts : BitVec 96) (spec : TargetSpec) (s : State), Open s → s.paramError (.bistRun c parts spec) = none →
    s.runGate (partList parts) = none →
    s.stageCheck c spec [startOf (runOf s parts)] true = none →
    exec (.bistRun c parts spec) s = .next (((s.stageAll c spec [startOf (runOf s parts)]).1.updBist fun b =>
      { b with run := some (runOf s parts) }).defer c 0x0800 (.bistRun parts)))
  ∧ (∀ (c : Cmd) (part : Byte) (s : State), Open s → part.toNat < 96 → s.underTest part.toNat = true →
      exec (.bistAbort c part) s =
        .next ((s.stopTest 1 part.toNat).defer c 0x0802 (.bistAbort [part.toNat])).abortCheck)
  ∧ (∀ (part : Fin 96) (te : TestEnd) (s : State), s.live = true → s.bist.active.contains part.val = true →
      exec (.bistPartitionDone part te) s = .next (s.endTest part.val te true 0).abortCheck
      ∧ let q := s.testSeq part.val
        let misr := te.words.foldl misrNext q.misr
        let whole : Prop := part.val < 90 ∨ 94 ≤ part.val ∨ q.bank = none ∧ q.left = []
        (misr = Config.bistMisr part.val → q.count + te.patterns = expectPatterns part.val → te.txFail = 0 → te.rxFail = 0 → whole →
          ((s.endTest part.val te true 0).result part.val).outcome = 1)
        ∧ (64 ≤ part.val → whole →
            ((s.endTest part.val te true 0).result part.val).misr = misr
            ∧ ((s.endTest part.val te true 0).result part.val).patterns = q.count + te.patterns
            ∧ ((s.endTest part.val te true 0).result part.val).beat = s.beat.count
            ∧ (misr ≠ Config.bistMisr part.val ∨ q.count + te.patterns ≠ expectPatterns part.val →
                ((s.endTest part.val te true 0).result part.val).outcome = 2)))
  ∧ (∀ (part : Fin 96) (s : State), s.live = true → s.bist.restoring.contains part.val = true →
      s.bist.retrain.contains part.val = false →
      ∃ t : State, exec (.bistRestore part) s = .next t.abortCheck
        ∧ t = { s with bist := { s.bist with restoring := s.bist.restoring.filter (· != part.val)
                                             retrain := s.bist.retrain.filter (· != part.val) } })
  ∧ ∀ (s : State) (r : Run), s.live = true → s.beat.stepsDue = true → s.bist.run = some r →
      let finished : Prop := r.members r.slot = [] ∧ r.endedAt < s.beat.localBeats
      (s.nextStep5 = some .slotStop → r.slotOn = true
        ∧ (finished ∨ ((r.parts.filter fun x => entrySlot x.2 == r.slot).map fun x => entryLen x.2).foldl max 0
            ≤ (s.beat.count - r.startBeat).toNat))
      ∧ (s.nextStep5 = some .slotStop → finished → exec .bistSlotEnd s = .next s.endSlot)
      ∧ (s.nextStep5 = some .slotStart → r.waiting = true →
          s.slotFits r r.slot = true ∨ (s.beat.count - r.waitFrom).toNat < s.bist.slotWait.toNat →
          exec .bistSlotRetry s = .next (s.startSlot r.slot))
      ∧ (s.nextStep5 = some .slotStart → r.waiting = true → s.slotFits r r.slot = false →
          s.bist.slotWait.toNat ≤ (s.beat.count - r.waitFrom).toNat →
          exec .slotWaitExpiry s = .next ((r.members r.slot).foldl (fun (t : State) x => t.neverRan x.1 6) s).endSlot)
      ∧ (s.nextStep5 = some .slotStart → r.waiting = false → exec .bistNextSlot s = .next (s.startSlot r.slot))
      ∧ ∀ l : List (Nat × TestEnd), s.nextStep5 = some .slotStop → ¬ finished →
          exec (.bistSlotDeadline l) s = .next ((r.members r.slot).foldl (fun (t : State) x =>
            match l.find? fun e => e.1 == x.1 with
            | some e => t.endTest x.1 e.2 false 3
            | none => t.stopTest 3 x.1) s).abortCheck.endSlot

/-- In every state in which management is ready: SPARE_BRING_IN of a cluster puts the lowest usable spare in service at once,
marks the cluster UNUSABLE and stands deferred; of a bank it takes both out and starts the copy (R394, R399); SPARE_BRING_IN
of a stack starts its migration onto the spare stack (R214); BANK_COPY_DONE puts the spare in service and marks a bank that
is to leave, after the words that were uncorrectable have gone on with their poison (R394); SPARE_AUTO_BRING_IN brings in a
spare for a unit in service that met its trigger (R393, R396), and lets a bank that is being copied leave at the end of the
copy; SPARE_BRING_IN_COMPLETE answers the beat of the oldest bring-in that has taken over (R399); FUSE_BLOW blows every mark
made, and none is left to blow (R395). (13_selftest_spares.md, 07_fabric_memory.md, 04_opcodes.md.) -/
def Obligations.SparesTakeOver : Prop :=
  (∀ (c : Cmd) (kind : Byte) (unit : BitVec 16) (sp : Nat) (s : State), Open s → s.paramError (.spareBringIn c kind unit) = none →
    s.partInReset (unitPart (kindOf kind) unit.toNat) = false → s.underTest (unitPart (kindOf kind) unit.toNat) = false →
    s.bankRole (kindOf kind) unit.toNat = .inService → s.nextSpare (kindOf kind) unit.toNat = some sp →
    exec (.spareBringIn c kind unit) s = .next ((s.bringOut (kindOf kind) unit.toNat sp).defer c 0x0804
      (.bringIn (kindOf kind) unit.toNat (if kind = 2 then some s.beat.count else none)))
    ∧ (kindOf kind = .cluster → sp ≠ unit.toNat →
        (s.bringOut .cluster unit.toNat sp).rcRole sp = .inService ∧ (s.bringOut .cluster unit.toNat sp).rcRole unit.toNat = .unusable)
    ∧ (kindOf kind ≠ .cluster → sp ≠ unit.toNat →
        (s.bringOut (kindOf kind) unit.toNat sp).bankRole (kindOf kind) sp = .out
        ∧ (s.bringOut (kindOf kind) unit.toNat sp).bankRole (kindOf kind) unit.toNat = .out
        ∧ (s.bringOut (kindOf kind) unit.toNat sp).bist.copies = s.bist.copies ++ [(kindOf kind, unit.toNat, sp, true)]))
  ∧ (∀ (c : Cmd) (unit : BitVec 16) (sp : Nat) (s : State), Open s → unit.toNat < 13 → s.memInReset = false →
      (s.stack unit.toNat).role = .inService → s.migrating = false → s.spareStack = some sp →
      exec (.spareBringInStack c unit) s =
        .next ((s.startMigration unit.toNat sp false).defer c 0x0804 (.stackBringIn unit.toNat none)))
  ∧ (∀ (kind : SpareKind) (bank sp : Nat) (gone : Bool) (poisoned : List CopyErr) (s : State), s.live = true → bank ≠ sp →
      kind ≠ .cluster →
      s.bist.copies.find? (fun c => c.1 == kind && c.2.1 == bank) = some (kind, bank, sp, gone) →
      ∃ t : State, exec (.bankCopyDone kind { bank := bank, poisoned := poisoned }) s = .next t.resumeHalves ∧ t.bankRole kind sp = .inService
        ∧ t.bankRole kind bank = (if gone = true then .unusable else s.bankRole kind bank)
        ∧ t.bist.copies = s.bist.copies.filter (· != (kind, bank, sp, gone)))
  ∧ (∀ (kind : SpareKind) (unit : Nat) (s : State), s.live = true → s.bist.autoSpare = true → unit < kindUnits kind →
      s.triggered kind unit = true → s.bankRole kind unit = .inService →
      (∀ sp, s.nextSpare kind unit = some sp → exec (.spareAutoBringIn kind unit) s = .next (s.bringOut kind unit sp))
      ∧ (s.nextSpare kind unit = none → exec (.spareAutoBringIn kind unit) s = .next (s.loseBank kind unit)))
  ∧ (∀ (kind : SpareKind) (unit : Nat) (s : State), s.live = true → s.bist.autoSpare = true → unit < kindUnits kind →
      s.triggered kind unit = true → s.bankRole kind unit ≠ .inService →
      ∃ t, exec (.spareAutoBringIn kind unit) s = .next t ∧ t = { s with bist := { s.bist with copies := t.bist.copies } }
        ∧ ∀ sp gone, (kind, unit, sp, gone) ∈ s.bist.copies → (kind, unit, sp, true) ∈ t.bist.copies)
  ∧ (∀ (d : Deferred) (b : Beat) (before rest : List Deferred) (s : State), s.live = true →
      s.mgmt.deferred = before ++ d :: rest → broughtIn d.work = some b → (∀ x ∈ before, broughtIn x.work = none) →
      exec .spareBringInComplete s = .next (({ s with mgmt := { s.mgmt with deferred := before ++ rest } } : State).complete d.cmd
        d.opcode d.keyKept stOk 0 (leBytes 6 b.toNat)))
  ∧ ∀ s : State, s.live = true → s.bist.toBlow ≠ [] → ∃ t, exec .fuseBlow s = .next t ∧ t.bist.toBlow = []
      ∧ (∀ m, m ∈ t.bist.fuses ↔ m ∈ s.bist.fuses ∨ m ∈ s.bist.toBlow)
      ∧ t.out = s.out ++ s.bist.toBlow.map (fun m => .fuse m.1 m.2)
      ∧ t = { s with bist := { s.bist with toBlow := [], fuses := t.bist.fuses }, out := t.out }

/-- In every state in which the management controller takes packets and TP-94 is not under test, with no parameter in error:
CTR_READ answers 8 bytes for each counter and clears their WRAP and REPROG only (R411); CTR_SELECT, which the hold of the
event table allows, leaves its EVENT pending (R412) and CTR_WINDOW_SET its length (R413); SAMPLE_CONFIG arms or disarms its
counter with PERIOD (R415). SAMPLE_CAPTURE puts the record of the oldest expiry of a counter, 32 bytes with the counter's
word as it was and the context that has come (R415, R416), in a buffer with room, and counts a lost record when 256 are there
(R417). A step without a command is one cycle of the core clock's source (log entry 3): besides counters and the position of
that source (R360, R407 to R409), only what the TX lanes send moves (R300), and a cartridge transfer that its bus is free for
may begin (R436); nothing changes at all while the module is held in reset. (14_counters.md, 04_opcodes.md.) -/
def Obligations.CountersAreReadAndArmed : Prop :=
  (∀ (c : Cmd) (bank : Byte) (first count : BitVec 16) (s : State), Open s → s.underTest 94 = false →
    s.paramError (.ctrRead c bank first count) = none →
    ∃ (t : State) (data : Bytes), exec (.ctrRead c bank first count) s = .next (t.ok c 0x0900 data)
      ∧ data.length = 8 * count.toNat ∧ t = { s with ctr := { s.ctr with counters := t.ctr.counters } }
      ∧ (∀ k, k < count.toNat → t.counter (counterOf bank.toNat (first.toNat + k))
          = { s.counter (counterOf bank.toNat (first.toNat + k)) with wrap := false, reprog := false })
      ∧ ∀ n, (∀ k, k < count.toNat → n ≠ counterOf bank.toNat (first.toNat + k)) → t.counter n = s.counter n)
  ∧ (∀ (c : Cmd) (bank : Byte) (index event : BitVec 16) (s : State), Open s → s.underTest 94 = false →
      s.paramError (.ctrSelect c bank index event) = none → mayChange (sget s.mgmt.tableHolds 9 none) c.src c.origin = true →
      exec (.ctrSelect c bank index event) s = .next ((s.setCounter (counterOf bank.toNat index.toNat)
        { s.counter (counterOf bank.toNat index.toNat) with select := some event }).ok c 0x0901 []))
  ∧ (∀ (c : Cmd) (bank : Byte) (n : BitVec 32) (s : State), Open s → s.underTest 94 = false →
      s.paramError (.ctrWindowSet c bank n) = none →
      exec (.ctrWindowSet c bank n) s = .next ((s.setWindow (if bank.toNat = 0xFF then 64 else bank.toNat)
        { s.window (if bank.toNat = 0xFF then 64 else bank.toNat) with pending := some n.toNat }).ok c 0x0902 []))
  ∧ (∀ (c : Cmd) (bank : Byte) (index : BitVec 16) (period : Word) (en : Byte) (s : State), Open s → s.underTest 94 = false →
      s.paramError (.sampleConfig c bank index period en) = none →
      ∃ t : State, exec (.sampleConfig c bank index period en) s = .next (t.ok c 0x0903 [])
        ∧ (t.counter (counterOf bank.toNat index.toNat)).armed = (en != 0)
        ∧ (t.counter (counterOf bank.toNat index.toNat)).period.toNat = period.toNat
        ∧ (t.counter (counterOf bank.toNat index.toNat)).run = (s.counter (counterOf bank.toNat index.toNat)).run
        ∧ (∀ n, n ≠ counterOf bank.toNat index.toNat → t.counter n = s.counter n) ∧ t = { s with ctr := t.ctr })
  ∧ (∀ s : State, s.pending = [] → s.live = true → ∃ t, step s = .next t
      ∧ t = { s with ctr := { s.ctr with counters := t.ctr.counters }, ports := t.ports, out := t.out
                     power := { s.power with cycle := (s.power.cycle + 1) % 1280, time := s.power.time + 2 }
                     mgmt := { s.mgmt with deferred := t.mgmt.deferred } }
      ∧ s.out <+: t.out
      ∧ t.mgmt.deferred.map (fun d => { d with served := false }) = s.mgmt.deferred.map (fun d => { d with served := false })
      ∧ ∀ n, t.port n = { s.port n with
          a := { (s.port n).a with blocks := (t.port n).a.blocks, txLine := (t.port n).a.txLine, txPart := (t.port n).a.txPart }
          b := { (s.port n).b with blocks := (t.port n).b.blocks, txLine := (t.port n).b.txLine, txPart := (t.port n).b.txPart }
          txRd := (t.port n).txRd, ckOut := (t.port n).ckOut })
  ∧ (∀ s : State, s.pending = [] → s.live = false → step s = .next s)
  ∧ ∀ (bank index : Byte) (k : Nat) (x : Option SampleCtx) (rest : List (Option SampleCtx)) (s : State), s.live = true →
      bankBad bank.toNat = false → index.toNat < bankSize bank.toNat → k = counterOf bank.toNat index.toNat →
      (s.counter k).due = x :: rest →
      ∃ t, exec (.sampleCapture bank index) s = .next t ∧ (t.counter k).due = rest
        ∧ (s.ctr.samples.length < 256 → ∃ r : Sample, t.ctr.samples = s.ctr.samples ++ [r] ∧ r.value = s.counterWord k
            ∧ r.beat = s.beat.count ∧ r.context = x ∧ (sampleBytes r).length = 32 ∧ t.ctr.lost = s.ctr.lost)
        ∧ (256 ≤ s.ctr.samples.length → t.ctr.samples = s.ctr.samples ∧ t.ctr.lost = satAdd 0xFFFF s.ctr.lost 1)

/-- In every state in which the management controller takes packets, with no parameter in error: KEY_LOAD from a source that may
(R83, R117) puts the key, mask, KEY_ADMIN and epoch in its slot and the epoch in LAST_EPOCH, and KEY_CLEAR empties its slot;
no other slot changes, and a reply authenticated under the changed slot carries no tag (R97); from any other source both
answer DENIED_PRECEDENCE and change nothing. AUTH_REQ_SET that the fixed rules of R80 allow sets AUTH_REQ, and TC7_ALLOW_SET
sets TC7_ALLOW. (03_command_packets.md, 04_opcodes.md.) -/
def Obligations.KeysAndAccess : Prop :=
  (∀ (c : Cmd) (slot mask flags : Byte) (epoch : BitVec 48) (key : BitVec 256) (s : State), Open s →
    s.paramError (.keyLoad c slot mask flags epoch key) = none →
    (s.keyAdmin c = true → ∃ t : State,
      exec (.keyLoad c slot mask flags epoch key) s = .next (t.complete c 0x0A00 (!(c.auth && c.keySlot == slot.toNat)) stOk 0 [])
      ∧ t.key slot.toNat = { loaded := true, mask := mask.truncate 4, admin := bitAt flags.toNat 0, epoch := epoch, key := key }
      ∧ sget t.mgmt.lastEpoch slot.toNat 0 = epoch ∧ (∀ n, n ≠ slot.toNat → t.key n = s.key n)
      ∧ t = { s with mgmt := { s.mgmt with keys := t.mgmt.keys, lastEpoch := t.mgmt.lastEpoch, deferred := t.mgmt.deferred } })
    ∧ (s.keyAdmin c = false → exec (.keyLoad c slot mask flags epoch key) s =
        .next (s.deny c 0x0A00 stDeniedPrecedence 0x8000)))
  ∧ (∀ (c : Cmd) (slot : Byte) (s : State), Open s → s.paramError (.keyClear c slot) = none →
      (s.keyAdmin c = true → ∃ t : State,
        exec (.keyClear c slot) s = .next (t.complete c 0x0A01 (!(c.auth && c.keySlot == slot.toNat)) stOk 0 [])
        ∧ (t.key slot.toNat).loaded = false ∧ (∀ n, n ≠ slot.toNat → t.key n = s.key n)
        ∧ t = { s with mgmt := { s.mgmt with keys := t.mgmt.keys, deferred := t.mgmt.deferred } })
      ∧ (s.keyAdmin c = false → exec (.keyClear c slot) s = .next (s.deny c 0x0A01 stDeniedPrecedence 0x8000)))
  ∧ (∀ (c : Cmd) (bits : Byte) (s : State), Open s → bits.toNat < 16 →
      (lowSource c.src && authChangeBad c.src s.mgmt.authReq (bits.truncate 4)) = false →
      exec (.authReqSet c bits) s = .next (({ s with mgmt := { s.mgmt with authReq := bits.truncate 4 } } : State).ok c 0x0A03 []))
  ∧ ∀ (c : Cmd) (allow : BitVec 128) (s : State), Open s →
      exec (.tc7AllowSet c allow) s = .next (({ s with mgmt := { s.mgmt with tc7Allow := allow } } : State).ok c 0x0A04 [])

/-- On a port whose lanes take part in the link: RX_CLOCK_LOCK locks the clock, CK_ON_SP_TIMEOUT takes it from the idle spare
(R332); LANE_HEADER_LOCK records a lane that names itself and enters ALIGN exactly when the set is complete, and counts one
that names another (R333, R334); T_LANE_WAIT_EXPIRY resolves the lanes not locked by the rule of R349; ALIGN_CONFIRMED, when
every lane of the set is locked, enters EXCHANGE (R335); T_HUNT, T_ALIGN and T_EXCHANGE fail the attempt with their codes
(R355); BACKOFF_END enters SEND anew (R340), and only this port moves. A stripe in SEND hunts once the reads and re-timer
writes that R435 asks for are done (log entry 66). (11_link_bringup.md.) -/
def Obligations.TrainingAdvances : Prop :=
  ∀ (port : Port) (sd : Side) (s : State), s.lineOk port.val = true →
    (s.rxLaneBad port.val 9 = false → ((s.port port.val).sides.any fun x => ((s.port port.val).stripe x).hunting) = true →
      (∃ t, exec (.rxClockLock port) s = .next t ∧ OnlyPort s t port.val ∧ (t.port port.val).clockLocked = true
        ∧ ∀ x ∈ (s.port port.val).sides, (t.port port.val).stripe x = { (s.port port.val).stripe x with energySeen := true })
      ∧ ((s.port port.val).clockLocked = false → s.rxSpareIdle port.val = true → ∃ t, exec (.ckOnSpTimeout port) s = .next t
        ∧ OnlyPort s t port.val ∧ (t.port port.val).clockLocked = true ∧ (t.port port.val).ckOnSp = true ∧ (t.port port.val).rxSp = 9))
    ∧ (∀ (lane : Fin 9) (id : BitVec 4), s.rxLaneBad port.val lane.val = false → (sd = .b → (s.port port.val).split = true) →
        ((s.port port.val).stripe sd).hunting = true → (s.port port.val).clockLocked = true →
        lane.val ∈ stripeLanes (s.port port.val).split sd →
        (id.toNat = lane.val → ∃ t, exec (.laneHeaderLock port sd lane id) s = .next t ∧ OnlyPort s t port.val
          ∧ ((t.port port.val).stripe sd).locked = ((s.port port.val).stripe sd).locked ||| BitVec.ofNat 9 (1 <<< lane.val)
          ∧ ((t.port port.val).stripe sd).st = (if (huntSet (s.port port.val).split sd ((s.port port.val).stripe sd)).all
              (fun k => bitAt ((t.port port.val).stripe sd).locked.toNat k) = true then .align else .send))
        ∧ (id.toNat ≠ lane.val → exec (.laneHeaderLock port sd lane id) s = .next (s.updPort port.val fun p =>
            { p with trainFails := satAdd 255 p.trainFails 1 })))
    ∧ (∀ (sp : Option Nat) (half : Option (List Nat)), ((s.port port.val).stripe sd).hunting = true →
        ((s.port port.val).stripe sd).locked ≠ 0 → ((s.port port.val).stripe sd).rxw = 0 →
        resolveLanes (s.rxSpareIdle port.val) (stripeLanes (s.port port.val).split sd)
          ((stripeLanes (s.port port.val).split sd).filter fun k => !bitAt ((s.port port.val).stripe sd).locked.toNat k) = some (sp, half) →
        ∃ t, exec (.tLaneWaitExpiry port sd) s = .next t ∧ OnlyPort s t port.val ∧ ((t.port port.val).stripe sd).spWant = sp.getD
              (if (half.getD (stripeLanes (s.port port.val).split sd)).contains ((s.port port.val).stripe sd).spWant = true
                then ((s.port port.val).stripe sd).spWant else 15)
          ∧ ((t.port port.val).stripe sd).rxw = (half.getD (stripeLanes (s.port port.val).split sd)).length
          ∧ ∀ k, sp = some k → (t.port port.val).rxSp = k)
    ∧ (((s.port port.val).stripe sd).st = .align →
        ((huntSet (s.port port.val).split sd ((s.port port.val).stripe sd)).all
            (fun k => bitAt ((s.port port.val).stripe sd).locked.toNat k) = true →
          ∃ t, exec (.alignConfirmed port sd) s = .next t ∧ OnlyPort s t port.val
            ∧ (t.port port.val).stripe sd = { (s.port port.val).stripe sd with
                aligned := true, st := .exchange, txLine := [], txPart := [], readOwed := false, rtOwed := false })
        ∧ ∃ t, exec (.tAlignExpiry port sd) s = .next t ∧ BacksOff s t port.val sd 2)
    ∧ (((s.port port.val).stripe sd).hunting = true → ∃ t, exec (.tHuntExpiry port sd) s = .next t
        ∧ BacksOff s t port.val sd (if ((s.port port.val).stripe sd).locked = 0 then 1 else 6))
    ∧ (((s.port port.val).stripe sd).st = .exchange → ∃ t, exec (.tExchangeExpiry port sd) s = .next t ∧ BacksOff s t port.val sd 3)
    ∧ (((s.port port.val).stripe sd).st = .backoff → ∃ t, exec (.backoffEnd port sd) s = .next t ∧ OnlyPort s t port.val
        ∧ Hunts s t port.val sd)

/-- On a port whose lanes take part in the link: ENERGY_DETECTED puts every stripe in BACKOFF whose attempt saw no energy into
SEND, notes the energy for the stripes that hunt in SEND (R340; log entry 66), and starts the wake of a sleeping RX direction
(R320); PRESENCE_SETTLED on an enabled, present port with an ABSENT stripe puts every ABSENT stripe into SEND and clears
BACKOFF_EXP (R340, R356). Only this port moves. (11_link_bringup.md, 10_lanes_line_code.md.) -/
def Obligations.EnergyAndPresenceStartTraining : Prop :=
  ∀ (port : Port) (s : State), s.lineOk port.val = true →
    (∃ t, exec (.energyDetected port) s = .next t ∧ OnlyPort s t port.val
      ∧ (t.port port.val).rxWaking = (if (s.port port.val).rxAsleep = true ∧ (s.port port.val).rxWaking = 0 then 1
          else (s.port port.val).rxWaking)
      ∧ ∀ sd ∈ (s.port port.val).sides,
          (((s.port port.val).stripe sd).st = .backoff → ((s.port port.val).stripe sd).energySeen = false →
            ((t.port port.val).stripe sd).st = .send ∧ ((t.port port.val).stripe sd).rxw = 0)
          ∧ (((s.port port.val).stripe sd).hunting = true →
            (t.port port.val).stripe sd = { (s.port port.val).stripe sd with energySeen := true })
          ∧ (((s.port port.val).stripe sd).hunting = false → ((s.port port.val).stripe sd).st ≠ .backoff →
            (t.port port.val).stripe sd = (s.port port.val).stripe sd))
    ∧ ((s.port port.val).enabled = true → s.present port.val = true →
        ((s.port port.val).sides.any fun sd => decide (((s.port port.val).stripe sd).st = .absent)) = true →
        ∃ t, exec (.presenceSettled port) s = .next t ∧ OnlyPort s t port.val ∧ (t.port port.val).backoffExp = 0
          ∧ ∀ sd ∈ (s.port port.val).sides,
            (((s.port port.val).stripe sd).st = .absent → ((t.port port.val).stripe sd).st = .send)
            ∧ (((s.port port.val).stripe sd).st ≠ .absent → (t.port port.val).stripe sd = (s.port port.val).stripe sd))

/-- On a port whose lanes take part, for a stripe in training: a record with a bad CRC or reserved bits set counts one code error
on its lane and nothing else (R331); in EXCHANGE another VERSION fails the attempt with code 5, another MODE with code 4
(R336, R355); a record that agrees gives the stripe the partner's width, first lane, alignment and epoch, its STAMP and
T_SYMS, and counts a READY record (R331, R337 to R339). STRIPE_UP brings a stripe up exactly when it has sent READY and
received READY_BLOCKS of them with a legal width (R339). (11_link_bringup.md.) -/
def Obligations.RecordsAreExchanged : Prop :=
  ∀ (port : Port) (sd : Side) (s : State), s.lineOk port.val = true → (sd = .b → (s.port port.val).split = true) →
    (∀ (lane : Fin 9) (r : TrainRec) (now : BitVec 32),
      ((s.port port.val).stripe sd).training = true →
      r.crcGood = false ∨ r.reservedZero = false →
      ∃ t, exec (.trainingRecord port sd lane r now) s = .next t ∧ OnlyPort s t port.val
        ∧ t.port port.val = (s.port port.val).setLane lane.val { (s.port port.val).lane lane.val with
            errors := satAdd 0xFFFF ((s.port port.val).lane lane.val).errors 1 })
    ∧ (∀ (lane : Fin 9) (r : TrainRec) (now : BitVec 32), ((s.port port.val).stripe sd).st = .exchange →
        r.crcGood = true → r.reservedZero = true →
        (r.version ≠ 1 → ∃ t, exec (.trainingRecord port sd lane r now) s = .next t ∧ BacksOff s t port.val sd 5)
        ∧ (r.version = 1 → r.split ≠ (s.port port.val).split → ∃ t, exec (.trainingRecord port sd lane r now) s = .next t
            ∧ BacksOff s t port.val sd 4)
        ∧ (r.version = 1 → r.split = (s.port port.val).split → ∃ t, exec (.trainingRecord port sd lane r now) s = .next t
            ∧ OnlyPort s t port.val
            ∧ (t.port port.val).stripe sd = Stripe.exchange { (s.port port.val).stripe sd with
                stampIn := r.stamp, stampAt := now, peerTSyms := r.tSyms } (s.timing 6) r now
            ∧ ((t.port port.val).stripe sd).peerWidth = r.rxWidth.toNat ∧ ((t.port port.val).stripe sd).peerFirst = r.rxFirst.toNat
            ∧ ((t.port port.val).stripe sd).peerAligned = r.rxAligned ∧ ((t.port port.val).stripe sd).seenEpoch = r.localEpoch
            ∧ ((t.port port.val).stripe sd).readySeen = ((s.port port.val).stripe sd).readySeen + (if r.phase = 5 then 1 else 0)))
    ∧ (((s.port port.val).stripe sd).st = .exchange → s.phaseOf ((s.port port.val).stripe sd) = 5 →
        s.timing 7 ≤ ((s.port port.val).stripe sd).readySeen →
        (((s.port port.val).stripe sd).peerWidth = 2 ∨ ((s.port port.val).stripe sd).peerWidth = 4
          ∨ ((s.port port.val).stripe sd).peerWidth = 8) →
        exec (.stripeUp port sd) s = .next (s.stripeUp port.val sd)
        ∧ (((s.stripeUp port.val sd).port port.val).stripe sd).st = .up
        ∧ (((s.stripeUp port.val sd).port port.val).stripe sd).txw = ((s.port port.val).stripe sd).peerWidth
        ∧ (((s.stripeUp port.val sd).port port.val).stripe sd).txFirst = ((s.port port.val).stripe sd).peerFirst
        ∧ ((s.stripeUp port.val sd).port port.val).backoffExp = 0)
    ∧ (s.phaseOf ((s.port port.val).stripe sd) ≠ 5 ∨ ((s.port port.val).stripe sd).readySeen < s.timing 7 →
        exec (.stripeUp port sd) s = .next s)

/-- For an LP that can receive: ACK_RECEIVED within what has been sent frees the replay buffer up to ACK_SEQ and any other value
changes nothing, and while no INIT or SLEEP flit waits for a place in that buffer only the port moves; NAK_RECEIVED of a next
beyond what has been sent takes the stripe down with LAST_FAIL 9, otherwise it frees up to next, and while REPLAY_LIMIT
allows sends an /S/ block, REPLAY_START and every flit not acknowledged, and counts one replay (R347); REPLAY_START beyond
the replay depth takes the stripe down, otherwise it ends discarding and skips what has been received (R346); ACK_TIMEOUT
replays unless a lane change halts the stripe (R351); ACK_DUE sends ACK with RX_NEXT and owes none (R345). After a
REPLAY_START a spare command that waited for a lane change starts (R353). (10_lanes_line_code.md, 11_link_bringup.md.) -/
def Obligations.AcknowledgementsAndReplay : Prop :=
  ∀ (lp : Lp) (ack a : BitVec 12) (s : State), s.rxOk lp.val = true →
    (exec (.ackReceived lp ack) s = .next (s.ackIn lp.val ack.toNat)
      ∧ ((s.ackIn lp.val ack.toNat).lpStripe lp.val).acked =
          (if seqDist (s.lpStripe lp.val).acked ack.toNat ≤ seqDist (s.lpStripe lp.val).acked (s.lpStripe lp.val).txNext then ack.toNat else (s.lpStripe lp.val).acked)
      ∧ (NothingWaits s lp.val → OnlyPort s (s.ackIn lp.val ack.toNat) (lpPort lp.val)))
    ∧ (∀ u : State, u = s.ackIn lp.val ack.toNat →
        (seqDist (u.lpStripe lp.val).acked (u.lpStripe lp.val).txNext < seqDist (u.lpStripe lp.val).acked a.toNat →
          exec (.nakReceived lp ack a) s = .next (u.stripeDown (lpPort lp.val) (lpSide lp.val) 9 .send))
        ∧ (seqDist (u.lpStripe lp.val).acked a.toNat ≤ seqDist (u.lpStripe lp.val).acked (u.lpStripe lp.val).txNext →
            (u.lpStripe lp.val).noProgress + 1 ≤ s.timing 14 → NothingWaits s lp.val →
            ∃ t, exec (.nakReceived lp ack a) s = .next t ∧ OnlyPort s t (lpPort lp.val)
              ∧ (t.lpStripe lp.val).acked = a.toNat
              ∧ (t.lpStripe lp.val).replay = (u.lpStripe lp.val).replay.drop (seqDist (u.lpStripe lp.val).acked a.toNat)
              ∧ (t.port (lpPort lp.val)).replays = satAdd 0xFFFF (s.port (lpPort lp.val)).replays 1
              ∧ t.out = s.out ++ [.syncBlock (lpPort lp.val) (lpSide lp.val),
                    .flit lp.val (wireOf s lp.val ctrlHdr (leBytes 1 4 ++ (zeros 3 ++ leBytes 2 a.toNat)) false),
                    .replayStart lp.val a.toNat]
                  ++ ((t.lpStripe lp.val).replay.map fun f => .flit lp.val (wireOf s lp.val f.hdr f.payload f.stomped)))
        ∧ (s.replayDepth lp.val < seqDist a.toNat (s.lpStripe lp.val).rxNext →
            exec (.replayStartReceived lp ack a) s =
              .next ((u.stripeDown (lpPort lp.val) (lpSide lp.val) 9 .send).serveSpare (lpPort lp.val)))
        ∧ (seqDist a.toNat (s.lpStripe lp.val).rxNext ≤ s.replayDepth lp.val → (s.port (lpPort lp.val)).rxJob = none →
            ∃ t : State, exec (.replayStartReceived lp ack a) s = .next (t.serveSpare (lpPort lp.val))
              ∧ (NothingWaits s lp.val → OnlyPort s t (lpPort lp.val))
              ∧ (NoSpareWork t (lpPort lp.val) → t.serveSpare (lpPort lp.val) = t)
              ∧ t.lpStripe lp.val = { u.lpStripe lp.val with
                  skip := seqDist a.toNat (s.lpStripe lp.val).rxNext, discarding := false }))
    ∧ ((s.port (lpPort lp.val)).txAwake = true → (s.lpStripe lp.val).txNext ≠ (s.lpStripe lp.val).acked →
        ((s.port (lpPort lp.val)).halted (lpSide lp.val) = false → exec (.ackTimeout lp) s = .next (s.replayNow lp.val))
        ∧ ((s.port (lpPort lp.val)).halted (lpSide lp.val) = true → exec (.ackTimeout lp) s = .next s))
    ∧ ((s.port (lpPort lp.val)).txAwake = true → (s.port (lpPort lp.val)).txSleeping = false →
        (s.lpStripe lp.val).ackOwed = true → ∃ t, exec (.ackDue lp) s = .next t ∧ OnlyPort s t (lpPort lp.val)
          ∧ t.lpStripe lp.val = { s.lpStripe lp.val with
              ackOwed := false, txLine := (s.lpStripe lp.val).txLine ++ [.flit (wireOf s lp.val ctrlHdr (leBytes 1 2 ++ []) false)] }
          ∧ t.out = s.out ++ [.flit lp.val (wireOf s lp.val ctrlHdr (leBytes 1 2 ++ []) false),
              .ack lp.val (s.lpStripe lp.val).rxNext])

/-- For an LP that can receive, with an awake transmitter that is not going to sleep: FLIT_CRC_ERROR while the receiver neither
discards nor has an open lane request starts discarding and sends a NAK with RX_NEXT, and NAK_REPEAT sends it again while
discarding (R346); CREDIT_FLIT_RECEIVED is dropped while discarding, counted off while skipping, and otherwise takes the next
sequence number and sets or adds its counts, at most 65535 for each class with the excess counted (R137), and an INIT flit
ends a hold (R168); FLIT_RECEIVED handles a bad flit as a link error and hands a good data flit in sequence to the frame
layer, the code errors that RX_BLOCK has left behind it following as link errors; a flit that is not the oldest of those
RX_BLOCK has left changes nothing. (10_lanes_line_code.md, 05_switch_core.md.) -/
def Obligations.FlitsAreTakenInOrder : Prop :=
  ∀ (lp : Lp) (s : State), s.rxOk lp.val = true →
    let nak (s : State) : BitVec 2048 :=
      wireOf s lp.val ctrlHdr (leBytes 1 3 ++ (zeros 3 ++ leBytes 2 (s.lpStripe lp.val).rxNext)) false
    ((s.port (lpPort lp.val)).txAwake = true → (s.port (lpPort lp.val)).txSleeping = false →
      (s.port (lpPort lp.val)).requestOpen (lpSide lp.val) = false →
      ((s.lpStripe lp.val).discarding = false → ∃ t, exec (.flitCrcError lp) s = .next t ∧ OnlyPort s t (lpPort lp.val)
        ∧ t.lpStripe lp.val = { s.lpStripe lp.val with discarding := true, ackOwed := false
                                                       txLine := (s.lpStripe lp.val).txLine ++ [.flit (nak s)] }
        ∧ (t.port (lpPort lp.val)).naks = satAdd 0xFFFF (s.port (lpPort lp.val)).naks 1
        ∧ t.out = s.out ++ [.flit lp.val (nak s), .nak lp.val (s.lpStripe lp.val).rxNext])
      ∧ ((s.lpStripe lp.val).discarding = true → ∃ t, exec (.nakRepeat lp) s = .next t ∧ OnlyPort s t (lpPort lp.val)
        ∧ t.lpStripe lp.val = { s.lpStripe lp.val with
            ackOwed := false, txLine := (s.lpStripe lp.val).txLine ++ [.flit (nak s)] }
        ∧ t.out = s.out ++ [.flit lp.val (nak s), .nak lp.val (s.lpStripe lp.val).rxNext]))
    ∧ (∀ (init : Bool) (counts : List (BitVec 16)),
        ((s.lpStripe lp.val).discarding = true → exec (.creditFlitReceived lp init counts) s = .next s)
        ∧ ((s.lpStripe lp.val).discarding = false → (s.lpStripe lp.val).skip ≠ 0 → ∃ t,
            exec (.creditFlitReceived lp init counts) s = .next t ∧ OnlyPort s t (lpPort lp.val)
            ∧ t.lpStripe lp.val = { s.lpStripe lp.val with skip := (s.lpStripe lp.val).skip - 1 })
        ∧ ((s.lpStripe lp.val).discarding = false → (s.lpStripe lp.val).skip = 0 → init = false ∨ s.holdOf lp.val = .up → ∃ t,
            exec (.creditFlitReceived lp init counts) s = .next t
            ∧ t.lpStripe lp.val = { s.lpStripe lp.val with rxNext := ((s.lpStripe lp.val).rxNext + 1) % 4096, ackOwed := true }
            ∧ (∀ c, c < 8 → sget t.sw.credits (lpTc lp.val c) 0 = min 65535 ((if init = true then 0
                else sget s.sw.credits (lpTc lp.val c) 0) + (counts.getD c 0).toNat))
            ∧ (∀ c, c < 8 → sget t.sw.creditExcess (lpTc lp.val c) 0 = sget s.sw.creditExcess (lpTc lp.val c) 0
                + ((if init = true then 0 else sget s.sw.credits (lpTc lp.val c) 0) + (counts.getD c 0).toNat - 65535))
            ∧ t = { s with ports := t.ports, sw := { s.sw with
                credits := t.sw.credits, creditExcess := t.sw.creditExcess, initSeen := t.sw.initSeen } })
        ∧ ((s.lpStripe lp.val).discarding = false → (s.lpStripe lp.val).skip = 0 → init = true →
            ∃ t, exec (.creditFlitReceived lp init counts) s = .next t ∧ t.holdOf lp.val = .up))
    ∧ ∀ flit : BitVec 2048, ((s.lpStripe lp.val).flits = [] ∨ (s.lpStripe lp.val).flits.head? = some (.flit flit) →
        (checkFlit flit = .bad → exec (.flitReceived lp flit) s = .next
          (((((s.updLp lp.val fun x => { x with flits := x.flits.drop 1 }).countLp lp.val 0x010C none none 1).linkError
            lp.val).takeFaults lp.val).serveSpare (lpPort lp.val)))
        ∧ (checkFlit flit = .good → (flitHdr flit).ftype ≠ 0xF → (s.lpStripe lp.val).discarding = false → (s.lpStripe lp.val).skip = 0 →
            NothingWaits s lp.val → ∃ u : State, exec (.flitReceived lp flit) s = .next
                (((u.frameFlit lp.val (flitHdr flit) (flitPayload flit) false).takeFaults lp.val).serveSpare (lpPort lp.val))
              ∧ OnlyPort s u (lpPort lp.val) ∧ (u.lpStripe lp.val).rxNext = ((s.lpStripe lp.val).rxNext + 1) % 4096
              ∧ (u.lpStripe lp.val).flits = (s.lpStripe lp.val).flits.drop 1 ∧ u.out = s.out))
      ∧ ((s.lpStripe lp.val).flits ≠ [] → (s.lpStripe lp.val).flits.head? ≠ some (.flit flit) → exec (.flitReceived lp flit) s = .next s)

/-- For an UP, awake stripe: RX_BLOCK of the symbols of a data block (header /D/ or /S/) on all its lanes, and of the clock lane
meanwhile, with no header error, no code error, no flit cut short, no lane at its loss threshold and no sleep signal, decodes
them (R289, R290, R299), keeps the disparity of each lane, appends the whole flits of its payload and keeps the bytes of the
flit still arriving (R301 to R303); only the port moves. LANE_LOCK_LOSS of the clock lane of a port with one stripe, in SEND,
clears its locked lanes and the clock; of another lane it clears that lane's lock (R348). (10_lanes_line_code.md.) -/
def Obligations.BlocksBecomeFlits : Prop :=
  (∀ (port : Port) (sd : Side) (lanes : List (List Level)) (clock : List Level) (s : State) (x : Stripe)
      (d : List (Nat × List (Option Nat) × Option Bool)) (ck : List (Option Nat) × Option Bool)
      (b : BlockDone), s.lineOk port.val = true → x = (s.port port.val).stripe sd → x.st = .up → x.rxw ≠ 0 → lanes.length = x.rxw →
    (s.port port.val).rxAsleep = false → (sd = .a ∨ (s.port port.val).split = true) →
    d = ((x.rxLanes.map (s.port port.val).physLane).zip lanes).map (fun y => (y.1, s.decodeLane false ((s.port port.val).lane y.1).rd (dataGroups y.2))) →
    ck = s.decodeLane true ((s.port port.val).lane (s.port port.val).rxClock).rd (clockGroups clock) → (∀ e ∈ ck.1, e ≠ none ∧ e ≠ some 264) →
    x.flits.head? ≠ some .fault →
    b = blockDone x.partFlit (d.map fun y => y.2.1) → b.head = 256 ∨ b.head = 257 → b.slip = false → b.read.errs = [] →
    (∀ e ∈ b.headErrs, e = false) → (∀ e ∈ b.errs, e = 0) → 0 < s.timing 13 →
    (∀ k ∈ (s.port port.val).rxClock :: x.rxLanes.map (s.port port.val).physLane,
      (((0 : Nat) :: ((s.port port.val).lane k).recent).take (s.timing 12)).sum < s.timing 11) →
    ∃ t, exec (.rxBlock port sd lanes clock) s = .next t ∧ OnlyPort s t port.val ∧ t.out = s.out
      ∧ (t.port port.val).stripe sd = { x with
          partFlit := b.read.part, flits := x.flits ++ b.read.items, trainRun := 0, zSeen := false }
      ∧ (((s.port port.val).rxClock :: x.rxLanes.map (s.port port.val).physLane).Nodup →
          ∀ y ∈ d, ((t.port port.val).lane y.1).rd = y.2.2))
  ∧ ∀ (port : Port) (lane : Lane) (s : State), s.lineOk port.val = true → (s.port port.val).split = false → (s.port port.val).a.st = .send →
      (lane.val = (if (s.port port.val).ckOnSp = true then 8 else 9) → ∃ t, exec (.laneLockLoss port lane) s = .next t
        ∧ OnlyPort s t port.val ∧ (t.port port.val).clockLocked = false
        ∧ (t.port port.val).a = { (s.port port.val).a with locked := 0 } ∧ t.out = s.out)
      ∧ (lane.val ≠ (if (s.port port.val).ckOnSp = true then 8 else 9) → ∃ t, exec (.laneLockLoss port lane) s = .next t
        ∧ OnlyPort s t port.val ∧ (t.port port.val).clockLocked = (s.port port.val).clockLocked ∧ t.out = s.out
        ∧ (t.port port.val).a = { (s.port port.val).a with
            locked := (s.port port.val).a.locked &&& ~~~(BitVec.ofNat 9 (1 <<< lane.val)) })

/-- For a LANE message that the port can receive, with a transmitter that is not going to sleep: REQ_SPARE of a lane 0 to 7 or
the clock opens the TX job, powers the spare or the lane that returns, which starts at RD-, and wakes a sleeping direction
(R298, R351, R353); READY doubles the lane of a hitless job, and gives a halted job's lane to the spare, or back, before the
replay from NEXT; REQ_WIDTH narrows the TX to a half it carries and changes nothing otherwise (R351); ASK starts the RX
change or is answered REFUSE; SWITCHED ends a doubled job, DONE ends an RX job that has sent SWITCHED and counts a swap,
REFUSE ends the TX job it names (R353). After each message a spare command that waited for the change starts (log entry 41).
(11_link_bringup.md.) -/
def Obligations.LaneMessagesActOnTheirJobs : Prop :=
  ∀ (port : Port) (m : LaneMsg) (s : State), s.laneRxOk port.val m = true → (s.port port.val).txSleeping = false →
    (NoSpareWork s port.val → s.serveSpare port.val = s)
    ∧ (m.lane.toNat < 8 ∨ m.lane.toNat = 9 → ∃ t : State, exec (.laneReqSpare port m) s = .next (t.serveSpare port.val)
      ∧ OnlyPort s t port.val ∧ .lanesPower port.val .tx true ∈ t.out
      ∧ (t.port port.val).txRd = (if (s.port port.val).lanePowered true (if m.restore = true then m.lane.toNat else 8) = true
          then (s.port port.val).txRd else clearLanes (s.port port.val).txRd [if m.restore = true then m.lane.toNat else 8])
      ∧ t.port port.val = { s.port port.val with
          txJob := some { side := if m.stripeB = true then .b else .a, lane := m.lane.toNat
                          hitless := m.hitless && m.lane.toNat != 9, restore := m.restore
                          sent := 0, body := m, locked := false, doubled := false }
          txRd := (t.port port.val).txRd
          txWaking := if (s.port port.val).txAsleep = true ∧ (s.port port.val).txWaking = 0 then 1 else (s.port port.val).txWaking })
    ∧ (∀ j : LaneJob, (s.port port.val).txJob = some j → j.lane = m.lane.toNat →
        (j.sent = 0 → j.hitless = true → ∃ t : State, exec (.laneReady port m) s = .next (t.serveSpare port.val)
          ∧ OnlyPort s t port.val ∧ t.out = s.out
          ∧ t.port port.val = { s.port port.val with txJob := some { j with doubled := true } })
        ∧ (j.sent = 0 → j.hitless = false → j.lane ≠ 9 → ∃ u : State,
            exec (.laneReady port m) s = .next ((u.nakIn (lpOf port.val j.side) m.next.toNat).serveSpare port.val)
            ∧ (u.port port.val).txJob = none ∧ (u.port port.val).txSp = (if j.restore = true then 15 else j.lane)
            ∧ (u.port port.val).swaps = satAdd 255 (s.port port.val).swaps 1)
        ∧ (j.doubled = true → ∃ t : State, exec (.laneSwitched port m) s = .next (t.serveSpare port.val) ∧ (t.port port.val).txJob = none
            ∧ (t.port port.val).txSp = (if j.restore = true then 15 else j.lane)
            ∧ (t.port port.val).swaps = satAdd 255 (s.port port.val).swaps 1)
        ∧ (j.doubled = false → exec (.laneSwitched port m) s = .next (s.serveSpare port.val))
        ∧ (j.sent = 4 → ∃ t : State, exec (.laneRefuse port m) s = .next (t.serveSpare port.val)
            ∧ t.port port.val = { s.port port.val with txJob := none }))
    ∧ (∀ sd : Side, sd = (if m.stripeB = true then .b else .a) →
        ((m.width.toNat = 2 ∨ m.width.toNat = 4) ∧ m.width.toNat < ((s.port port.val).stripe sd).txw
          ∧ ((s.port port.val).stripe sd).txFirst ≤ m.first.toNat
          ∧ m.first.toNat + m.width.toNat ≤ ((s.port port.val).stripe sd).txFirst + ((s.port port.val).stripe sd).txw →
          ∃ u : State, exec (.laneReqWidth port m) s = .next ((u.nakIn (lpOf port.val sd) m.next.toNat).serveSpare port.val)
            ∧ OnlyPort s u port.val
            ∧ ((u.port port.val).stripe sd).txw = m.width.toNat ∧ ((u.port port.val).stripe sd).txFirst = m.first.toNat)
        ∧ (m.width.toNat ≠ 2 → m.width.toNat ≠ 4 → exec (.laneReqWidth port m) s = .next (s.serveSpare port.val)))
    ∧ (s.rxSwapOk port.val m.lane.toNat m.restore = true → m.lane.toNat ≠ 9 → ∃ (t : State) (j : LaneJob) (p : PortSt),
        exec (.laneAsk port m) s = .next (t.serveSpare port.val) ∧ OnlyPort s t port.val
        ∧ p = { (s.port port.val).freshLane (if m.restore = true then m.lane.toNat else 8) with rxJob := some j }
        ∧ j.lane = m.lane.toNat ∧ j.hitless = true ∧ j.restore = m.restore ∧ j.sent = 1
        ∧ ((s.port port.val).txAwake = true → OnlyLine p (t.port port.val)
            ∧ t.out = s.out ++ [.lanesPower port.val .rx true,
                .flit (lpOf port.val j.side) (wireOf s (lpOf port.val j.side) ctrlHdr (leBytes 1 5 ++ laneBytes 1 j.body) false),
                .lane port.val 1 j.body])
        ∧ ((s.port port.val).txAwake = false → t.out = s.out ++ [.lanesPower port.val .rx true]
            ∧ t.port port.val = { p with laneOut := (p.laneOut.filter fun x => x.1 != 1) ++ [(1, j.body)] }))
    ∧ (s.rxSwapOk port.val m.lane.toNat m.restore = false → (s.port port.val).txAwake = true →
        ∃ (t : State) (lp : Nat), exec (.laneAsk port m) s = .next (t.serveSpare port.val) ∧ OnlyPort s t port.val
        ∧ lp = s.laneLp port.val (if m.stripeB = true then .b else .a) (m.lane == 9)
        ∧ OnlyLine (s.port port.val) (t.port port.val)
        ∧ t.out = s.out ++ [.flit lp (wireOf s lp ctrlHdr (leBytes 1 5 ++ laneBytes 7 m) false), .lane port.val 7 m])
    ∧ ∀ j : LaneJob, (s.port port.val).rxJob = some j → j.lane = m.lane.toNat → j.sent = 5 →
        ∃ t : State, exec (.laneDone port m) s = .next (t.serveSpare port.val) ∧ (t.port port.val).rxJob = none
          ∧ (t.port port.val).swaps = satAdd 255 (s.port port.val).swaps 1
          ∧ (t.port port.val).rxDropped = (if j.restore = true then clearLanes (s.port port.val).rxDropped [j.lane, 8]
              else (s.port port.val).rxDropped ||| BitVec.ofNat 10 (1 <<< j.lane))

/-- On a port whose lanes take part and whose transmitter is awake and not going to sleep: LANE_MSG_REPEAT sends the open message
of the stripe again, but a REQ_SPARE that background training has answered (R350); HITLESS_SWITCH of an RX job that has sent
READY moves the spare's role, sends SWITCHED, and leaves the job waiting for DONE (R353); HITLESS_ABANDON ends a hitless job
whose lane has not reached READY, after which a spare command that waited starts; SWAP_TIMEOUT takes down the stripe of a
change that halts traffic, or the whole port for the clock, with LAST_FAIL 12, and leaves a hitless change alone (R351,
R353). (11_link_bringup.md.) -/
def Obligations.LaneChangesEnd : Prop :=
  ∀ (port : Port) (s : State), s.lineOk port.val = true → (s.port port.val).txSleeping = false → (s.port port.val).txAwake = true →
    (∀ j : LaneJob, (s.port port.val).rxJob = some j →
      (1 ≤ j.sent → (j.sent = 1 → j.locked = false) → (s.port port.val).txJob = none → ∃ (t : State) (lp : Nat),
        exec (.laneMsgRepeat port j.side) s = .next t ∧ OnlyPort s t port.val
        ∧ lp = s.laneLp port.val j.side (j.body.lane == 9) ∧ OnlyLine (s.port port.val) (t.port port.val)
        ∧ t.out = s.out ++ [.flit lp (wireOf s lp ctrlHdr (leBytes 1 5 ++ laneBytes j.sent j.body) false), .lane port.val j.sent j.body])
      ∧ (j.sent = 1 → j.locked = true → (s.port port.val).txJob = none → exec (.laneMsgRepeat port j.side) s = .next s)
      ∧ (j.hitless = true → j.sent = 2 → ∃ (t : State) (b : LaneMsg) (lp : Nat), exec (.hitlessSwitch port) s = .next t
        ∧ OnlyPort s t port.val ∧ lp = s.laneLp port.val j.side (b.lane == 9)
        ∧ OnlyLine { s.port port.val with
            rxJob := some { j with sent := 5, body := b }, rxSp := if j.restore = true then 15 else j.lane } (t.port port.val)
        ∧ t.out = s.out ++ [.flit lp (wireOf s lp ctrlHdr (leBytes 1 5 ++ laneBytes 5 b) false), .lane port.val 5 b])
      ∧ (j.hitless = true → j.sent = 1 → ∃ t : State, exec (.hitlessAbandon port .rx) s = .next (t.serveSpare port.val)
        ∧ t.port port.val = { s.port port.val with rxJob := none })
      ∧ (j.hitless = true → exec (.swapTimeout port .rx) s = .next s)
      ∧ (j.hitless = false → exec (.swapTimeout port .rx) s = .next (if j.lane = 9 then s.portDownAll port.val 12
          else s.stripeDown port.val j.side 12 .send)))
    ∧ ∀ j : LaneJob, (s.port port.val).txJob = some j →
      (j.hitless = true → j.doubled = false → ∃ t : State, exec (.hitlessAbandon port .tx) s = .next (t.serveSpare port.val)
        ∧ t.port port.val = { s.port port.val with txJob := none })
      ∧ (j.hitless = false → exec (.swapTimeout port .tx) s = .next (if j.lane = 9 then s.portDownAll port.val 12
          else s.stripeDown port.val j.side 12 .send))

/-- On a port whose lanes take part: TX_SLEEP_ENTER of a going-to-sleep, idle transmitter sends its /Z/ blocks and /CZ/ and
powers its lanes down (R317); TX_AUTO_WAKE of a sleeping transmitter with a flit to send counts AUTO_WAKES and powers them up
(R318); TX_WAKE_SETTLED sends the preamble and WAKE_PREAMBLE_END an /S/ block for each stripe (R319); RX_WAKE_BLOCK_ALIGNMENT
forgets the disparity of every lane and waits for the /S/ (R299); the two RX wake timeouts set WAKE_FAIL and take the port
down with LAST_FAIL 13 (R320). A SLEEP flit in sequence starts the wake, starts the sleep of an idle transmitter, or sets
SLEEP_REQ_FAIL when it refuses an open request, as does SLEEP_REQ_TIMEOUT after 16 beats (R321). (10_lanes_line_code.md.) -/
def Obligations.DirectionsSleepAndWake : Prop :=
  ∀ (port : Port) (s : State), s.lineOk port.val = true →
    ((s.port port.val).txSleeping = true → (s.port port.val).txAwake = true → (s.port port.val).sleepOut = [] →
      (∀ lp ∈ s.lpsOf port.val, s.flitReady lp = false ∧ s.currentOf lp = none ∧ (s.lpStripe lp).replay = []
        ∧ (s.lpStripe lp).txLine = [] ∧ (s.lpStripe lp).txPart = []) →
      s.mgmt.deferred = [] → ∃ t, exec (.txSleepEnter port) s = .next t ∧ OnlyPort s t port.val
        ∧ t.port port.val = { s.port port.val with
            txSleeping := false, peerSleep := false, txAsleep := true
            a := { (s.port port.val).a with
              blocks := (t.port port.val).a.blocks, txLine := (t.port port.val).a.txLine, txPart := (t.port port.val).a.txPart }
            b := { (s.port port.val).b with
              blocks := (t.port port.val).b.blocks, txLine := (t.port port.val).b.txLine, txPart := (t.port port.val).b.txPart }
            txRd := (t.port port.val).txRd, ckOut := (t.port port.val).ckOut }
        ∧ ∃ l : List Emission, t.out = s.out ++ l ++ [.sleepBlock port.val, .lanesPower port.val .tx false]
            ∧ ∀ e ∈ l, ∃ rows, e = .lanes port.val rows)
    ∧ ((s.port port.val).anyUp = true → (s.port port.val).txAsleep = true → (s.port port.val).txWaking = 0 → s.needsTx port.val = true →
        ∃ t, exec (.txAutoWake port) s = .next t ∧ OnlyPort s t port.val ∧ t.out = s.out ++ [.lanesPower port.val .tx true]
          ∧ t.port port.val = { s.port port.val with autoWakes := satAdd 255 (s.port port.val).autoWakes 1, txWaking := 1 })
    ∧ ((s.port port.val).txWaking = 1 → ∃ t, exec (.txWakeSettled port) s = .next t ∧ OnlyPort s t port.val
        ∧ t.port port.val = { s.port port.val with txWaking := 2, txRd := 0 } ∧ t.out = s.out ++ [.wakePreamble port.val])
    ∧ ((s.port port.val).txWaking = 2 → (s.port port.val).sleepOut = [] → (s.port port.val).laneOut = [] → s.mgmt.deferred = [] →
        (∀ sd ∈ (s.port port.val).sides, ((s.port port.val).stripe sd).initOwed = false) →
        ∃ t, exec (.wakePreambleEnd port) s = .next t ∧ OnlyPort s t port.val
          ∧ OnlyLine { s.port port.val with txWaking := 0, txAsleep := false } (t.port port.val)
          ∧ (∀ sd ∈ (s.port port.val).sides,
              ((t.port port.val).stripe sd).txLine = ((s.port port.val).stripe sd).txLine ++ [.sync])
          ∧ t.out = s.out ++ (s.port port.val).sides.map fun sd => .syncBlock port.val sd)
    ∧ ((s.port port.val).rxWaking = 1 →
        exec (.rxWakeBlockAlignment port) s =
          .next (s.setPort port.val ((List.range 10).foldl PortSt.freshLane { s.port port.val with rxWaking := 2 }))
        ∧ exec (.rxWakeAlignTimeout port) s = .next ((s.setPort port.val { s.port port.val with wakeFail := true }).portDownAll port.val 13))
    ∧ ((s.port port.val).rxWaking = 2 →
        exec (.rxWakeSyncTimeout port) s = .next ((s.setPort port.val { s.port port.val with wakeFail := true }).portDownAll port.val 13))
    ∧ (s.rxOk (2 * port.val) = true → (s.lpStripe (2 * port.val)).discarding = false → (s.lpStripe (2 * port.val)).skip = 0 →
        (s.port port.val).txSleeping = false →
        ((s.port port.val).txAsleep = true → (s.port port.val).txWaking = 0 → ∃ t, exec (.sleepFlitWake port) s = .next t
          ∧ OnlyPort s t port.val ∧ (t.port port.val).txWaking = 1 ∧ t.out = s.out ++ [.lanesPower port.val .tx true])
        ∧ ((s.port port.val).txAsleep = false → (s.port port.val).allUp = true → s.hasFlit port.val = false →
            ∃ t, exec (.sleepFlitSleep port) s = .next t ∧ OnlyPort s t port.val ∧ t.out = s.out
              ∧ (t.port port.val).txSleeping = true ∧ (t.port port.val).peerSleep = true)
        ∧ ((s.mgmt.deferred.any fun d => match d.work with | .sleep q d _ _ => q == port.val && bitAt d 1 | _ => false) = true →
            ∃ t, exec (.sleepFlitRefuse port) s = .next t ∧ (t.port port.val).sleepReqFail = true))
    ∧ ((s.mgmt.deferred.any fun d => match d.work with
        | .sleep q d wake since => q == port.val && bitAt d 1 && (s.port port.val).rxAsleep == wake
            && decide (16 ≤ (s.beat.count - since).toNat)
        | _ => false) = true →
        ∃ t, exec (.sleepReqTimeout port) s = .next t ∧ (t.port port.val).sleepReqFail = true)

/-- In every state in which the management controller takes packets, for a port neither in reset nor under test, with no
parameter in error: DISABLE of a disabled port answers OK and changes nothing else; ENABLE of a usable disabled port sets its
mode and puts each stripe in SEND with presence and in ABSENT without; RETRAIN of a disabled port, and a mode change of an
enabled one, answer DENIED_STATE (R105); EQ_OVERRIDE of a disabled port fixes or frees the CTLE code of the lane (R313),
RX.CK apart, whose equaliser is fixed (R309; log entry 41); EYE_SCAN of a powered lane not being scanned is deferred, and
EYE_SCAN_COMPLETE ends it with its counts (R314). (04_opcodes.md, 11_link_bringup.md.) -/
def Obligations.PortsAreAdministered : Prop :=
  ∀ (c : Cmd) (port : Byte) (mode : Byte) (n : Nat) (s : State), Open s → n = port.toNat → n < 64 → PortFree s n →
    mode = 0 ∨ mode = 1 ∨ mode = 0xFF →
    ((s.port n).enabled = false →
      ((s.port n).modeChange mode = false → exec (.portAdminDisable c port mode) s = .next (s.ok c 0x0301 [])
        ∧ exec (.portAdminRetrain c port mode) s = .next (s.deny c 0x0301 stDeniedState 0))
      ∧ (bitAt s.bist.portUnusable.toNat n = false → ∃ u : State, exec (.portAdminEnable c port mode) s = .next (u.ok c 0x0301 [])
          ∧ OnlyPort s u n ∧ (u.port n).enabled = true
          ∧ (u.port n).split = (if mode = 0xFF then (s.port n).split else decide (mode = 1))
          ∧ ∀ sd ∈ (u.port n).sides, ((u.port n).stripe sd).st = (if s.present n = true then .send else .absent))
      ∧ (∀ ctle : Byte, ctle.toNat ≤ 31 ∨ ctle = 0xFF → exec (.eqOverride c port 9 ctle) s = .next (s.ok c 0x0305 []))
      ∧ ∀ (lane ctle : Byte), lane.toNat ≤ 8 → ctle.toNat ≤ 31 ∨ ctle = 0xFF → ∃ u : State,
          exec (.eqOverride c port lane ctle) s = .next (u.ok c 0x0305 [])
          ∧ OnlyPort s u n ∧ ((u.port n).lane lane.toNat).ctle = (if ctle = 0xFF then none else some (ctle.truncate 5))
          ∧ u.out = s.out)
    ∧ ((s.port n).enabled = true → (s.port n).modeChange mode = true →
        exec (.portAdminDisable c port mode) s = .next (s.deny c 0x0301 stDeniedState 0)
        ∧ exec (.portAdminEnable c port mode) s = .next (s.deny c 0x0301 stDeniedState 0)
        ∧ exec (.portAdminRetrain c port mode) s = .next (s.deny c 0x0301 stDeniedState 0))
    ∧ ((s.port n).enabled = true → (s.port n).modeChange mode = false →
        exec (.portAdminDisable c port mode) s = .next ((s.disablePort n).ok c 0x0301 [])
        ∧ exec (.portAdminEnable c port mode) s = (if bitAt s.bist.portUnusable.toNat n = true
            then .next (s.deny c 0x0301 stDeniedState 0) else .next (s.ok c 0x0301 []))
        ∧ exec (.portAdminRetrain c port mode) s = .next ((s.retrainPort n).ok c 0x0301 []))
    ∧ (∀ (lane h v dwell : Byte), s.paramError (.eyeScan c port lane h v dwell) = none →
        (s.port n).lanePowered false lane.toNat = true → (lane = 8 → (s.port n).rxSp ≠ 9) → (s.port n).rxAsleep = false →
        lane.toNat ∉ (s.port n).scans → s.scansRun < 16 → exec (.eyeScan c port lane h v dwell) s = .next
          ((s.updPort n fun p => { p with scans := p.scans ++ [lane.toNat] }).defer c 0x0304
            (.eyeScan n lane.toNat h.toNat v.toNat dwell.toNat)))
    ∧ ∀ (p : Port) (lane : Lane) (h v dwell : Nat) (counts : List (BitVec 16)) (kept : Bool), p.val = n →
        s.mgmt.deferred = [{ cmd := c, opcode := 0x0304, keyKept := kept, work := .eyeScan n lane.val h v dwell }] →
        counts.length = h * v → ∃ u : State, exec (.eyeScanComplete p lane counts) s = .next
            (u.complete c 0x0304 kept stOk 0 (counts.map fun x => leBytes 2 x.toNat).flatten)
          ∧ u.mgmt.deferred = [] ∧ u.port n = { s.port n with scans := (s.port n).scans.filter fun l => l != lane.val }
          ∧ u = { s with ports := u.ports, mgmt := { s.mgmt with deferred := [] } }

/-- In every state in which the management controller takes packets, for a port neither in reset nor under test whose transmitter
is not going to sleep, with no parameter in error: SPARE_SWAP and SPARE_RESTORE of a data lane that R105 allows open the RX
job and send REQ_SPARE, or open the TX job and send ASK (R353), and are deferred; while a change of the direction runs they
only wait for it (log entry 41); a lane that R105 does not allow answers DENIED_STATE; PORT_SLEEP of the TX direction of an
UP port with no flits queued starts the sleep (R317), its wake powers the lanes up (R319), and each is deferred.
(04_opcodes.md, 10_lanes_line_code.md, 11_link_bringup.md.) -/
def Obligations.SparesAndSleepAreCommanded : Prop :=
  (∀ (c : Cmd) (port dir lane : Byte) (restore : Bool) (n : Nat) (s : State), Open s → n = port.toNat → n < 64 → PortFree s n →
    dir.toNat < 2 → lane.toNat < 8 → (s.port n).txSleeping = false → ∀ i : Instr,
    i = (if restore = true then .spareRestore c port dir lane else .spareSwap c port dir lane) →
    (s.spareBad n (dirOf dir) lane.toNat restore = false → dir = 1 → (s.port n).rxJob = none → (s.port n).txAwake = true →
      ∃ (t : State) (j : LaneJob), exec i s = .next t
      ∧ OnlyLine { (s.port n).freshLane (if restore = true then lane.toNat else 8) with rxJob := some j } (t.port n)
      ∧ j.lane = lane.toNat ∧ j.hitless = true ∧ j.restore = restore ∧ j.sent = 1
      ∧ t.out = s.out ++ [.lanesPower n .rx true,
          .flit (lpOf n j.side) (wireOf s (lpOf n j.side) ctrlHdr (leBytes 1 5 ++ laneBytes 1 j.body) false), .lane n 1 j.body]
      ∧ t.mgmt.deferred = s.mgmt.deferred ++ [{ cmd := c, opcode := if restore = true then 0x0307 else 0x0306, keyKept := true
                                                work := .spare n .rx lane.toNat restore }])
    ∧ (s.spareBad n (dirOf dir) lane.toNat restore = false → dir = 0 → (s.port n).txJob = none → (s.port n).txAwake = true →
      ∃ (t : State) (j : LaneJob), exec i s = .next t
      ∧ OnlyLine { s.port n with txJob := some j } (t.port n)
      ∧ j.lane = lane.toNat ∧ j.hitless = true ∧ j.restore = restore ∧ j.sent = 4
      ∧ t.out = s.out ++ [
          .flit (lpOf n j.side) (wireOf s (lpOf n j.side) ctrlHdr (leBytes 1 5 ++ laneBytes 4 j.body) false), .lane n 4 j.body]
      ∧ t.mgmt.deferred = s.mgmt.deferred ++ [{ cmd := c, opcode := if restore = true then 0x0307 else 0x0306, keyKept := true
                                                work := .spare n .tx lane.toNat restore }])
    ∧ (s.spareBad n (dirOf dir) lane.toNat restore = false → (s.port n).jobRuns (dirOf dir) = true →
        exec i s = .next { s with mgmt := { s.mgmt with deferred := s.mgmt.deferred ++ [{
          cmd := c, opcode := if restore = true then 0x0307 else 0x0306, keyKept := true
          work := .spare n (dirOf dir) lane.toNat restore }] } })
    ∧ (s.spareBad n (dirOf dir) lane.toNat restore = true →
        exec i s = .next (s.deny c (if restore = true then 0x0307 else 0x0306) stDeniedState 0)))
  ∧ ∀ (c : Cmd) (port : Byte) (n : Nat) (s : State), Open s → n = port.toNat → n < 64 → PortFree s n → (s.port n).allUp = true →
    s.mgmt.deferred = [] → (s.port n).txSleeping = false →
    ((s.port n).txAsleep = false → s.voqHolds n = false → ∃ t, exec (.portSleep c port 1) s = .next t
      ∧ t.port n = { s.port n with txSleeping := true }
      ∧ t.mgmt.deferred = [{ cmd := c, opcode := 0x0302, keyKept := true, work := .sleep n 1 false s.beat.count }] ∧ t.out = s.out)
    ∧ (s.voqHolds n = true → exec (.portSleep c port 1) s = .next (s.deny c 0x0302 stDeniedState 0))
    ∧ ((s.port n).txAsleep = true → (s.port n).txWaking = 0 → ∃ t, exec (.portWake c port 1) s = .next t
      ∧ t.port n = { s.port n with txWaking := 1 } ∧ t.out = s.out ++ [.lanesPower n .tx true]
      ∧ t.mgmt.deferred = [{ cmd := c, opcode := 0x0302, keyKept := true, work := .sleep n 1 true s.beat.count }])

/-- In every state in which the management controller takes packets, with no parameter in error: CART_READ and CART_WRITE of a
bus without a cartridge answer DENIED_STATE; of a seated one they are deferred, and one that finds its bus free selects its
page, unless it is 0xFF, and puts its access on the bus, while one that finds a transfer on it, or identity work that comes
first, sends nothing yet (R104, R436; log entry 67); CART_TRANSFER_DONE with an acknowledged transfer ends the one on the bus
with OK and its data, counts it in TRANSFERS, and serves the next; not acknowledged it ends DENIED_STATE. (04_opcodes.md,
15_sideband.md.) -/
def Obligations.CartridgeTransfersAreServedInTurn : Prop :=
  (∀ (c : Cmd) (bus dev page : Byte) (off count : BitVec 16) (s : State), Open s →
    s.paramError (.cartRead c bus dev page off count) = none →
    ((s.mmb bus.toNat).seated = false → exec (.cartRead c bus dev page off count) s = .next (s.deny c 0x0310 stDeniedState 0))
    ∧ ((s.mmb bus.toNat).seated = true → ∃ t, exec (.cartRead c bus dev page off count) s = .next t
      ∧ ∃ d : Deferred, t = { s with out := t.out, mgmt := { s.mgmt with deferred := s.mgmt.deferred ++ [d] } }
      ∧ d = { cmd := c, opcode := 0x0310, keyKept := true, served := d.served
              work := .cart bus.toNat dev.toNat page.toNat off.toNat count.toNat false [] }
      ∧ ((s.mgmt.deferred.find? fun d => d.work.onBus bus.toNat) = none → d.served = !s.identityWaits bus.toNat)
      ∧ ((s.mgmt.deferred.find? fun d => d.work.onBus bus.toNat).any (fun d => d.served) = true → d.served = false ∧ t.out = s.out)
      ∧ ((s.mgmt.deferred.find? fun d => d.work.onBus bus.toNat) = none →
          t.out = (if s.identityWaits bus.toNat = true then s.out
            else s.out ++ (if page = 0xFF then [] else [.mmbWrite bus.toNat dev.toNat 0x7F page])
              ++ [.mmbRead bus.toNat dev.toNat page.toNat off.toNat count.toNat]))))
  ∧ (∀ (c : Cmd) (bus dev page : Byte) (off count : BitVec 16) (data : Bytes) (s : State), Open s →
      s.paramError (.cartWrite c bus dev page off count data) = none → (s.mmb bus.toNat).seated = true →
      (∀ k, k < 8 → s.underTest (8 * bus.toNat + k) = false) →
      ∃ t, exec (.cartWrite c bus dev page off count data) s = .next t
        ∧ ∃ d : Deferred, t = { s with out := t.out, mgmt := { s.mgmt with deferred := s.mgmt.deferred ++ [d] } }
        ∧ d = { cmd := c, opcode := 0x0311, keyKept := true, served := d.served
                work := .cart bus.toNat dev.toNat page.toNat off.toNat count.toNat true data }
        ∧ ((s.mgmt.deferred.find? fun d => d.work.onBus bus.toNat) = none → d.served = !s.identityWaits bus.toNat)
        ∧ ((s.mgmt.deferred.find? fun d => d.work.onBus bus.toNat).any (fun d => d.served) = true → d.served = false ∧ t.out = s.out)
        ∧ ((s.mgmt.deferred.find? fun d => d.work.onBus bus.toNat) = none → t.out = (if s.identityWaits bus.toNat = true then s.out
            else s.out ++ (if page = 0xFF then [] else [.mmbWrite bus.toNat dev.toNat 0x7F page])
              ++ (List.range data.length).map fun k => .mmbWrite bus.toNat dev.toNat (off.toNat + k) (byteAt data k))))
  ∧ ∀ (bus : Fin 8) (data : Bytes) (d : Deferred) (dev page off count : Nat) (s : State), s.live = true →
      s.mgmt.deferred = [d] → d.served = true → d.work = .cart bus.val dev page off count false [] →
      (data.length = count → ∃ u : State, exec (.cartTransferDone bus true data) s = .next
          (u.complete d.cmd d.opcode d.keyKept stOk 0 data) ∧ u.mgmt.deferred = []
          ∧ u.mmb bus.val = { s.mmb bus.val with transfers := satAdd 0xFFFF (s.mmb bus.val).transfers 1, timeouts := 0 }
          ∧ u = { s with side := u.side, mgmt := { s.mgmt with deferred := [] } })
      ∧ ∃ u : State, exec (.cartTransferDone bus false data) s = .next
          (u.complete d.cmd d.opcode d.keyKept stDeniedState 0 []) ∧ u.mgmt.deferred = []
          ∧ u.mmb bus.val = { s.mmb bus.val with naks := satAdd 0xFFFF (s.mmb bus.val).naks 1, timeouts := 0 }
          ∧ u = { s with side := u.side, mgmt := { s.mgmt with deferred := [] } }

/-- In every state in which the management controller takes packets, no shared unit is in reset or under test and no parameter is
in error: MEM_ALLOC answers the start of a run that overlaps no allocation and records it, or NO_RESOURCE when nothing fits
(R191); MEM_FREE of the start of an allocation removes it, and of any other offset answers DENIED_STATE (R193); MEM_FILL,
MEM_READ and MEM_WRITE are deferred on allocated bytes and answer DENIED_STATE otherwise (R108); MEM_CMD_COMPLETE of a
MEM_WRITE leaves exactly its bytes, and of a MEM_READ without an error answers the bytes of its range, and INTERNAL_FAULT
without data when a sector of it is poisoned (R211). (04_opcodes.md, 07_fabric_memory.md.) -/
def Obligations.MemoryCommandsActOnAllocations : Prop :=
  (∀ (c : Cmd) (size owner : Word) (s : State), Open s → SharedFree s → size ≠ 0 →
    (s.firstFit (granulesOf size.toNat) = none → exec (.memAlloc c size owner) s = .next (s.deny c 0x0501 stNoResource 0))
    ∧ (∀ k, s.firstFit (granulesOf size.toNat) = some k → ∃ u : State, exec (.memAlloc c size owner) s =
          .next (u.ok c 0x0501 (leBytes 8 (k * allocGranule)))
        ∧ u = { s with mem := { s.mem with allocs := u.mem.allocs } }
        ∧ (∀ a, a ∈ u.mem.allocs ↔ a ∈ s.mem.allocs ∨ a = { first := k, count := granulesOf size.toNat, owner := owner })
        ∧ (s.mem.allocs.Pairwise (fun a b => a.first + a.count ≤ b.first) →
            ∀ a ∈ s.mem.allocs, a.first + a.count ≤ k ∨ k + granulesOf size.toNat ≤ a.first)))
  ∧ (∀ (c : Cmd) (off : Word) (s : State), Open s → SharedFree s →
      ((∀ a ∈ s.mem.allocs, a.first * allocGranule ≠ off.toNat) → exec (.memFree c off) s = .next (s.deny c 0x0502 stDeniedState 0))
      ∧ (∀ a ∈ s.mem.allocs, a.first * allocGranule = off.toNat → ∃ u : State, exec (.memFree c off) s = .next (u.ok c 0x0502 [])
          ∧ u = { s with mem := { s.mem with allocs := u.mem.allocs } }
          ∧ ∀ b, b ∈ u.mem.allocs ↔ b ∈ s.mem.allocs ∧ b.first ≠ a.first))
  ∧ (∀ (i : Instr) (c : Cmd) (op : BitVec 16) (off n : Nat) (w : Work) (s : State), Open s → SharedFree s → s.paramError i = none →
      ((∃ o sz p, i = .memFill c o sz p ∧ op = 0x0503 ∧ off = o.toNat ∧ n = sz.toNat ∧ w = .memFill off n p)
        ∨ (∃ o k, i = .memRead c o k ∧ op = 0x0504 ∧ off = o.toNat ∧ n = k.toNat ∧ w = .memRead off n)
        ∨ ∃ o k d, i = .memWrite c o k d ∧ op = 0x0505 ∧ off = o.toNat ∧ n = k.toNat ∧ w = .memWrite off d) →
      exec i s = .next (if s.allocated off n = true then s.defer c op w else s.deny c op stDeniedState 0))
  ∧ (∀ (d : Deferred) (off : Nat) (b : Bytes) (s : State), s.memRuns = true → s.mgmt.deferred = [d] → d.work = .memWrite off b →
      s.allocated off b.length = true → off % 64 = 0 → b.length % 64 = 0 → ∀ ecc : EccReport,
      ∃ u : State, exec (.memCmdComplete ecc) s = .next (u.complete d.cmd d.opcode d.keyKept stOk 0 [])
        ∧ u = { s with mem := u.mem, ctr := { s.ctr with counters := u.ctr.counters }, mgmt := { s.mgmt with deferred := [] } }
        ∧ (∀ k, k < b.length → u.memByte (off + k) = byteAt b k)
        ∧ ∀ a, a < off ∨ off + b.length ≤ a → u.memByte a = s.memByte a)
  ∧ ∀ (d : Deferred) (off n : Nat) (s : State), s.memRuns = true → s.mgmt.deferred = [d] → d.work = .memRead off n →
      s.allocated off n = true →
      ((∀ k ∈ sectorsOf off n, k ∉ s.mem.poison ∧ s.isLost (k / 64) = false ∧ (s.stack (s.stackOf (k / 64))).dead = false) →
        ∃ u : State, exec (.memCmdComplete { uncorrected := [], corrected := [] }) s =
            .next (u.complete d.cmd d.opcode d.keyKept stOk 0 (s.memBytesAt off n))
          ∧ u = { s with ctr := { s.ctr with counters := u.ctr.counters }, mgmt := { s.mgmt with deferred := [] } })
      ∧ ((∃ k ∈ sectorsOf off n, k ∈ s.mem.poison) → ∃ u : State, exec (.memCmdComplete { uncorrected := [], corrected := [] }) s =
            .next (u.complete d.cmd d.opcode d.keyKept stInternalFault 0 [])
          ∧ u = { s with ctr := { s.ctr with counters := u.ctr.counters }, mgmt := { s.mgmt with deferred := [] } })

/-- In every state in which the management controller takes packets, no shared unit is in reset or under test and no parameter is
in error: SESSION_OPEN of a FREE SID, or of any free SID for 0xFFFF, with a group in no open session, room for its quota and
a locked beat where BEAT_SYNC asks for it, makes that session IDLE with its members and answers its SID (R109, R110); of a
SID in use it answers DENIED_STATE; SESSION_CLOSE by a source that precedence allows frees an IDLE or ABORTED session, and
leaves a running one with open chunks CLOSING and outstanding (R285); FORCE leaves the session FREE (R110); a FREE session
answers DENIED_STATE to each. (04_opcodes.md, 08_collectives_arithmetic.md, 09_collectives_pipeline.md.) -/
def Obligations.SessionsOpenAndClose : Prop :=
  (∀ (c : Cmd) (sid mg : BitVec 16) (flags : Byte) (members : BitVec 128) (quota : BitVec 32) (s : State), Open s → SharedFree s →
    s.paramError (.sessionOpen c sid mg flags members quota) = none →
    (sid ≠ 0xFFFF → (s.session sid.toNat).st ≠ .free →
      exec (.sessionOpen c sid mg flags members quota) s = .next (s.deny c 0x0600 stDeniedState 0))
    ∧ (s.groupInUse mg.toNat = false → (bitAt flags.toNat 1 = true → s.beat.st ≠ .freerun) →
        s.quotaSum + quota.toNat + s.coll.stageKib ≤ s.dreyCap →
        (if sid = 0xFFFF then ∃ n, n < 4096 ∧ (s.session n).st = .free else (s.session sid.toNat).st = .free) →
        ∃ (u : State) (n : Nat), exec (.sessionOpen c sid mg flags members quota) s = .next (u.ok c 0x0600 (leBytes 2 n))
          ∧ n < 4096 ∧ (sid ≠ 0xFFFF → n = sid.toNat) ∧ (s.session n).st = .free
          ∧ u = { s with coll := { s.coll with sessions := u.coll.sessions }, draws := u.draws }
          ∧ (∀ k, k ≠ n → u.session k = s.session k)
          ∧ (u.session n).st = .idle ∧ (u.session n).members = members ∧ (u.session n).mg = mg.toNat
          ∧ (u.session n).quota = quota.toNat ∧ (u.session n).early = bitAt flags.toNat 0 ∧ (u.session n).beatSync = bitAt flags.toNat 1
          ∧ (u.session n).openerSrc = c.src ∧ (u.session n).epoch = 0))
  ∧ ∀ (c : Cmd) (sid : BitVec 16) (s : State), Open s → SharedFree s → sid.toNat < 4096 →
      ((s.session sid.toNat).st = .free → exec (.sessionClose c sid) s = .next (s.deny c 0x0601 stDeniedState 0)
        ∧ exec (.sessionCloseForce c sid) s = .next (s.deny c 0x0601 stDeniedState 0))
      ∧ ((s.session sid.toNat).st ≠ .free →
          mayChange (some ((s.session sid.toNat).openerSrc, (s.session sid.toNat).openerOrigin)) c.src c.origin = true →
          ((s.session sid.toNat).st = .idle ∨ (s.session sid.toNat).st = .aborted → ∃ u : State,
              exec (.sessionClose c sid) s = .next (u.ok c 0x0601 []) ∧ exec (.sessionCloseForce c sid) s = .next (u.ok c 0x0601 [])
              ∧ u.session sid.toNat = defaultSession ∧ (∀ k, k ≠ sid.toNat → u.session k = s.session k) ∧ u.out = s.out)
          ∧ (((s.session sid.toNat).st = .running ∨ (s.session sid.toNat).st = .gathering) → (s.session sid.toNat).chunks ≠ [] → ∃ t,
              exec (.sessionClose c sid) s = .next t ∧ t.session sid.toNat = { s.session sid.toNat with st := .closing }
              ∧ t = { s with coll := { s.coll with sessions := t.coll.sessions }, mgmt := { s.mgmt with deferred :=
                  s.mgmt.deferred ++ [{ cmd := c, opcode := 0x0601, keyKept := true, work := .close sid.toNat }] } })
          ∧ ((s.session sid.toNat).st = .closing → exec (.sessionClose c sid) s = .next (s.deny c 0x0601 stDeniedState 0))
          ∧ ∃ u : State, exec (.sessionCloseForce c sid) s = .next (u.ok c 0x0601 []) ∧ u.session sid.toNat = defaultSession)
      ∧ ((s.session sid.toNat).st ≠ .free →
          mayChange (some ((s.session sid.toNat).openerSrc, (s.session sid.toNat).openerOrigin)) c.src c.origin = false →
          exec (.sessionClose c sid) s = .next (s.deny c 0x0601 stDeniedPrecedence
            (holderCode (some ((s.session sid.toNat).openerSrc, (s.session sid.toNat).openerOrigin)))))

/-- In every state in which the management controller takes packets, no shared unit is in reset or under test and no parameter is
in error: PORT_DRAIN is deferred from this beat on with its classes and time limit (R106); HELD_DISCARD of a port without a
logical port HOLDING answers DENIED_STATE, and of one whose first logical port alone holds ends that hold with reason 8 and
answers the number of frames discarded; where nothing is held it answers 0, the hold state becomes ENDED and HOLD_EXPIRED is
set (R168). (04_opcodes.md, 06_ordering_and_recovery.md.) -/
def Obligations.DrainsAndHeldFrames : Prop :=
  (∀ (c : Cmd) (lp classes : Byte) (timeout : BitVec 16) (s : State), Open s → SharedFree s → lp.toNat < 128 → timeout ≠ 0 →
    exec (.portDrain c lp classes timeout) s =
      .next (s.defer c 0x0403 (.drain lp.toNat classes.toNat s.beat.localBeats timeout.toNat)))
  ∧ ∀ (c : Cmd) (port : Byte) (n : Nat) (s : State), Open s → SharedFree s → n = port.toNat → n < 64 →
      s.holdOf (2 * n + 1) ≠ .holding →
      (s.holdOf (2 * n) ≠ .holding → exec (.heldDiscard c port) s = .next (s.deny c 0x0404 stDeniedState 0))
      ∧ (s.holdOf (2 * n) = .holding → exec (.heldDiscard c port) s =
          .next ((s.endHold (2 * n) 8).1.ok c 0x0404 (leBytes 4 (s.endHold (2 * n) 8).2))
        ∧ (s.currentOf (2 * n) = none → s.sw.frames = [] → s.sw.slotFifo = [] → s.sw.mcFifo = [] → s.sw.agentOut = [] →
            (s.endHold (2 * n) 8).2 = 0 ∧ (s.endHold (2 * n) 8).1.holdOf (2 * n) = .ended
            ∧ ((s.endHold (2 * n) 8).1.recovOf n).expired = true ∧ (s.endHold (2 * n) 8).1.out = s.out))

/-- For a head that arrives on an LP none of whose heads waits, with the switch core and the port running: under a lookup hold it
waits and is counted in HELD_AT_BOUNDARY, and no frame is admitted (R54); without a hold, a head that fails a check of R131
with a reason below 7 leaves the queues and the fences as they were; a head whose route forwards it to an output that neither
holds nor has ENDED, with no flow fenced, joins the queue of that output behind every frame admitted earlier.
INGRESS_HOLD_RELEASE ends the hold and lets a waiting head pass. (05_switch_core.md, 02_fabric_beat.md.) -/
def Obligations.HeadsAreAdmittedHeldOrDiscarded : Prop :=
  ∀ (lp : Lp) (f : InFrame) (s : State), s.live = true → s.portInReset (lpPort lp.val) = false → s.switchInReset = false →
    (∀ x ∈ s.sw.heads, x.1 ≠ lp.val) →
    (s.sw.lookupHold ≠ [] → ∃ t, exec (.frameHeadIngress lp f) s = .next t ∧ t.sw.heads = s.sw.heads ++ [(lp.val, true, f)]
      ∧ t.sw.frames = s.sw.frames ∧ t.sw.heldAtBoundary = satAdd (2 ^ 48 - 1) s.sw.heldAtBoundary 1
      ∧ t = { s with sw := t.sw, ctr := { s.ctr with counters := t.ctr.counters } })
    ∧ (s.sw.lookupHold = [] → ∀ r, s.ingressCheck lp.val f = .inl r → r < 7 → ∃ t, exec (.frameHeadIngress lp f) s = .next t
      ∧ t.sw.frames = s.sw.frames ∧ t.sw.heads = s.sw.heads ∧ t.sw.diverted = s.sw.diverted
      ∧ t = { s with sw := t.sw, ctr := { s.ctr with counters := t.ctr.counters } })
    ∧ (s.sw.lookupHold = [] → ∀ out, s.ingressCheck lp.val f = .inr (1, out) → s.recov.fences = [] → s.holdOf out ≠ .ended →
        ∃ t, exec (.frameHeadIngress lp f) s = .next t
          ∧ (∃ saf, t.sw.frames = s.sw.frames ++ [{ id := s.sw.nextId, inLp := lp.val, outLp := out, tc := f.hdr.tc.toNat
                                                    hdr := f.hdr, content := f.content, arrived := f.arrived, crossed := 0
                                                    saf := saf, cells := f.cells }])
          ∧ t.sw.nextId = s.sw.nextId + 1
          ∧ t = { s with sw := t.sw, ctr := { s.ctr with counters := t.ctr.counters } })
    ∧ (s.sw.heads = [] → exec .ingressHoldRelease s = .next { s with sw := { s.sw with lookupHold := [] } })
    ∧ ∀ g : InFrame, s.sw.heads = [(lp.val + 1, true, g)] → exec .ingressHoldRelease s =
        .next (({ s with sw := { s.sw with lookupHold := [], heads := [] } } : State).ingressWaiting (lp.val + 1) g)

/-- For an LP that is UP: CREDIT_ISSUE does nothing when no class may be issued a credit; otherwise the class is below its CAP
and either below its guarantee or within the shared cells with nothing owed, its granted and pending credits grow by one, and
the shared cells fall by what R134 charges; CREDIT_FLUSH with a pending credit, when the LP can send and no sleep is under
way, sends the pending counts and clears them, and the flit joins the replay buffer; an INIT flit that is still owed leaves
in its place (R136, R345). (05_switch_core.md.) -/
def Obligations.CreditsArePaidOut : Prop :=
  (∀ (lp : Lp) (s : State), s.live = true → s.lpUp lp.val = true →
    (s.issueClass lp.val = none → exec (.creditIssue lp) s = .next s)
    ∧ (∀ c, s.issueClass lp.val = some c → c < 8 ∧ s.cellsOf (lpTc lp.val c) < s.clsCap (lpTc lp.val c)
        ∧ (s.cellsOf (lpTc lp.val c) < s.guar (lpTc lp.val c) ∨ s.sw.owed = [])
        ∧ ∃ t, exec (.creditIssue lp) s = .next t
          ∧ sget t.sw.granted (lpTc lp.val c) 0 = sget s.sw.granted (lpTc lp.val c) 0 + 1
          ∧ sget t.sw.pendingCredit (lpTc lp.val c) 0 = sget s.sw.pendingCredit (lpTc lp.val c) 0 + 1
          ∧ t.sw.sharedFree = s.sw.sharedFree - (if s.cellsOf (lpTc lp.val c) < s.guar (lpTc lp.val c) then 0 else 1)
          ∧ (∀ k, k ≠ lpTc lp.val c → sget t.sw.granted k 0 = sget s.sw.granted k 0 ∧ sget t.sw.held k 0 = sget s.sw.held k 0)
          ∧ t = { s with sw := { s.sw with
              held := t.sw.held, granted := t.sw.granted, sharedFree := t.sw.sharedFree, pendingCredit := t.sw.pendingCredit } }))
  ∧ ∀ (lp : Lp) (s : State), s.live = true → s.canSend lp.val = true → (s.port (lpPort lp.val)).txSleeping = false →
      ((∀ c, c < 8 → sget s.sw.pendingCredit (lpTc lp.val c) 0 = 0) → (s.lpStripe lp.val).initOwed = false →
        exec (.creditFlush lp) s = .next s)
      ∧ ∀ (init : Bool) (l : List Nat), init = (s.lpStripe lp.val).initOwed →
        l = ((List.range 8).map fun c => sget s.sw.pendingCredit (lpTc lp.val c) 0) →
        init = true ∨ (∃ c, c < 8 ∧ sget s.sw.pendingCredit (lpTc lp.val c) 0 ≠ 0) → ∃ t, exec (.creditFlush lp) s = .next t
        ∧ t.out = s.out ++ [.flit lp.val (wireOf s lp.val ctrlHdr
            (leBytes 1 1 ++ leBytes 1 (b2n init) ++ zeros 2 ++ (l.map (leBytes 2)).flatten ++ zeros 220) false), .credit lp.val init l]
        ∧ (t.lpStripe lp.val).initOwed = false
        ∧ (∀ c, c < 8 → sget t.sw.pendingCredit (lpTc lp.val c) 0 = 0)
        ∧ (t.lpStripe lp.val).replay.length = (s.lpStripe lp.val).replay.length + 1
        ∧ (t.lpStripe lp.val).txNext = ((s.lpStripe lp.val).txNext + 1) % 4096

/-- With the switch core running: SUPER_CELL_TIME with empty queues counts itself and gains every LP the pace of its TX width,
at most 2048 (R142, R352); an agent's frame in which the ECC reports an uncorrectable error when it is taken is discarded
(R131, R133); EGRESS_MERGE_SELECT with the last flit of a frame in progress, a credit and room sends it, takes the credit, and
ends the frame (R137, R146); UNDERRUN of a frame in progress without its next flit stomps it with UNDERRUN and fences its flow
(R147), and of any other LP changes nothing; MULTICAST_RELEASE of the one waiting group frame, when every target can take its
copy, takes it from its queue and appends it to the staging FIFO of each target that is UP and not fenced (R148), unless the
ECC reports an uncorrectable error when it is read, which is a fault of the frame (R131, R133). (05_switch_core.md.) -/
def Obligations.FramesLeaveThroughTheMerge : Prop :=
  (∀ s : State, s.live = true → s.switchInReset = false → s.underTest 94 = false → s.sw.frames = [] → s.sw.locks = [] →
    Machine.rising s.sw.pace = true → ∃ t, exec .superCellTime s = .next t ∧ t.sw.superCells = s.sw.superCells + 1
      ∧ (∀ j, t.paceOf j = min 2048 (s.paceOf j + (if (s.lpStripe j).txw = 8 then 1260 else if (s.lpStripe j).txw = 4 then 630
          else if (s.lpStripe j).txw = 2 then 320 else if (s.port (lpPort j)).split = true then 630 else 1260)))
      ∧ t = { s with sw := { s.sw with superCells := t.sw.superCells, pace := t.sw.pace } })
  ∧ (∀ (lp : Lp) (f : InFrame) (id : Nat) (s : State), s.live = true → s.switchInReset = false → f.hdr.ftype = 8 →
      frameGiven f = true → cellsBad f.cells = true → s.coll.entry = [] →
      s.sw.diverted.find? (sameFlow lp.val f.hdr) = some { lp := lp.val, foreign := false, frame := f, id := id } →
      exec (.fenceAckReceived lp f) s = .next (((withoutHead s lp.val f).cellErrors f.cells).discardDiverted lp.val f))
  ∧ (∀ (lp : Lp) (c : Current) (p : Bytes) (s : State), s.live = true → s.switchInReset = false → s.canSend lp.val = true →
      sget s.sw.initSeen lp.val false = true → s.currentOf lp.val = some c → c.st.fault = none → c.agent = none → c.st.flits = [p] →
      c.sent + 1 = hdrCount c.st.hdr → sget s.sw.credits (lpTc lp.val c.st.hdr.tc.toNat) 0 ≠ 0 →
      ∃ t, exec (.egressMergeSelect lp) s = .next t ∧ t.currentOf lp.val = none
        ∧ t.out = s.out ++ [.flit lp.val (wireOf s lp.val { c.st.hdr with pos := posOf c.sent (hdrCount c.st.hdr) } p false),
            .frame lp.val c.st.hdr ((c.bytes ++ p).take (hdrLength c.st.hdr))]
        ∧ sget t.sw.credits (lpTc lp.val c.st.hdr.tc.toNat) 0 = sget s.sw.credits (lpTc lp.val c.st.hdr.tc.toNat) 0 - 1
        ∧ (t.lpStripe lp.val).replay.length = (s.lpStripe lp.val).replay.length + 1
        ∧ (t.lpStripe lp.val).txNext = ((s.lpStripe lp.val).txNext + 1) % 4096)
  ∧ (∀ (lp : Lp) (s : State), s.live = true →
      (s.currentOf lp.val = none → exec (.underrun lp) s = .next s)
      ∧ ∀ c : Current, s.currentOf lp.val = some c → c.st.flits = [] → c.st.fault = none →
          (0 < c.sent → c.sent < hdrCount c.st.hdr →
            exec (.underrun lp) s = .next ((s.stompCurrent lp.val 0xA none).lossFence c.st.inLp c.st.hdr 5))
          ∧ (c.sent = 0 → exec (.underrun lp) s = .next s))
  ∧ ∀ (q : QFrame) (s : State), s.live = true → s.switchInReset = false → s.underTest 94 = false → s.sw.frames = [q] → q.inLp = q.outLp →
      (s.releasable q = false → exec .multicastRelease s = .next s)
      ∧ (s.releasable q = true → cellsBad q.cells = true →
          exec .multicastRelease s = .next ((s.cellErrors q.cells).faultFrame q.id 9 0xB none))
      ∧ (s.releasable q = true → cellsBad q.cells = false → ∃ t, exec .multicastRelease s = .next t ∧ t.sw.frames = [] ∧ t.sw.mcLast = q.inLp
        ∧ (∀ j ∈ s.copyTargets q, t.mcFifoOf j = s.mcFifoOf j ++ [{
            id := q.id, inLp := q.inLp, outLp := j, hdr := q.hdr, flits := flitChunks q.content 0 (hdrCount q.hdr), fault := none
            last := [] }])
        ∧ ∀ j, j ∉ s.copyTargets q → t.mcFifoOf j = s.mcFifoOf j)

/-- PORT_DOWN of a single-stripe port that is UP, with no frame arriving, queued or deferred for it and no open session, sends
the stripe to SEND (to ABSENT when presence is lost), clears its credits and starts the hold of its logical port for
HOLD_BEATS and one beat (R165, R166); of a port that is not UP it changes nothing. HOLD_EXPIRY of a hold not due changes
nothing; of one that is due it ends the hold with reason 7, and where nothing is held the logical port is ENDED and
HOLD_EXPIRED is set; its replay state is gone unless the stripe is UP again with its INIT flit still to come (R168, R326).
(06_ordering_and_recovery.md, 11_link_bringup.md.) -/
def Obligations.HoldsBeginAndEnd : Prop :=
  (∀ (port : Port) (cause : Fin 16) (n : Nat) (s : State), s.live = true → n = port.val → (s.port n).split = false → cause.val ≠ 0 →
    ((s.port n).a.st ≠ .up → exec (.portDown port cause) s = .next s)
    ∧ ((s.port n).a.st = .up → s.mgmt.deferred = [] → s.arrivingOf (2 * n) = .none → s.sw.frames = [] → s.coll.sessions = [] →
        ∃ t, exec (.portDown port cause) s = .next t ∧ (t.port n).lastFail = cause.val
          ∧ (t.port n).a.st = (if cause.val = 7 then .absent else .send) ∧ (t.port n).a.replayValid = true
          ∧ t.holdOf (2 * n) = .holding ∧ t.holdEndOf (2 * n) = s.beat.count + (s.recovOf n).holdBeats.zeroExtend 48 + 1
          ∧ (∀ c, c < 8 → sget t.sw.credits (lpTc (2 * n) c) 0 = 0 ∧ sget t.sw.pendingCredit (lpTc (2 * n) c) 0 = 0
              ∧ sget t.sw.granted (lpTc (2 * n) c) 0 = 0)
          ∧ sget t.sw.initSeen (2 * n) false = false ∧ ∀ k, k ≠ n → t.port k = s.port k ∧ t.recovOf k = s.recovOf k))
  ∧ ∀ (port : Port) (n : Nat) (s : State), s.live = true → n = port.val → s.holdOf (2 * n + 1) ≠ .holding →
      ((s.holdOf (2 * n) = .holding → beatReached s.beat.count (s.holdEndOf (2 * n)) = false) →
        exec (.holdExpiry port) s = .next s)
      ∧ (s.holdOf (2 * n) = .holding → beatReached s.beat.count (s.holdEndOf (2 * n)) = true →
        exec (.holdExpiry port) s = .next (s.endHold (2 * n) 7).1
        ∧ (s.currentOf (2 * n) = none → s.sw.frames = [] → s.sw.slotFifo = [] → s.sw.mcFifo = [] → s.sw.agentOut = [] →
            (s.endHold (2 * n) 7).1.holdOf (2 * n) = .ended ∧ ((s.endHold (2 * n) 7).1.recovOf n).expired = true
            ∧ (s.lpUp (2 * n) = false → ((s.endHold (2 * n) 7).1.lpStripe (2 * n)).replayValid = false
              ∧ ((s.endHold (2 * n) 7).1.lpStripe (2 * n)).replay = [])
            ∧ (s.lpUp (2 * n) = true → (s.endHold (2 * n) 7).1.lpStripe (2 * n) = s.lpStripe (2 * n)) ∧ (s.endHold (2 * n) 7).1.recov.fences = s.recov.fences))

/-- FENCE_NOTICE_REPEAT of an ACTIVE entry whose notice was sent FENCE_RETRY beats ago, with its source LP up and no hold, sends
the notice again with REPEAT and counts it, while the LP is down leaves that repeat to wait for the link-up, and before that
time changes nothing (R176). FENCE_ACK_RECEIVED takes a whole NOTICE frame that heads its flow among those diverted, or that
passes the ingress just then: one that matches its ACTIVE entry makes it DRAINING from the next admission on, any other
counts in BAD_ACKS (R177, R178). FENCE_RELEASE makes an ACTIVE entry DRAINING (R180). FENCE_DRAINED frees a DRAINING entry
once no frame admitted before its acknowledgement is left (R175). (06_ordering_and_recovery.md.) -/
def Obligations.FencesAreAcknowledged : Prop :=
  (∀ (e : Fin 4096) (s : State), s.live = true →
    ((s.fence e.val).st = .active → (s.fence e.val).waits = false →
      ((s.beat.count - (s.fence e.val).noticed).toNat < s.recov.fenceRetry.toNat → exec (.fenceNoticeRepeat e) s = .next s)
      ∧ (s.recov.fenceRetry.toNat ≤ (s.beat.count - (s.fence e.val).noticed).toNat → s.lpUp (s.fence e.val).source = true →
          s.holdOf (s.fence e.val).source = .up → ∃ t f, exec (.fenceNoticeRepeat e) s = .next t
          ∧ t.fence e.val = { s.fence e.val with noticed := s.beat.count, repeats := satAdd 255 (s.fence e.val).repeats 1 }
          ∧ t.sw.agentOut = s.sw.agentOut ++ [f] ∧ f.lp = (s.fence e.val).source ∧ f.hdr.ftype = 8 ∧ bitAt (byteField f.content 1 1) 2 = true
          ∧ t = { s with sw := { s.sw with agentOut := t.sw.agentOut }, recov := { s.recov with fences := t.recov.fences } })
      ∧ (s.recov.fenceRetry.toNat ≤ (s.beat.count - (s.fence e.val).noticed).toNat →
          s.lpUp (s.fence e.val).source = false ∨ s.holdOf (s.fence e.val).source ≠ .up → ∃ t, exec (.fenceNoticeRepeat e) s = .next t
          ∧ t.fence e.val = { s.fence e.val with waits := true, again := true } ∧ (∀ k, k ≠ e.val → t.fence k = s.fence k)
          ∧ t = { s with recov := { s.recov with fences := t.recov.fences } }))
    ∧ ((s.fence e.val).st = .active → ∃ t, exec (.fenceRelease e) s = .next t
        ∧ t.fence e.val = { s.fence e.val with st := .draining, ackAt := s.sw.nextId } ∧ (∀ k, k ≠ e.val → t.fence k = s.fence k)
        ∧ t = { s with recov := { s.recov with fences := t.recov.fences } })
    ∧ ((s.fence e.val).st ≠ .active → exec (.fenceRelease e) s = .next s)
    ∧ ((s.fence e.val).st = .draining →
        (s.fenceBusy (s.fence e.val) = true → exec (.fenceDrained e) s = .next s)
        ∧ (s.fenceBusy (s.fence e.val) = false → ∃ t, exec (.fenceDrained e) s = .next t ∧ t.fence e.val = defaultFence
          ∧ (∀ k, k ≠ e.val → t.fence k = s.fence k) ∧ t = { s with recov := { s.recov with fences := t.recov.fences } })))
  ∧ ∀ (lp : Lp) (f : InFrame) (n : Nat) (s : State), s.live = true → s.switchInReset = false → f.hdr.ftype = 8 → frameGiven f = true →
      n = byteField (frameData f) 10 2 → ArrivesFirst (.fenceAckReceived lp f) lp.val f s
      ∧ ∀ id, HeadsFlow s lp.val false f id → (n < 4096 → ackMatches (s.fence n) lp.val f = true → ∃ t, exec (.fenceAckReceived lp f) s = .next t
        ∧ t.fence n = { s.fence n with st := .draining, ackAt := s.sw.nextId } ∧ (∀ k, k ≠ n → t.fence k = s.fence k)
        ∧ t.sw = ((withoutHead s lp.val f).freeFrame lp.val f).sw
        ∧ t = { s with sw := t.sw, recov := { s.recov with fences := t.recov.fences } } ∧ t.sw.frames = s.sw.frames)
      ∧ (4096 ≤ n ∨ ackMatches (s.fence n) lp.val f = false → ∃ t, exec (.fenceAckReceived lp f) s = .next t
        ∧ t = { s with sw := t.sw, recov := { s.recov with badAcks := satAdd 0xFFFF s.recov.badAcks 1 } } ∧ t.sw.frames = s.sw.frames)

/-- With no lookup hold and the switch core running, a head of a defined FTYPE whose DEST has [15:13] = 0 is looked up in route
table entry DEST[12:0]: with VALID = 0 there it is discarded with ROUTE_MISS, and an endpoint's frame that the entry FORWARDs
to an existing LP in an allowed class, with no fault of its own and no fence or ended hold in its way, joins the queue of
that LP; a head with DEST[15:12] = 8 is looked up in multicast group DEST[11:0] in the same way and joins the multicast queue
of its input; any other DEST is discarded with BAD_DEST. (R126.) -/
def Obligations.DestinationsAreDecoded : Prop :=
  ∀ (lp : Lp) (f : InFrame) (s : State), s.live = true → s.portInReset (lpPort lp.val) = false → s.switchInReset = false →
    (∀ x ∈ s.sw.heads, x.1 ≠ lp.val) → s.sw.lookupHold = [] → f.hdr.ftype.toNat < 9 →
    (f.hdr.dest.toNat < 0x2000 →
      (bitAt (s.entry 1 f.hdr.dest.toNat) 63 = false → ∃ t, exec (.frameHeadIngress lp f) s = .next t ∧ Discarded s t lp.val f 3)
      ∧ ∀ out, bitAt (s.entry 1 f.hdr.dest.toNat) 63 = true → bitsAt (s.entry 1 f.hdr.dest.toNat) 62 60 = 1 →
          bitsAt (s.entry 1 f.hdr.dest.toNat) 6 0 = out → bitAt (s.entry 1 f.hdr.dest.toNat) (52 + f.hdr.tc.toNat) = true →
          f.hdr.ftype = 0 → f.hdr.tc ≠ 7 → s.lpExists out = true → out ≠ lp.val → f.badFormat = false → f.stomp = none →
          cellsBad (cellsRead f.cells 0 1) = false → s.recov.fences = [] → s.holdOf out ≠ .ended →
          ∃ t, exec (.frameHeadIngress lp f) s = .next t ∧ Admitted s t lp.val out f)
    ∧ (0x8000 ≤ f.hdr.dest.toNat → f.hdr.dest.toNat < 0x9000 →
      (bitAt (s.entry 2 (f.hdr.dest.toNat - 0x8000)) 191 = false →
        ∃ t, exec (.frameHeadIngress lp f) s = .next t ∧ Discarded s t lp.val f 3)
      ∧ (bitAt (s.entry 2 (f.hdr.dest.toNat - 0x8000)) 191 = true →
          bitAt (s.entry 2 (f.hdr.dest.toNat - 0x8000)) (176 + f.hdr.tc.toNat) = true → f.hdr.ftype = 0 → f.hdr.tc ≠ 7 →
          f.badFormat = false → f.stomp = none → cellsBad (cellsRead f.cells 0 1) = false → s.recov.fences = [] →
          ∃ t, exec (.frameHeadIngress lp f) s = .next t ∧ Admitted s t lp.val lp.val f))
    ∧ ((0x2000 ≤ f.hdr.dest.toNat ∧ f.hdr.dest.toNat < 0x8000) ∨ 0x9000 ≤ f.hdr.dest.toNat →
        ∃ t, exec (.frameHeadIngress lp f) s = .next t ∧ Discarded s t lp.val f 2)

/-- For a whole MEM_REQ frame of its operation or of a reserved one that heads its flow among those diverted, with the switch
core running: MEM_REQ_READ, WRITE, MCAST_READ, FADD, ADD and CSWAP of another module's frame queue one response with status
FOREIGN and free its cells (R194); one that breaks R197 queues one with BAD_REQ; any other waits behind the requests already
at the entry with its cells held (R201). A frame none of whose flow waits passes the ingress first. A frame of another
operation or type, or one that is not whole, changes nothing. (07_fabric_memory.md.) -/
def Obligations.MemoryRequestsAreAnsweredOrWait : Prop :=
  ∀ (i : Instr) (op : Nat) (lp : Lp) (foreign : Bool) (f : InFrame) (s : State), s.live = true → s.switchInReset = false →
    s.underTest 94 = false →
    (i = .memReqRead lp foreign f ∧ op = 1 ∨ i = .memReqWrite lp foreign f ∧ op = 2 ∨ i = .memReqMcastRead lp foreign f ∧ op = 3
      ∨ i = .memReqFadd lp foreign f ∧ op = 4 ∨ i = .memReqAdd lp foreign f ∧ op = 5 ∨ i = .memReqCswap lp foreign f ∧ op = 6) →
    (f.hdr.ftype ≠ 1 ∨ (byteField f.content 0 1 ≠ op ∧ 1 ≤ byteField f.content 0 1 ∧ byteField f.content 0 1 ≤ 6)
      ∨ frameGiven f = false → exec i s = .next s)
    ∧ (f.hdr.ftype = 1 → byteField f.content 0 1 = op ∨ byteField f.content 0 1 = 0 ∨ 6 < byteField f.content 0 1 → frameGiven f = true →
        ArrivesFirst i lp.val f s
        ∧ ∀ (id : Nat) (r : MemReq) (u : State), HeadsFlow s lp.val foreign f id → r = memReqOf lp.val f id → u = withoutHead s lp.val f →
        (foreign = true ∨ s.side.fabricId = 0xFFFF ∨ byteField f.content 4 2 ≠ s.side.fabricId.toNat →
          exec i s = .next ((u.freeFrame lp.val f).answerMem r 2 0 []))
        ∧ (foreign = false → s.side.fabricId ≠ 0xFFFF → byteField f.content 4 2 = s.side.fabricId.toNat →
            (memReqOk f r = false → exec i s = .next ((u.freeFrame lp.val f).answerMem r 3 0 []))
            ∧ (memReqOk f r = true → exec i s = .next { u with mem := { s.mem with waiting := s.mem.waiting ++ [r] } })))

/-- With the memory request unit running and a request first at the entry of its LP: MEM_REQUEST_ENTRY of a request to
unallocated bytes answers status 1 and writes nothing (R197); of an aligned whole-sector WRITE leaves exactly its bytes
(R202) and every other byte; of a one-fragment READ, with room, no error and its LP not ENDED, queues one response whose data
are the bytes of the range, and writes nothing (R200). MEM_FRAGMENT_READ of a READ's next fragment that fits sends it and
advances, or removes the READ after its last fragment. (07_fabric_memory.md.) -/
def Obligations.RequestsChangeTheirBytesOnly : Prop :=
  (∀ (lp : Lp) (r : MemReq) (ecc : EccReport) (s : State), s.memRuns = true → s.mem.waiting = [r] → r.lp = lp.val →
    (s.allocated r.offset r.span = false → r.op ≠ 3 → ∃ u : State, exec (.memRequestEntry lp ecc) s = .next ((u.freeCells r.lp r.tc r.cells).ctxUnit 2
          (s.stackOf (r.offset / 4096)) (.memory (s.stackOf (r.offset / 4096)) r.op r.offset r.lp))
      ∧ u = ({ s with mem := { s.mem with waiting := [] } } : State).answerMem r 1 0 [])
    ∧ (s.allocated r.offset r.span = true → r.op = 2 → r.ack = false → r.length = r.data.length → r.offset % 64 = 0 → r.data.length % 64 = 0 →
        ∃ t, exec (.memRequestEntry lp ecc) s = .next t ∧ t.mem.waiting = []
          ∧ (∀ k, k < r.data.length → t.memByte (r.offset + k) = byteAt r.data k)
          ∧ (∀ a, a < r.offset ∨ r.offset + r.data.length ≤ a → t.memByte a = s.memByte a)
          ∧ t = { s with mem := t.mem, sw := t.sw, ctr := { s.ctr with counters := t.ctr.counters } })
    ∧ (s.allocated r.offset r.length = true → r.op = 1 → 0 < r.length → r.length ≤ 4096 → s.stageRoom [r.lp] r.length = true →
        s.holdOf r.lp ≠ .ended →
        (∀ k ∈ sectorsOf r.offset r.length, k ∉ s.mem.poison ∧ s.isLost (k / 64) = false ∧ (s.stack (s.stackOf (k / 64))).dead = false) →
        ∃ t f, exec (.memRequestEntry lp { uncorrected := [], corrected := [] }) s = .next t ∧ t.sw.agentOut = s.sw.agentOut ++ [f]
          ∧ f.lp = r.lp ∧ f.hdr.ftype = 2 ∧ byteField f.content 1 1 = 0 ∧ f.content.drop 32 = s.memBytesAt r.offset r.length
          ∧ t.mem = { s.mem with waiting := [] }))
  ∧ ∀ (lp : Lp) (x : MemRead) (ecc : EccReport) (s : State), s.memRuns = true → s.mem.reads = [x] → x.req.lp = lp.val → x.req.op = 1 →
      x.next < x.req.fragments →
      (s.fragmentFits x = false → exec (.memFragmentRead lp x.req.tag ecc) s = .next s)
      ∧ (s.fragmentFits x = true → ∃ t, exec (.memFragmentRead lp x.req.tag ecc) s = .next t ∧ t.mem.cells = s.mem.cells
        ∧ (x.next + 1 = x.req.fragments → t.mem.reads = [])
        ∧ (x.next + 1 < x.req.fragments → ∃ y, t.mem.reads = [y] ∧ y.next = x.next + 1 ∧ y.req = x.req))

/-- While management is ready: STACK_POLL records the temperature and adds the error counts, CE_WINDOW_END clears the corrected
counts, STACK_UNRESPONSIVE marks the stack (R212, R213); a refresh request changes nothing the model holds (R185);
MIGRATION_AUTO_START, when enabled and none runs, starts the lowest-numbered due stack's migration onto the spare (R213,
R214); MIGRATION_GRANULE_COPIED without an uncorrected sector advances PROGRESS by one; MIGRATION_COMPLETE gives the slot to
the spare, retires the source and marks the slot LOST after a migration without copy (R215, R216). (07_fabric_memory.md.) -/
def Obligations.StacksAreWatchedAndMigrated : Prop :=
  (∀ (k : Fin 13) (temp : Byte) (ce : BitVec 32) (ue : Byte) (s : State), s.live = true →
    (∃ t, exec (.stackPoll k temp ce ue) s = .next t ∧ (t.stack k.val).temp = temp
      ∧ (t.stack k.val).ce = satAdd (2 ^ 32 - 1) (s.stack k.val).ce ce.toNat ∧ (t.stack k.val).ue = satAdd 255 (s.stack k.val).ue ue.toNat
      ∧ ((t.stack k.val).ceDue = true ↔ (s.stack k.val).ceDue = true ∨ s.mem.ceThresh.toNat < (t.stack k.val).ce)
      ∧ (∀ j, j ≠ k.val → t.stack j = s.stack j) ∧ t = { s with mem := { s.mem with stackRegs := t.mem.stackRegs } })
    ∧ (∃ t, exec (.stackUnresponsive k) s = .next t ∧ t.stack k.val = { s.stack k.val with dead := true }
      ∧ (∀ j, j ≠ k.val → t.stack j = s.stack j) ∧ t = { s with mem := { s.mem with stackRegs := t.mem.stackRegs } })
    ∧ exec (.refreshManagementRequest k) s = .next s
    ∧ ∃ t, exec .ceWindowEnd s = .next t ∧ (∀ j, j < 13 → t.stack j = { s.stack j with ce := 0 })
      ∧ t = { s with mem := { s.mem with stackRegs := t.mem.stackRegs } })
  ∧ (∀ s : State, s.live = true → s.memInReset = false →
      (s.mem.autoMigrate = true → s.mem.migSt ≠ .copying → ∀ n sp, firstBelow 13 s.stackDue = some n → s.spareStack = some sp →
        ∃ t, exec .migrationAutoStart s = .next t ∧ (t.stack n).role = .source ∧ (t.stack sp).role = .target
          ∧ t.mem.migSt = .copying ∧ t.mem.migFrom = n ∧ t.mem.migTo = sp ∧ t.mem.migCause = true ∧ t.mem.progress = 0
          ∧ t.mem.noCopy = false ∧ t.mem.migNoCopy = (s.mem.noCopy || (s.stack n).dead) ∧ t.mem.cells = s.mem.cells)
      ∧ ((∀ j, j < 13 → s.stackDue j = false) → exec .migrationAutoStart s = .next s)
      ∧ (s.mem.migSt = .copying → s.mem.migNoCopy = false →
          (s.mem.progress < slotGranules → ∃ t, exec (.migrationGranuleCopied []) s = .next t
            ∧ t = { s with mem := { s.mem with progress := s.mem.progress + 1 }, ctr := { s.ctr with counters := t.ctr.counters } })
          ∧ (s.mem.progress < slotGranules → exec .migrationComplete s = .next s)
          ∧ (s.mem.progress = slotGranules → s.mem.migFrom ≠ s.mem.migTo → ∃ t, exec .migrationComplete s = .next t ∧ t.mem.migSt = .done
            ∧ t.mem.slotMap = s.mem.slotMap.set s.mem.migSlot s.mem.migTo ∧ (t.stack s.mem.migFrom).role = .retired
            ∧ (t.stack s.mem.migTo).role = .inService ∧ t.mem.lostSlots = s.mem.lostSlots ∧ t.mem.cells = s.mem.cells))
      ∧ (s.mem.migSt = .copying → s.mem.migNoCopy = true → s.mem.migFrom ≠ s.mem.migTo → ∃ t, exec .migrationComplete s = .next t
          ∧ t.mem.migSt = .nocopyDone ∧ t.mem.slotMap = s.mem.slotMap.set s.mem.migSlot s.mem.migTo
          ∧ t.mem.lostSlots = addSorted s.mem.lostSlots s.mem.migSlot ∧ t.mem.lostSeen = true))

/-- With the collective engine running, for a whole frame of this module that heads its flow among those diverted, with nothing
waiting at the entry: a frame of a FREE session is discarded and counted (R233, R264); a malformed descriptor aborts with
cause 1; a valid first descriptor makes an IDLE session GATHERING under it, and one with another hash than the reference
aborts with MISMATCH (R233, R235); a descriptor of the next epoch waits at the entry, and NEXT_EPOCH_DESC_TAKE_UP and
COLL_ENTRY_ADMIT take a waiting frame up (R224, R270); data in sequence and in the flow of their descriptor for a chunk that
may open advance their member by the rule of R263, and others abort with cause 4 (R264); a matching ABORT_ACK of the last
member makes the session IDLE, another counts in BAD_ACKS (R283). A frame none of whose flow waits passes the ingress first.
(08_collectives_arithmetic.md, 09_collectives_pipeline.md.) -/
def Obligations.CollectiveFramesAreTaken : Prop :=
  (∀ (lp : Lp) (foreign : Bool) (f : InFrame) (s : State), s.collRuns = true → frameGiven f = true →
    (f.hdr.ftype = 3 → ArrivesFirst (.collDescReceived lp foreign f) lp.val f s)
    ∧ (f.hdr.ftype = 4 → ArrivesFirst (.collDataReceived lp foreign f) lp.val f s)
    ∧ (f.hdr.ftype = 6 → ArrivesFirst (.abortAckReceived lp foreign f) lp.val f s))
  ∧ ∀ (lp : Lp) (f : InFrame) (id : Nat) (s u : State), s.collRuns = true → frameGiven f = true → HeadsFlow s lp.val false f id →
    s.side.fabricId ≠ 0xFFFF → frameFabric f = s.side.fabricId.toNat →
    u = (withoutHead s lp.val f).freeFrame lp.val f → ∀ (sid : Nat) (x : Session), sid = frameSid f → x = s.session sid →
    (f.hdr.ftype = 3 ∧ x.st = .free → exec (.collDescReceived lp false f) s = .next u.countDiscard
      ∧ u.countDiscard.coll.discarded = satAdd 0xFFFF s.coll.discarded 1)
    ∧ (f.hdr.ftype = 4 ∧ x.st = .free → exec (.collDataReceived lp false f) s = .next u.countDiscard)
    ∧ (f.hdr.ftype = 3 → descHdrOk f = true → bitAt x.members.toNat lp.val = true → descMalformed x.members.toNat (frameData f) = true →
        x.st = .idle ∨ x.st = .gathering ∨ x.st = .running →
        ∃ v : State, exec (.collDescReceived lp false f) s = .next (v.abortEpoch sid 1 (some lp.val)) ∧ (v.session sid).st = x.st
          ∧ (v.session sid).epoch = x.epoch ∧ v.out = s.out)
    ∧ (f.hdr.ftype = 3 → descHdrOk f = true → bitAt x.members.toNat lp.val = true →
        descMalformed x.members.toNat (frameData f) = false →
        (x.st = .idle → BitVec.ofNat 32 (byteField (frameData f) 12 4) = x.epoch + 1 → x.roster.length ≠ 1 →
          (parseDesc (frameData f)).op ≠ 6 → (dreyPlan s.coll.retain x.quota x.roster.length (parseDesc (frameData f))).2.2 ≠ 0 →
          ∃ t, exec (.collDescReceived lp false f) s = .next t ∧ (t.session sid).st = .gathering ∧ (t.session sid).epoch = x.epoch + 1
            ∧ (t.session sid).descSeen = 1 ∧ (t.session sid).refLp = lp.val ∧ (t.session sid).refValid = true
            ∧ (t.session sid).refHash = descHash (frameData f) ∧ (t.session sid).low = 0 ∧ (t.session sid).chunks = []
            ∧ (∀ k, k ≠ sid → t.session k = s.session k) ∧ t.out = s.out)
        ∧ (x.st = .gathering → BitVec.ofNat 32 (byteField (frameData f) 12 4) = x.epoch → descHash (frameData f) ≠ x.refHash →
            ∃ v : State, exec (.collDescReceived lp false f) s = .next (v.abortEpoch sid 0x40 (some lp.val)) ∧ (v.session sid).st = .gathering
              ∧ v.out = s.out)
        ∧ (x.st = .gathering ∨ x.st = .running → BitVec.ofNat 32 (byteField (frameData f) 12 4) = x.epoch + 1 →
            ∃ t, exec (.collDescReceived lp false f) s = .next t ∧ t.coll = { s.coll with entry := [
              { lp := lp.val, foreign := false, frame := f, id := id }] }))
    ∧ (f.hdr.ftype = 4 → dataHdrOk f = true → bitAt x.members.toNat lp.val = true → x.st = .gathering ∨ x.st = .running →
        BitVec.ofNat 32 (byteField f.content 8 4) = x.epoch →
        ∀ (m : Member) (d : Desc) (range r : Nat × Nat) (p : Nat), x.roster.find? (fun m => m.lp == lp.val) = some m → x.desc = some d →
        m.accepted = true → range = contribRange d x.roster.length (rankOf x.roster lp.val) lp.val → r = inChunk d m.nextChunk range →
        p = portionBytes d.inFmt (r.2 - r.1) →
        (m.finished = true ∨ m.dest ≠ f.hdr.dest ∨ m.tc ≠ f.hdr.tc.toNat ∨ byteField f.content 12 4 ≠ m.nextChunk
            ∨ byteField f.content 6 1 ≠ m.nextContrib ∨ byteField f.content 16 4 ≠ m.nextOffset
            ∨ (frameData f).length ≠ min 4096 (p - m.nextOffset)
            ∨ byteField f.content 1 1 ≠ b2n (decide (m.nextOffset + min 4096 (p - m.nextOffset) = p)) → exec (.collDataReceived lp false f) s = .next (u.abortEpoch sid 4 (some lp.val)))
        ∧ (m.finished = false → m.dest = f.hdr.dest → m.tc = f.hdr.tc.toNat → byteField f.content 12 4 = m.nextChunk → byteField f.content 6 1 = m.nextContrib →
            byteField f.content 16 4 = m.nextOffset → (frameData f).length = min 4096 (p - m.nextOffset) →
            byteField f.content 1 1 = b2n (decide (m.nextOffset + min 4096 (p - m.nextOffset) = p)) → m.nextChunk < x.low + x.depth →
            4 ≤ s.stageLeft → s.clusters ≠ [] → ∃ t, exec (.collDataReceived lp false f) s = .next t
              ∧ (t.session sid).roster = updMember x.roster lp.val (fun m => m.advance d range (frameData f).length p)
              ∧ (t.session sid).lastAccept = s.beat.localBeats ∧ (t.session sid).st = x.st ∧ t.out = s.out
              ∧ (∀ k, k ≠ sid → t.session k = s.session k)))
    ∧ (f.hdr.ftype = 6 → byteField f.content 0 1 = 0x20 →
        (x.st ≠ .aborted → exec (.abortAckReceived lp false f) s = .next { u with coll := { u.coll with
          badAcks := satAdd 0xFFFF s.coll.badAcks 1 } })
        ∧ (x.st = .aborted → hdrThl f.hdr = 32 → hdrLength f.hdr = 32 → 32 ≤ f.content.length →
            byteField f.content 1 1 < 2 → byteField f.content 3 1 < 16 → byteField f.content 7 1 = 0 → byteField f.content 30 2 = 0 →
            byteField f.content 8 4 = x.epoch.toNat →
            (∃ m ∈ x.roster, m.lp = lp.val ∧ m.acked = false ∧ (m.known = false ∨ m.dest = f.hdr.dest ∧ m.tc = f.hdr.tc.toNat)) → (∀ m ∈ x.roster, m.lp ≠ lp.val → m.acked = true) →
            ∃ t, exec (.abortAckReceived lp false f) s = .next t ∧ (t.session sid).st = .idle ∧ (t.session sid).epoch = x.epoch))
    ∧ (exec (.nextEpochDescTakeUp ⟨sid % 4096, Nat.mod_lt _ (by decide)⟩) s = .next s ∧ exec (.collEntryAdmit lp) s = .next s)
    ∧ ∀ (d : Diverted) (v : State), v = { s with coll := { s.coll with entry := [d] } } →
        (d.lp = lp.val → exec (.collEntryAdmit lp) v = .next ((v.admitEntry d).getD v))
        ∧ (d.frame.hdr.ftype = 3 → (v.session (frameSid d.frame)).st = .idle → ∀ k : Fin 4096, k.val = frameSid d.frame →
            exec (.nextEpochDescTakeUp k) v = .next ((v.admitEntry d).getD v))

/-- With the collective engine running, in a RUNNING session: CHUNK_FINISH of a complete, released chunk whose predecessors are
finished marks it finished once every descriptor has been compared, and of an incomplete one, or before that, changes nothing
(R237, R271); RESULT_FRAME_PASSED counts a frame of the chunk passed and notes its member; CHUNK_COMMIT of the lowest
finished chunk with no frame left, when it is not the last, commits it and moves on by one (R272); SLOT_GROUP_DAMAGED of a
retained chunk recomputes and leaves the session, otherwise the epoch aborts with cause 7, and an uncorrectable word is
counted for its bank (R277, R393); RESULT_RESEND sends a frame again up to its third failure and aborts with cause 8 at the
fourth (R276); STALL_TIMEOUT aborts with cause 9 only after STALL_BEATS (R287); BEAT_SYNC_RELEASE releases the complete
chunks at step 6 of a boundary on the grid and changes nothing at any other time (R53, R286). (09_collectives_pipeline.md.) -/
def Obligations.ChunksFinishCommitOrAbort : Prop :=
  (∀ (sid : Fin 4096) (n : BitVec 32) (ch : Chunk) (d : Desc) (s : State), s.collRuns = true → (s.session sid.val).st = .running →
    (s.session sid.val).desc = some d → (s.session sid.val).chunks.find? (fun c => c.num == n.toNat) = some ch →
    (ch.complete = false ∨ (s.session sid.val).descSeen ≠ (s.session sid.val).roster.length → exec (.chunkFinish sid n) s = .next s)
    ∧ ((s.session sid.val).descSeen = (s.session sid.val).roster.length → ch.complete = true → ch.released = true → ch.finished = false →
        (∀ c ∈ (s.session sid.val).chunks, c.num < n.toNat → c.finished = true) → ∃ t, exec (.chunkFinish sid n) s = .next t
        ∧ (∀ c ∈ (t.session sid.val).chunks, c.num = n.toNat → c.finished = true) ∧ (t.session sid.val).st = .running
        ∧ (t.session sid.val).chunks.length = (s.session sid.val).chunks.length ∧ (t.session sid.val).low = (s.session sid.val).low
        ∧ ∀ k, k ≠ sid.val → t.session k = s.session k)
    ∧ ((s.session sid.val).low ≠ n.toNat ∨ ch.finished = false ∨ ch.toPass ≠ 0 → exec (.chunkCommit sid n) s = .next s)
    ∧ ((s.session sid.val).low = n.toNat → ch.finished = true → ch.toPass = 0 → n.toNat + 1 ≠ chunkCount d →
        ∃ t, exec (.chunkCommit sid n) s = .next t ∧ (t.session sid.val).low = n.toNat + 1
          ∧ (t.session sid.val).committedAll = (s.session sid.val).committedAll + 1 ∧ (t.session sid.val).st = .running
          ∧ (∀ c, c ∈ (t.session sid.val).chunks ↔ c ∈ (s.session sid.val).chunks ∧ c.num ≠ n.toNat) ∧ t.out = s.out)
    ∧ (∀ (g : Nat) (kind : DamageKind), g < (chunkHi d n.toNat - chunkLo d n.toNat + 255) / 256 →
        ((s.session sid.val).retain = true → (∀ b, kind ≠ .pageEcc b) → ∃ t, exec (.slotGroupDamaged sid n g kind) s = .next t
          ∧ t.coll.sessions = s.coll.sessions ∧ t.coll.recomputes = satAdd 0xFFFF s.coll.recomputes 1 ∧ t.out = s.out
          ∧ (∀ b, kind = .slotEcc b → sget t.bist.dreyUe b 0 = sget s.bist.dreyUe b 0 + 1 ∧ t.coll.ueSeen = true)
          ∧ (∀ k, kind = .residue k → k ∈ t.coll.residueBad ∧ t.coll.residueSeen = true))
        ∧ ((s.session sid.val).retain = false ∨ (∃ b, kind = .pageEcc b) → ∃ u : State, exec (.slotGroupDamaged sid n g kind) s =
            .next (u.abortEpoch sid.val 7 none) ∧ u.coll.sessions = s.coll.sessions ∧ u.out = s.out))
    ∧ (0 < s.coll.stallBeats.toNat →
        (s.beat.localBeats < (s.session sid.val).lastAccept + s.coll.stallBeats.toNat + 1 → exec (.stallTimeout sid) s = .next s)
        ∧ ((s.session sid.val).lastAccept + s.coll.stallBeats.toNat + 1 ≤ s.beat.localBeats → exec (.stallTimeout sid) s =
            .next (s.abortEpoch sid.val 9 (s.session sid.val).laggard)))
    ∧ (s.coll.stallBeats = 0 → exec (.stallTimeout sid) s = .next s)
    ∧ ∀ (lp : Lp) (a : AgentFrame), s.sw.checking = [a] → a.lp = lp.val → a.sid = sid.val → a.epoch = (s.session sid.val).epoch →
        a.chunk = n.toNat →
        (∃ t, exec (.resultFramePassed lp) s = .next t ∧ t.sw.checking = [] ∧ t.out = s.out ++ [.frame a.lp a.hdr (a.content.take (hdrLength a.hdr))]
          ∧ t.session sid.val = { s.session sid.val with
              chunks := (s.session sid.val).chunks.map fun c => if c.num == n.toNat then { c with toPass := c.toPass - 1 } else c
              roster := updMember (s.session sid.val).roster lp.val fun m => { m with got := addSorted m.got n.toNat } })
        ∧ (a.fails < 3 → ∃ t g, exec (.resultResend lp) s = .next t ∧ g ∈ t.sw.agentOut ∧ g.fails = a.fails + 1 ∧ g.lp = a.lp
          ∧ g.chunk = a.chunk ∧ t.sw.agentOut.length = s.sw.agentOut.length + 1 ∧ t.coll.resends = satAdd 0xFFFF s.coll.resends 1
          ∧ t.out = s.out ++ [.stomped a.lp a.hdr a.content 0xB] ∧ t.coll.sessions = s.coll.sessions)
        ∧ (3 ≤ a.fails → ∃ u : State, exec (.resultResend lp) s = .next (u.abortEpoch sid.val 8 (some lp.val))
          ∧ u.coll.sessions = s.coll.sessions))
  ∧ ∀ s : State, s.collRuns = true →
      (s.beat.stepsDue = false ∨ s.nextStep5 ≠ none ∨ s.beat.count.toNat % 2 ^ s.coll.syncLog2.toNat ≠ 0 →
        exec .beatSyncRelease s = .next s)
      ∧ ∀ (n : Nat) (x : Session), s.beat.stepsDue = true → s.nextStep5 = none → s.beat.count.toNat % 2 ^ s.coll.syncLog2.toNat = 0 → s.coll.sessions = [(n, x)] → x.st = .running →
          x.beatSync = true → x.barrierWaits = false → ∃ t, exec .beatSyncRelease s = .next t
            ∧ t.session n = { x with chunks := x.chunks.map fun c => if c.complete = true then { c with released := true } else c }
            ∧ t = { s with coll := { s.coll with sessions := t.coll.sessions } }

/-- For every reduction, every number format and every two orders of the same contributions, at most 1,024 of them (R246): an
accumulator that starts at its initial value and takes the contributions in the one order holds what it holds after the other
(R245, R247, R248); and for SUM, when every contribution is finite and at least one has come, it holds their exact sum as a
finite value (R242, R243). (08_collectives_arithmetic.md.) -/
def Obligations.ArrivalOrderDoesNotMatter : Prop :=
  (∀ (red f : Nat) (l k : List (Nat × Nat)), 1 ≤ red → red ≤ 6 → f ≤ 9 → l.Perm k → l.length ≤ 1024 →
      (∀ x ∈ l, x.1 < 2 ^ elemBits f ∧ x.2 < 256) →
      l.foldl (fun a x => accAdd red f a x.1 x.2) (accInit red f) = k.foldl (fun a x => accAdd red f a x.1 x.2) (accInit red f))
  ∧ ∀ (f : Nat) (l : List (Nat × Nat)), f ≤ 9 → l ≠ [] → l.length ≤ 1024 →
      (∀ x ∈ l, x.1 < 2 ^ elemBits f ∧ x.2 < 256 ∧ specialOf (elemAcc f x.1 x.2) = none) →
      specialOf (l.foldl (fun a x => accAdd 1 f a x.1 x.2) (accInit 1 f)) = none
      ∧ (l.foldl (fun a x => accAdd 1 f a x.1 x.2) (accInit 1 f)).toInt = (l.map fun x => (elemAcc f x.1 x.2).toInt).sum

/-- POR_N_FALL holds the module and loses the fabric memory's contents, but not the fuses (R444, R455); POR_N_RISE after a pulse
long enough samples TRAY_POS and BIST_STRAP, a shorter pulse being a fault of its own, and, when nothing else holds the
module, starts the sequence with CAUSE 0 (R444, R446); RST_N_ASSERT keeps the bytes of fabric memory, the slot map,
LAST_EPOCH and the fuses, and its release samples the straps and starts the sequence with CAUSE 1 (R445); PERST_N changes
nothing of the module (R480); a stack supply out of regulation loses the memory contents (R443); THERMTRIP is asserted once,
whatever the lands do, until VAUX falls below 10 % (R489). A module that is held or has tripped drives SB_FWD low (R420).
(16_reset_init.md, 18_package.md.) -/
def Obligations.LandsHoldAndRelease : Prop :=
  (∀ (pos : Fin 4) (strap : Bool) (s : State),
    (s.pkg.porLow = false → ∃ t, exec .porNFall s = .next t ∧ t.pkg.porLow = true ∧ t.pkg.phase = .por ∧ t.mem.cells = []
      ∧ t.mem.powerOns = s.mem.powerOns + 1 ∧ t.mem.allocs = [] ∧ t.mgmt.keys = [] ∧ t.bist.fuses = s.bist.fuses ∧ t.live = false
      ∧ t.ports = [] ∧ t.tables = State.reset.tables
      ∧ t.pkg.sbFwd = false ∧ t.out = s.out ++ (if s.pkg.sbFwd = true then [.sbFwd false] else []))
    ∧ (s.pkg.porLow = true → exec (.porNRise pos strap false) s = .fault .undefinedPorPulse)
    ∧ (s.pkg.porLow = true → s.pkg.rstLow = false → tapHolds s.pkg.tap = false → ∃ t, exec (.porNRise pos strap true) s = .next t
      ∧ t.pkg.porLow = false ∧ t.pkg.phase = .fuses ∧ t.pkg.trayPos = pos.val ∧ t.pkg.bistStrap = strap ∧ t.pkg.fromLand = false
      ∧ t.side.staticAddr = BitVec.ofNat 7 (0x30 + pos.val) ∧ t.mgmt.cause = 0
      ∧ t = { s with pkg := t.pkg, side := { s.side with staticAddr := t.side.staticAddr }, mgmt := { s.mgmt with cause := 0 } })
    ∧ (s.pkg.rstLow = false → s.pkg.porLow = false → ∃ t, exec .rstNAssert s = .next t ∧ t.pkg.rstLow = true ∧ t.pkg.phase = .rst
      ∧ t.pkg.selfRefresh = true ∧ t.mem.cells = s.mem.cells ∧ t.mem.powerOns = s.mem.powerOns ∧ t.mem.slotMap = s.mem.slotMap
      ∧ t.mem.poison = s.mem.poison ∧ t.mem.allocs = [] ∧ t.mgmt.lastEpoch = s.mgmt.lastEpoch ∧ t.mgmt.keys = []
      ∧ t.bist.fuses = s.bist.fuses ∧ t.bist.toBlow = s.bist.toBlow ∧ t.live = false ∧ t.tables = State.reset.tables
      ∧ t.pkg.sbFwd = false ∧ t.out = s.out ++ (if s.pkg.sbFwd = true then [.sbFwd false] else []))
    ∧ (s.pkg.rstLow = true → s.pkg.porLow = false → tapHolds s.pkg.tap = false → ∃ t, exec (.rstNRelease pos strap) s = .next t
      ∧ t.pkg.rstLow = false ∧ t.pkg.phase = .fuses ∧ t.pkg.fromLand = s.pkg.rolesTaken ∧ t.pkg.trayPos = pos.val ∧ t.pkg.bistStrap = strap
      ∧ t.side.staticAddr = BitVec.ofNat 7 (0x30 + pos.val) ∧ t.mgmt.cause = 1
      ∧ t = { s with pkg := t.pkg, side := { s.side with staticAddr := t.side.staticAddr }, mgmt := { s.mgmt with cause := 1 } })
    ∧ exec .perstNAssert s = .next s
    ∧ (s.pkg.tripped = true → exec .thermtrip s = .next s)
    ∧ (s.pkg.tripped = false → ∃ t, exec .thermtrip s = .next t ∧ t.pkg.tripped = true ∧ t.pkg.selfRefresh = true ∧ t.live = false
      ∧ t.pkg.sbFwd = false ∧ t.out = s.out ++ .thermtrip true :: (if s.pkg.sbFwd = true then [.sbFwd false] else []) ∧ t = { s with pkg := t.pkg, out := t.out }))
  ∧ ∀ (rail : Rail) (low : Bool) (s : State),
      ((rail = .vmpp ∨ rail = .vmdd ∨ rail = .vmq) → ∃ t, exec (.railLeavesRegulation rail low) s = .next t ∧ t.mem.cells = []
        ∧ t.mem.powerOns = s.mem.powerOns + 1
        ∧ t = { s with mem := { s.mem with cells := t.mem.cells, powerOns := t.mem.powerOns } })
      ∧ (rail = .vaux → low = true → s.pkg.tripped = true → exec (.railLeavesRegulation rail low) s = .next { s with
          pkg := { s.pkg with tripped := false }, out := s.out ++ [.thermtrip false] })
      ∧ ((rail = .vaux ∧ low = false ∨ rail = .vcore ∨ rail = .vsa ∨ rail = .vst) → exec (.railLeavesRegulation rail low) s = .next s)

/-- While nothing holds the module: FUSE_READ_DONE with no fuse blown or waiting makes the lowest 24 clusters, 128 buffer banks
and 96 Drey banks serve and the rest spare, and a cluster or bank with a blown fuse UNUSABLE (R395); the self-test zeroises
the key store and runs the partitions' results, stack training retires what failed, and MANAGEMENT_READY, only after both,
opens the module and drives SB_FWD (R447, R450). An instruction of the test access port that does not hold changes nothing
but the instruction register (R484); one that holds resets like RST_N, SCAN_ACCESS zeroising the keys first; TRST_N and
TAP_INSTRUCTION_RELEASE of a holding instruction start the sequence with CAUSE 1 (R485). (16_reset_init.md, 18_package.md,
13_selftest_spares.md.) -/
def Obligations.PowerOnSequenceRuns : Prop :=
  (∀ s : State, s.pkg.tripped = false → s.heldInReset = false →
    (s.pkg.phase = .fuses → ∃ t, exec .fuseReadDone s = .next t ∧ t.pkg.phase = .testing (!s.pkg.bistStrap) false
      ∧ (∀ n, n < 26 → (2, n) ∈ s.bist.fuses ++ s.bist.toBlow → t.rcRole n = .unusable)
      ∧ (∀ n, n < 132 → (3, n) ∈ s.bist.fuses ++ s.bist.toBlow → t.bufRole n = .unusable)
      ∧ (∀ n, n < 99 → (4, n) ∈ s.bist.fuses ++ s.bist.toBlow → t.dreyRole n = .unusable))
    ∧ (s.pkg.phase = .fuses → s.bist.fuses = [] → s.bist.toBlow = [] → ∃ t, exec .fuseReadDone s = .next t
      ∧ t.pkg.phase = .testing (!s.pkg.bistStrap) false
      ∧ (∀ n, n < 26 → t.rcRole n = (if n < 24 then .inService else .spare))
      ∧ (∀ n, n < 132 → t.bufRole n = (if n < 128 then .inService else .spare))
      ∧ (∀ n, n < 99 → t.dreyRole n = (if n < 96 then .inService else .spare))
      ∧ t.bist.txBad = [] ∧ t.bist.rxBad = [] ∧ t.mem.cells = s.mem.cells)
    ∧ (∀ (train : Bool) (results : List (Nat × TestEnd)), s.pkg.phase = .testing false train → ∃ u : State,
        exec (.powerOnSelfTestDone results) s = .next { u with pkg := { u.pkg with phase := .testing true train } }
        ∧ u = (results.foldl (fun (s : State) r => s.powerOnTest r.1 r.2) s.zeroise).powerOnSlots
        ∧ s.zeroise.mgmt.keys = [] ∧ s.zeroise.bist.zeroised = true ∧ s.zeroise.mgmt.lastEpoch = s.mgmt.lastEpoch
        ∧ (results = [] → u.mgmt.keys = []))
    ∧ (∀ (done : Bool) (failed : List Nat), s.pkg.phase = .testing done false → ∃ u : State,
        exec (.stackTrainingDone failed) s = .next { u with pkg := { u.pkg with phase := .testing done true } }
        ∧ (failed = [] → u = s)
        ∧ (∀ n, failed = [n] → s.mem.migFrom ≠ s.mem.migTo → (u.stack n).role = .retired ∧ (u.stack n).dead = true ∧ u.mem.cells = s.mem.cells))
    ∧ (s.pkg.phase = .testing true true → ∃ t, exec .managementReady s = .next t ∧ t.pkg.phase = .ready ∧ t.pkg.sbFwd = true
        ∧ t.live = true ∧ t.out = s.out ++ (if s.pkg.sbFwd = true then [] else [.sbFwd true]) ∧ t = { s with pkg := t.pkg, out := t.out })
    ∧ (s.pkg.phase ≠ .testing true true → exec .managementReady s = .next s))
  ∧ (∀ (i : Instr) (code : TapCode) (s : State), tapHolds s.pkg.tap = false →
      (i = .tapIdcode ∧ code = 1 ∨ i = .tapSamplePreload ∧ code = 2 ∨ i = .trstNAssert ∧ code = 1
        ∨ i = .tapBypass code ∧ code ∉ [(0x00 : TapCode), 0x01, 0x02, 0x03, 0x04, 0x40] →
        exec i s = .next { s with pkg := { s.pkg with tap := code } })
      ∧ (i = .tapExtest ∧ code = 0 ∨ i = .tapClamp ∧ code = 3 ∨ i = .tapHighz ∧ code = 4 ∨ i = .tapScanAccess ∧ code = 0x40 →
        s.pkg.porLow = false → ∃ t, exec i s = .next t ∧ t.pkg.tap = code ∧ t.pkg.phase = .rst ∧ t.live = false ∧ t.mgmt.keys = []
          ∧ t.mem.cells = s.mem.cells ∧ t.bist.zeroised = decide (code = 0x40))
      ∧ exec (.tapInstructionRelease code) s = .next s)
  ∧ ∀ (code : TapCode) (s : State), tapHolds s.pkg.tap = true → tapHolds code = false → s.pkg.rstLow = false → s.pkg.porLow = false →
      ∃ t, exec (.tapInstructionRelease code) s = .next t ∧ t.pkg.tap = code ∧ t.pkg.phase = .fuses ∧ t.mgmt.cause = 1
        ∧ t.pkg.fromLand = s.pkg.rolesTaken ∧ t.mem.cells = s.mem.cells ∧ exec .trstNAssert s = .next { t with pkg := { t.pkg with tap := 1 } }

/-- In every state in which the management controller takes packets: RESET of a scope whose units are not under test answers the
start beat, stages the reset for the next boundary when none runs and none within which it lies is staged or running (R118,
R452), stages it for the boundary after the running reset where one runs that it does not lie within (R118), answers the
other's start beat and stages nothing when it lies within that, and BUSY_TEST while a unit it covers is under test (R119,
R391). RESET_START starts nothing that is not due; it starts a due reset of the memory scope, with no command deferred and
nothing under test there, by clearing the logs and keeping the contents (R451, R455). RESET_END ends the oldest running one.
RESET_MARKER_WAIT_EXPIRY clears the engine after 16 beats. (16_reset_init.md, 04_opcodes.md.) -/
def Obligations.ResetsAreStagedRunAndEnd : Prop :=
  (∀ (c : Cmd) (i : Instr) (unit : Byte) (scope n : Nat) (s : State), Open s →
    (i = .resetPort c unit ∧ scope = 1 ∧ n = unit.toNat ∧ n < 64 ∨ i = .resetSwitch c unit ∧ scope = 2 ∧ n = 0 ∧ unit = 0
      ∨ i = .resetMemory c unit ∧ scope = 3 ∧ n = 0 ∧ unit = 0 ∨ i = .resetCollective c unit ∧ scope = 4 ∧ n = 0 ∧ unit = 0
      ∨ i = .resetManagement c unit ∧ scope = 5 ∧ n = 0 ∧ unit = 0 ∨ i = .resetModule c unit ∧ scope = 6 ∧ n = 0 ∧ unit = 0) →
    ((∃ k ∈ busyParts scope n, s.underTest k = true) → exec i s = .next (s.deny c 0x0F00 stBusyTest 0))
    ∧ ((∀ k ∈ busyParts scope n, s.underTest k = false) →
        (s.mgmt.running = [] → (∀ x ∈ s.mgmt.resets, resetWithin scope n x.scope x.unit = false) → ∃ u : State,
          exec i s = .next (u.ok c 0x0F00 (leBytes 6 (s.beat.count + 1).toNat))
          ∧ (∃ r ∈ u.mgmt.resets, r.scope = scope ∧ r.unit = n ∧ r.waits = false ∧ r.since = s.beat.localBeats
              ∧ r.start = s.beat.count + 1)
          ∧ u = { s with mgmt := { s.mgmt with resets := u.mgmt.resets }, draws := u.draws })
        ∧ (∀ x, s.mgmt.running = [] → s.mgmt.resets = [x] → resetWithin scope n x.scope x.unit = true →
          exec i s = .next (s.ok c 0x0F00 (leBytes 6 x.start.toNat)))
        ∧ ∀ x, s.mgmt.running = [x] → s.mgmt.resets = [] → x.scope ≠ 4 → resetWithin scope n x.scope x.unit = false → ∃ u : State,
          exec i s = .next (u.ok c 0x0F00 (leBytes 6 (s.beatAfter x).toNat))
          ∧ u = { s with mgmt := { s.mgmt with resets := [{ scope := scope, unit := n, setter := BitVec.ofNat 16 (srcCode c.src + 4 * c.origin)
                                                            start := s.beatAfter x, waits := true, since := s.beat.localBeats }] }
                         draws := u.draws }))
  ∧ (∀ s : State, s.live = true → s.beat.stepsDue = false →
      ((∀ r ∈ s.mgmt.resets, r.waits = true ∨ s.beat.localBeats ≤ r.since) → exec .resetStart s = .next s)
      ∧ (∀ r : ResetReq, s.mgmt.resets = [r] → r.waits = false → r.since < s.beat.localBeats → r.scope = 3 → s.mgmt.deferred = [] →
          s.bist.active = [] → s.bist.restoring = [] → s.bist.run = none → ∃ t, exec .resetStart s = .next t
          ∧ t.memInReset = true ∧ t.mgmt.resets = [] ∧ t.mgmt.lastScope = 3 ∧ t.mgmt.cause = 2 ∧ t.mgmt.setter = r.setter
          ∧ t.mgmt.resetBeat = s.beat.count ∧ t.mem.cells = s.mem.cells ∧ t.mem.allocs = s.mem.allocs ∧ t.mem.slotMap = s.mem.slotMap
          ∧ t.mem.eccLog = [] ∧ t.mem.poison = s.mem.poison ∧ t.pkg.selfRefresh = true ∧ t.ports = s.ports ∧ t.tables = s.tables))
  ∧ ∀ (r : ResetReq) (s : State), s.live = true → s.mgmt.running = [r] →
      (r.scope = 3 → ∃ t, exec .resetEnd s = .next t ∧ t.mgmt.running = [] ∧ t.memInReset = false ∧ t.pkg.selfRefresh = false
        ∧ t.mem = s.mem ∧ t.ports = s.ports)
      ∧ (r.scope = 4 → s.mgmt.markerWait = true →
          (s.markersWait = true → exec .resetEnd s = .next s)
          ∧ ((s.beat.count - r.start).toNat < 16 → exec .resetMarkerWaitExpiry s = .next s)
          ∧ (16 ≤ (s.beat.count - r.start).toNat → s.coll.entry = [] → ∃ t, exec .resetMarkerWaitExpiry s = .next t
            ∧ t.mgmt.markerWait = false ∧ t.coll.sessions = [] ∧ t.coll.stageKib = s.coll.stageKib ∧ t.coll.retain = s.coll.retain
            ∧ t.ports = s.ports ∧ t.mem = s.mem))

/-- In every state in which the management controller takes packets: CMD_TAIL_WRITE sets TAIL and OVERRUN when more commands than
the ring holds are outstanding (R74); PCIE_CMD_FETCH of a full slot, while HEAD lies before TAIL and the ring has room,
queues its packet, marks its reply slot PENDING and advances HEAD, and otherwise changes nothing; REPLY_DONE_WRITE sets DONE;
RING_CFG_WRITE while disabled sets legal sizes and sets CFG_ERR for reserved ones (R73); RING_BASE_WRITE sets a base with its
low bits zero while disabled; IRQ_CFG takes its write and any other BAR0 word ignores it (R71); the holdoff gap ends; a whole
TC7 CMD frame that heads its flow, or passes the ingress just then, from an allowed LP queues its packet, from another it is
counted and dropped (R77). So each of these commands has a next state in every such state, under those conditions alone:
PCIE_CMD_FETCH, CMD_TAIL_WRITE, REPLY_DONE_WRITE, RING_CFG_WRITE, RING_BASE_WRITE, BAR0_WRITE, REPLY_IRQ_HOLDOFF_END,
TC7_CMD_FRAME. (03_command_packets.md.) -/
def Obligations.CommandsReachTheController : Prop :=
  ∀ s : State, Open s →
    (∀ v : Word, exec (.cmdTailWrite v) s = .next { s with ring := { s.ring with
        tail := v.truncate 32, overrun := s.ring.overrun || decide (s.ringSize < ((v.truncate 32 : BitVec 32) - s.ring.done).toNat) } })
    ∧ (∀ b : Bytes, s.mayFetch = true → b.length = slotBytes s.ring.cmdSlot → ∃ t, exec (.pcieCmdFetch b) s = .next t
        ∧ t.ring.head = s.ring.head + 1 ∧ (∃ p, t.mgmt.arrivals = s.mgmt.arrivals ++ [p] ∧ p.pair = 0 ∧ p.index = s.ring.head.toNat
          ∧ p.bytes = slotPacket b)
        ∧ (sget t.ring.slots (s.ring.head.toNat % s.ringSize) defaultSlot).reply.status = stPending
        ∧ t = { s with
            ring := { s.ring with head := t.ring.head, slots := t.ring.slots }, mgmt := { s.mgmt with arrivals := t.mgmt.arrivals } })
    ∧ (∀ b : Bytes, s.mayFetch = false → exec (.pcieCmdFetch b) s = .next s)
    ∧ (∀ v : Word, ∃ t, exec (.replyDoneWrite v) s = .next t ∧ t.ring.done = v.truncate 32
        ∧ (∀ e ∈ t.ring.slots, e.2.reply.status = stPending → e ∈ s.ring.slots)
        ∧ (∀ e ∈ s.ring.slots, s.consumed e.2.index = false → t.consumed e.2.index = true → e.2.reply.status ≠ stPending →
            ∃ e' ∈ t.ring.slots, e'.1 = e.1 ∧ e'.2.reply = { e.2.reply with replayed := true })
        ∧ t = { s with ring := { s.ring with done := t.ring.done, slots := t.ring.slots } })
    ∧ (∀ v : Word, s.ring.enable = false → ∃ t, exec (.ringCfgWrite v) s = .next t
        ∧ t.ring.slotsLog2 = (if 4 ≤ wbits v 3 0 ∧ wbits v 3 0 ≤ 12 then wbits v 3 0 else s.ring.slotsLog2)
        ∧ t.ring.cmdSlot = (if wbits v 9 8 = 3 then s.ring.cmdSlot else wbits v 9 8)
        ∧ t.ring.replySlot = (if wbits v 13 12 = 3 then s.ring.replySlot else wbits v 13 12)
        ∧ (wbits v 3 0 < 4 ∨ 12 < wbits v 3 0 ∨ wbits v 9 8 = 3 ∨ wbits v 13 12 = 3 → t.ring.cfgErr = true ∧ t.ring.enable = false)
        ∧ (s.ring.cfgErr = false → 4 ≤ wbits v 3 0 → wbits v 3 0 ≤ 12 → wbits v 9 8 ≠ 3 → wbits v 13 12 ≠ 3 →
            t.ring.enable = wbit v 31 ∧ t.ring.cfgErr = false)
        ∧ t = { s with ring := { s.ring with
            overrun := t.ring.overrun, cfgErr := t.ring.cfgErr, slotsLog2 := t.ring.slotsLog2, cmdSlot := t.ring.cmdSlot
            replySlot := t.ring.replySlot, enable := t.ring.enable } })
    ∧ (∀ (reply : Bool) (v : Word), ∃ t, exec (.ringBaseWrite reply v) s = .next t
        ∧ t.ring.cmdBase = (if s.ring.enable = false ∧ reply = false then v &&& ~~~(0xFFF : Word) else s.ring.cmdBase)
        ∧ t.ring.replyBase = (if s.ring.enable = false ∧ reply = true then v &&& ~~~(0xFFF : Word) else s.ring.replyBase)
        ∧ (wbits v 11 0 ≠ 0 → t.ring.cfgErr = true)
        ∧ t = { s with ring := { s.ring with cmdBase := t.ring.cmdBase, replyBase := t.ring.replyBase, cfgErr := t.ring.cfgErr } })
    ∧ (∀ (off : BitVec 12) (v : Word), (off ≠ 0x38 → exec (.bar0Write off v) s = .next s)
        ∧ (off = 0x38 → exec (.bar0Write off v) s = .next { s with ring := { s.ring with
            holdoff := BitVec.ofNat 16 (wbits v 31 16), irqEn := wbit v 0 } }))
    ∧ (s.ring.gapRuns = false → exec .replyIrqHoldoffEnd s = .next s)
    ∧ (s.ring.gapRuns = true → s.ring.irqWaits = false → exec .replyIrqHoldoffEnd s = .next { s with ring := { s.ring with gapRuns := false } })
    ∧ (s.ring.gapRuns = true → s.ring.irqWaits = true → s.ring.irqEn = true → ∃ t, exec .replyIrqHoldoffEnd s = .next t
        ∧ t.out = s.out ++ [.msix 0] ∧ t.ring.irqWaits = false ∧ t.ring.gapRuns = decide (s.ring.holdoff ≠ 0))
    ∧ ∀ (lp : Lp) (f : InFrame), s.switchInReset = false → f.hdr.ftype = 7 → f.hdr.tc = 7 → frameGiven f = true →
        ArrivesFirst (.tc7CmdFrame lp false f) lp.val f s ∧ exec (.tc7CmdFrame lp true f) s = .next s
        ∧ ∀ id, HeadsFlow s lp.val false f id → (s.tc7Allowed lp.val = true → ∃ t, exec (.tc7CmdFrame lp false f) s = .next t
          ∧ t.mgmt = { s.mgmt with arrivals := s.mgmt.arrivals ++ [{
              pair := pairOf .tc7 lp.val, index := 0, tooLong := false, bytes := frameData f }] } ∧ t.out = s.out)
        ∧ (s.tc7Allowed lp.val = false → ∃ t, exec (.tc7CmdFrame lp false f) s = .next t ∧ t.mgmt = s.mgmt ∧ t.out = s.out)

/-- In a state with one packet waiting, nothing else due at the command boundary and no command outstanding: COMMAND_DISPATCH
takes the packet and answers BAD_LENGTH when its LENGTH is wrong, else BAD_PARAM at offset 0 for another VERSION, else
DENIED_AUTH for a wrong sender or authentication, each without a tag; a packet outside the sequence window gets its stored
reply again; an accepted SEQ is recorded, and then a source without permission gets BAD_OPCODE, a wrong parameter length
BAD_LENGTH, and an accepted packet whose reserved fields are zero is exactly the row it spells. With no packet waiting
nothing happens. (03_command_packets.md.) -/
def Obligations.DispatchChecksInOrder : Prop :=
  (∀ s : State, Open s → s.beat.stepsDue = false → s.mgmt.resets = [] → s.mgmt.arrivals = [] → exec .commandDispatch s = .next s)
  ∧ ∀ (src : Src) (origin : Nat) (p : Packet) (s u : State) (c : Cmd) (op : BitVec 16), OneArrival s src origin p →
      u = s.takePacket (src, origin) → c = parseCmd src origin p.index p.bytes → op = BitVec.ofNat 16 (pktOpcode p.bytes) →
      u.mgmt.arrivals = [] ∧ u.mgmt.lastSource = src
      ∧ (u.lengthBad src p = true → exec .commandDispatch s =
          .next (u.complete { c with auth := false } op true stBadLength (expectLength op.toNat c.auth) []))
      ∧ (u.lengthBad src p = false → byteField p.bytes 0 1 ≠ 1 → exec .commandDispatch s =
          .next (u.complete { c with auth := false } op true stBadParam 0 []))
      ∧ (u.lengthBad src p = false → byteField p.bytes 0 1 = 1 → senderBad src origin p.bytes = true ∨ u.authBad c p.bytes = true →
          exec .commandDispatch s = .next (u.complete { c with auth := false } op true stDeniedAuth 0 []))
      ∧ (u.lengthBad src p = false → byteField p.bytes 0 1 = 1 → senderBad src origin p.bytes = false → u.authBad c p.bytes = false →
          ∀ (v w : State) (q : Bytes), v = u.seeController src → q = slice p.bytes 32 (p.bytes.length - 32 - 16 * b2n c.auth) →
          w = { v with mgmt := { v.mgmt with lastSeq := sput v.mgmt.lastSeq (pairOf src origin) (some c.seq) none } } →
          (v.inWindow (pairOf src origin) c.seq = false → exec .commandDispatch s = .next (v.replay c op))
          ∧ (v.inWindow (pairOf src origin) c.seq = true →
              (sourceMay op.toNat src q = false → exec .commandDispatch s = .next (w.complete c op true stBadOpcode 0 []))
              ∧ (sourceMay op.toNat src q = true → lengthOk op.toNat q = false →
                  exec .commandDispatch s = .next (w.complete c op true stBadLength (expectLength op.toNat c.auth) []))
              ∧ (sourceMay op.toNat src q = true → lengthOk op.toNat q = true → ∀ i : Instr, parseParams c op.toNat q = some (.row i) →
                  hdrReserved p.bytes = none → paramReserved op.toNat q = none → packetOf i ≠ none →
                  (w.paramError i = none → exec .commandDispatch s = exec i w)
                  ∧ ∀ off, w.paramError i = some off → exec .commandDispatch s = .next (w.complete c op true stBadParam off []))))

/-- In every state in which the management controller takes packets: I3C_COMMAND with XFER 1 queues its packet and a PENDING
place when a place of the store is free of unread replies, and is not acknowledged when all eight hold one (R70); a reserved
XFER is counted in XFER_ERRS; I3C_SELECT and I3C_SEQ_QUERY arm the next read, which returns the place of that SEQ, SEQ_STATE,
or the oldest unread place, or is not acknowledged (R78, R429); the address codes set and clear the dynamic address, SETMWL
and SETMRL change nothing, the GET codes answer their bytes, ENEC, DISEC and RSTACT act on the in-band interrupt and the
target (R428); a due interrupt is raised when it is enabled and 16 beats have passed (R430); BMC_ABSENT is set after
WDOG_BEATS boundaries (R437). So each of these I3C commands has a next state in every such state. (15_sideband.md,
03_command_packets.md.) -/
def Obligations.I3cTransfersAreAnswered : Prop :=
  ∀ s : State, Open s →
    (∀ b : Bytes, (s.unread 1 < 8 → ∃ t, exec (.i3cCommand 1 b) s = .next t ∧ t.out = s.out ++ [.i3cAck]
          ∧ t.mgmt.arrivals = s.mgmt.arrivals ++ [{ pair := 1, index := 0, tooLong := false, bytes := b }]
          ∧ (∃ e ∈ t.mgmt.stores, e.pair = 1 ∧ e.read = false ∧ e.reply = packetPending .i3c 0 0 b)
          ∧ t = { s with out := t.out, mgmt := { s.mgmt with arrivals := t.mgmt.arrivals, stores := t.mgmt.stores } })
        ∧ (8 ≤ s.unread 1 → exec (.i3cCommand 1 b) s = .next { s with out := s.out ++ [.i3cNack] })
        ∧ ∀ x : Byte, x ≠ 1 → x ≠ 2 → x ≠ 3 → s.unread 1 < 8 → exec (.i3cCommand x b) s = .next { s with
            side := { s.side with xferErrs := satAdd 0xFF s.side.xferErrs 1 }, out := s.out ++ [.i3cAck] })
    ∧ (s.unread 1 < 8 → (∀ q : BitVec 32, exec (.i3cSelect q) s = .next { s with
            mgmt := { s.mgmt with i3cSelect := some q, i3cQuery := false }, out := s.out ++ [.i3cAck] })
        ∧ exec .i3cSeqQuery s = .next { s with mgmt := { s.mgmt with i3cQuery := true }, out := s.out ++ [.i3cAck] })
    ∧ (s.mgmt.i3cQuery = true → ∀ early, exec (.i3cPrivateRead early) s = .next { s with
          mgmt := { s.mgmt with i3cQuery := false }, out := s.out ++ [.i3cBytes (s.seqState 1)] })
    ∧ (s.mgmt.i3cQuery = false →
        (s.mgmt.i3cSelect = none → s.oldestUnread 1 = none → ∀ early, exec (.i3cPrivateRead early) s = .next { s with out := s.out ++ [.i3cNack] })
        ∧ (∀ x, s.mgmt.i3cSelect = none → s.oldestUnread 1 = some x → x.reply.status ≠ stPending →
            (∃ t, exec (.i3cPrivateRead false) s = .next t ∧ t.out = s.out ++ [.i3cReply x.reply]
              ∧ t.mgmt.stores = markRead x s.mgmt.stores ∧ t.unread 1 + 1 = s.unread 1)
            ∧ exec (.i3cPrivateRead true) s = .next { s with out := s.out ++ [.i3cReply x.reply] })
        ∧ ∀ q x, s.mgmt.i3cSelect = some q → s.selected 1 q = some x → x.reply.status ≠ stPending →
            ∃ t, exec (.i3cPrivateRead false) s = .next t ∧ t.mgmt.i3cSelect = none ∧ x.reply.cmd.seq = q
              ∧ t.out = s.out ++ [.i3cReply { x.reply with replayed := true }])
    ∧ (∀ a : BitVec 7, exec (.entdaa a) s = .next (if s.side.dynAddr = 0 then { s with side := { s.side with dynAddr := a } } else s)
        ∧ exec (.setdasa s.side.staticAddr a) s = .next (if s.side.dynAddr = 0 then { s with side := { s.side with dynAddr := a } } else s)
        ∧ ∀ b, b ≠ s.side.staticAddr → exec (.setdasa b a) s = .next s)
    ∧ exec .rstdaa s = .next { s with side := { s.side with dynAddr := 0 } }
    ∧ (∀ n, exec (.setmwl n) s = .next s ∧ exec (.setmrl n) s = .next s)
    ∧ exec .getmwl s = .next { s with out := s.out ++ [.i3cBytes [0x10, 0x01]] }
    ∧ exec .getmrl s = .next { s with out := s.out ++ [.i3cBytes [0x10, 0x00]] }
    ∧ (∃ b, b.length = 6 ∧ leNat b.reverse % 65536 = Config.serial.toNat % 65536 ∧ leNat b.reverse / 65536 % 65536 = 0x6412
        ∧ exec .getpid s = .next { s with out := s.out ++ [.i3cBytes b] })
    ∧ (∃ b, exec .getbcr s = .next { s with out := s.out ++ [.i3cBytes [b]] })
    ∧ (∃ b, exec .getdcr s = .next { s with out := s.out ++ [.i3cBytes [b]] })
    ∧ (∃ b, b.length = 2 ∧ exec .getstatus s = .next { s with draws := s.draws + 1, out := s.out ++ [.i3cBytes b] })
    ∧ exec .disec s = .next { s with side := { s.side with ibiOn := false } }
    ∧ (s.side.ibiDue = false ∨ s.side.sinceIbi < 16 → exec .enec s = .next { s with side := { s.side with ibiOn := true } }
        ∧ exec .ibiRaise s = .next s)
    ∧ (s.side.ibiDue = true → 16 ≤ s.side.sinceIbi →
        exec .enec s = .next { s with
          side := { s.side with ibiOn := true, ibiDue := false, sinceIbi := 0 }, out := s.out ++ [.ibi s.side.attn] }
        ∧ (s.side.ibiOn = false → exec .ibiRaise s = .next s)
        ∧ (s.side.ibiOn = true → exec .ibiRaise s = .next { s with
            side := { s.side with ibiDue := false, sinceIbi := 0 }, out := s.out ++ [.ibi s.side.attn] }))
    ∧ (∀ a : Byte, exec (.rstact a) s = .next { s with
          mgmt := { s.mgmt with i3cSelect := none, i3cQuery := false }
          side := { s.side with
            dynAddr := if a = 2 then 0 else s.side.dynAddr, ibiOn := if a = 2 then true else s.side.ibiOn } })
    ∧ ((s.side.wdogBeats = 0 ∨ s.side.wdogCount ≤ s.side.wdogBeats ∨ s.side.bmcAbsent = true) → exec .bmcAbsent s = .next s)
    ∧ (s.side.wdogBeats ≠ 0 → s.side.wdogBeats < s.side.wdogCount → s.side.bmcAbsent = false → exec .bmcAbsent s = .next { s with
        side := { s.side with bmcAbsent := true, absentSeen := true } })

/-- In every state in which the management controller takes packets, for a chain frame whose HOPS have not run out, each frame
leaves with one more hop and the module's attention (R424): CMD for the module queues its packet and sets ACCEPTED, or sets
BUSY when the store or the controller is full; SELECT records a SEQ the store holds; READ answers the selected or the oldest
unread place; SEQ_QUERY answers SEQ_STATE (R423); POLL and frames for others pass; ENUM SURVEY shows the module's address,
ASSIGN gives one its lowest free address and FABRIC_ID, COMMIT makes the lowest used address root, CLEAR takes addresses back
while every port is disabled and is refused otherwise (R426). A frame with 32 hops is discarded; what the wire carries is the
frame whose start byte, header, payload and CRC it is, after at least 16 idle bits, and anything else is counted, whichever of
these commands it comes with; CHAIN_LOST sets its flag (R421). So each of these commands has a next state in every such state:
SB_CMD, SB_SELECT, SB_READ, SB_SEQ_QUERY, SB_POLL, SB_FRAME_FORWARD, SB_FRAME_DISCARD, CHAIN_LOST, SB_ENUM_SURVEY,
SB_ENUM_ASSIGN, SB_ENUM_COMMIT, SB_ENUM_CLEAR. (15_sideband.md, 03_command_packets.md.) -/
def Obligations.ChainFramesAreTakenAndSentOn : Prop :=
  (∀ s : State, Open s →
    (∀ (i : Instr) (x : SbWire), sbFrame x = none →
      i = .sbFrameDiscard ∨ i ∈ [.sbCmd x, .sbSelect x, .sbRead x, .sbSeqQuery x, .sbPoll x, .sbFrameForward x, .sbEnumSurvey x,
        .sbEnumAssign x, .sbEnumCommit x, .sbEnumClear x] →
      exec i s = .next { s with side := { s.side with frameErrs := satAdd 0xFFFF s.side.frameErrs 1 } })
    ∧ (∀ f : SbFrame, f.payload.length ≤ 512 → ∀ idle, sbFrame { idle := idle, bytes := sbWire f } = if 16 ≤ idle then some f else none)
    ∧ exec .chainLost s = .next { s with side := { s.side with chainLost := true } }
    ∧ ∀ (x : SbWire) (f : SbFrame), sbFrame x = some f →
      (32 ≤ f.hops.toNat → exec (.sbCmd x) s = .next s ∧ exec (.sbSelect x) s = .next s ∧ exec (.sbRead x) s = .next s
        ∧ exec (.sbSeqQuery x) s = .next s ∧ exec (.sbPoll x) s = .next s ∧ exec (.sbFrameForward x) s = .next s
        ∧ exec (.sbEnumSurvey x) s = .next s ∧ exec (.sbEnumAssign x) s = .next s ∧ exec (.sbEnumCommit x) s = .next s
        ∧ exec (.sbEnumClear x) s = .next s)
      ∧ (f.hops.toNat < 32 →
        (s.cmdMine f = true →
          (16 ≤ s.deferredOf 2 ∨ 4 ≤ s.unread 2 → exec (.sbCmd x) s = .next { s with
            out := s.out ++ [chainOut { hopped s f with flags := (hopped s f).flags ||| 2 }] })
          ∧ (s.deferredOf 2 < 16 → s.unread 2 < 4 → ∃ t, exec (.sbCmd x) s = .next t
            ∧ t.out = s.out ++ [chainOut { hopped s f with flags := (hopped s f).flags ||| 1 }]
            ∧ t.mgmt.arrivals = s.mgmt.arrivals ++ [{ pair := 2, index := 0, tooLong := false, bytes := f.payload }]
            ∧ t = { s with out := t.out, mgmt := { s.mgmt with arrivals := t.mgmt.arrivals, stores := t.mgmt.stores } }))
        ∧ (f.ftype = 4 → s.addressed f = true → ∀ q : BitVec 32, q = BitVec.ofNat 32 (byteField f.payload 0 4) →
            exec (.sbSelect x) s = .next { s with
              mgmt := { s.mgmt with sbSelect := if (s.selected 2 q).isSome = true then some q else none }
              out := s.out ++ [chainOut { hopped s f with
                flags := (hopped s f).flags ||| (if (s.selected 2 q).isSome = true then 1 else 4) }] })
        ∧ (f.ftype = 3 → s.addressed f = true →
            (s.sbNext = none → exec (.sbRead x) s = .next { s with
              mgmt := { s.mgmt with sbSelect := none }
              out := s.out ++ [chainReply { hopped s f with ftype := 5, flags := 0, payload := [] } none] })
            ∧ ∀ y again, s.sbNext = some (y, again) → ∃ t, exec (.sbRead x) s = .next t ∧ t.mgmt.sbSelect = none
              ∧ t.out = s.out ++ [chainReply { hopped s f with
                  ftype := 5, flags := 0, payload := replyBytes false (readReply y again) } (some (readReply y again))]
              ∧ t.mgmt.stores = (if y.reply.status = stPending then s.mgmt.stores else markRead y s.mgmt.stores))
        ∧ (f.ftype = 6 → s.addressed f = true → exec (.sbSeqQuery x) s = .next { s with
            out := s.out ++ [chainOut { hopped s f with ftype := 7, flags := 0, payload := s.seqState 2 }] })
        ∧ (f.ftype = 8 → exec (.sbPoll x) s = .next { s with out := s.out ++ [chainOut (hopped s f)] })
        ∧ ((f.ftype = 2 ∧ s.cmdMine f = false) ∨ ((f.ftype = 3 ∨ f.ftype = 4 ∨ f.ftype = 6) ∧ s.addressed f = false)
            ∨ f.ftype = 5 ∨ f.ftype = 7 → exec (.sbFrameForward x) s = .next { s with out := s.out ++ [chainOut (hopped s f)] })
        ∧ (f.ftype = 0 ∨ 8 < f.ftype.toNat → exec (.sbFrameForward x) s = .next { s with
            side := { s.side with frameErrs := satAdd 0xFFFF s.side.frameErrs 1 }, out := s.out ++ [chainOut f] })))
  ∧ ∀ (x : SbWire) (f : SbFrame) (e : EnumFields) (s : State), Open s → sbFrame x = some f → f.hops.toNat < 32 → f.ftype = 1 → f.payload.length = 16 →
      e = { enumFields f.payload with count := ((enumFields f.payload).count + 1) % 256 } →
      (enumMode f = 0 → exec (.sbEnumSurvey x) s = .next { s with out := s.out ++ [chainOut { hopped s f with
          payload := enumBytes 0 { e with used := setAddr e.used s.side.chainAddr } }] })
      ∧ (enumMode f = 1 →
          (s.side.chainAddr ≠ 0xFF ∨ assignAddr e = none → exec (.sbEnumAssign x) s = .next { s with
            out := s.out ++ [chainOut { hopped s f with payload := enumBytes 1 e }] })
          ∧ ∀ a, s.side.chainAddr = 0xFF → assignAddr e = some a → a < 32 ∧ bitAt e.used a = false ∧ ∃ t, exec (.sbEnumAssign x) s = .next t
              ∧ t.side.chainAddr = BitVec.ofNat 8 a ∧ t.side.fabricId = BitVec.ofNat 16 (e.base + a)
              ∧ t.out = s.out ++ [chainOut { hopped s f with
                  payload := enumBytes 1 { e with used := e.used ||| (1 <<< a), new := e.new ||| (1 <<< a) } }]
              ∧ t = { s with side := { s.side with chainAddr := t.side.chainAddr, fabricId := t.side.fabricId }, out := t.out })
      ∧ (enumMode f = 2 → ∃ t, exec (.sbEnumCommit x) s = .next t
          ∧ t.out = s.out ++ [chainOut { hopped s f with payload := enumBytes 2 e }]
          ∧ (s.side.chainAddr = 0xFF ∨ s.beat.rootAddr ≠ 0xFF → t.beat = s.beat)
          ∧ (∀ a, s.side.chainAddr ≠ 0xFF → s.beat.rootAddr = 0xFF → firstBelow 32 (fun a => bitAt e.used a) = some a →
              t.beat.rootAddr = BitVec.ofNat 8 a ∧ t.beat.rootNext = decide (s.side.chainAddr = BitVec.ofNat 8 a))
          ∧ t = { s with beat := { s.beat with rootAddr := t.beat.rootAddr, rootNext := t.beat.rootNext }, out := t.out })
      ∧ (enumMode f = 3 → ∃ t, exec (.sbEnumClear x) s = .next t
          ∧ (s.allDisabled = true → t.side.chainAddr = 0xFF ∧ t.side.fabricId = 0xFFFF
              ∧ t.out = s.out ++ [chainOut { hopped s f with payload := enumBytes 3 e }])
          ∧ (s.allDisabled = false → t.side = { s.side with clearRefused := true } ∧ t.beat = s.beat
              ∧ t.out = s.out ++ [chainOut { hopped s f with payload := enumBytes 3 { e with
                  used := setAddr e.used s.side.chainAddr, refused := setAddr e.refused s.side.chainAddr } }]))

/-- While management is ready: CART_PRES_CHANGE of a bus none of whose ports is enabled records the seat and flags each port
whose presence changed (R433) and has its pages read again before the next attempt where it was lost (R435); MMB_INT,
PRESENCE_POLL and MMB_RETRY select page 0 and read CABLES of a seated bus (RETRY under BUS_FAULT only, the others without)
and count the transfer, or a NAK that leaves CABLES; the third MMB_TRANSFER_TIMEOUT in a row sets BUS_FAULT; RETIMER_POLL of
a port without a re-timer does nothing, and of one unreachable re-timer sets RT_FAULT (R435); CART_IDENTITY_READ before an
attempt takes the identity when both CRCs hold and clears it otherwise, and the attempt then needs no other read (R434,
R435). So each of these commands has a next state under those conditions: CART_PRES_CHANGE, MMB_INT, PRESENCE_POLL,
MMB_RETRY, MMB_TRANSFER_TIMEOUT, RETIMER_POLL, CART_IDENTITY_READ. (15_sideband.md, 10_lanes_line_code.md,
11_link_bringup.md.) -/
def Obligations.CartridgesAreFollowed : Prop :=
  (∀ (bus : Fin 8) (s : State), s.live = true → (∀ k, k < 8 → (s.port (8 * bus.val + k)).enabled = false) →
    (∀ seated : Bool, ∃ t, exec (.cartPresChange bus seated) s = .next t ∧ t.mmb bus.val = { s.mmb bus.val with seated := seated }
      ∧ (∀ k, k < 8 → (bitAt t.side.presChange.toNat (8 * bus.val + k) = true ↔ bitAt s.side.presChange.toNat (8 * bus.val + k) = true
          ∨ s.present (8 * bus.val + k) ≠ t.present (8 * bus.val + k)))
      ∧ OnlyStale s t ∧ t = { s with ports := t.ports, side := { s.side with
          mmb := t.side.mmb, presChange := t.side.presChange, attn := t.side.attn, ibiDue := t.side.ibiDue } })
    ∧ (∀ (v : Option Byte) (i : Instr), (s.mmb bus.val).seated = true →
        ((i = .mmbInt bus v ∨ i = .presencePoll bus v) ∧ (s.mmb bus.val).busFault = false
          ∨ i = .mmbRetry bus v ∧ (s.mmb bus.val).busFault = true) →
        ∃ t, exec i s = .next t ∧ t.out = s.out ++ [.mmbWrite bus.val 0x50 0x7F 0, .mmbRead bus.val 0x50 0 3 1]
          ∧ t.mmb bus.val = (match v with
              | some b => { s.mmb bus.val with
                  cables := b, transfers := satAdd 0xFFFF (s.mmb bus.val).transfers 1, timeouts := 0 }
              | none => { s.mmb bus.val with naks := satAdd 0xFFFF (s.mmb bus.val).naks 1, timeouts := 0 })
          ∧ OnlyStale s t ∧ t = { s with ports := t.ports, out := t.out, side := { s.side with
              mmb := t.side.mmb, presChange := t.side.presChange, attn := t.side.attn, ibiDue := t.side.ibiDue } })
    ∧ ((s.mmb bus.val).busFault = false → ∀ v, exec (.mmbRetry bus v) s = .next s)
    ∧ (s.mgmt.deferred = [] → ∃ t, exec (.mmbTransferTimeout bus) s = .next t ∧ t.out = s.out ++ [.mmbClear bus.val]
        ∧ (t.mmb bus.val).timeouts = min 3 ((s.mmb bus.val).timeouts + 1)
        ∧ ((t.mmb bus.val).busFault = true ↔ (s.mmb bus.val).busFault = true ∨ 2 ≤ (s.mmb bus.val).timeouts)))
  ∧ ∀ (port : Port) (n : Nat) (s : State), s.live = true → n = port.val →
      (∀ l, (s.port n).anyUp = false ∨ (s.port n).retimers = none → exec (.retimerPoll port l) s = .next s)
      ∧ (∀ (page : Bytes), (s.port n).anyUp = true → (s.port n).retimers = some (page, 1) → ∃ t,
          exec (.retimerPoll port [none]) s = .next t ∧ (t.mmb (n / 8)).rtFault = true
          ∧ (t.mmb (n / 8)).naks = satAdd 0xFFFF (s.mmb (n / 8)).naks 1
          ∧ t.out = s.out ++ [.mmbRead (n / 8) (byteField page 4 1) 0xFF (byteField page 8 1) 1] ∧ t.ports = s.ports)
      ∧ (∀ (page0 page : Option Bytes) (acks : List Bool), (s.port n).enabled = false → (s.port n).split = false → (s.port n).a.st = .disabled →
          (s.port n).a.readOwed = false → (s.port n).a.rtOwed = false → s.mgmt.deferred = [] →
          (∀ k, k < 8 → (s.port (8 * (n / 8) + k)).enabled = false) → (s.mmb (n / 8)).seated = true →
          (∀ b, page = some b → byteField b 3 1 = 0) → ∃ t, exec (.cartIdentityRead port page0 page acks) s = .next t
          ∧ (∀ a b, page0 = some a → page = some b → identityValid a b = true → (t.port n).cartValid = true
              ∧ (t.port n).cartMedia = byteField b 0 1 ∧ (t.port n).cartClass = byteField b 1 1 ∧ (t.port n).cartLen = byteField b 2 1)
          ∧ ((page0 = none ∨ page = none ∨ ∃ a b, page0 = some a ∧ page = some b ∧ identityValid a b = false) →
              (t.port n).cartValid = false ∧ (t.port n).cartMedia = 0 ∧ (t.port n).cable = none)
          ∧ (t.port n).a.identFresh = true
          ∧ ∀ k, k ≠ n → t.port k = if s.present k = true ∧ t.present k = false then identityStale (s.port k) else s.port k)
end

