-- ==== Sys2Proof/Laws/Maps.lean ====
section
/-! SUPPORT. Sparse maps and the memory's canonical form: what a read after a write gives, and that writes keep the keys rising. -/

namespace Sys2Proof.Machine

/-! ## Rising keys -/

theorem risingFrom_iff {α : Type} (lo : Nat) (m : SMap α) :
    risingFrom lo m = true ↔ (∀ e ∈ m, lo ≤ e.1) ∧ m.Pairwise (fun a b => a.1 < b.1) := by
  induction m generalizing lo with
  | nil => simp [risingFrom]
  | cons e r ih =>
    obtain ⟨k, v⟩ := e
    simp only [risingFrom, Bool.and_eq_true, decide_eq_true_eq, ih, List.mem_cons, List.pairwise_cons]
    constructor
    · rintro ⟨h1, h2, h3⟩
      exact ⟨fun e he => he.elim (fun q => q ▸ h1) (fun q => by have := h2 e q; omega), fun e he => h2 e he, h3⟩
    · rintro ⟨h1, h2, h3⟩
      exact ⟨h1 (k, v) (Or.inl rfl), fun e he => h2 e he, h3⟩

theorem rising_iff {α : Type} (m : SMap α) : rising m = true ↔ m.Pairwise (fun a b => a.1 < b.1) := by
  unfold rising
  rw [risingFrom_iff]
  exact ⟨fun h => h.2, fun h => ⟨fun _ _ => Nat.zero_le _, h⟩⟩

/-! ## Reads after writes -/

theorem sget_splace_same {α : Type} (m : SMap α) (k : Nat) (v d : α) : sget (splace m k v) k d = v := by
  induction m with
  | nil => simp [splace, sget]
  | cons e r ih =>
    unfold splace
    split
    · simp [sget]
    · split
      · simp [sget]
      · rename_i ne
        simp only [sget, if_neg (Ne.symm ne), ih]

theorem sget_splace_other {α : Type} (m : SMap α) {k k' : Nat} (v d : α) (ne : k' ≠ k) :
    sget (splace m k v) k' d = sget m k' d := by
  induction m with
  | nil => simp [splace, sget, Ne.symm ne]
  | cons e r ih =>
    unfold splace
    split
    · simp only [sget, if_neg (Ne.symm ne)]
    · split
      · rename_i q
        simp only [sget, ← q, if_neg (Ne.symm ne)]
      · simp only [sget, ih]

theorem sget_serase_same {α : Type} (m : SMap α) (k : Nat) (d : α) : sget (serase m k) k d = d := by
  induction m with
  | nil => rfl
  | cons e r ih =>
    obtain ⟨a, b⟩ := e
    by_cases q : a = k
    · simpa [serase, q] using ih
    · simpa [serase, q, sget] using ih

theorem sget_serase_other {α : Type} (m : SMap α) {k k' : Nat} (d : α) (ne : k' ≠ k) : sget (serase m k) k' d = sget m k' d := by
  induction m with
  | nil => rfl
  | cons e r ih =>
    obtain ⟨a, b⟩ := e
    by_cases q : a = k
    · simpa [serase, q, sget, Ne.symm ne] using ih
    · simp only [serase, List.filter, bne_iff_ne, ne_eq, q, not_false_eq_true, sget] at ih ⊢
      rw [show (a != k) = true from bne_iff_ne.mpr q]
      simp only [sget, ih]

/-- What is written at a key is what a read of that key gives. -/
theorem sget_sput_same {α : Type} [DecidableEq α] (m : SMap α) (k : Nat) (v d : α) : sget (sput m k v d) k d = v := by
  unfold sput
  split
  · rename_i e
    rw [e]
    exact sget_serase_same m k d
  · exact sget_splace_same m k v d

/-- A write leaves every other key alone. -/
theorem sget_sput_other {α : Type} [DecidableEq α] (m : SMap α) {k k' : Nat} (v d d' : α) (ne : k' ≠ k) :
    sget (sput m k v d) k' d' = sget m k' d' := by
  unfold sput
  split
  · exact sget_serase_other m d' ne
  · exact sget_splace_other m v d' ne

theorem mem_splace {α : Type} {m : SMap α} {k : Nat} {v : α} {e : Nat × α} (h : e ∈ splace m k v) : e ∈ m ∨ e = (k, v) := by
  induction m with
  | nil => exact Or.inr (List.mem_singleton.mp h)
  | cons x r ih =>
    unfold splace at h
    split at h
    · rcases List.mem_cons.mp h with q | q
      · exact Or.inr q
      · exact Or.inl q
    · split at h
      · rcases List.mem_cons.mp h with q | q
        · exact Or.inr q
        · exact Or.inl (List.mem_cons_of_mem _ q)
      · rcases List.mem_cons.mp h with q | q
        · exact Or.inl (q ▸ List.mem_cons_self)
        · exact (ih q).elim (fun z => Or.inl (List.mem_cons_of_mem _ z)) Or.inr

/-- A write keeps the keys rising. -/
theorem rising_sput {α : Type} [DecidableEq α] {m : SMap α} (k : Nat) (v d : α) (h : rising m = true) :
    rising (sput m k v d) = true := by
  rw [rising_iff] at h ⊢
  unfold sput
  split
  · exact h.filter _
  · induction m with
    | nil => simp [splace]
    | cons x r ih =>
      obtain ⟨a, b⟩ := x
      have hc := h
      rw [List.pairwise_cons] at hc
      unfold splace
      split
      · rename_i lt
        refine List.pairwise_cons.mpr ⟨fun e he => ?_, h⟩
        rcases List.mem_cons.mp he with q | q
        · rw [q]; exact lt
        · exact Nat.lt_trans lt (hc.1 e q)
      · split
        · rename_i q
          exact List.pairwise_cons.mpr ⟨fun e he => q ▸ hc.1 e he, hc.2⟩
        · refine List.pairwise_cons.mpr ⟨fun e he => ?_, ih hc.2⟩
          rcases mem_splace he with q | q
          · exact hc.1 e q
          · rw [q]
            show a < k
            omega

/-! ## The fabric memory -/

theorem zipCells_mem {off n : Nat} {b : Bytes} {c : Host.Cell}
    (h : c ∈ (List.range n).zipWith (fun k x => (off + k, x)) b) : off ≤ c.1 ∧ c.1 < off + n := by
  obtain ⟨i, hi, rfl⟩ := List.getElem_of_mem h
  rw [List.getElem_zipWith]
  rw [List.length_zipWith, List.length_range] at hi
  simp only [List.getElem_range]
  omega

theorem zipCells_pairwise (off n : Nat) (b : Bytes) :
    ((List.range n).zipWith (fun k x => ((off + k, x) : Host.Cell)) b).Pairwise (fun a c => a.1 < c.1) := by
  rw [List.pairwise_iff_getElem]
  intro i j hi hj hij
  simp only [List.getElem_zipWith, List.getElem_range]
  omega

/-- A write of bytes keeps the memory's canonical form. -/
theorem putCells_wf {l : List Host.Cell} (off : Nat) (b : Bytes) (h : Memory.wf l = true) : Memory.wf (putCells l off b) = true := by
  unfold Memory.wf at *
  rw [rising_iff] at h ⊢
  unfold putCells
  rw [List.pairwise_append, List.pairwise_append]
  refine ⟨⟨h.filter _, zipCells_pairwise _ _ _, ?_⟩, h.filter _, ?_⟩
  · intro x hx y hy
    have a := (List.mem_filter.mp hx).2
    have c := zipCells_mem hy
    simp only [decide_eq_true_eq] at a
    omega
  · intro x hx y hy
    have c := (List.mem_filter.mp hy).2
    simp only [decide_eq_true_eq] at c
    rcases List.mem_append.mp hx with q | q
    · have a := (List.mem_filter.mp q).2
      simp only [decide_eq_true_eq] at a
      omega
    · have a := zipCells_mem q
      omega

/-- The memory at reset is in canonical form. -/
theorem reset_mem_wf : Memory.wf State.reset.mem.cells = true := rfl

end Sys2Proof.Machine
end

