-- ==== Sys2Proof/Laws/State.lean ====
section
/-! SUPPORT. What the named updates of the state leave alone, field by field, and what a read after a write gives. -/

namespace Sys2Proof.Machine

/-! State.setPort -/

@[simp] theorem State.setPort_pkg (s : State) (n : Nat) (p : PortSt) :
    (s.setPort n p).pkg = s.pkg := rfl
@[simp] theorem State.setPort_beat (s : State) (n : Nat) (p : PortSt) :
    (s.setPort n p).beat = s.beat := rfl
@[simp] theorem State.setPort_agenda (s : State) (n : Nat) (p : PortSt) :
    (s.setPort n p).agenda = s.agenda := rfl
@[simp] theorem State.setPort_mgmt (s : State) (n : Nat) (p : PortSt) :
    (s.setPort n p).mgmt = s.mgmt := rfl
@[simp] theorem State.setPort_ring (s : State) (n : Nat) (p : PortSt) :
    (s.setPort n p).ring = s.ring := rfl
@[simp] theorem State.setPort_tables (s : State) (n : Nat) (p : PortSt) :
    (s.setPort n p).tables = s.tables := rfl
@[simp] theorem State.setPort_sw (s : State) (n : Nat) (p : PortSt) :
    (s.setPort n p).sw = s.sw := rfl
@[simp] theorem State.setPort_recov (s : State) (n : Nat) (p : PortSt) :
    (s.setPort n p).recov = s.recov := rfl
@[simp] theorem State.setPort_mem (s : State) (n : Nat) (p : PortSt) :
    (s.setPort n p).mem = s.mem := rfl
@[simp] theorem State.setPort_coll (s : State) (n : Nat) (p : PortSt) :
    (s.setPort n p).coll = s.coll := rfl
@[simp] theorem State.setPort_power (s : State) (n : Nat) (p : PortSt) :
    (s.setPort n p).power = s.power := rfl
@[simp] theorem State.setPort_bist (s : State) (n : Nat) (p : PortSt) :
    (s.setPort n p).bist = s.bist := rfl
@[simp] theorem State.setPort_ctr (s : State) (n : Nat) (p : PortSt) :
    (s.setPort n p).ctr = s.ctr := rfl
@[simp] theorem State.setPort_side (s : State) (n : Nat) (p : PortSt) :
    (s.setPort n p).side = s.side := rfl
@[simp] theorem State.setPort_out (s : State) (n : Nat) (p : PortSt) :
    (s.setPort n p).out = s.out := rfl
@[simp] theorem State.setPort_draws (s : State) (n : Nat) (p : PortSt) :
    (s.setPort n p).draws = s.draws := rfl
@[simp] theorem State.setPort_pending (s : State) (n : Nat) (p : PortSt) :
    (s.setPort n p).pending = s.pending := rfl

/-! State.setKey -/

@[simp] theorem State.setKey_pkg (s : State) (n : Nat) (k : KeySlot) :
    (s.setKey n k).pkg = s.pkg := rfl
@[simp] theorem State.setKey_beat (s : State) (n : Nat) (k : KeySlot) :
    (s.setKey n k).beat = s.beat := rfl
@[simp] theorem State.setKey_agenda (s : State) (n : Nat) (k : KeySlot) :
    (s.setKey n k).agenda = s.agenda := rfl
@[simp] theorem State.setKey_ring (s : State) (n : Nat) (k : KeySlot) :
    (s.setKey n k).ring = s.ring := rfl
@[simp] theorem State.setKey_tables (s : State) (n : Nat) (k : KeySlot) :
    (s.setKey n k).tables = s.tables := rfl
@[simp] theorem State.setKey_sw (s : State) (n : Nat) (k : KeySlot) :
    (s.setKey n k).sw = s.sw := rfl
@[simp] theorem State.setKey_recov (s : State) (n : Nat) (k : KeySlot) :
    (s.setKey n k).recov = s.recov := rfl
@[simp] theorem State.setKey_mem (s : State) (n : Nat) (k : KeySlot) :
    (s.setKey n k).mem = s.mem := rfl
@[simp] theorem State.setKey_coll (s : State) (n : Nat) (k : KeySlot) :
    (s.setKey n k).coll = s.coll := rfl
@[simp] theorem State.setKey_ports (s : State) (n : Nat) (k : KeySlot) :
    (s.setKey n k).ports = s.ports := rfl
@[simp] theorem State.setKey_power (s : State) (n : Nat) (k : KeySlot) :
    (s.setKey n k).power = s.power := rfl
@[simp] theorem State.setKey_bist (s : State) (n : Nat) (k : KeySlot) :
    (s.setKey n k).bist = s.bist := rfl
@[simp] theorem State.setKey_ctr (s : State) (n : Nat) (k : KeySlot) :
    (s.setKey n k).ctr = s.ctr := rfl
@[simp] theorem State.setKey_side (s : State) (n : Nat) (k : KeySlot) :
    (s.setKey n k).side = s.side := rfl
@[simp] theorem State.setKey_out (s : State) (n : Nat) (k : KeySlot) :
    (s.setKey n k).out = s.out := rfl
@[simp] theorem State.setKey_draws (s : State) (n : Nat) (k : KeySlot) :
    (s.setKey n k).draws = s.draws := rfl
@[simp] theorem State.setKey_pending (s : State) (n : Nat) (k : KeySlot) :
    (s.setKey n k).pending = s.pending := rfl

/-! State.setAgEntry -/

@[simp] theorem State.setAgEntry_pkg (s : State) (e : Nat) (x : AgEntry) :
    (s.setAgEntry e x).pkg = s.pkg := rfl
@[simp] theorem State.setAgEntry_beat (s : State) (e : Nat) (x : AgEntry) :
    (s.setAgEntry e x).beat = s.beat := rfl
@[simp] theorem State.setAgEntry_mgmt (s : State) (e : Nat) (x : AgEntry) :
    (s.setAgEntry e x).mgmt = s.mgmt := rfl
@[simp] theorem State.setAgEntry_ring (s : State) (e : Nat) (x : AgEntry) :
    (s.setAgEntry e x).ring = s.ring := rfl
@[simp] theorem State.setAgEntry_tables (s : State) (e : Nat) (x : AgEntry) :
    (s.setAgEntry e x).tables = s.tables := rfl
@[simp] theorem State.setAgEntry_sw (s : State) (e : Nat) (x : AgEntry) :
    (s.setAgEntry e x).sw = s.sw := rfl
@[simp] theorem State.setAgEntry_recov (s : State) (e : Nat) (x : AgEntry) :
    (s.setAgEntry e x).recov = s.recov := rfl
@[simp] theorem State.setAgEntry_mem (s : State) (e : Nat) (x : AgEntry) :
    (s.setAgEntry e x).mem = s.mem := rfl
@[simp] theorem State.setAgEntry_coll (s : State) (e : Nat) (x : AgEntry) :
    (s.setAgEntry e x).coll = s.coll := rfl
@[simp] theorem State.setAgEntry_ports (s : State) (e : Nat) (x : AgEntry) :
    (s.setAgEntry e x).ports = s.ports := rfl
@[simp] theorem State.setAgEntry_power (s : State) (e : Nat) (x : AgEntry) :
    (s.setAgEntry e x).power = s.power := rfl
@[simp] theorem State.setAgEntry_bist (s : State) (e : Nat) (x : AgEntry) :
    (s.setAgEntry e x).bist = s.bist := rfl
@[simp] theorem State.setAgEntry_ctr (s : State) (e : Nat) (x : AgEntry) :
    (s.setAgEntry e x).ctr = s.ctr := rfl
@[simp] theorem State.setAgEntry_side (s : State) (e : Nat) (x : AgEntry) :
    (s.setAgEntry e x).side = s.side := rfl
@[simp] theorem State.setAgEntry_out (s : State) (e : Nat) (x : AgEntry) :
    (s.setAgEntry e x).out = s.out := rfl
@[simp] theorem State.setAgEntry_draws (s : State) (e : Nat) (x : AgEntry) :
    (s.setAgEntry e x).draws = s.draws := rfl
@[simp] theorem State.setAgEntry_pending (s : State) (e : Nat) (x : AgEntry) :
    (s.setAgEntry e x).pending = s.pending := rfl

/-! State.setRecov -/

@[simp] theorem State.setRecov_pkg (s : State) (n : Nat) (r : PortRecov) :
    (s.setRecov n r).pkg = s.pkg := rfl
@[simp] theorem State.setRecov_beat (s : State) (n : Nat) (r : PortRecov) :
    (s.setRecov n r).beat = s.beat := rfl
@[simp] theorem State.setRecov_agenda (s : State) (n : Nat) (r : PortRecov) :
    (s.setRecov n r).agenda = s.agenda := rfl
@[simp] theorem State.setRecov_mgmt (s : State) (n : Nat) (r : PortRecov) :
    (s.setRecov n r).mgmt = s.mgmt := rfl
@[simp] theorem State.setRecov_ring (s : State) (n : Nat) (r : PortRecov) :
    (s.setRecov n r).ring = s.ring := rfl
@[simp] theorem State.setRecov_tables (s : State) (n : Nat) (r : PortRecov) :
    (s.setRecov n r).tables = s.tables := rfl
@[simp] theorem State.setRecov_sw (s : State) (n : Nat) (r : PortRecov) :
    (s.setRecov n r).sw = s.sw := rfl
@[simp] theorem State.setRecov_mem (s : State) (n : Nat) (r : PortRecov) :
    (s.setRecov n r).mem = s.mem := rfl
@[simp] theorem State.setRecov_coll (s : State) (n : Nat) (r : PortRecov) :
    (s.setRecov n r).coll = s.coll := rfl
@[simp] theorem State.setRecov_ports (s : State) (n : Nat) (r : PortRecov) :
    (s.setRecov n r).ports = s.ports := rfl
@[simp] theorem State.setRecov_power (s : State) (n : Nat) (r : PortRecov) :
    (s.setRecov n r).power = s.power := rfl
@[simp] theorem State.setRecov_bist (s : State) (n : Nat) (r : PortRecov) :
    (s.setRecov n r).bist = s.bist := rfl
@[simp] theorem State.setRecov_ctr (s : State) (n : Nat) (r : PortRecov) :
    (s.setRecov n r).ctr = s.ctr := rfl
@[simp] theorem State.setRecov_side (s : State) (n : Nat) (r : PortRecov) :
    (s.setRecov n r).side = s.side := rfl
@[simp] theorem State.setRecov_out (s : State) (n : Nat) (r : PortRecov) :
    (s.setRecov n r).out = s.out := rfl
@[simp] theorem State.setRecov_draws (s : State) (n : Nat) (r : PortRecov) :
    (s.setRecov n r).draws = s.draws := rfl
@[simp] theorem State.setRecov_pending (s : State) (n : Nat) (r : PortRecov) :
    (s.setRecov n r).pending = s.pending := rfl

/-! State.setFence -/

@[simp] theorem State.setFence_pkg (s : State) (n : Nat) (f : Fence) :
    (s.setFence n f).pkg = s.pkg := rfl
@[simp] theorem State.setFence_beat (s : State) (n : Nat) (f : Fence) :
    (s.setFence n f).beat = s.beat := rfl
@[simp] theorem State.setFence_agenda (s : State) (n : Nat) (f : Fence) :
    (s.setFence n f).agenda = s.agenda := rfl
@[simp] theorem State.setFence_mgmt (s : State) (n : Nat) (f : Fence) :
    (s.setFence n f).mgmt = s.mgmt := rfl
@[simp] theorem State.setFence_ring (s : State) (n : Nat) (f : Fence) :
    (s.setFence n f).ring = s.ring := rfl
@[simp] theorem State.setFence_tables (s : State) (n : Nat) (f : Fence) :
    (s.setFence n f).tables = s.tables := rfl
@[simp] theorem State.setFence_sw (s : State) (n : Nat) (f : Fence) :
    (s.setFence n f).sw = s.sw := rfl
@[simp] theorem State.setFence_mem (s : State) (n : Nat) (f : Fence) :
    (s.setFence n f).mem = s.mem := rfl
@[simp] theorem State.setFence_coll (s : State) (n : Nat) (f : Fence) :
    (s.setFence n f).coll = s.coll := rfl
@[simp] theorem State.setFence_ports (s : State) (n : Nat) (f : Fence) :
    (s.setFence n f).ports = s.ports := rfl
@[simp] theorem State.setFence_power (s : State) (n : Nat) (f : Fence) :
    (s.setFence n f).power = s.power := rfl
@[simp] theorem State.setFence_bist (s : State) (n : Nat) (f : Fence) :
    (s.setFence n f).bist = s.bist := rfl
@[simp] theorem State.setFence_ctr (s : State) (n : Nat) (f : Fence) :
    (s.setFence n f).ctr = s.ctr := rfl
@[simp] theorem State.setFence_side (s : State) (n : Nat) (f : Fence) :
    (s.setFence n f).side = s.side := rfl
@[simp] theorem State.setFence_out (s : State) (n : Nat) (f : Fence) :
    (s.setFence n f).out = s.out := rfl
@[simp] theorem State.setFence_draws (s : State) (n : Nat) (f : Fence) :
    (s.setFence n f).draws = s.draws := rfl
@[simp] theorem State.setFence_pending (s : State) (n : Nat) (f : Fence) :
    (s.setFence n f).pending = s.pending := rfl

/-! State.setStack -/

@[simp] theorem State.setStack_pkg (s : State) (n : Nat) (x : Stack) :
    (s.setStack n x).pkg = s.pkg := rfl
@[simp] theorem State.setStack_beat (s : State) (n : Nat) (x : Stack) :
    (s.setStack n x).beat = s.beat := rfl
@[simp] theorem State.setStack_agenda (s : State) (n : Nat) (x : Stack) :
    (s.setStack n x).agenda = s.agenda := rfl
@[simp] theorem State.setStack_mgmt (s : State) (n : Nat) (x : Stack) :
    (s.setStack n x).mgmt = s.mgmt := rfl
@[simp] theorem State.setStack_ring (s : State) (n : Nat) (x : Stack) :
    (s.setStack n x).ring = s.ring := rfl
@[simp] theorem State.setStack_tables (s : State) (n : Nat) (x : Stack) :
    (s.setStack n x).tables = s.tables := rfl
@[simp] theorem State.setStack_sw (s : State) (n : Nat) (x : Stack) :
    (s.setStack n x).sw = s.sw := rfl
@[simp] theorem State.setStack_recov (s : State) (n : Nat) (x : Stack) :
    (s.setStack n x).recov = s.recov := rfl
@[simp] theorem State.setStack_coll (s : State) (n : Nat) (x : Stack) :
    (s.setStack n x).coll = s.coll := rfl
@[simp] theorem State.setStack_ports (s : State) (n : Nat) (x : Stack) :
    (s.setStack n x).ports = s.ports := rfl
@[simp] theorem State.setStack_power (s : State) (n : Nat) (x : Stack) :
    (s.setStack n x).power = s.power := rfl
@[simp] theorem State.setStack_bist (s : State) (n : Nat) (x : Stack) :
    (s.setStack n x).bist = s.bist := rfl
@[simp] theorem State.setStack_ctr (s : State) (n : Nat) (x : Stack) :
    (s.setStack n x).ctr = s.ctr := rfl
@[simp] theorem State.setStack_side (s : State) (n : Nat) (x : Stack) :
    (s.setStack n x).side = s.side := rfl
@[simp] theorem State.setStack_out (s : State) (n : Nat) (x : Stack) :
    (s.setStack n x).out = s.out := rfl
@[simp] theorem State.setStack_draws (s : State) (n : Nat) (x : Stack) :
    (s.setStack n x).draws = s.draws := rfl
@[simp] theorem State.setStack_pending (s : State) (n : Nat) (x : Stack) :
    (s.setStack n x).pending = s.pending := rfl

/-! State.setSession -/

@[simp] theorem State.setSession_pkg (s : State) (n : Nat) (x : Session) :
    (s.setSession n x).pkg = s.pkg := rfl
@[simp] theorem State.setSession_beat (s : State) (n : Nat) (x : Session) :
    (s.setSession n x).beat = s.beat := rfl
@[simp] theorem State.setSession_agenda (s : State) (n : Nat) (x : Session) :
    (s.setSession n x).agenda = s.agenda := rfl
@[simp] theorem State.setSession_mgmt (s : State) (n : Nat) (x : Session) :
    (s.setSession n x).mgmt = s.mgmt := rfl
@[simp] theorem State.setSession_ring (s : State) (n : Nat) (x : Session) :
    (s.setSession n x).ring = s.ring := rfl
@[simp] theorem State.setSession_tables (s : State) (n : Nat) (x : Session) :
    (s.setSession n x).tables = s.tables := rfl
@[simp] theorem State.setSession_sw (s : State) (n : Nat) (x : Session) :
    (s.setSession n x).sw = s.sw := rfl
@[simp] theorem State.setSession_recov (s : State) (n : Nat) (x : Session) :
    (s.setSession n x).recov = s.recov := rfl
@[simp] theorem State.setSession_mem (s : State) (n : Nat) (x : Session) :
    (s.setSession n x).mem = s.mem := rfl
@[simp] theorem State.setSession_ports (s : State) (n : Nat) (x : Session) :
    (s.setSession n x).ports = s.ports := rfl
@[simp] theorem State.setSession_power (s : State) (n : Nat) (x : Session) :
    (s.setSession n x).power = s.power := rfl
@[simp] theorem State.setSession_bist (s : State) (n : Nat) (x : Session) :
    (s.setSession n x).bist = s.bist := rfl
@[simp] theorem State.setSession_ctr (s : State) (n : Nat) (x : Session) :
    (s.setSession n x).ctr = s.ctr := rfl
@[simp] theorem State.setSession_side (s : State) (n : Nat) (x : Session) :
    (s.setSession n x).side = s.side := rfl
@[simp] theorem State.setSession_out (s : State) (n : Nat) (x : Session) :
    (s.setSession n x).out = s.out := rfl
@[simp] theorem State.setSession_draws (s : State) (n : Nat) (x : Session) :
    (s.setSession n x).draws = s.draws := rfl
@[simp] theorem State.setSession_pending (s : State) (n : Nat) (x : Session) :
    (s.setSession n x).pending = s.pending := rfl

/-! State.setRcRole -/

@[simp] theorem State.setRcRole_pkg (s : State) (n : Nat) (r : Role) :
    (s.setRcRole n r).pkg = s.pkg := rfl
@[simp] theorem State.setRcRole_beat (s : State) (n : Nat) (r : Role) :
    (s.setRcRole n r).beat = s.beat := rfl
@[simp] theorem State.setRcRole_agenda (s : State) (n : Nat) (r : Role) :
    (s.setRcRole n r).agenda = s.agenda := rfl
@[simp] theorem State.setRcRole_mgmt (s : State) (n : Nat) (r : Role) :
    (s.setRcRole n r).mgmt = s.mgmt := rfl
@[simp] theorem State.setRcRole_ring (s : State) (n : Nat) (r : Role) :
    (s.setRcRole n r).ring = s.ring := rfl
@[simp] theorem State.setRcRole_tables (s : State) (n : Nat) (r : Role) :
    (s.setRcRole n r).tables = s.tables := rfl
@[simp] theorem State.setRcRole_sw (s : State) (n : Nat) (r : Role) :
    (s.setRcRole n r).sw = s.sw := rfl
@[simp] theorem State.setRcRole_recov (s : State) (n : Nat) (r : Role) :
    (s.setRcRole n r).recov = s.recov := rfl
@[simp] theorem State.setRcRole_mem (s : State) (n : Nat) (r : Role) :
    (s.setRcRole n r).mem = s.mem := rfl
@[simp] theorem State.setRcRole_coll (s : State) (n : Nat) (r : Role) :
    (s.setRcRole n r).coll = s.coll := rfl
@[simp] theorem State.setRcRole_ports (s : State) (n : Nat) (r : Role) :
    (s.setRcRole n r).ports = s.ports := rfl
@[simp] theorem State.setRcRole_power (s : State) (n : Nat) (r : Role) :
    (s.setRcRole n r).power = s.power := rfl
@[simp] theorem State.setRcRole_ctr (s : State) (n : Nat) (r : Role) :
    (s.setRcRole n r).ctr = s.ctr := rfl
@[simp] theorem State.setRcRole_side (s : State) (n : Nat) (r : Role) :
    (s.setRcRole n r).side = s.side := rfl
@[simp] theorem State.setRcRole_out (s : State) (n : Nat) (r : Role) :
    (s.setRcRole n r).out = s.out := rfl
@[simp] theorem State.setRcRole_draws (s : State) (n : Nat) (r : Role) :
    (s.setRcRole n r).draws = s.draws := rfl
@[simp] theorem State.setRcRole_pending (s : State) (n : Nat) (r : Role) :
    (s.setRcRole n r).pending = s.pending := rfl

/-! State.setBufRole -/

@[simp] theorem State.setBufRole_pkg (s : State) (n : Nat) (r : Role) :
    (s.setBufRole n r).pkg = s.pkg := rfl
@[simp] theorem State.setBufRole_beat (s : State) (n : Nat) (r : Role) :
    (s.setBufRole n r).beat = s.beat := rfl
@[simp] theorem State.setBufRole_agenda (s : State) (n : Nat) (r : Role) :
    (s.setBufRole n r).agenda = s.agenda := rfl
@[simp] theorem State.setBufRole_mgmt (s : State) (n : Nat) (r : Role) :
    (s.setBufRole n r).mgmt = s.mgmt := rfl
@[simp] theorem State.setBufRole_ring (s : State) (n : Nat) (r : Role) :
    (s.setBufRole n r).ring = s.ring := rfl
@[simp] theorem State.setBufRole_tables (s : State) (n : Nat) (r : Role) :
    (s.setBufRole n r).tables = s.tables := rfl
@[simp] theorem State.setBufRole_sw (s : State) (n : Nat) (r : Role) :
    (s.setBufRole n r).sw = s.sw := rfl
@[simp] theorem State.setBufRole_recov (s : State) (n : Nat) (r : Role) :
    (s.setBufRole n r).recov = s.recov := rfl
@[simp] theorem State.setBufRole_mem (s : State) (n : Nat) (r : Role) :
    (s.setBufRole n r).mem = s.mem := rfl
@[simp] theorem State.setBufRole_coll (s : State) (n : Nat) (r : Role) :
    (s.setBufRole n r).coll = s.coll := rfl
@[simp] theorem State.setBufRole_ports (s : State) (n : Nat) (r : Role) :
    (s.setBufRole n r).ports = s.ports := rfl
@[simp] theorem State.setBufRole_power (s : State) (n : Nat) (r : Role) :
    (s.setBufRole n r).power = s.power := rfl
@[simp] theorem State.setBufRole_ctr (s : State) (n : Nat) (r : Role) :
    (s.setBufRole n r).ctr = s.ctr := rfl
@[simp] theorem State.setBufRole_side (s : State) (n : Nat) (r : Role) :
    (s.setBufRole n r).side = s.side := rfl
@[simp] theorem State.setBufRole_out (s : State) (n : Nat) (r : Role) :
    (s.setBufRole n r).out = s.out := rfl
@[simp] theorem State.setBufRole_draws (s : State) (n : Nat) (r : Role) :
    (s.setBufRole n r).draws = s.draws := rfl
@[simp] theorem State.setBufRole_pending (s : State) (n : Nat) (r : Role) :
    (s.setBufRole n r).pending = s.pending := rfl

/-! State.setDreyRole -/

@[simp] theorem State.setDreyRole_pkg (s : State) (n : Nat) (r : Role) :
    (s.setDreyRole n r).pkg = s.pkg := rfl
@[simp] theorem State.setDreyRole_beat (s : State) (n : Nat) (r : Role) :
    (s.setDreyRole n r).beat = s.beat := rfl
@[simp] theorem State.setDreyRole_agenda (s : State) (n : Nat) (r : Role) :
    (s.setDreyRole n r).agenda = s.agenda := rfl
@[simp] theorem State.setDreyRole_mgmt (s : State) (n : Nat) (r : Role) :
    (s.setDreyRole n r).mgmt = s.mgmt := rfl
@[simp] theorem State.setDreyRole_ring (s : State) (n : Nat) (r : Role) :
    (s.setDreyRole n r).ring = s.ring := rfl
@[simp] theorem State.setDreyRole_tables (s : State) (n : Nat) (r : Role) :
    (s.setDreyRole n r).tables = s.tables := rfl
@[simp] theorem State.setDreyRole_sw (s : State) (n : Nat) (r : Role) :
    (s.setDreyRole n r).sw = s.sw := rfl
@[simp] theorem State.setDreyRole_recov (s : State) (n : Nat) (r : Role) :
    (s.setDreyRole n r).recov = s.recov := rfl
@[simp] theorem State.setDreyRole_mem (s : State) (n : Nat) (r : Role) :
    (s.setDreyRole n r).mem = s.mem := rfl
@[simp] theorem State.setDreyRole_coll (s : State) (n : Nat) (r : Role) :
    (s.setDreyRole n r).coll = s.coll := rfl
@[simp] theorem State.setDreyRole_ports (s : State) (n : Nat) (r : Role) :
    (s.setDreyRole n r).ports = s.ports := rfl
@[simp] theorem State.setDreyRole_power (s : State) (n : Nat) (r : Role) :
    (s.setDreyRole n r).power = s.power := rfl
@[simp] theorem State.setDreyRole_ctr (s : State) (n : Nat) (r : Role) :
    (s.setDreyRole n r).ctr = s.ctr := rfl
@[simp] theorem State.setDreyRole_side (s : State) (n : Nat) (r : Role) :
    (s.setDreyRole n r).side = s.side := rfl
@[simp] theorem State.setDreyRole_out (s : State) (n : Nat) (r : Role) :
    (s.setDreyRole n r).out = s.out := rfl
@[simp] theorem State.setDreyRole_draws (s : State) (n : Nat) (r : Role) :
    (s.setDreyRole n r).draws = s.draws := rfl
@[simp] theorem State.setDreyRole_pending (s : State) (n : Nat) (r : Role) :
    (s.setDreyRole n r).pending = s.pending := rfl

/-! State.setResult -/

@[simp] theorem State.setResult_pkg (s : State) (n : Nat) (r : BistRes) :
    (s.setResult n r).pkg = s.pkg := rfl
@[simp] theorem State.setResult_beat (s : State) (n : Nat) (r : BistRes) :
    (s.setResult n r).beat = s.beat := rfl
@[simp] theorem State.setResult_agenda (s : State) (n : Nat) (r : BistRes) :
    (s.setResult n r).agenda = s.agenda := rfl
@[simp] theorem State.setResult_mgmt (s : State) (n : Nat) (r : BistRes) :
    (s.setResult n r).mgmt = s.mgmt := rfl
@[simp] theorem State.setResult_ring (s : State) (n : Nat) (r : BistRes) :
    (s.setResult n r).ring = s.ring := rfl
@[simp] theorem State.setResult_tables (s : State) (n : Nat) (r : BistRes) :
    (s.setResult n r).tables = s.tables := rfl
@[simp] theorem State.setResult_sw (s : State) (n : Nat) (r : BistRes) :
    (s.setResult n r).sw = s.sw := rfl
@[simp] theorem State.setResult_recov (s : State) (n : Nat) (r : BistRes) :
    (s.setResult n r).recov = s.recov := rfl
@[simp] theorem State.setResult_mem (s : State) (n : Nat) (r : BistRes) :
    (s.setResult n r).mem = s.mem := rfl
@[simp] theorem State.setResult_coll (s : State) (n : Nat) (r : BistRes) :
    (s.setResult n r).coll = s.coll := rfl
@[simp] theorem State.setResult_ports (s : State) (n : Nat) (r : BistRes) :
    (s.setResult n r).ports = s.ports := rfl
@[simp] theorem State.setResult_power (s : State) (n : Nat) (r : BistRes) :
    (s.setResult n r).power = s.power := rfl
@[simp] theorem State.setResult_ctr (s : State) (n : Nat) (r : BistRes) :
    (s.setResult n r).ctr = s.ctr := rfl
@[simp] theorem State.setResult_side (s : State) (n : Nat) (r : BistRes) :
    (s.setResult n r).side = s.side := rfl
@[simp] theorem State.setResult_out (s : State) (n : Nat) (r : BistRes) :
    (s.setResult n r).out = s.out := rfl
@[simp] theorem State.setResult_draws (s : State) (n : Nat) (r : BistRes) :
    (s.setResult n r).draws = s.draws := rfl
@[simp] theorem State.setResult_pending (s : State) (n : Nat) (r : BistRes) :
    (s.setResult n r).pending = s.pending := rfl

/-! State.setCounter -/

@[simp] theorem State.setCounter_pkg (s : State) (n : Nat) (c : Counter) :
    (s.setCounter n c).pkg = s.pkg := rfl
@[simp] theorem State.setCounter_beat (s : State) (n : Nat) (c : Counter) :
    (s.setCounter n c).beat = s.beat := rfl
@[simp] theorem State.setCounter_agenda (s : State) (n : Nat) (c : Counter) :
    (s.setCounter n c).agenda = s.agenda := rfl
@[simp] theorem State.setCounter_mgmt (s : State) (n : Nat) (c : Counter) :
    (s.setCounter n c).mgmt = s.mgmt := rfl
@[simp] theorem State.setCounter_ring (s : State) (n : Nat) (c : Counter) :
    (s.setCounter n c).ring = s.ring := rfl
@[simp] theorem State.setCounter_tables (s : State) (n : Nat) (c : Counter) :
    (s.setCounter n c).tables = s.tables := rfl
@[simp] theorem State.setCounter_sw (s : State) (n : Nat) (c : Counter) :
    (s.setCounter n c).sw = s.sw := rfl
@[simp] theorem State.setCounter_recov (s : State) (n : Nat) (c : Counter) :
    (s.setCounter n c).recov = s.recov := rfl
@[simp] theorem State.setCounter_mem (s : State) (n : Nat) (c : Counter) :
    (s.setCounter n c).mem = s.mem := rfl
@[simp] theorem State.setCounter_coll (s : State) (n : Nat) (c : Counter) :
    (s.setCounter n c).coll = s.coll := rfl
@[simp] theorem State.setCounter_ports (s : State) (n : Nat) (c : Counter) :
    (s.setCounter n c).ports = s.ports := rfl
@[simp] theorem State.setCounter_power (s : State) (n : Nat) (c : Counter) :
    (s.setCounter n c).power = s.power := rfl
@[simp] theorem State.setCounter_bist (s : State) (n : Nat) (c : Counter) :
    (s.setCounter n c).bist = s.bist := rfl
@[simp] theorem State.setCounter_side (s : State) (n : Nat) (c : Counter) :
    (s.setCounter n c).side = s.side := rfl
@[simp] theorem State.setCounter_out (s : State) (n : Nat) (c : Counter) :
    (s.setCounter n c).out = s.out := rfl
@[simp] theorem State.setCounter_draws (s : State) (n : Nat) (c : Counter) :
    (s.setCounter n c).draws = s.draws := rfl
@[simp] theorem State.setCounter_pending (s : State) (n : Nat) (c : Counter) :
    (s.setCounter n c).pending = s.pending := rfl

/-! State.setWindow -/

@[simp] theorem State.setWindow_pkg (s : State) (b : Nat) (w : Window) :
    (s.setWindow b w).pkg = s.pkg := rfl
@[simp] theorem State.setWindow_beat (s : State) (b : Nat) (w : Window) :
    (s.setWindow b w).beat = s.beat := rfl
@[simp] theorem State.setWindow_agenda (s : State) (b : Nat) (w : Window) :
    (s.setWindow b w).agenda = s.agenda := rfl
@[simp] theorem State.setWindow_mgmt (s : State) (b : Nat) (w : Window) :
    (s.setWindow b w).mgmt = s.mgmt := rfl
@[simp] theorem State.setWindow_ring (s : State) (b : Nat) (w : Window) :
    (s.setWindow b w).ring = s.ring := rfl
@[simp] theorem State.setWindow_tables (s : State) (b : Nat) (w : Window) :
    (s.setWindow b w).tables = s.tables := rfl
@[simp] theorem State.setWindow_sw (s : State) (b : Nat) (w : Window) :
    (s.setWindow b w).sw = s.sw := rfl
@[simp] theorem State.setWindow_recov (s : State) (b : Nat) (w : Window) :
    (s.setWindow b w).recov = s.recov := rfl
@[simp] theorem State.setWindow_mem (s : State) (b : Nat) (w : Window) :
    (s.setWindow b w).mem = s.mem := rfl
@[simp] theorem State.setWindow_coll (s : State) (b : Nat) (w : Window) :
    (s.setWindow b w).coll = s.coll := rfl
@[simp] theorem State.setWindow_ports (s : State) (b : Nat) (w : Window) :
    (s.setWindow b w).ports = s.ports := rfl
@[simp] theorem State.setWindow_power (s : State) (b : Nat) (w : Window) :
    (s.setWindow b w).power = s.power := rfl
@[simp] theorem State.setWindow_bist (s : State) (b : Nat) (w : Window) :
    (s.setWindow b w).bist = s.bist := rfl
@[simp] theorem State.setWindow_side (s : State) (b : Nat) (w : Window) :
    (s.setWindow b w).side = s.side := rfl
@[simp] theorem State.setWindow_out (s : State) (b : Nat) (w : Window) :
    (s.setWindow b w).out = s.out := rfl
@[simp] theorem State.setWindow_draws (s : State) (b : Nat) (w : Window) :
    (s.setWindow b w).draws = s.draws := rfl
@[simp] theorem State.setWindow_pending (s : State) (b : Nat) (w : Window) :
    (s.setWindow b w).pending = s.pending := rfl

/-! State.setMmb -/

@[simp] theorem State.setMmb_pkg (s : State) (b : Nat) (m : Mmb) :
    (s.setMmb b m).pkg = s.pkg := rfl
@[simp] theorem State.setMmb_beat (s : State) (b : Nat) (m : Mmb) :
    (s.setMmb b m).beat = s.beat := rfl
@[simp] theorem State.setMmb_agenda (s : State) (b : Nat) (m : Mmb) :
    (s.setMmb b m).agenda = s.agenda := rfl
@[simp] theorem State.setMmb_mgmt (s : State) (b : Nat) (m : Mmb) :
    (s.setMmb b m).mgmt = s.mgmt := rfl
@[simp] theorem State.setMmb_ring (s : State) (b : Nat) (m : Mmb) :
    (s.setMmb b m).ring = s.ring := rfl
@[simp] theorem State.setMmb_tables (s : State) (b : Nat) (m : Mmb) :
    (s.setMmb b m).tables = s.tables := rfl
@[simp] theorem State.setMmb_sw (s : State) (b : Nat) (m : Mmb) :
    (s.setMmb b m).sw = s.sw := rfl
@[simp] theorem State.setMmb_recov (s : State) (b : Nat) (m : Mmb) :
    (s.setMmb b m).recov = s.recov := rfl
@[simp] theorem State.setMmb_mem (s : State) (b : Nat) (m : Mmb) :
    (s.setMmb b m).mem = s.mem := rfl
@[simp] theorem State.setMmb_coll (s : State) (b : Nat) (m : Mmb) :
    (s.setMmb b m).coll = s.coll := rfl
@[simp] theorem State.setMmb_ports (s : State) (b : Nat) (m : Mmb) :
    (s.setMmb b m).ports = s.ports := rfl
@[simp] theorem State.setMmb_power (s : State) (b : Nat) (m : Mmb) :
    (s.setMmb b m).power = s.power := rfl
@[simp] theorem State.setMmb_bist (s : State) (b : Nat) (m : Mmb) :
    (s.setMmb b m).bist = s.bist := rfl
@[simp] theorem State.setMmb_ctr (s : State) (b : Nat) (m : Mmb) :
    (s.setMmb b m).ctr = s.ctr := rfl
@[simp] theorem State.setMmb_out (s : State) (b : Nat) (m : Mmb) :
    (s.setMmb b m).out = s.out := rfl
@[simp] theorem State.setMmb_draws (s : State) (b : Nat) (m : Mmb) :
    (s.setMmb b m).draws = s.draws := rfl
@[simp] theorem State.setMmb_pending (s : State) (b : Nat) (m : Mmb) :
    (s.setMmb b m).pending = s.pending := rfl

/-! State.emit -/

@[simp] theorem State.emit_pkg (s : State) (e : Emission) :
    (s.emit e).pkg = s.pkg := rfl
@[simp] theorem State.emit_beat (s : State) (e : Emission) :
    (s.emit e).beat = s.beat := rfl
@[simp] theorem State.emit_agenda (s : State) (e : Emission) :
    (s.emit e).agenda = s.agenda := rfl
@[simp] theorem State.emit_mgmt (s : State) (e : Emission) :
    (s.emit e).mgmt = s.mgmt := rfl
@[simp] theorem State.emit_ring (s : State) (e : Emission) :
    (s.emit e).ring = s.ring := rfl
@[simp] theorem State.emit_tables (s : State) (e : Emission) :
    (s.emit e).tables = s.tables := rfl
@[simp] theorem State.emit_sw (s : State) (e : Emission) :
    (s.emit e).sw = s.sw := rfl
@[simp] theorem State.emit_recov (s : State) (e : Emission) :
    (s.emit e).recov = s.recov := rfl
@[simp] theorem State.emit_mem (s : State) (e : Emission) :
    (s.emit e).mem = s.mem := rfl
@[simp] theorem State.emit_coll (s : State) (e : Emission) :
    (s.emit e).coll = s.coll := rfl
@[simp] theorem State.emit_ports (s : State) (e : Emission) :
    (s.emit e).ports = s.ports := rfl
@[simp] theorem State.emit_power (s : State) (e : Emission) :
    (s.emit e).power = s.power := rfl
@[simp] theorem State.emit_bist (s : State) (e : Emission) :
    (s.emit e).bist = s.bist := rfl
@[simp] theorem State.emit_ctr (s : State) (e : Emission) :
    (s.emit e).ctr = s.ctr := rfl
@[simp] theorem State.emit_side (s : State) (e : Emission) :
    (s.emit e).side = s.side := rfl
@[simp] theorem State.emit_draws (s : State) (e : Emission) :
    (s.emit e).draws = s.draws := rfl
@[simp] theorem State.emit_pending (s : State) (e : Emission) :
    (s.emit e).pending = s.pending := rfl

/-! State.attend -/

@[simp] theorem State.attend_pkg (s : State) (m : BitVec 8) :
    (s.attend m).pkg = s.pkg := rfl
@[simp] theorem State.attend_beat (s : State) (m : BitVec 8) :
    (s.attend m).beat = s.beat := rfl
@[simp] theorem State.attend_agenda (s : State) (m : BitVec 8) :
    (s.attend m).agenda = s.agenda := rfl
@[simp] theorem State.attend_mgmt (s : State) (m : BitVec 8) :
    (s.attend m).mgmt = s.mgmt := rfl
@[simp] theorem State.attend_ring (s : State) (m : BitVec 8) :
    (s.attend m).ring = s.ring := rfl
@[simp] theorem State.attend_tables (s : State) (m : BitVec 8) :
    (s.attend m).tables = s.tables := rfl
@[simp] theorem State.attend_sw (s : State) (m : BitVec 8) :
    (s.attend m).sw = s.sw := rfl
@[simp] theorem State.attend_recov (s : State) (m : BitVec 8) :
    (s.attend m).recov = s.recov := rfl
@[simp] theorem State.attend_mem (s : State) (m : BitVec 8) :
    (s.attend m).mem = s.mem := rfl
@[simp] theorem State.attend_coll (s : State) (m : BitVec 8) :
    (s.attend m).coll = s.coll := rfl
@[simp] theorem State.attend_ports (s : State) (m : BitVec 8) :
    (s.attend m).ports = s.ports := rfl
@[simp] theorem State.attend_power (s : State) (m : BitVec 8) :
    (s.attend m).power = s.power := rfl
@[simp] theorem State.attend_bist (s : State) (m : BitVec 8) :
    (s.attend m).bist = s.bist := rfl
@[simp] theorem State.attend_ctr (s : State) (m : BitVec 8) :
    (s.attend m).ctr = s.ctr := rfl
@[simp] theorem State.attend_out (s : State) (m : BitVec 8) :
    (s.attend m).out = s.out := rfl
@[simp] theorem State.attend_draws (s : State) (m : BitVec 8) :
    (s.attend m).draws = s.draws := rfl
@[simp] theorem State.attend_pending (s : State) (m : BitVec 8) :
    (s.attend m).pending = s.pending := rfl

/-! State.countDenied -/

@[simp] theorem State.countDenied_pkg (s : State) (src : Src) :
    (s.countDenied src).pkg = s.pkg := rfl
@[simp] theorem State.countDenied_beat (s : State) (src : Src) :
    (s.countDenied src).beat = s.beat := rfl
@[simp] theorem State.countDenied_agenda (s : State) (src : Src) :
    (s.countDenied src).agenda = s.agenda := rfl
@[simp] theorem State.countDenied_ring (s : State) (src : Src) :
    (s.countDenied src).ring = s.ring := rfl
@[simp] theorem State.countDenied_tables (s : State) (src : Src) :
    (s.countDenied src).tables = s.tables := rfl
@[simp] theorem State.countDenied_sw (s : State) (src : Src) :
    (s.countDenied src).sw = s.sw := rfl
@[simp] theorem State.countDenied_recov (s : State) (src : Src) :
    (s.countDenied src).recov = s.recov := rfl
@[simp] theorem State.countDenied_mem (s : State) (src : Src) :
    (s.countDenied src).mem = s.mem := rfl
@[simp] theorem State.countDenied_coll (s : State) (src : Src) :
    (s.countDenied src).coll = s.coll := rfl
@[simp] theorem State.countDenied_ports (s : State) (src : Src) :
    (s.countDenied src).ports = s.ports := rfl
@[simp] theorem State.countDenied_power (s : State) (src : Src) :
    (s.countDenied src).power = s.power := rfl
@[simp] theorem State.countDenied_bist (s : State) (src : Src) :
    (s.countDenied src).bist = s.bist := rfl
@[simp] theorem State.countDenied_ctr (s : State) (src : Src) :
    (s.countDenied src).ctr = s.ctr := rfl
@[simp] theorem State.countDenied_side (s : State) (src : Src) :
    (s.countDenied src).side = s.side := rfl
@[simp] theorem State.countDenied_out (s : State) (src : Src) :
    (s.countDenied src).out = s.out := rfl
@[simp] theorem State.countDenied_draws (s : State) (src : Src) :
    (s.countDenied src).draws = s.draws := rfl
@[simp] theorem State.countDenied_pending (s : State) (src : Src) :
    (s.countDenied src).pending = s.pending := rfl

/-! State.defer -/

@[simp] theorem State.defer_pkg (s : State) (c : Cmd) (op : BitVec 16) (w : Work) :
    (s.defer c op w).pkg = s.pkg := rfl
@[simp] theorem State.defer_beat (s : State) (c : Cmd) (op : BitVec 16) (w : Work) :
    (s.defer c op w).beat = s.beat := rfl
@[simp] theorem State.defer_agenda (s : State) (c : Cmd) (op : BitVec 16) (w : Work) :
    (s.defer c op w).agenda = s.agenda := rfl
@[simp] theorem State.defer_ring (s : State) (c : Cmd) (op : BitVec 16) (w : Work) :
    (s.defer c op w).ring = s.ring := rfl
@[simp] theorem State.defer_tables (s : State) (c : Cmd) (op : BitVec 16) (w : Work) :
    (s.defer c op w).tables = s.tables := rfl
@[simp] theorem State.defer_sw (s : State) (c : Cmd) (op : BitVec 16) (w : Work) :
    (s.defer c op w).sw = s.sw := rfl
@[simp] theorem State.defer_recov (s : State) (c : Cmd) (op : BitVec 16) (w : Work) :
    (s.defer c op w).recov = s.recov := rfl
@[simp] theorem State.defer_mem (s : State) (c : Cmd) (op : BitVec 16) (w : Work) :
    (s.defer c op w).mem = s.mem := rfl
@[simp] theorem State.defer_coll (s : State) (c : Cmd) (op : BitVec 16) (w : Work) :
    (s.defer c op w).coll = s.coll := rfl
@[simp] theorem State.defer_ports (s : State) (c : Cmd) (op : BitVec 16) (w : Work) :
    (s.defer c op w).ports = s.ports := rfl
@[simp] theorem State.defer_power (s : State) (c : Cmd) (op : BitVec 16) (w : Work) :
    (s.defer c op w).power = s.power := rfl
@[simp] theorem State.defer_bist (s : State) (c : Cmd) (op : BitVec 16) (w : Work) :
    (s.defer c op w).bist = s.bist := rfl
@[simp] theorem State.defer_ctr (s : State) (c : Cmd) (op : BitVec 16) (w : Work) :
    (s.defer c op w).ctr = s.ctr := rfl
@[simp] theorem State.defer_side (s : State) (c : Cmd) (op : BitVec 16) (w : Work) :
    (s.defer c op w).side = s.side := rfl
@[simp] theorem State.defer_out (s : State) (c : Cmd) (op : BitVec 16) (w : Work) :
    (s.defer c op w).out = s.out := rfl
@[simp] theorem State.defer_draws (s : State) (c : Cmd) (op : BitVec 16) (w : Work) :
    (s.defer c op w).draws = s.draws := rfl
@[simp] theorem State.defer_pending (s : State) (c : Cmd) (op : BitVec 16) (w : Work) :
    (s.defer c op w).pending = s.pending := rfl

/-! State.setEntry -/

@[simp] theorem State.setEntry_pkg (s : State) (t n : Nat) (e : Entry) :
    (s.setEntry t n e).pkg = s.pkg := rfl
@[simp] theorem State.setEntry_beat (s : State) (t n : Nat) (e : Entry) :
    (s.setEntry t n e).beat = s.beat := rfl
@[simp] theorem State.setEntry_agenda (s : State) (t n : Nat) (e : Entry) :
    (s.setEntry t n e).agenda = s.agenda := rfl
@[simp] theorem State.setEntry_mgmt (s : State) (t n : Nat) (e : Entry) :
    (s.setEntry t n e).mgmt = s.mgmt := rfl
@[simp] theorem State.setEntry_ring (s : State) (t n : Nat) (e : Entry) :
    (s.setEntry t n e).ring = s.ring := rfl
@[simp] theorem State.setEntry_sw (s : State) (t n : Nat) (e : Entry) :
    (s.setEntry t n e).sw = s.sw := rfl
@[simp] theorem State.setEntry_recov (s : State) (t n : Nat) (e : Entry) :
    (s.setEntry t n e).recov = s.recov := rfl
@[simp] theorem State.setEntry_mem (s : State) (t n : Nat) (e : Entry) :
    (s.setEntry t n e).mem = s.mem := rfl
@[simp] theorem State.setEntry_coll (s : State) (t n : Nat) (e : Entry) :
    (s.setEntry t n e).coll = s.coll := rfl
@[simp] theorem State.setEntry_ports (s : State) (t n : Nat) (e : Entry) :
    (s.setEntry t n e).ports = s.ports := rfl
@[simp] theorem State.setEntry_power (s : State) (t n : Nat) (e : Entry) :
    (s.setEntry t n e).power = s.power := rfl
@[simp] theorem State.setEntry_bist (s : State) (t n : Nat) (e : Entry) :
    (s.setEntry t n e).bist = s.bist := rfl
@[simp] theorem State.setEntry_ctr (s : State) (t n : Nat) (e : Entry) :
    (s.setEntry t n e).ctr = s.ctr := rfl
@[simp] theorem State.setEntry_side (s : State) (t n : Nat) (e : Entry) :
    (s.setEntry t n e).side = s.side := rfl
@[simp] theorem State.setEntry_out (s : State) (t n : Nat) (e : Entry) :
    (s.setEntry t n e).out = s.out := rfl
@[simp] theorem State.setEntry_draws (s : State) (t n : Nat) (e : Entry) :
    (s.setEntry t n e).draws = s.draws := rfl
@[simp] theorem State.setEntry_pending (s : State) (t n : Nat) (e : Entry) :
    (s.setEntry t n e).pending = s.pending := rfl

/-! State.clearPending -/

@[simp] theorem State.clearPending_pkg (s : State) (lp : Nat) :
    (s.clearPending lp).pkg = s.pkg := rfl
@[simp] theorem State.clearPending_beat (s : State) (lp : Nat) :
    (s.clearPending lp).beat = s.beat := rfl
@[simp] theorem State.clearPending_agenda (s : State) (lp : Nat) :
    (s.clearPending lp).agenda = s.agenda := rfl
@[simp] theorem State.clearPending_mgmt (s : State) (lp : Nat) :
    (s.clearPending lp).mgmt = s.mgmt := rfl
@[simp] theorem State.clearPending_ring (s : State) (lp : Nat) :
    (s.clearPending lp).ring = s.ring := rfl
@[simp] theorem State.clearPending_tables (s : State) (lp : Nat) :
    (s.clearPending lp).tables = s.tables := rfl
@[simp] theorem State.clearPending_recov (s : State) (lp : Nat) :
    (s.clearPending lp).recov = s.recov := rfl
@[simp] theorem State.clearPending_mem (s : State) (lp : Nat) :
    (s.clearPending lp).mem = s.mem := rfl
@[simp] theorem State.clearPending_coll (s : State) (lp : Nat) :
    (s.clearPending lp).coll = s.coll := rfl
@[simp] theorem State.clearPending_ports (s : State) (lp : Nat) :
    (s.clearPending lp).ports = s.ports := rfl
@[simp] theorem State.clearPending_power (s : State) (lp : Nat) :
    (s.clearPending lp).power = s.power := rfl
@[simp] theorem State.clearPending_bist (s : State) (lp : Nat) :
    (s.clearPending lp).bist = s.bist := rfl
@[simp] theorem State.clearPending_ctr (s : State) (lp : Nat) :
    (s.clearPending lp).ctr = s.ctr := rfl
@[simp] theorem State.clearPending_side (s : State) (lp : Nat) :
    (s.clearPending lp).side = s.side := rfl
@[simp] theorem State.clearPending_out (s : State) (lp : Nat) :
    (s.clearPending lp).out = s.out := rfl
@[simp] theorem State.clearPending_draws (s : State) (lp : Nat) :
    (s.clearPending lp).draws = s.draws := rfl
@[simp] theorem State.clearPending_pending (s : State) (lp : Nat) :
    (s.clearPending lp).pending = s.pending := rfl

/-! State.setPace -/

@[simp] theorem State.setPace_pkg (s : State) (lp n : Nat) :
    (s.setPace lp n).pkg = s.pkg := rfl
@[simp] theorem State.setPace_beat (s : State) (lp n : Nat) :
    (s.setPace lp n).beat = s.beat := rfl
@[simp] theorem State.setPace_agenda (s : State) (lp n : Nat) :
    (s.setPace lp n).agenda = s.agenda := rfl
@[simp] theorem State.setPace_mgmt (s : State) (lp n : Nat) :
    (s.setPace lp n).mgmt = s.mgmt := rfl
@[simp] theorem State.setPace_ring (s : State) (lp n : Nat) :
    (s.setPace lp n).ring = s.ring := rfl
@[simp] theorem State.setPace_tables (s : State) (lp n : Nat) :
    (s.setPace lp n).tables = s.tables := rfl
@[simp] theorem State.setPace_recov (s : State) (lp n : Nat) :
    (s.setPace lp n).recov = s.recov := rfl
@[simp] theorem State.setPace_mem (s : State) (lp n : Nat) :
    (s.setPace lp n).mem = s.mem := rfl
@[simp] theorem State.setPace_coll (s : State) (lp n : Nat) :
    (s.setPace lp n).coll = s.coll := rfl
@[simp] theorem State.setPace_ports (s : State) (lp n : Nat) :
    (s.setPace lp n).ports = s.ports := rfl
@[simp] theorem State.setPace_power (s : State) (lp n : Nat) :
    (s.setPace lp n).power = s.power := rfl
@[simp] theorem State.setPace_bist (s : State) (lp n : Nat) :
    (s.setPace lp n).bist = s.bist := rfl
@[simp] theorem State.setPace_ctr (s : State) (lp n : Nat) :
    (s.setPace lp n).ctr = s.ctr := rfl
@[simp] theorem State.setPace_side (s : State) (lp n : Nat) :
    (s.setPace lp n).side = s.side := rfl
@[simp] theorem State.setPace_out (s : State) (lp n : Nat) :
    (s.setPace lp n).out = s.out := rfl
@[simp] theorem State.setPace_draws (s : State) (lp n : Nat) :
    (s.setPace lp n).draws = s.draws := rfl
@[simp] theorem State.setPace_pending (s : State) (lp n : Nat) :
    (s.setPace lp n).pending = s.pending := rfl

/-! State.setArriving -/

@[simp] theorem State.setArriving_pkg (s : State) (lp : Nat) (a : Arriving) :
    (s.setArriving lp a).pkg = s.pkg := rfl
@[simp] theorem State.setArriving_beat (s : State) (lp : Nat) (a : Arriving) :
    (s.setArriving lp a).beat = s.beat := rfl
@[simp] theorem State.setArriving_agenda (s : State) (lp : Nat) (a : Arriving) :
    (s.setArriving lp a).agenda = s.agenda := rfl
@[simp] theorem State.setArriving_mgmt (s : State) (lp : Nat) (a : Arriving) :
    (s.setArriving lp a).mgmt = s.mgmt := rfl
@[simp] theorem State.setArriving_ring (s : State) (lp : Nat) (a : Arriving) :
    (s.setArriving lp a).ring = s.ring := rfl
@[simp] theorem State.setArriving_tables (s : State) (lp : Nat) (a : Arriving) :
    (s.setArriving lp a).tables = s.tables := rfl
@[simp] theorem State.setArriving_recov (s : State) (lp : Nat) (a : Arriving) :
    (s.setArriving lp a).recov = s.recov := rfl
@[simp] theorem State.setArriving_mem (s : State) (lp : Nat) (a : Arriving) :
    (s.setArriving lp a).mem = s.mem := rfl
@[simp] theorem State.setArriving_coll (s : State) (lp : Nat) (a : Arriving) :
    (s.setArriving lp a).coll = s.coll := rfl
@[simp] theorem State.setArriving_ports (s : State) (lp : Nat) (a : Arriving) :
    (s.setArriving lp a).ports = s.ports := rfl
@[simp] theorem State.setArriving_power (s : State) (lp : Nat) (a : Arriving) :
    (s.setArriving lp a).power = s.power := rfl
@[simp] theorem State.setArriving_bist (s : State) (lp : Nat) (a : Arriving) :
    (s.setArriving lp a).bist = s.bist := rfl
@[simp] theorem State.setArriving_ctr (s : State) (lp : Nat) (a : Arriving) :
    (s.setArriving lp a).ctr = s.ctr := rfl
@[simp] theorem State.setArriving_side (s : State) (lp : Nat) (a : Arriving) :
    (s.setArriving lp a).side = s.side := rfl
@[simp] theorem State.setArriving_out (s : State) (lp : Nat) (a : Arriving) :
    (s.setArriving lp a).out = s.out := rfl
@[simp] theorem State.setArriving_draws (s : State) (lp : Nat) (a : Arriving) :
    (s.setArriving lp a).draws = s.draws := rfl
@[simp] theorem State.setArriving_pending (s : State) (lp : Nat) (a : Arriving) :
    (s.setArriving lp a).pending = s.pending := rfl

/-! State.setCurrent -/

@[simp] theorem State.setCurrent_pkg (s : State) (lp : Nat) (c : Option Current) :
    (s.setCurrent lp c).pkg = s.pkg := rfl
@[simp] theorem State.setCurrent_beat (s : State) (lp : Nat) (c : Option Current) :
    (s.setCurrent lp c).beat = s.beat := rfl
@[simp] theorem State.setCurrent_agenda (s : State) (lp : Nat) (c : Option Current) :
    (s.setCurrent lp c).agenda = s.agenda := rfl
@[simp] theorem State.setCurrent_mgmt (s : State) (lp : Nat) (c : Option Current) :
    (s.setCurrent lp c).mgmt = s.mgmt := rfl
@[simp] theorem State.setCurrent_ring (s : State) (lp : Nat) (c : Option Current) :
    (s.setCurrent lp c).ring = s.ring := rfl
@[simp] theorem State.setCurrent_tables (s : State) (lp : Nat) (c : Option Current) :
    (s.setCurrent lp c).tables = s.tables := rfl
@[simp] theorem State.setCurrent_recov (s : State) (lp : Nat) (c : Option Current) :
    (s.setCurrent lp c).recov = s.recov := rfl
@[simp] theorem State.setCurrent_mem (s : State) (lp : Nat) (c : Option Current) :
    (s.setCurrent lp c).mem = s.mem := rfl
@[simp] theorem State.setCurrent_coll (s : State) (lp : Nat) (c : Option Current) :
    (s.setCurrent lp c).coll = s.coll := rfl
@[simp] theorem State.setCurrent_ports (s : State) (lp : Nat) (c : Option Current) :
    (s.setCurrent lp c).ports = s.ports := rfl
@[simp] theorem State.setCurrent_power (s : State) (lp : Nat) (c : Option Current) :
    (s.setCurrent lp c).power = s.power := rfl
@[simp] theorem State.setCurrent_bist (s : State) (lp : Nat) (c : Option Current) :
    (s.setCurrent lp c).bist = s.bist := rfl
@[simp] theorem State.setCurrent_ctr (s : State) (lp : Nat) (c : Option Current) :
    (s.setCurrent lp c).ctr = s.ctr := rfl
@[simp] theorem State.setCurrent_side (s : State) (lp : Nat) (c : Option Current) :
    (s.setCurrent lp c).side = s.side := rfl
@[simp] theorem State.setCurrent_out (s : State) (lp : Nat) (c : Option Current) :
    (s.setCurrent lp c).out = s.out := rfl
@[simp] theorem State.setCurrent_draws (s : State) (lp : Nat) (c : Option Current) :
    (s.setCurrent lp c).draws = s.draws := rfl
@[simp] theorem State.setCurrent_pending (s : State) (lp : Nat) (c : Option Current) :
    (s.setCurrent lp c).pending = s.pending := rfl

/-! State.setFifo -/

@[simp] theorem State.setFifo_pkg (s : State) (u : Nat) (l : List Staged) :
    (s.setFifo u l).pkg = s.pkg := rfl
@[simp] theorem State.setFifo_beat (s : State) (u : Nat) (l : List Staged) :
    (s.setFifo u l).beat = s.beat := rfl
@[simp] theorem State.setFifo_agenda (s : State) (u : Nat) (l : List Staged) :
    (s.setFifo u l).agenda = s.agenda := rfl
@[simp] theorem State.setFifo_mgmt (s : State) (u : Nat) (l : List Staged) :
    (s.setFifo u l).mgmt = s.mgmt := rfl
@[simp] theorem State.setFifo_ring (s : State) (u : Nat) (l : List Staged) :
    (s.setFifo u l).ring = s.ring := rfl
@[simp] theorem State.setFifo_tables (s : State) (u : Nat) (l : List Staged) :
    (s.setFifo u l).tables = s.tables := rfl
@[simp] theorem State.setFifo_recov (s : State) (u : Nat) (l : List Staged) :
    (s.setFifo u l).recov = s.recov := rfl
@[simp] theorem State.setFifo_mem (s : State) (u : Nat) (l : List Staged) :
    (s.setFifo u l).mem = s.mem := rfl
@[simp] theorem State.setFifo_coll (s : State) (u : Nat) (l : List Staged) :
    (s.setFifo u l).coll = s.coll := rfl
@[simp] theorem State.setFifo_ports (s : State) (u : Nat) (l : List Staged) :
    (s.setFifo u l).ports = s.ports := rfl
@[simp] theorem State.setFifo_power (s : State) (u : Nat) (l : List Staged) :
    (s.setFifo u l).power = s.power := rfl
@[simp] theorem State.setFifo_bist (s : State) (u : Nat) (l : List Staged) :
    (s.setFifo u l).bist = s.bist := rfl
@[simp] theorem State.setFifo_ctr (s : State) (u : Nat) (l : List Staged) :
    (s.setFifo u l).ctr = s.ctr := rfl
@[simp] theorem State.setFifo_side (s : State) (u : Nat) (l : List Staged) :
    (s.setFifo u l).side = s.side := rfl
@[simp] theorem State.setFifo_out (s : State) (u : Nat) (l : List Staged) :
    (s.setFifo u l).out = s.out := rfl
@[simp] theorem State.setFifo_draws (s : State) (u : Nat) (l : List Staged) :
    (s.setFifo u l).draws = s.draws := rfl
@[simp] theorem State.setFifo_pending (s : State) (u : Nat) (l : List Staged) :
    (s.setFifo u l).pending = s.pending := rfl

/-! State.setMcFifo -/

@[simp] theorem State.setMcFifo_pkg (s : State) (lp : Nat) (l : List Staged) :
    (s.setMcFifo lp l).pkg = s.pkg := rfl
@[simp] theorem State.setMcFifo_beat (s : State) (lp : Nat) (l : List Staged) :
    (s.setMcFifo lp l).beat = s.beat := rfl
@[simp] theorem State.setMcFifo_agenda (s : State) (lp : Nat) (l : List Staged) :
    (s.setMcFifo lp l).agenda = s.agenda := rfl
@[simp] theorem State.setMcFifo_mgmt (s : State) (lp : Nat) (l : List Staged) :
    (s.setMcFifo lp l).mgmt = s.mgmt := rfl
@[simp] theorem State.setMcFifo_ring (s : State) (lp : Nat) (l : List Staged) :
    (s.setMcFifo lp l).ring = s.ring := rfl
@[simp] theorem State.setMcFifo_tables (s : State) (lp : Nat) (l : List Staged) :
    (s.setMcFifo lp l).tables = s.tables := rfl
@[simp] theorem State.setMcFifo_recov (s : State) (lp : Nat) (l : List Staged) :
    (s.setMcFifo lp l).recov = s.recov := rfl
@[simp] theorem State.setMcFifo_mem (s : State) (lp : Nat) (l : List Staged) :
    (s.setMcFifo lp l).mem = s.mem := rfl
@[simp] theorem State.setMcFifo_coll (s : State) (lp : Nat) (l : List Staged) :
    (s.setMcFifo lp l).coll = s.coll := rfl
@[simp] theorem State.setMcFifo_ports (s : State) (lp : Nat) (l : List Staged) :
    (s.setMcFifo lp l).ports = s.ports := rfl
@[simp] theorem State.setMcFifo_power (s : State) (lp : Nat) (l : List Staged) :
    (s.setMcFifo lp l).power = s.power := rfl
@[simp] theorem State.setMcFifo_bist (s : State) (lp : Nat) (l : List Staged) :
    (s.setMcFifo lp l).bist = s.bist := rfl
@[simp] theorem State.setMcFifo_ctr (s : State) (lp : Nat) (l : List Staged) :
    (s.setMcFifo lp l).ctr = s.ctr := rfl
@[simp] theorem State.setMcFifo_side (s : State) (lp : Nat) (l : List Staged) :
    (s.setMcFifo lp l).side = s.side := rfl
@[simp] theorem State.setMcFifo_out (s : State) (lp : Nat) (l : List Staged) :
    (s.setMcFifo lp l).out = s.out := rfl
@[simp] theorem State.setMcFifo_draws (s : State) (lp : Nat) (l : List Staged) :
    (s.setMcFifo lp l).draws = s.draws := rfl
@[simp] theorem State.setMcFifo_pending (s : State) (lp : Nat) (l : List Staged) :
    (s.setMcFifo lp l).pending = s.pending := rfl

/-! State.dropAgentOut -/

@[simp] theorem State.dropAgentOut_pkg (s : State) (lp : Nat) :
    (s.dropAgentOut lp).pkg = s.pkg := rfl
@[simp] theorem State.dropAgentOut_beat (s : State) (lp : Nat) :
    (s.dropAgentOut lp).beat = s.beat := rfl
@[simp] theorem State.dropAgentOut_agenda (s : State) (lp : Nat) :
    (s.dropAgentOut lp).agenda = s.agenda := rfl
@[simp] theorem State.dropAgentOut_mgmt (s : State) (lp : Nat) :
    (s.dropAgentOut lp).mgmt = s.mgmt := rfl
@[simp] theorem State.dropAgentOut_ring (s : State) (lp : Nat) :
    (s.dropAgentOut lp).ring = s.ring := rfl
@[simp] theorem State.dropAgentOut_tables (s : State) (lp : Nat) :
    (s.dropAgentOut lp).tables = s.tables := rfl
@[simp] theorem State.dropAgentOut_recov (s : State) (lp : Nat) :
    (s.dropAgentOut lp).recov = s.recov := rfl
@[simp] theorem State.dropAgentOut_mem (s : State) (lp : Nat) :
    (s.dropAgentOut lp).mem = s.mem := rfl
@[simp] theorem State.dropAgentOut_coll (s : State) (lp : Nat) :
    (s.dropAgentOut lp).coll = s.coll := rfl
@[simp] theorem State.dropAgentOut_ports (s : State) (lp : Nat) :
    (s.dropAgentOut lp).ports = s.ports := rfl
@[simp] theorem State.dropAgentOut_power (s : State) (lp : Nat) :
    (s.dropAgentOut lp).power = s.power := rfl
@[simp] theorem State.dropAgentOut_bist (s : State) (lp : Nat) :
    (s.dropAgentOut lp).bist = s.bist := rfl
@[simp] theorem State.dropAgentOut_ctr (s : State) (lp : Nat) :
    (s.dropAgentOut lp).ctr = s.ctr := rfl
@[simp] theorem State.dropAgentOut_side (s : State) (lp : Nat) :
    (s.dropAgentOut lp).side = s.side := rfl
@[simp] theorem State.dropAgentOut_out (s : State) (lp : Nat) :
    (s.dropAgentOut lp).out = s.out := rfl
@[simp] theorem State.dropAgentOut_draws (s : State) (lp : Nat) :
    (s.dropAgentOut lp).draws = s.draws := rfl
@[simp] theorem State.dropAgentOut_pending (s : State) (lp : Nat) :
    (s.dropAgentOut lp).pending = s.pending := rfl

/-! State.updPower -/

@[simp] theorem State.updPower_pkg (s : State) (f : Power → Power) :
    (s.updPower f).pkg = s.pkg := rfl
@[simp] theorem State.updPower_beat (s : State) (f : Power → Power) :
    (s.updPower f).beat = s.beat := rfl
@[simp] theorem State.updPower_agenda (s : State) (f : Power → Power) :
    (s.updPower f).agenda = s.agenda := rfl
@[simp] theorem State.updPower_mgmt (s : State) (f : Power → Power) :
    (s.updPower f).mgmt = s.mgmt := rfl
@[simp] theorem State.updPower_ring (s : State) (f : Power → Power) :
    (s.updPower f).ring = s.ring := rfl
@[simp] theorem State.updPower_tables (s : State) (f : Power → Power) :
    (s.updPower f).tables = s.tables := rfl
@[simp] theorem State.updPower_sw (s : State) (f : Power → Power) :
    (s.updPower f).sw = s.sw := rfl
@[simp] theorem State.updPower_recov (s : State) (f : Power → Power) :
    (s.updPower f).recov = s.recov := rfl
@[simp] theorem State.updPower_mem (s : State) (f : Power → Power) :
    (s.updPower f).mem = s.mem := rfl
@[simp] theorem State.updPower_coll (s : State) (f : Power → Power) :
    (s.updPower f).coll = s.coll := rfl
@[simp] theorem State.updPower_ports (s : State) (f : Power → Power) :
    (s.updPower f).ports = s.ports := rfl
@[simp] theorem State.updPower_bist (s : State) (f : Power → Power) :
    (s.updPower f).bist = s.bist := rfl
@[simp] theorem State.updPower_ctr (s : State) (f : Power → Power) :
    (s.updPower f).ctr = s.ctr := rfl
@[simp] theorem State.updPower_side (s : State) (f : Power → Power) :
    (s.updPower f).side = s.side := rfl
@[simp] theorem State.updPower_out (s : State) (f : Power → Power) :
    (s.updPower f).out = s.out := rfl
@[simp] theorem State.updPower_draws (s : State) (f : Power → Power) :
    (s.updPower f).draws = s.draws := rfl
@[simp] theorem State.updPower_pending (s : State) (f : Power → Power) :
    (s.updPower f).pending = s.pending := rfl

/-! State.updBist -/

@[simp] theorem State.updBist_pkg (s : State) (f : Bist → Bist) :
    (s.updBist f).pkg = s.pkg := rfl
@[simp] theorem State.updBist_beat (s : State) (f : Bist → Bist) :
    (s.updBist f).beat = s.beat := rfl
@[simp] theorem State.updBist_agenda (s : State) (f : Bist → Bist) :
    (s.updBist f).agenda = s.agenda := rfl
@[simp] theorem State.updBist_mgmt (s : State) (f : Bist → Bist) :
    (s.updBist f).mgmt = s.mgmt := rfl
@[simp] theorem State.updBist_ring (s : State) (f : Bist → Bist) :
    (s.updBist f).ring = s.ring := rfl
@[simp] theorem State.updBist_tables (s : State) (f : Bist → Bist) :
    (s.updBist f).tables = s.tables := rfl
@[simp] theorem State.updBist_sw (s : State) (f : Bist → Bist) :
    (s.updBist f).sw = s.sw := rfl
@[simp] theorem State.updBist_recov (s : State) (f : Bist → Bist) :
    (s.updBist f).recov = s.recov := rfl
@[simp] theorem State.updBist_mem (s : State) (f : Bist → Bist) :
    (s.updBist f).mem = s.mem := rfl
@[simp] theorem State.updBist_coll (s : State) (f : Bist → Bist) :
    (s.updBist f).coll = s.coll := rfl
@[simp] theorem State.updBist_ports (s : State) (f : Bist → Bist) :
    (s.updBist f).ports = s.ports := rfl
@[simp] theorem State.updBist_power (s : State) (f : Bist → Bist) :
    (s.updBist f).power = s.power := rfl
@[simp] theorem State.updBist_ctr (s : State) (f : Bist → Bist) :
    (s.updBist f).ctr = s.ctr := rfl
@[simp] theorem State.updBist_side (s : State) (f : Bist → Bist) :
    (s.updBist f).side = s.side := rfl
@[simp] theorem State.updBist_out (s : State) (f : Bist → Bist) :
    (s.updBist f).out = s.out := rfl
@[simp] theorem State.updBist_draws (s : State) (f : Bist → Bist) :
    (s.updBist f).draws = s.draws := rfl
@[simp] theorem State.updBist_pending (s : State) (f : Bist → Bist) :
    (s.updBist f).pending = s.pending := rfl

/-! State.dropImage -/

@[simp] theorem State.dropImage_pkg (s : State) (h : BitVec 32) :
    (s.dropImage h).pkg = s.pkg := rfl
@[simp] theorem State.dropImage_beat (s : State) (h : BitVec 32) :
    (s.dropImage h).beat = s.beat := rfl
@[simp] theorem State.dropImage_agenda (s : State) (h : BitVec 32) :
    (s.dropImage h).agenda = s.agenda := rfl
@[simp] theorem State.dropImage_ring (s : State) (h : BitVec 32) :
    (s.dropImage h).ring = s.ring := rfl
@[simp] theorem State.dropImage_tables (s : State) (h : BitVec 32) :
    (s.dropImage h).tables = s.tables := rfl
@[simp] theorem State.dropImage_sw (s : State) (h : BitVec 32) :
    (s.dropImage h).sw = s.sw := rfl
@[simp] theorem State.dropImage_recov (s : State) (h : BitVec 32) :
    (s.dropImage h).recov = s.recov := rfl
@[simp] theorem State.dropImage_mem (s : State) (h : BitVec 32) :
    (s.dropImage h).mem = s.mem := rfl
@[simp] theorem State.dropImage_coll (s : State) (h : BitVec 32) :
    (s.dropImage h).coll = s.coll := rfl
@[simp] theorem State.dropImage_ports (s : State) (h : BitVec 32) :
    (s.dropImage h).ports = s.ports := rfl
@[simp] theorem State.dropImage_power (s : State) (h : BitVec 32) :
    (s.dropImage h).power = s.power := rfl
@[simp] theorem State.dropImage_bist (s : State) (h : BitVec 32) :
    (s.dropImage h).bist = s.bist := rfl
@[simp] theorem State.dropImage_ctr (s : State) (h : BitVec 32) :
    (s.dropImage h).ctr = s.ctr := rfl
@[simp] theorem State.dropImage_side (s : State) (h : BitVec 32) :
    (s.dropImage h).side = s.side := rfl
@[simp] theorem State.dropImage_out (s : State) (h : BitVec 32) :
    (s.dropImage h).out = s.out := rfl
@[simp] theorem State.dropImage_draws (s : State) (h : BitVec 32) :
    (s.dropImage h).draws = s.draws := rfl
@[simp] theorem State.dropImage_pending (s : State) (h : BitVec 32) :
    (s.dropImage h).pending = s.pending := rfl

/-! State.setImageSt -/

@[simp] theorem State.setImageSt_pkg (s : State) (h : BitVec 32) (st : ImageSt) :
    (s.setImageSt h st).pkg = s.pkg := rfl
@[simp] theorem State.setImageSt_beat (s : State) (h : BitVec 32) (st : ImageSt) :
    (s.setImageSt h st).beat = s.beat := rfl
@[simp] theorem State.setImageSt_agenda (s : State) (h : BitVec 32) (st : ImageSt) :
    (s.setImageSt h st).agenda = s.agenda := rfl
@[simp] theorem State.setImageSt_ring (s : State) (h : BitVec 32) (st : ImageSt) :
    (s.setImageSt h st).ring = s.ring := rfl
@[simp] theorem State.setImageSt_tables (s : State) (h : BitVec 32) (st : ImageSt) :
    (s.setImageSt h st).tables = s.tables := rfl
@[simp] theorem State.setImageSt_sw (s : State) (h : BitVec 32) (st : ImageSt) :
    (s.setImageSt h st).sw = s.sw := rfl
@[simp] theorem State.setImageSt_recov (s : State) (h : BitVec 32) (st : ImageSt) :
    (s.setImageSt h st).recov = s.recov := rfl
@[simp] theorem State.setImageSt_mem (s : State) (h : BitVec 32) (st : ImageSt) :
    (s.setImageSt h st).mem = s.mem := rfl
@[simp] theorem State.setImageSt_coll (s : State) (h : BitVec 32) (st : ImageSt) :
    (s.setImageSt h st).coll = s.coll := rfl
@[simp] theorem State.setImageSt_ports (s : State) (h : BitVec 32) (st : ImageSt) :
    (s.setImageSt h st).ports = s.ports := rfl
@[simp] theorem State.setImageSt_power (s : State) (h : BitVec 32) (st : ImageSt) :
    (s.setImageSt h st).power = s.power := rfl
@[simp] theorem State.setImageSt_bist (s : State) (h : BitVec 32) (st : ImageSt) :
    (s.setImageSt h st).bist = s.bist := rfl
@[simp] theorem State.setImageSt_ctr (s : State) (h : BitVec 32) (st : ImageSt) :
    (s.setImageSt h st).ctr = s.ctr := rfl
@[simp] theorem State.setImageSt_side (s : State) (h : BitVec 32) (st : ImageSt) :
    (s.setImageSt h st).side = s.side := rfl
@[simp] theorem State.setImageSt_out (s : State) (h : BitVec 32) (st : ImageSt) :
    (s.setImageSt h st).out = s.out := rfl
@[simp] theorem State.setImageSt_draws (s : State) (h : BitVec 32) (st : ImageSt) :
    (s.setImageSt h st).draws = s.draws := rfl
@[simp] theorem State.setImageSt_pending (s : State) (h : BitVec 32) (st : ImageSt) :
    (s.setImageSt h st).pending = s.pending := rfl

/-! State.noteApply -/

@[simp] theorem State.noteApply_pkg (s : State) (t : Nat) (st : BitVec 8) (detail : Nat) :
    (s.noteApply t st detail).pkg = s.pkg := rfl
@[simp] theorem State.noteApply_beat (s : State) (t : Nat) (st : BitVec 8) (detail : Nat) :
    (s.noteApply t st detail).beat = s.beat := rfl
@[simp] theorem State.noteApply_agenda (s : State) (t : Nat) (st : BitVec 8) (detail : Nat) :
    (s.noteApply t st detail).agenda = s.agenda := rfl
@[simp] theorem State.noteApply_mgmt (s : State) (t : Nat) (st : BitVec 8) (detail : Nat) :
    (s.noteApply t st detail).mgmt = s.mgmt := rfl
@[simp] theorem State.noteApply_ring (s : State) (t : Nat) (st : BitVec 8) (detail : Nat) :
    (s.noteApply t st detail).ring = s.ring := rfl
@[simp] theorem State.noteApply_sw (s : State) (t : Nat) (st : BitVec 8) (detail : Nat) :
    (s.noteApply t st detail).sw = s.sw := rfl
@[simp] theorem State.noteApply_recov (s : State) (t : Nat) (st : BitVec 8) (detail : Nat) :
    (s.noteApply t st detail).recov = s.recov := rfl
@[simp] theorem State.noteApply_mem (s : State) (t : Nat) (st : BitVec 8) (detail : Nat) :
    (s.noteApply t st detail).mem = s.mem := rfl
@[simp] theorem State.noteApply_coll (s : State) (t : Nat) (st : BitVec 8) (detail : Nat) :
    (s.noteApply t st detail).coll = s.coll := rfl
@[simp] theorem State.noteApply_ports (s : State) (t : Nat) (st : BitVec 8) (detail : Nat) :
    (s.noteApply t st detail).ports = s.ports := rfl
@[simp] theorem State.noteApply_power (s : State) (t : Nat) (st : BitVec 8) (detail : Nat) :
    (s.noteApply t st detail).power = s.power := rfl
@[simp] theorem State.noteApply_bist (s : State) (t : Nat) (st : BitVec 8) (detail : Nat) :
    (s.noteApply t st detail).bist = s.bist := rfl
@[simp] theorem State.noteApply_ctr (s : State) (t : Nat) (st : BitVec 8) (detail : Nat) :
    (s.noteApply t st detail).ctr = s.ctr := rfl
@[simp] theorem State.noteApply_side (s : State) (t : Nat) (st : BitVec 8) (detail : Nat) :
    (s.noteApply t st detail).side = s.side := rfl
@[simp] theorem State.noteApply_out (s : State) (t : Nat) (st : BitVec 8) (detail : Nat) :
    (s.noteApply t st detail).out = s.out := rfl
@[simp] theorem State.noteApply_draws (s : State) (t : Nat) (st : BitVec 8) (detail : Nat) :
    (s.noteApply t st detail).draws = s.draws := rfl
@[simp] theorem State.noteApply_pending (s : State) (t : Nat) (st : BitVec 8) (detail : Nat) :
    (s.noteApply t st detail).pending = s.pending := rfl

/-! State.updBeat -/

@[simp] theorem State.updBeat_pkg (s : State) (f : BeatUnit → BeatUnit) :
    (s.updBeat f).pkg = s.pkg := rfl
@[simp] theorem State.updBeat_agenda (s : State) (f : BeatUnit → BeatUnit) :
    (s.updBeat f).agenda = s.agenda := rfl
@[simp] theorem State.updBeat_mgmt (s : State) (f : BeatUnit → BeatUnit) :
    (s.updBeat f).mgmt = s.mgmt := rfl
@[simp] theorem State.updBeat_ring (s : State) (f : BeatUnit → BeatUnit) :
    (s.updBeat f).ring = s.ring := rfl
@[simp] theorem State.updBeat_tables (s : State) (f : BeatUnit → BeatUnit) :
    (s.updBeat f).tables = s.tables := rfl
@[simp] theorem State.updBeat_sw (s : State) (f : BeatUnit → BeatUnit) :
    (s.updBeat f).sw = s.sw := rfl
@[simp] theorem State.updBeat_recov (s : State) (f : BeatUnit → BeatUnit) :
    (s.updBeat f).recov = s.recov := rfl
@[simp] theorem State.updBeat_mem (s : State) (f : BeatUnit → BeatUnit) :
    (s.updBeat f).mem = s.mem := rfl
@[simp] theorem State.updBeat_coll (s : State) (f : BeatUnit → BeatUnit) :
    (s.updBeat f).coll = s.coll := rfl
@[simp] theorem State.updBeat_ports (s : State) (f : BeatUnit → BeatUnit) :
    (s.updBeat f).ports = s.ports := rfl
@[simp] theorem State.updBeat_power (s : State) (f : BeatUnit → BeatUnit) :
    (s.updBeat f).power = s.power := rfl
@[simp] theorem State.updBeat_bist (s : State) (f : BeatUnit → BeatUnit) :
    (s.updBeat f).bist = s.bist := rfl
@[simp] theorem State.updBeat_ctr (s : State) (f : BeatUnit → BeatUnit) :
    (s.updBeat f).ctr = s.ctr := rfl
@[simp] theorem State.updBeat_side (s : State) (f : BeatUnit → BeatUnit) :
    (s.updBeat f).side = s.side := rfl
@[simp] theorem State.updBeat_out (s : State) (f : BeatUnit → BeatUnit) :
    (s.updBeat f).out = s.out := rfl
@[simp] theorem State.updBeat_draws (s : State) (f : BeatUnit → BeatUnit) :
    (s.updBeat f).draws = s.draws := rfl
@[simp] theorem State.updBeat_pending (s : State) (f : BeatUnit → BeatUnit) :
    (s.updBeat f).pending = s.pending := rfl

/-! State.noteBroughtIn -/

@[simp] theorem State.noteBroughtIn_pkg (s : State) (k : SpareKind) (n : Nat) :
    (s.noteBroughtIn k n).pkg = s.pkg := rfl
@[simp] theorem State.noteBroughtIn_beat (s : State) (k : SpareKind) (n : Nat) :
    (s.noteBroughtIn k n).beat = s.beat := rfl
@[simp] theorem State.noteBroughtIn_agenda (s : State) (k : SpareKind) (n : Nat) :
    (s.noteBroughtIn k n).agenda = s.agenda := rfl
@[simp] theorem State.noteBroughtIn_ring (s : State) (k : SpareKind) (n : Nat) :
    (s.noteBroughtIn k n).ring = s.ring := rfl
@[simp] theorem State.noteBroughtIn_tables (s : State) (k : SpareKind) (n : Nat) :
    (s.noteBroughtIn k n).tables = s.tables := rfl
@[simp] theorem State.noteBroughtIn_sw (s : State) (k : SpareKind) (n : Nat) :
    (s.noteBroughtIn k n).sw = s.sw := rfl
@[simp] theorem State.noteBroughtIn_recov (s : State) (k : SpareKind) (n : Nat) :
    (s.noteBroughtIn k n).recov = s.recov := rfl
@[simp] theorem State.noteBroughtIn_mem (s : State) (k : SpareKind) (n : Nat) :
    (s.noteBroughtIn k n).mem = s.mem := rfl
@[simp] theorem State.noteBroughtIn_coll (s : State) (k : SpareKind) (n : Nat) :
    (s.noteBroughtIn k n).coll = s.coll := rfl
@[simp] theorem State.noteBroughtIn_ports (s : State) (k : SpareKind) (n : Nat) :
    (s.noteBroughtIn k n).ports = s.ports := rfl
@[simp] theorem State.noteBroughtIn_power (s : State) (k : SpareKind) (n : Nat) :
    (s.noteBroughtIn k n).power = s.power := rfl
@[simp] theorem State.noteBroughtIn_bist (s : State) (k : SpareKind) (n : Nat) :
    (s.noteBroughtIn k n).bist = s.bist := rfl
@[simp] theorem State.noteBroughtIn_ctr (s : State) (k : SpareKind) (n : Nat) :
    (s.noteBroughtIn k n).ctr = s.ctr := rfl
@[simp] theorem State.noteBroughtIn_side (s : State) (k : SpareKind) (n : Nat) :
    (s.noteBroughtIn k n).side = s.side := rfl
@[simp] theorem State.noteBroughtIn_out (s : State) (k : SpareKind) (n : Nat) :
    (s.noteBroughtIn k n).out = s.out := rfl
@[simp] theorem State.noteBroughtIn_draws (s : State) (k : SpareKind) (n : Nat) :
    (s.noteBroughtIn k n).draws = s.draws := rfl
@[simp] theorem State.noteBroughtIn_pending (s : State) (k : SpareKind) (n : Nat) :
    (s.noteBroughtIn k n).pending = s.pending := rfl

/-! State.arrive -/

@[simp] theorem State.arrive_pkg (s : State) (p : Packet) :
    (s.arrive p).pkg = s.pkg := rfl
@[simp] theorem State.arrive_beat (s : State) (p : Packet) :
    (s.arrive p).beat = s.beat := rfl
@[simp] theorem State.arrive_agenda (s : State) (p : Packet) :
    (s.arrive p).agenda = s.agenda := rfl
@[simp] theorem State.arrive_ring (s : State) (p : Packet) :
    (s.arrive p).ring = s.ring := rfl
@[simp] theorem State.arrive_tables (s : State) (p : Packet) :
    (s.arrive p).tables = s.tables := rfl
@[simp] theorem State.arrive_sw (s : State) (p : Packet) :
    (s.arrive p).sw = s.sw := rfl
@[simp] theorem State.arrive_recov (s : State) (p : Packet) :
    (s.arrive p).recov = s.recov := rfl
@[simp] theorem State.arrive_mem (s : State) (p : Packet) :
    (s.arrive p).mem = s.mem := rfl
@[simp] theorem State.arrive_coll (s : State) (p : Packet) :
    (s.arrive p).coll = s.coll := rfl
@[simp] theorem State.arrive_ports (s : State) (p : Packet) :
    (s.arrive p).ports = s.ports := rfl
@[simp] theorem State.arrive_power (s : State) (p : Packet) :
    (s.arrive p).power = s.power := rfl
@[simp] theorem State.arrive_bist (s : State) (p : Packet) :
    (s.arrive p).bist = s.bist := rfl
@[simp] theorem State.arrive_ctr (s : State) (p : Packet) :
    (s.arrive p).ctr = s.ctr := rfl
@[simp] theorem State.arrive_side (s : State) (p : Packet) :
    (s.arrive p).side = s.side := rfl
@[simp] theorem State.arrive_out (s : State) (p : Packet) :
    (s.arrive p).out = s.out := rfl
@[simp] theorem State.arrive_draws (s : State) (p : Packet) :
    (s.arrive p).draws = s.draws := rfl
@[simp] theorem State.arrive_pending (s : State) (p : Packet) :
    (s.arrive p).pending = s.pending := rfl

/-! State.updRing -/

@[simp] theorem State.updRing_pkg (s : State) (f : Ring → Ring) :
    (s.updRing f).pkg = s.pkg := rfl
@[simp] theorem State.updRing_beat (s : State) (f : Ring → Ring) :
    (s.updRing f).beat = s.beat := rfl
@[simp] theorem State.updRing_agenda (s : State) (f : Ring → Ring) :
    (s.updRing f).agenda = s.agenda := rfl
@[simp] theorem State.updRing_mgmt (s : State) (f : Ring → Ring) :
    (s.updRing f).mgmt = s.mgmt := rfl
@[simp] theorem State.updRing_tables (s : State) (f : Ring → Ring) :
    (s.updRing f).tables = s.tables := rfl
@[simp] theorem State.updRing_sw (s : State) (f : Ring → Ring) :
    (s.updRing f).sw = s.sw := rfl
@[simp] theorem State.updRing_recov (s : State) (f : Ring → Ring) :
    (s.updRing f).recov = s.recov := rfl
@[simp] theorem State.updRing_mem (s : State) (f : Ring → Ring) :
    (s.updRing f).mem = s.mem := rfl
@[simp] theorem State.updRing_coll (s : State) (f : Ring → Ring) :
    (s.updRing f).coll = s.coll := rfl
@[simp] theorem State.updRing_ports (s : State) (f : Ring → Ring) :
    (s.updRing f).ports = s.ports := rfl
@[simp] theorem State.updRing_power (s : State) (f : Ring → Ring) :
    (s.updRing f).power = s.power := rfl
@[simp] theorem State.updRing_bist (s : State) (f : Ring → Ring) :
    (s.updRing f).bist = s.bist := rfl
@[simp] theorem State.updRing_ctr (s : State) (f : Ring → Ring) :
    (s.updRing f).ctr = s.ctr := rfl
@[simp] theorem State.updRing_side (s : State) (f : Ring → Ring) :
    (s.updRing f).side = s.side := rfl
@[simp] theorem State.updRing_out (s : State) (f : Ring → Ring) :
    (s.updRing f).out = s.out := rfl
@[simp] theorem State.updRing_draws (s : State) (f : Ring → Ring) :
    (s.updRing f).draws = s.draws := rfl
@[simp] theorem State.updRing_pending (s : State) (f : Ring → Ring) :
    (s.updRing f).pending = s.pending := rfl

/-! State.updSide -/

@[simp] theorem State.updSide_pkg (s : State) (f : Sideband → Sideband) :
    (s.updSide f).pkg = s.pkg := rfl
@[simp] theorem State.updSide_beat (s : State) (f : Sideband → Sideband) :
    (s.updSide f).beat = s.beat := rfl
@[simp] theorem State.updSide_agenda (s : State) (f : Sideband → Sideband) :
    (s.updSide f).agenda = s.agenda := rfl
@[simp] theorem State.updSide_mgmt (s : State) (f : Sideband → Sideband) :
    (s.updSide f).mgmt = s.mgmt := rfl
@[simp] theorem State.updSide_ring (s : State) (f : Sideband → Sideband) :
    (s.updSide f).ring = s.ring := rfl
@[simp] theorem State.updSide_tables (s : State) (f : Sideband → Sideband) :
    (s.updSide f).tables = s.tables := rfl
@[simp] theorem State.updSide_sw (s : State) (f : Sideband → Sideband) :
    (s.updSide f).sw = s.sw := rfl
@[simp] theorem State.updSide_recov (s : State) (f : Sideband → Sideband) :
    (s.updSide f).recov = s.recov := rfl
@[simp] theorem State.updSide_mem (s : State) (f : Sideband → Sideband) :
    (s.updSide f).mem = s.mem := rfl
@[simp] theorem State.updSide_coll (s : State) (f : Sideband → Sideband) :
    (s.updSide f).coll = s.coll := rfl
@[simp] theorem State.updSide_ports (s : State) (f : Sideband → Sideband) :
    (s.updSide f).ports = s.ports := rfl
@[simp] theorem State.updSide_power (s : State) (f : Sideband → Sideband) :
    (s.updSide f).power = s.power := rfl
@[simp] theorem State.updSide_bist (s : State) (f : Sideband → Sideband) :
    (s.updSide f).bist = s.bist := rfl
@[simp] theorem State.updSide_ctr (s : State) (f : Sideband → Sideband) :
    (s.updSide f).ctr = s.ctr := rfl
@[simp] theorem State.updSide_out (s : State) (f : Sideband → Sideband) :
    (s.updSide f).out = s.out := rfl
@[simp] theorem State.updSide_draws (s : State) (f : Sideband → Sideband) :
    (s.updSide f).draws = s.draws := rfl
@[simp] theorem State.updSide_pending (s : State) (f : Sideband → Sideband) :
    (s.updSide f).pending = s.pending := rfl

/-! State.updHead -/

@[simp] theorem State.updHead_pkg (s : State) (lp : Nat) (f : InFrame → InFrame) :
    (s.updHead lp f).pkg = s.pkg := rfl
@[simp] theorem State.updHead_beat (s : State) (lp : Nat) (f : InFrame → InFrame) :
    (s.updHead lp f).beat = s.beat := rfl
@[simp] theorem State.updHead_agenda (s : State) (lp : Nat) (f : InFrame → InFrame) :
    (s.updHead lp f).agenda = s.agenda := rfl
@[simp] theorem State.updHead_mgmt (s : State) (lp : Nat) (f : InFrame → InFrame) :
    (s.updHead lp f).mgmt = s.mgmt := rfl
@[simp] theorem State.updHead_ring (s : State) (lp : Nat) (f : InFrame → InFrame) :
    (s.updHead lp f).ring = s.ring := rfl
@[simp] theorem State.updHead_tables (s : State) (lp : Nat) (f : InFrame → InFrame) :
    (s.updHead lp f).tables = s.tables := rfl
@[simp] theorem State.updHead_recov (s : State) (lp : Nat) (f : InFrame → InFrame) :
    (s.updHead lp f).recov = s.recov := rfl
@[simp] theorem State.updHead_mem (s : State) (lp : Nat) (f : InFrame → InFrame) :
    (s.updHead lp f).mem = s.mem := rfl
@[simp] theorem State.updHead_coll (s : State) (lp : Nat) (f : InFrame → InFrame) :
    (s.updHead lp f).coll = s.coll := rfl
@[simp] theorem State.updHead_ports (s : State) (lp : Nat) (f : InFrame → InFrame) :
    (s.updHead lp f).ports = s.ports := rfl
@[simp] theorem State.updHead_power (s : State) (lp : Nat) (f : InFrame → InFrame) :
    (s.updHead lp f).power = s.power := rfl
@[simp] theorem State.updHead_bist (s : State) (lp : Nat) (f : InFrame → InFrame) :
    (s.updHead lp f).bist = s.bist := rfl
@[simp] theorem State.updHead_ctr (s : State) (lp : Nat) (f : InFrame → InFrame) :
    (s.updHead lp f).ctr = s.ctr := rfl
@[simp] theorem State.updHead_side (s : State) (lp : Nat) (f : InFrame → InFrame) :
    (s.updHead lp f).side = s.side := rfl
@[simp] theorem State.updHead_out (s : State) (lp : Nat) (f : InFrame → InFrame) :
    (s.updHead lp f).out = s.out := rfl
@[simp] theorem State.updHead_draws (s : State) (lp : Nat) (f : InFrame → InFrame) :
    (s.updHead lp f).draws = s.draws := rfl
@[simp] theorem State.updHead_pending (s : State) (lp : Nat) (f : InFrame → InFrame) :
    (s.updHead lp f).pending = s.pending := rfl

/-! State.updMem -/

@[simp] theorem State.updMem_pkg (s : State) (f : FabMem → FabMem) :
    (s.updMem f).pkg = s.pkg := rfl
@[simp] theorem State.updMem_beat (s : State) (f : FabMem → FabMem) :
    (s.updMem f).beat = s.beat := rfl
@[simp] theorem State.updMem_agenda (s : State) (f : FabMem → FabMem) :
    (s.updMem f).agenda = s.agenda := rfl
@[simp] theorem State.updMem_mgmt (s : State) (f : FabMem → FabMem) :
    (s.updMem f).mgmt = s.mgmt := rfl
@[simp] theorem State.updMem_ring (s : State) (f : FabMem → FabMem) :
    (s.updMem f).ring = s.ring := rfl
@[simp] theorem State.updMem_tables (s : State) (f : FabMem → FabMem) :
    (s.updMem f).tables = s.tables := rfl
@[simp] theorem State.updMem_sw (s : State) (f : FabMem → FabMem) :
    (s.updMem f).sw = s.sw := rfl
@[simp] theorem State.updMem_recov (s : State) (f : FabMem → FabMem) :
    (s.updMem f).recov = s.recov := rfl
@[simp] theorem State.updMem_coll (s : State) (f : FabMem → FabMem) :
    (s.updMem f).coll = s.coll := rfl
@[simp] theorem State.updMem_ports (s : State) (f : FabMem → FabMem) :
    (s.updMem f).ports = s.ports := rfl
@[simp] theorem State.updMem_power (s : State) (f : FabMem → FabMem) :
    (s.updMem f).power = s.power := rfl
@[simp] theorem State.updMem_bist (s : State) (f : FabMem → FabMem) :
    (s.updMem f).bist = s.bist := rfl
@[simp] theorem State.updMem_ctr (s : State) (f : FabMem → FabMem) :
    (s.updMem f).ctr = s.ctr := rfl
@[simp] theorem State.updMem_side (s : State) (f : FabMem → FabMem) :
    (s.updMem f).side = s.side := rfl
@[simp] theorem State.updMem_out (s : State) (f : FabMem → FabMem) :
    (s.updMem f).out = s.out := rfl
@[simp] theorem State.updMem_draws (s : State) (f : FabMem → FabMem) :
    (s.updMem f).draws = s.draws := rfl
@[simp] theorem State.updMem_pending (s : State) (f : FabMem → FabMem) :
    (s.updMem f).pending = s.pending := rfl

/-! State.clearMgmt -/

@[simp] theorem State.clearMgmt_pkg (s : State) :
    (s.clearMgmt).pkg = s.pkg := rfl
@[simp] theorem State.clearMgmt_beat (s : State) :
    (s.clearMgmt).beat = s.beat := rfl
@[simp] theorem State.clearMgmt_tables (s : State) :
    (s.clearMgmt).tables = s.tables := rfl
@[simp] theorem State.clearMgmt_sw (s : State) :
    (s.clearMgmt).sw = s.sw := rfl
@[simp] theorem State.clearMgmt_recov (s : State) :
    (s.clearMgmt).recov = s.recov := rfl
@[simp] theorem State.clearMgmt_mem (s : State) :
    (s.clearMgmt).mem = s.mem := rfl
@[simp] theorem State.clearMgmt_coll (s : State) :
    (s.clearMgmt).coll = s.coll := rfl
@[simp] theorem State.clearMgmt_ports (s : State) :
    (s.clearMgmt).ports = s.ports := rfl
@[simp] theorem State.clearMgmt_power (s : State) :
    (s.clearMgmt).power = s.power := rfl
@[simp] theorem State.clearMgmt_bist (s : State) :
    (s.clearMgmt).bist = s.bist := rfl
@[simp] theorem State.clearMgmt_ctr (s : State) :
    (s.clearMgmt).ctr = s.ctr := rfl
@[simp] theorem State.clearMgmt_out (s : State) :
    (s.clearMgmt).out = s.out := rfl
@[simp] theorem State.clearMgmt_draws (s : State) :
    (s.clearMgmt).draws = s.draws := rfl
@[simp] theorem State.clearMgmt_pending (s : State) :
    (s.clearMgmt).pending = s.pending := rfl

/-! State.selfRefreshOn -/

@[simp] theorem State.selfRefreshOn_beat (s : State) :
    (s.selfRefreshOn).beat = s.beat := rfl
@[simp] theorem State.selfRefreshOn_agenda (s : State) :
    (s.selfRefreshOn).agenda = s.agenda := rfl
@[simp] theorem State.selfRefreshOn_mgmt (s : State) :
    (s.selfRefreshOn).mgmt = s.mgmt := rfl
@[simp] theorem State.selfRefreshOn_ring (s : State) :
    (s.selfRefreshOn).ring = s.ring := rfl
@[simp] theorem State.selfRefreshOn_tables (s : State) :
    (s.selfRefreshOn).tables = s.tables := rfl
@[simp] theorem State.selfRefreshOn_sw (s : State) :
    (s.selfRefreshOn).sw = s.sw := rfl
@[simp] theorem State.selfRefreshOn_recov (s : State) :
    (s.selfRefreshOn).recov = s.recov := rfl
@[simp] theorem State.selfRefreshOn_mem (s : State) :
    (s.selfRefreshOn).mem = s.mem := rfl
@[simp] theorem State.selfRefreshOn_coll (s : State) :
    (s.selfRefreshOn).coll = s.coll := rfl
@[simp] theorem State.selfRefreshOn_ports (s : State) :
    (s.selfRefreshOn).ports = s.ports := rfl
@[simp] theorem State.selfRefreshOn_power (s : State) :
    (s.selfRefreshOn).power = s.power := rfl
@[simp] theorem State.selfRefreshOn_bist (s : State) :
    (s.selfRefreshOn).bist = s.bist := rfl
@[simp] theorem State.selfRefreshOn_ctr (s : State) :
    (s.selfRefreshOn).ctr = s.ctr := rfl
@[simp] theorem State.selfRefreshOn_side (s : State) :
    (s.selfRefreshOn).side = s.side := rfl
@[simp] theorem State.selfRefreshOn_out (s : State) :
    (s.selfRefreshOn).out = s.out := rfl
@[simp] theorem State.selfRefreshOn_draws (s : State) :
    (s.selfRefreshOn).draws = s.draws := rfl
@[simp] theorem State.selfRefreshOn_pending (s : State) :
    (s.selfRefreshOn).pending = s.pending := rfl

/-! State.sampleStraps -/

@[simp] theorem State.sampleStraps_beat (s : State) (trayPos : Nat) (bist : Bool) :
    (s.sampleStraps trayPos bist).beat = s.beat := rfl
@[simp] theorem State.sampleStraps_agenda (s : State) (trayPos : Nat) (bist : Bool) :
    (s.sampleStraps trayPos bist).agenda = s.agenda := rfl
@[simp] theorem State.sampleStraps_mgmt (s : State) (trayPos : Nat) (bist : Bool) :
    (s.sampleStraps trayPos bist).mgmt = s.mgmt := rfl
@[simp] theorem State.sampleStraps_ring (s : State) (trayPos : Nat) (bist : Bool) :
    (s.sampleStraps trayPos bist).ring = s.ring := rfl
@[simp] theorem State.sampleStraps_tables (s : State) (trayPos : Nat) (bist : Bool) :
    (s.sampleStraps trayPos bist).tables = s.tables := rfl
@[simp] theorem State.sampleStraps_sw (s : State) (trayPos : Nat) (bist : Bool) :
    (s.sampleStraps trayPos bist).sw = s.sw := rfl
@[simp] theorem State.sampleStraps_recov (s : State) (trayPos : Nat) (bist : Bool) :
    (s.sampleStraps trayPos bist).recov = s.recov := rfl
@[simp] theorem State.sampleStraps_mem (s : State) (trayPos : Nat) (bist : Bool) :
    (s.sampleStraps trayPos bist).mem = s.mem := rfl
@[simp] theorem State.sampleStraps_coll (s : State) (trayPos : Nat) (bist : Bool) :
    (s.sampleStraps trayPos bist).coll = s.coll := rfl
@[simp] theorem State.sampleStraps_ports (s : State) (trayPos : Nat) (bist : Bool) :
    (s.sampleStraps trayPos bist).ports = s.ports := rfl
@[simp] theorem State.sampleStraps_power (s : State) (trayPos : Nat) (bist : Bool) :
    (s.sampleStraps trayPos bist).power = s.power := rfl
@[simp] theorem State.sampleStraps_bist (s : State) (trayPos : Nat) (bist : Bool) :
    (s.sampleStraps trayPos bist).bist = s.bist := rfl
@[simp] theorem State.sampleStraps_ctr (s : State) (trayPos : Nat) (bist : Bool) :
    (s.sampleStraps trayPos bist).ctr = s.ctr := rfl
@[simp] theorem State.sampleStraps_out (s : State) (trayPos : Nat) (bist : Bool) :
    (s.sampleStraps trayPos bist).out = s.out := rfl
@[simp] theorem State.sampleStraps_draws (s : State) (trayPos : Nat) (bist : Bool) :
    (s.sampleStraps trayPos bist).draws = s.draws := rfl
@[simp] theorem State.sampleStraps_pending (s : State) (trayPos : Nat) (bist : Bool) :
    (s.sampleStraps trayPos bist).pending = s.pending := rfl

/-! State.takePacket -/

@[simp] theorem State.takePacket_pkg (s : State) (k : Src × Nat) :
    (s.takePacket k).pkg = s.pkg := rfl
@[simp] theorem State.takePacket_beat (s : State) (k : Src × Nat) :
    (s.takePacket k).beat = s.beat := rfl
@[simp] theorem State.takePacket_agenda (s : State) (k : Src × Nat) :
    (s.takePacket k).agenda = s.agenda := rfl
@[simp] theorem State.takePacket_ring (s : State) (k : Src × Nat) :
    (s.takePacket k).ring = s.ring := rfl
@[simp] theorem State.takePacket_tables (s : State) (k : Src × Nat) :
    (s.takePacket k).tables = s.tables := rfl
@[simp] theorem State.takePacket_sw (s : State) (k : Src × Nat) :
    (s.takePacket k).sw = s.sw := rfl
@[simp] theorem State.takePacket_recov (s : State) (k : Src × Nat) :
    (s.takePacket k).recov = s.recov := rfl
@[simp] theorem State.takePacket_mem (s : State) (k : Src × Nat) :
    (s.takePacket k).mem = s.mem := rfl
@[simp] theorem State.takePacket_coll (s : State) (k : Src × Nat) :
    (s.takePacket k).coll = s.coll := rfl
@[simp] theorem State.takePacket_ports (s : State) (k : Src × Nat) :
    (s.takePacket k).ports = s.ports := rfl
@[simp] theorem State.takePacket_power (s : State) (k : Src × Nat) :
    (s.takePacket k).power = s.power := rfl
@[simp] theorem State.takePacket_bist (s : State) (k : Src × Nat) :
    (s.takePacket k).bist = s.bist := rfl
@[simp] theorem State.takePacket_ctr (s : State) (k : Src × Nat) :
    (s.takePacket k).ctr = s.ctr := rfl
@[simp] theorem State.takePacket_side (s : State) (k : Src × Nat) :
    (s.takePacket k).side = s.side := rfl
@[simp] theorem State.takePacket_out (s : State) (k : Src × Nat) :
    (s.takePacket k).out = s.out := rfl
@[simp] theorem State.takePacket_draws (s : State) (k : Src × Nat) :
    (s.takePacket k).draws = s.draws := rfl
@[simp] theorem State.takePacket_pending (s : State) (k : Src × Nat) :
    (s.takePacket k).pending = s.pending := rfl

/-! ## A read after a write -/

@[simp] theorem State.port_setPort (s : State) (n : Nat) (x : PortSt) : (s.setPort n x).port n = x := sget_sput_same _ _ _ _

theorem State.port_setPort_other (s : State) {n m : Nat} (x : PortSt) (ne : m ≠ n) : (s.setPort n x).port m = s.port m :=
  sget_sput_other _ _ _ _ ne

@[simp] theorem State.key_setKey (s : State) (n : Nat) (x : KeySlot) : (s.setKey n x).key n = x := sget_sput_same _ _ _ _

theorem State.key_setKey_other (s : State) {n m : Nat} (x : KeySlot) (ne : m ≠ n) : (s.setKey n x).key m = s.key m :=
  sget_sput_other _ _ _ _ ne

@[simp] theorem State.agEntry_setAgEntry (s : State) (n : Nat) (x : AgEntry) : (s.setAgEntry n x).agEntry n = x := sget_sput_same _ _ _ _

theorem State.agEntry_setAgEntry_other (s : State) {n m : Nat} (x : AgEntry) (ne : m ≠ n) : (s.setAgEntry n x).agEntry m = s.agEntry m :=
  sget_sput_other _ _ _ _ ne

@[simp] theorem State.recovOf_setRecov (s : State) (n : Nat) (x : PortRecov) : (s.setRecov n x).recovOf n = x := sget_sput_same _ _ _ _

theorem State.recovOf_setRecov_other (s : State) {n m : Nat} (x : PortRecov) (ne : m ≠ n) : (s.setRecov n x).recovOf m = s.recovOf m :=
  sget_sput_other _ _ _ _ ne

@[simp] theorem State.fence_setFence (s : State) (n : Nat) (x : Fence) : (s.setFence n x).fence n = x := sget_sput_same _ _ _ _

theorem State.fence_setFence_other (s : State) {n m : Nat} (x : Fence) (ne : m ≠ n) : (s.setFence n x).fence m = s.fence m :=
  sget_sput_other _ _ _ _ ne

@[simp] theorem State.stack_setStack (s : State) (n : Nat) (x : Stack) : (s.setStack n x).stack n = x := sget_sput_same _ _ _ _

theorem State.stack_setStack_other (s : State) {n m : Nat} (x : Stack) (ne : m ≠ n) : (s.setStack n x).stack m = s.stack m :=
  sget_sput_other _ _ _ _ ne

@[simp] theorem State.session_setSession (s : State) (n : Nat) (x : Session) : (s.setSession n x).session n = x := sget_sput_same _ _ _ _

theorem State.session_setSession_other (s : State) {n m : Nat} (x : Session) (ne : m ≠ n) : (s.setSession n x).session m = s.session m :=
  sget_sput_other _ _ _ _ ne

@[simp] theorem State.rcRole_setRcRole (s : State) (n : Nat) (x : Role) : (s.setRcRole n x).rcRole n = x := sget_sput_same _ _ _ _

theorem State.rcRole_setRcRole_other (s : State) {n m : Nat} (x : Role) (ne : m ≠ n) : (s.setRcRole n x).rcRole m = s.rcRole m :=
  sget_sput_other _ _ _ _ ne

@[simp] theorem State.bufRole_setBufRole (s : State) (n : Nat) (x : Role) : (s.setBufRole n x).bufRole n = x := sget_sput_same _ _ _ _

theorem State.bufRole_setBufRole_other (s : State) {n m : Nat} (x : Role) (ne : m ≠ n) : (s.setBufRole n x).bufRole m = s.bufRole m :=
  sget_sput_other _ _ _ _ ne

@[simp] theorem State.dreyRole_setDreyRole (s : State) (n : Nat) (x : Role) : (s.setDreyRole n x).dreyRole n = x := sget_sput_same _ _ _ _

theorem State.dreyRole_setDreyRole_other (s : State) {n m : Nat} (x : Role) (ne : m ≠ n) : (s.setDreyRole n x).dreyRole m = s.dreyRole m :=
  sget_sput_other _ _ _ _ ne

@[simp] theorem State.result_setResult (s : State) (n : Nat) (x : BistRes) : (s.setResult n x).result n = x := sget_sput_same _ _ _ _

theorem State.result_setResult_other (s : State) {n m : Nat} (x : BistRes) (ne : m ≠ n) : (s.setResult n x).result m = s.result m :=
  sget_sput_other _ _ _ _ ne

@[simp] theorem State.counter_setCounter (s : State) (n : Nat) (x : Counter) : (s.setCounter n x).counter n = x := sget_sput_same _ _ _ _

theorem State.counter_setCounter_other (s : State) {n m : Nat} (x : Counter) (ne : m ≠ n) : (s.setCounter n x).counter m = s.counter m :=
  sget_sput_other _ _ _ _ ne

@[simp] theorem State.window_setWindow (s : State) (n : Nat) (x : Window) : (s.setWindow n x).window n = x := sget_sput_same _ _ _ _

theorem State.window_setWindow_other (s : State) {n m : Nat} (x : Window) (ne : m ≠ n) : (s.setWindow n x).window m = s.window m :=
  sget_sput_other _ _ _ _ ne

@[simp] theorem State.mmb_setMmb (s : State) (n : Nat) (x : Mmb) : (s.setMmb n x).mmb n = x := sget_sput_same _ _ _ _

theorem State.mmb_setMmb_other (s : State) {n m : Nat} (x : Mmb) (ne : m ≠ n) : (s.setMmb n x).mmb m = s.mmb m :=
  sget_sput_other _ _ _ _ ne

end Sys2Proof.Machine
end

