-- ==== Sys2Proof/Laws/Reply.lean ====
section
/-! SUPPORT. What counting an event, queuing a notice and completing a command can change, said once for each; every other field
is as before. -/

namespace Sys2Proof.Machine

/-! ## Counting -/

/-- Counting writes the counters only. -/
theorem State.countAt_only (s : State) (l : List Nat) (code : Nat) (h k a : Option Nat) (n : Nat) :
    ∃ m, s.countAt l code h k a n = { s with ctr := { s.ctr with counters := m } } := by
  unfold State.countAt
  split
  · exact ⟨s.ctr.counters, rfl⟩
  · clear * -
    induction l generalizing s with
    | nil => exact ⟨s.ctr.counters, rfl⟩
    | cons x r ih =>
      rw [List.foldl_cons]
      split
      · obtain ⟨m, e⟩ := ih (s.setCounter x ((s.counter x).bump n))
        exact ⟨m, e.trans rfl⟩
      · exact ih s

theorem State.countGlobal_only (s : State) (code : Nat) (k a : Option Nat) (n : Nat) :
    ∃ m, s.countGlobal code k a n = { s with ctr := { s.ctr with counters := m } } := by
  unfold State.countGlobal
  split
  · exact ⟨s.ctr.counters, rfl⟩
  · exact State.countAt_only _ _ _ _ _ _ _

theorem State.countLp_only (s : State) (lp code : Nat) (k a : Option Nat) (n : Nat) :
    ∃ m, s.countLp lp code k a n = { s with ctr := { s.ctr with counters := m } } := by
  unfold State.countLp
  split
  · exact ⟨s.ctr.counters, rfl⟩
  · exact State.countAt_only _ _ _ _ _ _ _

theorem State.countPort_only (s : State) (port code : Nat) (a : Option Nat) (n : Nat) :
    ∃ m, s.countPort port code a n = { s with ctr := { s.ctr with counters := m } } := by
  unfold State.countPort
  split
  · exact ⟨s.ctr.counters, rfl⟩
  · exact State.countAt_only _ _ _ _ _ _ _

/-! ## Replies -/

/-- A completed reply writes the reply stores and ring, the queue of the management agent, what is sent, and counts. -/
theorem State.deliver_only (s : State) (r : Reply) (dup : Bool) :
    ∃ st rg ag o d, s.deliver r dup =
      { s with mgmt := { s.mgmt with stores := st }, ring := rg, sw := { s.sw with agentOut := ag }, out := o, draws := d } := by
  unfold State.deliver
  dsimp only
  split
  · split
    · exact ⟨_, _, _, _, _, rfl⟩
    · unfold State.replyIrq
      split
      · exact ⟨_, _, _, _, _, rfl⟩
      · split <;> exact ⟨_, _, _, _, _, rfl⟩
  · unfold State.sendAgent
    split <;> split <;> exact ⟨_, _, _, _, _, rfl⟩
  · exact ⟨_, _, _, _, _, rfl⟩

/-- Completing a command writes the reply path, the count of refused sources and the counters. -/
theorem State.complete_only (s : State) (c : Cmd) (op : BitVec 16) (k : Bool) (st : BitVec 8) (d : Nat) (b : Bytes) :
    ∃ sto af rg ag o dr m, s.complete c op k st d b =
      { s with mgmt := { s.mgmt with stores := sto, authFails := af }, ring := rg, sw := { s.sw with agentOut := ag }
               out := o, draws := dr, ctr := { s.ctr with counters := m } } := by
  unfold State.complete State.completeAs
  dsimp only
  generalize (if (c.auth && k && (s.key c.keySlot).loaded && st != stDeniedAuth) = true then _ else _ : Reply) = r
  have hd : ∃ af, (if st = stDeniedAuth then s.countDenied c.src else s) = { s with mgmt := { s.mgmt with authFails := af } } := by
    split
    · exact ⟨_, rfl⟩
    · exact ⟨s.mgmt.authFails, rfl⟩
  obtain ⟨af, hd⟩ := hd
  obtain ⟨sto, rg, ag, o, dr, e⟩ := State.deliver_only { s with mgmt := { s.mgmt with authFails := af } } r false
  rw [hd, e]
  split
  · exact ⟨_, _, _, _, _, _, s.ctr.counters, rfl⟩
  · obtain ⟨m, e2⟩ := State.countGlobal_only _ 0x4001 none (some (srcCode c.src)) 1
    exact ⟨_, _, _, _, _, _, m, e2.trans rfl⟩

@[simp] theorem State.complete_pkg (s : State) (c : Cmd) (op : BitVec 16) (k : Bool) (st : BitVec 8) (d : Nat) (b : Bytes) : (s.complete c op k st d b).pkg = s.pkg := by
  obtain ⟨_, _, _, _, _, _, _, e⟩ := State.complete_only s c op k st d b
  rw [e]

@[simp] theorem State.complete_beat (s : State) (c : Cmd) (op : BitVec 16) (k : Bool) (st : BitVec 8) (d : Nat) (b : Bytes) : (s.complete c op k st d b).beat = s.beat := by
  obtain ⟨_, _, _, _, _, _, _, e⟩ := State.complete_only s c op k st d b
  rw [e]

@[simp] theorem State.complete_agenda (s : State) (c : Cmd) (op : BitVec 16) (k : Bool) (st : BitVec 8) (d : Nat) (b : Bytes) : (s.complete c op k st d b).agenda = s.agenda := by
  obtain ⟨_, _, _, _, _, _, _, e⟩ := State.complete_only s c op k st d b
  rw [e]

@[simp] theorem State.complete_tables (s : State) (c : Cmd) (op : BitVec 16) (k : Bool) (st : BitVec 8) (d : Nat) (b : Bytes) : (s.complete c op k st d b).tables = s.tables := by
  obtain ⟨_, _, _, _, _, _, _, e⟩ := State.complete_only s c op k st d b
  rw [e]

@[simp] theorem State.complete_recov (s : State) (c : Cmd) (op : BitVec 16) (k : Bool) (st : BitVec 8) (d : Nat) (b : Bytes) : (s.complete c op k st d b).recov = s.recov := by
  obtain ⟨_, _, _, _, _, _, _, e⟩ := State.complete_only s c op k st d b
  rw [e]

@[simp] theorem State.complete_mem (s : State) (c : Cmd) (op : BitVec 16) (k : Bool) (st : BitVec 8) (d : Nat) (b : Bytes) : (s.complete c op k st d b).mem = s.mem := by
  obtain ⟨_, _, _, _, _, _, _, e⟩ := State.complete_only s c op k st d b
  rw [e]

@[simp] theorem State.complete_coll (s : State) (c : Cmd) (op : BitVec 16) (k : Bool) (st : BitVec 8) (d : Nat) (b : Bytes) : (s.complete c op k st d b).coll = s.coll := by
  obtain ⟨_, _, _, _, _, _, _, e⟩ := State.complete_only s c op k st d b
  rw [e]

@[simp] theorem State.complete_ports (s : State) (c : Cmd) (op : BitVec 16) (k : Bool) (st : BitVec 8) (d : Nat) (b : Bytes) : (s.complete c op k st d b).ports = s.ports := by
  obtain ⟨_, _, _, _, _, _, _, e⟩ := State.complete_only s c op k st d b
  rw [e]

@[simp] theorem State.complete_power (s : State) (c : Cmd) (op : BitVec 16) (k : Bool) (st : BitVec 8) (d : Nat) (b : Bytes) : (s.complete c op k st d b).power = s.power := by
  obtain ⟨_, _, _, _, _, _, _, e⟩ := State.complete_only s c op k st d b
  rw [e]

@[simp] theorem State.complete_bist (s : State) (c : Cmd) (op : BitVec 16) (k : Bool) (st : BitVec 8) (d : Nat) (b : Bytes) : (s.complete c op k st d b).bist = s.bist := by
  obtain ⟨_, _, _, _, _, _, _, e⟩ := State.complete_only s c op k st d b
  rw [e]

@[simp] theorem State.complete_side (s : State) (c : Cmd) (op : BitVec 16) (k : Bool) (st : BitVec 8) (d : Nat) (b : Bytes) : (s.complete c op k st d b).side = s.side := by
  obtain ⟨_, _, _, _, _, _, _, e⟩ := State.complete_only s c op k st d b
  rw [e]

@[simp] theorem State.complete_pending (s : State) (c : Cmd) (op : BitVec 16) (k : Bool) (st : BitVec 8) (d : Nat) (b : Bytes) : (s.complete c op k st d b).pending = s.pending := by
  obtain ⟨_, _, _, _, _, _, _, e⟩ := State.complete_only s c op k st d b
  rw [e]

@[simp] theorem State.complete_mgmt_keys (s : State) (c : Cmd) (op : BitVec 16) (k : Bool) (st : BitVec 8) (d : Nat) (b : Bytes) : (s.complete c op k st d b).mgmt.keys = s.mgmt.keys := by
  obtain ⟨_, _, _, _, _, _, _, e⟩ := State.complete_only s c op k st d b
  rw [e]

@[simp] theorem State.complete_mgmt_lastEpoch (s : State) (c : Cmd) (op : BitVec 16) (k : Bool) (st : BitVec 8) (d : Nat) (b : Bytes) : (s.complete c op k st d b).mgmt.lastEpoch = s.mgmt.lastEpoch := by
  obtain ⟨_, _, _, _, _, _, _, e⟩ := State.complete_only s c op k st d b
  rw [e]

@[simp] theorem State.complete_mgmt_deferred (s : State) (c : Cmd) (op : BitVec 16) (k : Bool) (st : BitVec 8) (d : Nat) (b : Bytes) : (s.complete c op k st d b).mgmt.deferred = s.mgmt.deferred := by
  obtain ⟨_, _, _, _, _, _, _, e⟩ := State.complete_only s c op k st d b
  rw [e]

@[simp] theorem State.complete_mgmt_lastSeq (s : State) (c : Cmd) (op : BitVec 16) (k : Bool) (st : BitVec 8) (d : Nat) (b : Bytes) : (s.complete c op k st d b).mgmt.lastSeq = s.mgmt.lastSeq := by
  obtain ⟨_, _, _, _, _, _, _, e⟩ := State.complete_only s c op k st d b
  rw [e]

@[simp] theorem State.complete_mgmt_arrivals (s : State) (c : Cmd) (op : BitVec 16) (k : Bool) (st : BitVec 8) (d : Nat) (b : Bytes) : (s.complete c op k st d b).mgmt.arrivals = s.mgmt.arrivals := by
  obtain ⟨_, _, _, _, _, _, _, e⟩ := State.complete_only s c op k st d b
  rw [e]

@[simp] theorem State.complete_mgmt_notices (s : State) (c : Cmd) (op : BitVec 16) (k : Bool) (st : BitVec 8) (d : Nat) (b : Bytes) : (s.complete c op k st d b).mgmt.notices = s.mgmt.notices := by
  obtain ⟨_, _, _, _, _, _, _, e⟩ := State.complete_only s c op k st d b
  rw [e]

@[simp] theorem State.complete_mgmt_images (s : State) (c : Cmd) (op : BitVec 16) (k : Bool) (st : BitVec 8) (d : Nat) (b : Bytes) : (s.complete c op k st d b).mgmt.images = s.mgmt.images := by
  obtain ⟨_, _, _, _, _, _, _, e⟩ := State.complete_only s c op k st d b
  rw [e]

@[simp] theorem State.complete_mgmt_tableHolds (s : State) (c : Cmd) (op : BitVec 16) (k : Bool) (st : BitVec 8) (d : Nat) (b : Bytes) : (s.complete c op k st d b).mgmt.tableHolds = s.mgmt.tableHolds := by
  obtain ⟨_, _, _, _, _, _, _, e⟩ := State.complete_only s c op k st d b
  rw [e]

@[simp] theorem State.complete_mgmt_blockHolds (s : State) (c : Cmd) (op : BitVec 16) (k : Bool) (st : BitVec 8) (d : Nat) (b : Bytes) : (s.complete c op k st d b).mgmt.blockHolds = s.mgmt.blockHolds := by
  obtain ⟨_, _, _, _, _, _, _, e⟩ := State.complete_only s c op k st d b
  rw [e]

@[simp] theorem State.complete_mgmt_ceilingHold (s : State) (c : Cmd) (op : BitVec 16) (k : Bool) (st : BitVec 8) (d : Nat) (b : Bytes) : (s.complete c op k st d b).mgmt.ceilingHold = s.mgmt.ceilingHold := by
  obtain ⟨_, _, _, _, _, _, _, e⟩ := State.complete_only s c op k st d b
  rw [e]

@[simp] theorem State.complete_mgmt_hostHold (s : State) (c : Cmd) (op : BitVec 16) (k : Bool) (st : BitVec 8) (d : Nat) (b : Bytes) : (s.complete c op k st d b).mgmt.hostHold = s.mgmt.hostHold := by
  obtain ⟨_, _, _, _, _, _, _, e⟩ := State.complete_only s c op k st d b
  rw [e]

@[simp] theorem State.complete_mgmt_authReq (s : State) (c : Cmd) (op : BitVec 16) (k : Bool) (st : BitVec 8) (d : Nat) (b : Bytes) : (s.complete c op k st d b).mgmt.authReq = s.mgmt.authReq := by
  obtain ⟨_, _, _, _, _, _, _, e⟩ := State.complete_only s c op k st d b
  rw [e]

@[simp] theorem State.complete_mgmt_tc7Allow (s : State) (c : Cmd) (op : BitVec 16) (k : Bool) (st : BitVec 8) (d : Nat) (b : Bytes) : (s.complete c op k st d b).mgmt.tc7Allow = s.mgmt.tc7Allow := by
  obtain ⟨_, _, _, _, _, _, _, e⟩ := State.complete_only s c op k st d b
  rw [e]

@[simp] theorem State.complete_mgmt_resets (s : State) (c : Cmd) (op : BitVec 16) (k : Bool) (st : BitVec 8) (d : Nat) (b : Bytes) : (s.complete c op k st d b).mgmt.resets = s.mgmt.resets := by
  obtain ⟨_, _, _, _, _, _, _, e⟩ := State.complete_only s c op k st d b
  rw [e]

@[simp] theorem State.complete_mgmt_running (s : State) (c : Cmd) (op : BitVec 16) (k : Bool) (st : BitVec 8) (d : Nat) (b : Bytes) : (s.complete c op k st d b).mgmt.running = s.mgmt.running := by
  obtain ⟨_, _, _, _, _, _, _, e⟩ := State.complete_only s c op k st d b
  rw [e]

@[simp] theorem State.complete_mgmt_markerWait (s : State) (c : Cmd) (op : BitVec 16) (k : Bool) (st : BitVec 8) (d : Nat) (b : Bytes) : (s.complete c op k st d b).mgmt.markerWait = s.mgmt.markerWait := by
  obtain ⟨_, _, _, _, _, _, _, e⟩ := State.complete_only s c op k st d b
  rw [e]

@[simp] theorem State.complete_ctr_windows (s : State) (c : Cmd) (op : BitVec 16) (k : Bool) (st : BitVec 8) (d : Nat) (b : Bytes) : (s.complete c op k st d b).ctr.windows = s.ctr.windows := by
  obtain ⟨_, _, _, _, _, _, _, e⟩ := State.complete_only s c op k st d b
  rw [e]

@[simp] theorem State.complete_ctr_samples (s : State) (c : Cmd) (op : BitVec 16) (k : Bool) (st : BitVec 8) (d : Nat) (b : Bytes) : (s.complete c op k st d b).ctr.samples = s.ctr.samples := by
  obtain ⟨_, _, _, _, _, _, _, e⟩ := State.complete_only s c op k st d b
  rw [e]

@[simp] theorem State.complete_ctr_freeze (s : State) (c : Cmd) (op : BitVec 16) (k : Bool) (st : BitVec 8) (d : Nat) (b : Bytes) : (s.complete c op k st d b).ctr.freeze = s.ctr.freeze := by
  obtain ⟨_, _, _, _, _, _, _, e⟩ := State.complete_only s c op k st d b
  rw [e]

@[simp] theorem State.reply_pkg (s : State) (c : Cmd) (op : BitVec 16) (st : BitVec 8) (d : Nat) (b : Bytes) : (s.reply c op st d b).pkg = s.pkg :=
  State.complete_pkg ..

@[simp] theorem State.reply_beat (s : State) (c : Cmd) (op : BitVec 16) (st : BitVec 8) (d : Nat) (b : Bytes) : (s.reply c op st d b).beat = s.beat :=
  State.complete_beat ..

@[simp] theorem State.reply_agenda (s : State) (c : Cmd) (op : BitVec 16) (st : BitVec 8) (d : Nat) (b : Bytes) : (s.reply c op st d b).agenda = s.agenda :=
  State.complete_agenda ..

@[simp] theorem State.reply_tables (s : State) (c : Cmd) (op : BitVec 16) (st : BitVec 8) (d : Nat) (b : Bytes) : (s.reply c op st d b).tables = s.tables :=
  State.complete_tables ..

@[simp] theorem State.reply_recov (s : State) (c : Cmd) (op : BitVec 16) (st : BitVec 8) (d : Nat) (b : Bytes) : (s.reply c op st d b).recov = s.recov :=
  State.complete_recov ..

@[simp] theorem State.reply_mem (s : State) (c : Cmd) (op : BitVec 16) (st : BitVec 8) (d : Nat) (b : Bytes) : (s.reply c op st d b).mem = s.mem :=
  State.complete_mem ..

@[simp] theorem State.reply_coll (s : State) (c : Cmd) (op : BitVec 16) (st : BitVec 8) (d : Nat) (b : Bytes) : (s.reply c op st d b).coll = s.coll :=
  State.complete_coll ..

@[simp] theorem State.reply_ports (s : State) (c : Cmd) (op : BitVec 16) (st : BitVec 8) (d : Nat) (b : Bytes) : (s.reply c op st d b).ports = s.ports :=
  State.complete_ports ..

@[simp] theorem State.reply_power (s : State) (c : Cmd) (op : BitVec 16) (st : BitVec 8) (d : Nat) (b : Bytes) : (s.reply c op st d b).power = s.power :=
  State.complete_power ..

@[simp] theorem State.reply_bist (s : State) (c : Cmd) (op : BitVec 16) (st : BitVec 8) (d : Nat) (b : Bytes) : (s.reply c op st d b).bist = s.bist :=
  State.complete_bist ..

@[simp] theorem State.reply_side (s : State) (c : Cmd) (op : BitVec 16) (st : BitVec 8) (d : Nat) (b : Bytes) : (s.reply c op st d b).side = s.side :=
  State.complete_side ..

@[simp] theorem State.reply_pending (s : State) (c : Cmd) (op : BitVec 16) (st : BitVec 8) (d : Nat) (b : Bytes) : (s.reply c op st d b).pending = s.pending :=
  State.complete_pending ..

@[simp] theorem State.reply_mgmt_keys (s : State) (c : Cmd) (op : BitVec 16) (st : BitVec 8) (d : Nat) (b : Bytes) : (s.reply c op st d b).mgmt.keys = s.mgmt.keys :=
  State.complete_mgmt_keys ..

@[simp] theorem State.reply_mgmt_lastEpoch (s : State) (c : Cmd) (op : BitVec 16) (st : BitVec 8) (d : Nat) (b : Bytes) : (s.reply c op st d b).mgmt.lastEpoch = s.mgmt.lastEpoch :=
  State.complete_mgmt_lastEpoch ..

@[simp] theorem State.reply_mgmt_deferred (s : State) (c : Cmd) (op : BitVec 16) (st : BitVec 8) (d : Nat) (b : Bytes) : (s.reply c op st d b).mgmt.deferred = s.mgmt.deferred :=
  State.complete_mgmt_deferred ..

@[simp] theorem State.reply_mgmt_lastSeq (s : State) (c : Cmd) (op : BitVec 16) (st : BitVec 8) (d : Nat) (b : Bytes) : (s.reply c op st d b).mgmt.lastSeq = s.mgmt.lastSeq :=
  State.complete_mgmt_lastSeq ..

@[simp] theorem State.reply_mgmt_arrivals (s : State) (c : Cmd) (op : BitVec 16) (st : BitVec 8) (d : Nat) (b : Bytes) : (s.reply c op st d b).mgmt.arrivals = s.mgmt.arrivals :=
  State.complete_mgmt_arrivals ..

@[simp] theorem State.reply_mgmt_notices (s : State) (c : Cmd) (op : BitVec 16) (st : BitVec 8) (d : Nat) (b : Bytes) : (s.reply c op st d b).mgmt.notices = s.mgmt.notices :=
  State.complete_mgmt_notices ..

@[simp] theorem State.reply_mgmt_images (s : State) (c : Cmd) (op : BitVec 16) (st : BitVec 8) (d : Nat) (b : Bytes) : (s.reply c op st d b).mgmt.images = s.mgmt.images :=
  State.complete_mgmt_images ..

@[simp] theorem State.reply_mgmt_tableHolds (s : State) (c : Cmd) (op : BitVec 16) (st : BitVec 8) (d : Nat) (b : Bytes) : (s.reply c op st d b).mgmt.tableHolds = s.mgmt.tableHolds :=
  State.complete_mgmt_tableHolds ..

@[simp] theorem State.reply_mgmt_blockHolds (s : State) (c : Cmd) (op : BitVec 16) (st : BitVec 8) (d : Nat) (b : Bytes) : (s.reply c op st d b).mgmt.blockHolds = s.mgmt.blockHolds :=
  State.complete_mgmt_blockHolds ..

@[simp] theorem State.reply_mgmt_ceilingHold (s : State) (c : Cmd) (op : BitVec 16) (st : BitVec 8) (d : Nat) (b : Bytes) : (s.reply c op st d b).mgmt.ceilingHold = s.mgmt.ceilingHold :=
  State.complete_mgmt_ceilingHold ..

@[simp] theorem State.reply_mgmt_hostHold (s : State) (c : Cmd) (op : BitVec 16) (st : BitVec 8) (d : Nat) (b : Bytes) : (s.reply c op st d b).mgmt.hostHold = s.mgmt.hostHold :=
  State.complete_mgmt_hostHold ..

@[simp] theorem State.reply_mgmt_authReq (s : State) (c : Cmd) (op : BitVec 16) (st : BitVec 8) (d : Nat) (b : Bytes) : (s.reply c op st d b).mgmt.authReq = s.mgmt.authReq :=
  State.complete_mgmt_authReq ..

@[simp] theorem State.reply_mgmt_tc7Allow (s : State) (c : Cmd) (op : BitVec 16) (st : BitVec 8) (d : Nat) (b : Bytes) : (s.reply c op st d b).mgmt.tc7Allow = s.mgmt.tc7Allow :=
  State.complete_mgmt_tc7Allow ..

@[simp] theorem State.reply_mgmt_resets (s : State) (c : Cmd) (op : BitVec 16) (st : BitVec 8) (d : Nat) (b : Bytes) : (s.reply c op st d b).mgmt.resets = s.mgmt.resets :=
  State.complete_mgmt_resets ..

@[simp] theorem State.reply_mgmt_running (s : State) (c : Cmd) (op : BitVec 16) (st : BitVec 8) (d : Nat) (b : Bytes) : (s.reply c op st d b).mgmt.running = s.mgmt.running :=
  State.complete_mgmt_running ..

@[simp] theorem State.reply_mgmt_markerWait (s : State) (c : Cmd) (op : BitVec 16) (st : BitVec 8) (d : Nat) (b : Bytes) : (s.reply c op st d b).mgmt.markerWait = s.mgmt.markerWait :=
  State.complete_mgmt_markerWait ..

@[simp] theorem State.reply_ctr_windows (s : State) (c : Cmd) (op : BitVec 16) (st : BitVec 8) (d : Nat) (b : Bytes) : (s.reply c op st d b).ctr.windows = s.ctr.windows :=
  State.complete_ctr_windows ..

@[simp] theorem State.reply_ctr_samples (s : State) (c : Cmd) (op : BitVec 16) (st : BitVec 8) (d : Nat) (b : Bytes) : (s.reply c op st d b).ctr.samples = s.ctr.samples :=
  State.complete_ctr_samples ..

@[simp] theorem State.reply_ctr_freeze (s : State) (c : Cmd) (op : BitVec 16) (st : BitVec 8) (d : Nat) (b : Bytes) : (s.reply c op st d b).ctr.freeze = s.ctr.freeze :=
  State.complete_ctr_freeze ..

@[simp] theorem State.ok_pkg (s : State) (c : Cmd) (op : BitVec 16) (b : Bytes) : (s.ok c op b).pkg = s.pkg :=
  State.complete_pkg ..

@[simp] theorem State.ok_beat (s : State) (c : Cmd) (op : BitVec 16) (b : Bytes) : (s.ok c op b).beat = s.beat :=
  State.complete_beat ..

@[simp] theorem State.ok_agenda (s : State) (c : Cmd) (op : BitVec 16) (b : Bytes) : (s.ok c op b).agenda = s.agenda :=
  State.complete_agenda ..

@[simp] theorem State.ok_tables (s : State) (c : Cmd) (op : BitVec 16) (b : Bytes) : (s.ok c op b).tables = s.tables :=
  State.complete_tables ..

@[simp] theorem State.ok_recov (s : State) (c : Cmd) (op : BitVec 16) (b : Bytes) : (s.ok c op b).recov = s.recov :=
  State.complete_recov ..

@[simp] theorem State.ok_mem (s : State) (c : Cmd) (op : BitVec 16) (b : Bytes) : (s.ok c op b).mem = s.mem :=
  State.complete_mem ..

@[simp] theorem State.ok_coll (s : State) (c : Cmd) (op : BitVec 16) (b : Bytes) : (s.ok c op b).coll = s.coll :=
  State.complete_coll ..

@[simp] theorem State.ok_ports (s : State) (c : Cmd) (op : BitVec 16) (b : Bytes) : (s.ok c op b).ports = s.ports :=
  State.complete_ports ..

@[simp] theorem State.ok_power (s : State) (c : Cmd) (op : BitVec 16) (b : Bytes) : (s.ok c op b).power = s.power :=
  State.complete_power ..

@[simp] theorem State.ok_bist (s : State) (c : Cmd) (op : BitVec 16) (b : Bytes) : (s.ok c op b).bist = s.bist :=
  State.complete_bist ..

@[simp] theorem State.ok_side (s : State) (c : Cmd) (op : BitVec 16) (b : Bytes) : (s.ok c op b).side = s.side :=
  State.complete_side ..

@[simp] theorem State.ok_pending (s : State) (c : Cmd) (op : BitVec 16) (b : Bytes) : (s.ok c op b).pending = s.pending :=
  State.complete_pending ..

@[simp] theorem State.ok_mgmt_keys (s : State) (c : Cmd) (op : BitVec 16) (b : Bytes) : (s.ok c op b).mgmt.keys = s.mgmt.keys :=
  State.complete_mgmt_keys ..

@[simp] theorem State.ok_mgmt_lastEpoch (s : State) (c : Cmd) (op : BitVec 16) (b : Bytes) : (s.ok c op b).mgmt.lastEpoch = s.mgmt.lastEpoch :=
  State.complete_mgmt_lastEpoch ..

@[simp] theorem State.ok_mgmt_deferred (s : State) (c : Cmd) (op : BitVec 16) (b : Bytes) : (s.ok c op b).mgmt.deferred = s.mgmt.deferred :=
  State.complete_mgmt_deferred ..

@[simp] theorem State.ok_mgmt_lastSeq (s : State) (c : Cmd) (op : BitVec 16) (b : Bytes) : (s.ok c op b).mgmt.lastSeq = s.mgmt.lastSeq :=
  State.complete_mgmt_lastSeq ..

@[simp] theorem State.ok_mgmt_arrivals (s : State) (c : Cmd) (op : BitVec 16) (b : Bytes) : (s.ok c op b).mgmt.arrivals = s.mgmt.arrivals :=
  State.complete_mgmt_arrivals ..

@[simp] theorem State.ok_mgmt_notices (s : State) (c : Cmd) (op : BitVec 16) (b : Bytes) : (s.ok c op b).mgmt.notices = s.mgmt.notices :=
  State.complete_mgmt_notices ..

@[simp] theorem State.ok_mgmt_images (s : State) (c : Cmd) (op : BitVec 16) (b : Bytes) : (s.ok c op b).mgmt.images = s.mgmt.images :=
  State.complete_mgmt_images ..

@[simp] theorem State.ok_mgmt_tableHolds (s : State) (c : Cmd) (op : BitVec 16) (b : Bytes) : (s.ok c op b).mgmt.tableHolds = s.mgmt.tableHolds :=
  State.complete_mgmt_tableHolds ..

@[simp] theorem State.ok_mgmt_blockHolds (s : State) (c : Cmd) (op : BitVec 16) (b : Bytes) : (s.ok c op b).mgmt.blockHolds = s.mgmt.blockHolds :=
  State.complete_mgmt_blockHolds ..

@[simp] theorem State.ok_mgmt_ceilingHold (s : State) (c : Cmd) (op : BitVec 16) (b : Bytes) : (s.ok c op b).mgmt.ceilingHold = s.mgmt.ceilingHold :=
  State.complete_mgmt_ceilingHold ..

@[simp] theorem State.ok_mgmt_hostHold (s : State) (c : Cmd) (op : BitVec 16) (b : Bytes) : (s.ok c op b).mgmt.hostHold = s.mgmt.hostHold :=
  State.complete_mgmt_hostHold ..

@[simp] theorem State.ok_mgmt_authReq (s : State) (c : Cmd) (op : BitVec 16) (b : Bytes) : (s.ok c op b).mgmt.authReq = s.mgmt.authReq :=
  State.complete_mgmt_authReq ..

@[simp] theorem State.ok_mgmt_tc7Allow (s : State) (c : Cmd) (op : BitVec 16) (b : Bytes) : (s.ok c op b).mgmt.tc7Allow = s.mgmt.tc7Allow :=
  State.complete_mgmt_tc7Allow ..

@[simp] theorem State.ok_mgmt_resets (s : State) (c : Cmd) (op : BitVec 16) (b : Bytes) : (s.ok c op b).mgmt.resets = s.mgmt.resets :=
  State.complete_mgmt_resets ..

@[simp] theorem State.ok_mgmt_running (s : State) (c : Cmd) (op : BitVec 16) (b : Bytes) : (s.ok c op b).mgmt.running = s.mgmt.running :=
  State.complete_mgmt_running ..

@[simp] theorem State.ok_mgmt_markerWait (s : State) (c : Cmd) (op : BitVec 16) (b : Bytes) : (s.ok c op b).mgmt.markerWait = s.mgmt.markerWait :=
  State.complete_mgmt_markerWait ..

@[simp] theorem State.ok_ctr_windows (s : State) (c : Cmd) (op : BitVec 16) (b : Bytes) : (s.ok c op b).ctr.windows = s.ctr.windows :=
  State.complete_ctr_windows ..

@[simp] theorem State.ok_ctr_samples (s : State) (c : Cmd) (op : BitVec 16) (b : Bytes) : (s.ok c op b).ctr.samples = s.ctr.samples :=
  State.complete_ctr_samples ..

@[simp] theorem State.ok_ctr_freeze (s : State) (c : Cmd) (op : BitVec 16) (b : Bytes) : (s.ok c op b).ctr.freeze = s.ctr.freeze :=
  State.complete_ctr_freeze ..

@[simp] theorem State.deny_pkg (s : State) (c : Cmd) (op : BitVec 16) (st : BitVec 8) (d : Nat) : (s.deny c op st d).pkg = s.pkg :=
  State.complete_pkg ..

@[simp] theorem State.deny_beat (s : State) (c : Cmd) (op : BitVec 16) (st : BitVec 8) (d : Nat) : (s.deny c op st d).beat = s.beat :=
  State.complete_beat ..

@[simp] theorem State.deny_agenda (s : State) (c : Cmd) (op : BitVec 16) (st : BitVec 8) (d : Nat) : (s.deny c op st d).agenda = s.agenda :=
  State.complete_agenda ..

@[simp] theorem State.deny_tables (s : State) (c : Cmd) (op : BitVec 16) (st : BitVec 8) (d : Nat) : (s.deny c op st d).tables = s.tables :=
  State.complete_tables ..

@[simp] theorem State.deny_recov (s : State) (c : Cmd) (op : BitVec 16) (st : BitVec 8) (d : Nat) : (s.deny c op st d).recov = s.recov :=
  State.complete_recov ..

@[simp] theorem State.deny_mem (s : State) (c : Cmd) (op : BitVec 16) (st : BitVec 8) (d : Nat) : (s.deny c op st d).mem = s.mem :=
  State.complete_mem ..

@[simp] theorem State.deny_coll (s : State) (c : Cmd) (op : BitVec 16) (st : BitVec 8) (d : Nat) : (s.deny c op st d).coll = s.coll :=
  State.complete_coll ..

@[simp] theorem State.deny_ports (s : State) (c : Cmd) (op : BitVec 16) (st : BitVec 8) (d : Nat) : (s.deny c op st d).ports = s.ports :=
  State.complete_ports ..

@[simp] theorem State.deny_power (s : State) (c : Cmd) (op : BitVec 16) (st : BitVec 8) (d : Nat) : (s.deny c op st d).power = s.power :=
  State.complete_power ..

@[simp] theorem State.deny_bist (s : State) (c : Cmd) (op : BitVec 16) (st : BitVec 8) (d : Nat) : (s.deny c op st d).bist = s.bist :=
  State.complete_bist ..

@[simp] theorem State.deny_side (s : State) (c : Cmd) (op : BitVec 16) (st : BitVec 8) (d : Nat) : (s.deny c op st d).side = s.side :=
  State.complete_side ..

@[simp] theorem State.deny_pending (s : State) (c : Cmd) (op : BitVec 16) (st : BitVec 8) (d : Nat) : (s.deny c op st d).pending = s.pending :=
  State.complete_pending ..

@[simp] theorem State.deny_mgmt_keys (s : State) (c : Cmd) (op : BitVec 16) (st : BitVec 8) (d : Nat) : (s.deny c op st d).mgmt.keys = s.mgmt.keys :=
  State.complete_mgmt_keys ..

@[simp] theorem State.deny_mgmt_lastEpoch (s : State) (c : Cmd) (op : BitVec 16) (st : BitVec 8) (d : Nat) : (s.deny c op st d).mgmt.lastEpoch = s.mgmt.lastEpoch :=
  State.complete_mgmt_lastEpoch ..

@[simp] theorem State.deny_mgmt_deferred (s : State) (c : Cmd) (op : BitVec 16) (st : BitVec 8) (d : Nat) : (s.deny c op st d).mgmt.deferred = s.mgmt.deferred :=
  State.complete_mgmt_deferred ..

@[simp] theorem State.deny_mgmt_lastSeq (s : State) (c : Cmd) (op : BitVec 16) (st : BitVec 8) (d : Nat) : (s.deny c op st d).mgmt.lastSeq = s.mgmt.lastSeq :=
  State.complete_mgmt_lastSeq ..

@[simp] theorem State.deny_mgmt_arrivals (s : State) (c : Cmd) (op : BitVec 16) (st : BitVec 8) (d : Nat) : (s.deny c op st d).mgmt.arrivals = s.mgmt.arrivals :=
  State.complete_mgmt_arrivals ..

@[simp] theorem State.deny_mgmt_notices (s : State) (c : Cmd) (op : BitVec 16) (st : BitVec 8) (d : Nat) : (s.deny c op st d).mgmt.notices = s.mgmt.notices :=
  State.complete_mgmt_notices ..

@[simp] theorem State.deny_mgmt_images (s : State) (c : Cmd) (op : BitVec 16) (st : BitVec 8) (d : Nat) : (s.deny c op st d).mgmt.images = s.mgmt.images :=
  State.complete_mgmt_images ..

@[simp] theorem State.deny_mgmt_tableHolds (s : State) (c : Cmd) (op : BitVec 16) (st : BitVec 8) (d : Nat) : (s.deny c op st d).mgmt.tableHolds = s.mgmt.tableHolds :=
  State.complete_mgmt_tableHolds ..

@[simp] theorem State.deny_mgmt_blockHolds (s : State) (c : Cmd) (op : BitVec 16) (st : BitVec 8) (d : Nat) : (s.deny c op st d).mgmt.blockHolds = s.mgmt.blockHolds :=
  State.complete_mgmt_blockHolds ..

@[simp] theorem State.deny_mgmt_ceilingHold (s : State) (c : Cmd) (op : BitVec 16) (st : BitVec 8) (d : Nat) : (s.deny c op st d).mgmt.ceilingHold = s.mgmt.ceilingHold :=
  State.complete_mgmt_ceilingHold ..

@[simp] theorem State.deny_mgmt_hostHold (s : State) (c : Cmd) (op : BitVec 16) (st : BitVec 8) (d : Nat) : (s.deny c op st d).mgmt.hostHold = s.mgmt.hostHold :=
  State.complete_mgmt_hostHold ..

@[simp] theorem State.deny_mgmt_authReq (s : State) (c : Cmd) (op : BitVec 16) (st : BitVec 8) (d : Nat) : (s.deny c op st d).mgmt.authReq = s.mgmt.authReq :=
  State.complete_mgmt_authReq ..

@[simp] theorem State.deny_mgmt_tc7Allow (s : State) (c : Cmd) (op : BitVec 16) (st : BitVec 8) (d : Nat) : (s.deny c op st d).mgmt.tc7Allow = s.mgmt.tc7Allow :=
  State.complete_mgmt_tc7Allow ..

@[simp] theorem State.deny_mgmt_resets (s : State) (c : Cmd) (op : BitVec 16) (st : BitVec 8) (d : Nat) : (s.deny c op st d).mgmt.resets = s.mgmt.resets :=
  State.complete_mgmt_resets ..

@[simp] theorem State.deny_mgmt_running (s : State) (c : Cmd) (op : BitVec 16) (st : BitVec 8) (d : Nat) : (s.deny c op st d).mgmt.running = s.mgmt.running :=
  State.complete_mgmt_running ..

@[simp] theorem State.deny_mgmt_markerWait (s : State) (c : Cmd) (op : BitVec 16) (st : BitVec 8) (d : Nat) : (s.deny c op st d).mgmt.markerWait = s.mgmt.markerWait :=
  State.complete_mgmt_markerWait ..

@[simp] theorem State.deny_ctr_windows (s : State) (c : Cmd) (op : BitVec 16) (st : BitVec 8) (d : Nat) : (s.deny c op st d).ctr.windows = s.ctr.windows :=
  State.complete_ctr_windows ..

@[simp] theorem State.deny_ctr_samples (s : State) (c : Cmd) (op : BitVec 16) (st : BitVec 8) (d : Nat) : (s.deny c op st d).ctr.samples = s.ctr.samples :=
  State.complete_ctr_samples ..

@[simp] theorem State.deny_ctr_freeze (s : State) (c : Cmd) (op : BitVec 16) (st : BitVec 8) (d : Nat) : (s.deny c op st d).ctr.freeze = s.ctr.freeze :=
  State.complete_ctr_freeze ..

end Sys2Proof.Machine
end

