-- ==== Sys2Proof/Laws/Agenda.lean ====
section
/-! SUPPORT. What a notice, the end of an agenda entry and the end of a deferred command can change, said once for each. -/

namespace Sys2Proof.Machine

/-- A notice writes the notice queues, and may raise attention or an interrupt. -/
theorem State.notice_only (s : State) (pair : Nat) (n : Notice) :
    ∃ q a i o, s.notice pair n = { s with mgmt := { s.mgmt with notices := q }, side := { s.side with attn := a, ibiDue := i }, out := o } := by
  unfold State.notice State.msix State.attend State.emit
  dsimp only
  split
  · exact ⟨_, _, _, _, rfl⟩
  · split
    · split <;> exact ⟨_, _, _, _, rfl⟩
    · split
      · exact ⟨_, _, _, _, rfl⟩
      · split <;> exact ⟨_, _, _, _, rfl⟩

/-- An entry that ends writes itself, its notice, and the state of its image. -/
theorem State.finishEntry_only (s : State) (e : Nat) (st : EntrySt) (w : BitVec 8) (d : Nat) :
    ∃ q im a i o m, s.finishEntry e st w d =
      { s.setAgEntry e { s.agEntry e with st := st, doneBeat := s.beat.count, next := false, due := false } with
        mgmt := { s.mgmt with notices := q, images := im }, side := { s.side with attn := a, ibiDue := i }, out := o
        ctr := { s.ctr with counters := m } } := by
  have hu (u : State) (x : AgEntry) : ∃ im, u.unstage x = { u with mgmt := { u.mgmt with images := im } } := by
    unfold State.unstage
    split
    · exact ⟨_, rfl⟩
    · exact ⟨u.mgmt.images, rfl⟩
  have hc (u : State) : ∃ m, (if st = .applied then u.countGlobal 0x4002 none none 1 else u) = { u with ctr := { u.ctr with counters := m } } := by
    split
    · exact State.countGlobal_only _ _ _ _ _
    · exact ⟨u.ctr.counters, rfl⟩
  unfold State.finishEntry
  dsimp only
  obtain ⟨im, h1⟩ := hu (s.setAgEntry e { s.agEntry e with st := st, doneBeat := s.beat.count, next := false, due := false }) (s.agEntry e)
  rw [h1]
  obtain ⟨m, h2⟩ := hc { s.setAgEntry e { s.agEntry e with st := st, doneBeat := s.beat.count, next := false, due := false } with
    mgmt := { s.mgmt with images := im } }
  rw [show (s.setAgEntry e { s.agEntry e with st := st, doneBeat := s.beat.count, next := false, due := false }).mgmt = s.mgmt from rfl, h2]
  split
  · obtain ⟨_, _, _, _, h⟩ := State.notice_only _ _ _
    rw [h]
    exact ⟨_, _, _, _, _, _, rfl⟩
  · exact ⟨_, _, _, _, _, _, rfl⟩

/-- The entry that has ended. -/
theorem State.finishEntry_self (s : State) (e : Nat) (st : EntrySt) (w : BitVec 8) (d : Nat) :
    (s.finishEntry e st w d).agEntry e = { s.agEntry e with st := st, doneBeat := s.beat.count, next := false, due := false } := by
  obtain ⟨_, _, _, _, _, _, h⟩ := s.finishEntry_only e st w d
  rw [h]
  exact State.agEntry_setAgEntry s e _

/-- Every other entry is as before. -/
theorem State.finishEntry_other (s : State) {e n : Nat} (st : EntrySt) (w : BitVec 8) (d : Nat) (ne : n ≠ e) :
    (s.finishEntry e st w d).agEntry n = s.agEntry n := by
  obtain ⟨_, _, _, _, _, _, h⟩ := s.finishEntry_only e st w d
  rw [h]
  exact State.agEntry_setAgEntry_other s _ ne

/-- A deferred command that ends leaves the list of deferred commands and writes the reply path. -/
theorem State.finishWork_only (s : State) (p : Work → Bool) (st : BitVec 8) (d : Nat) (b : Bytes) :
    ∃ df sto af rg ag o dr m, s.finishWork p st d b =
      { s with mgmt := { s.mgmt with deferred := df, stores := sto, authFails := af }, ring := rg, sw := { s.sw with agentOut := ag }
               out := o, draws := dr, ctr := { s.ctr with counters := m } } := by
  unfold State.finishWork
  split
  · exact ⟨_, _, _, _, _, _, _, _, rfl⟩
  · obtain ⟨_, _, _, _, _, _, _, h⟩ := State.complete_only _ _ _ _ _ _ _
    rw [h]
    exact ⟨_, _, _, _, _, _, _, _, rfl⟩

end Sys2Proof.Machine
end

