-- ==== Sys2Proof/Laws/Frame.lean ====
section
/-! SUPPORT. What every operation of the machine keeps, said once: the relation Frame from the state before to the state after, and
the steps by which it goes through the shape of a definition. -/

namespace Sys2Proof.Machine

/-- What no operation breaks: it leaves the queue alone, takes back nothing that was sent, draws no free value twice, keeps the
canonical form of the memory, an accepted ring configuration and the strapped address. -/
structure Frame (s t : State) : Prop where
  queue : t.pending = s.pending
  sent : s.out <+: t.out
  draws : s.draws ≤ t.draws
  cells : Memory.wf s.mem.cells = true → Memory.wf t.mem.cells = true
  ring : RingOk s.ring → RingOk t.ring
  strap : StrapOk s → StrapOk t

theorem Frame.refl (s : State) : Frame s s := ⟨rfl, List.prefix_rfl, Nat.le_refl _, id, id, id⟩

theorem Frame.trans {s t u : State} (h : Frame s t) (g : Frame t u) : Frame s u :=
  ⟨g.queue.trans h.queue, h.sent.trans g.sent, Nat.le_trans h.draws g.draws, fun x => g.cells (h.cells x),
    fun x => g.ring (h.ring x), fun x => g.strap (h.strap x)⟩

/-- The fields of the ring that RingOk reads. -/
def Ring.config (r : Ring) : Nat × Nat × Nat × Word × Word := (r.slotsLog2, r.cmdSlot, r.replySlot, r.cmdBase, r.replyBase)

theorem RingOk.congr {r q : Ring} (e : q.config = r.config) (h : RingOk r) : RingOk q := by
  simp only [Ring.config, Prod.mk.injEq] at e
  obtain ⟨e1, e2, e3, e4, e5⟩ := e
  unfold RingOk at *
  rw [e1, e2, e3, e4, e5]
  exact h

/-- A record update that writes none of the kept fields. -/
theorem Frame.rebuild {o t : State} {pkg beat agenda mgmt ring tables sw recov mem coll ports power bist ctr side}
    (h : Frame o t) (e1 : ring.config = t.ring.config) (e2 : mem.cells = t.mem.cells) (e3 : pkg.trayPos = t.pkg.trayPos)
    (e4 : side.staticAddr = t.side.staticAddr) :
    Frame o (State.mk pkg beat agenda mgmt ring tables sw recov mem coll ports power bist ctr side t.out t.draws t.pending) :=
  h.trans ⟨rfl, List.prefix_rfl, Nat.le_refl _, fun x => by rw [e2]; exact x, RingOk.congr e1,
    fun x => by unfold StrapOk at *; rw [e3, e4]; exact x⟩

theorem Frame.foldl {α : Type} {o t : State} {l : List α} {f : State → α → State} (h : Frame o t)
    (g : ∀ u x, Frame o u → Frame o (f u x)) : Frame o (l.foldl f t) := by
  induction l generalizing t with
  | nil => exact h
  | cons a r ih => exact ih (g _ _ h)

theorem Frame.foldl_fst {α β : Type} {o : State} {l : List α} {p : State × β} {f : State × β → α → State × β}
    (h : Frame o p.1) (g : ∀ q x, Frame o q.1 → Frame o (f q x).1) : Frame o (l.foldl f p).1 := by
  induction l generalizing p with
  | nil => exact h
  | cons a r ih => exact ih (g _ _ h)

theorem Frame.foldl_snd {α β : Type} {o : State} {l : List α} {p : β × State} {f : β × State → α → β × State}
    (h : Frame o p.2) (g : ∀ q x, Frame o q.2 → Frame o (f q x).2) : Frame o (l.foldl f p).2 := by
  induction l generalizing p with
  | nil => exact h
  | cons a r ih => exact ih (g _ _ h)

theorem Frame.ite {o a b : State} {c : Prop} [Decidable c] (h : c → Frame o a) (g : ¬c → Frame o b) :
    Frame o (if c then a else b) := by
  by_cases e : c
  · rw [if_pos e]; exact h e
  · rw [if_neg e]; exact g e

/-- The next state of an outcome, if it has one, is framed. -/
def FrameOut (o : State) (x : Out) : Prop := ∀ t, x = .next t → Frame o t

theorem FrameOut.next {o t : State} (h : Frame o t) : FrameOut o (.next t) := by
  intro u e
  cases e
  exact h

theorem FrameOut.fault {o : State} {f : Fault} : FrameOut o (.fault f) := fun _ e => nomatch e

theorem FrameOut.refused {o : State} {r : Refusal} : FrameOut o (.refused r) := fun _ e => nomatch e

theorem FrameOut.ite {o : State} {a b : Out} {c : Prop} [Decidable c] (h : c → FrameOut o a) (g : ¬c → FrameOut o b) :
    FrameOut o (if c then a else b) := by
  by_cases e : c
  · rw [if_pos e]; exact h e
  · rw [if_neg e]; exact g e

/-- The state of an optional answer, if there is one, is framed. -/
def FrameOpt (o : State) (x : Option State) : Prop := ∀ t, x = some t → Frame o t

theorem FrameOpt.some {o t : State} (h : Frame o t) : FrameOpt o (some t) := by
  intro u e
  cases e
  exact h

theorem FrameOpt.none {o : State} : FrameOpt o none := fun _ e => nomatch e

theorem FrameOpt.ite {o : State} {a b : Option State} {c : Prop} [Decidable c] (h : c → FrameOpt o a) (g : ¬c → FrameOpt o b) :
    FrameOpt o (if c then a else b) := by
  by_cases e : c
  · rw [if_pos e]; exact h e
  · rw [if_neg e]; exact g e

theorem Frame.getD {o s : State} {x : Option State} (h : FrameOpt o x) (g : Frame o s) : Frame o (x.getD s) := by
  cases x with
  | none => exact g
  | some t => exact h t rfl

/-- The outcome of an optional answer, if there is one, is framed. -/
def FrameOptOut (o : State) (x : Option Out) : Prop := ∀ t, x = some t → FrameOut o t

theorem FrameOptOut.some {o : State} {t : Out} (h : FrameOut o t) : FrameOptOut o (some t) := by
  intro u e
  cases e
  exact h

theorem FrameOptOut.none {o : State} : FrameOptOut o none := fun _ e => nomatch e

theorem State.emit_frame {o s : State} {e : Emission} (h : Frame o s) : Frame o (s.emit e) :=
  h.trans ⟨rfl, ⟨[e], rfl⟩, Nat.le_refl _, id, RingOk.congr rfl, id⟩

theorem State.draw_frame {o s : State} (h : Frame o s) : Frame o s.draw.2 :=
  h.trans ⟨rfl, List.prefix_rfl, Nat.le_succ _, id, id, id⟩

theorem State.draw_frame_pair {o s : State} {a : Word} {b : State} (h : Frame o s) (e : s.draw = (a, b)) : Frame o b := by
  have := State.draw_frame h
  rw [e] at this
  exact this

end Sys2Proof.Machine
end

