-- ==== Sys2Proof/Laws/FrameOps.lean ====
section
/-! SUPPORT. Frame through Machine/Ops.lean: one lemma for each operation. -/

namespace Sys2Proof.Machine

theorem State.setPort_frame {o : State} {s : State} {n : Nat} {p : PortSt} (hF : Frame o s) :
    Frame o (State.setPort s n p) := by
  unfold State.setPort
  try dsimp only
  repeat' first
    | with_reducible assumption
    | split
    | fail_if_no_progress (with_reducible refine Frame.rebuild ?_ rfl rfl rfl rfl)

theorem State.updPort_frame {o : State} {s : State} {n : Nat} {f : PortSt → PortSt} (hF : Frame o s) :
    Frame o (State.updPort s n f) := by
  unfold State.updPort
  try dsimp only
  repeat' first
    | with_reducible assumption
    | with_reducible apply State.setPort_frame

theorem State.setKey_frame {o : State} {s : State} {n : Nat} {k : KeySlot} (hF : Frame o s) :
    Frame o (State.setKey s n k) := by
  unfold State.setKey
  try dsimp only
  repeat' first
    | with_reducible assumption
    | split
    | fail_if_no_progress (with_reducible refine Frame.rebuild ?_ rfl rfl rfl rfl)

theorem State.setAgEntry_frame {o : State} {s : State} {e : Nat} {x : AgEntry} (hF : Frame o s) :
    Frame o (State.setAgEntry s e x) := by
  unfold State.setAgEntry
  try dsimp only
  repeat' first
    | with_reducible assumption
    | split
    | fail_if_no_progress (with_reducible refine Frame.rebuild ?_ rfl rfl rfl rfl)

theorem State.setRecov_frame {o : State} {s : State} {n : Nat} {r : PortRecov} (hF : Frame o s) :
    Frame o (State.setRecov s n r) := by
  unfold State.setRecov
  try dsimp only
  repeat' first
    | with_reducible assumption
    | split
    | fail_if_no_progress (with_reducible refine Frame.rebuild ?_ rfl rfl rfl rfl)

theorem State.setFence_frame {o : State} {s : State} {n : Nat} {f : Fence} (hF : Frame o s) :
    Frame o (State.setFence s n f) := by
  unfold State.setFence
  try dsimp only
  repeat' first
    | with_reducible assumption
    | split
    | fail_if_no_progress (with_reducible refine Frame.rebuild ?_ rfl rfl rfl rfl)

theorem State.setStack_frame {o : State} {s : State} {n : Nat} {x : Stack} (hF : Frame o s) :
    Frame o (State.setStack s n x) := by
  unfold State.setStack
  try dsimp only
  repeat' first
    | with_reducible assumption
    | split
    | fail_if_no_progress (with_reducible refine Frame.rebuild ?_ rfl rfl rfl rfl)

theorem State.setSession_frame {o : State} {s : State} {n : Nat} {x : Session} (hF : Frame o s) :
    Frame o (State.setSession s n x) := by
  unfold State.setSession
  try dsimp only
  repeat' first
    | with_reducible assumption
    | split
    | fail_if_no_progress (with_reducible refine Frame.rebuild ?_ rfl rfl rfl rfl)

theorem State.setRcRole_frame {o : State} {s : State} {n : Nat} {r : Role} (hF : Frame o s) :
    Frame o (State.setRcRole s n r) := by
  unfold State.setRcRole
  try dsimp only
  repeat' first
    | with_reducible assumption
    | split
    | fail_if_no_progress (with_reducible refine Frame.rebuild ?_ rfl rfl rfl rfl)

theorem State.setBufRole_frame {o : State} {s : State} {n : Nat} {r : Role} (hF : Frame o s) :
    Frame o (State.setBufRole s n r) := by
  unfold State.setBufRole
  try dsimp only
  repeat' first
    | with_reducible assumption
    | split
    | fail_if_no_progress (with_reducible refine Frame.rebuild ?_ rfl rfl rfl rfl)

theorem State.setDreyRole_frame {o : State} {s : State} {n : Nat} {r : Role} (hF : Frame o s) :
    Frame o (State.setDreyRole s n r) := by
  unfold State.setDreyRole
  try dsimp only
  repeat' first
    | with_reducible assumption
    | split
    | fail_if_no_progress (with_reducible refine Frame.rebuild ?_ rfl rfl rfl rfl)

theorem State.bankUe_frame {o : State} {s : State} {kind : SpareKind} {n : Nat} (hF : Frame o s) :
    Frame o (State.bankUe s kind n) := by
  unfold State.bankUe
  try dsimp only
  repeat' first
    | with_reducible assumption
    | split
    | fail_if_no_progress (with_reducible refine Frame.rebuild ?_ rfl rfl rfl rfl)

theorem State.setResult_frame {o : State} {s : State} {n : Nat} {r : BistRes} (hF : Frame o s) :
    Frame o (State.setResult s n r) := by
  unfold State.setResult
  try dsimp only
  repeat' first
    | with_reducible assumption
    | split
    | fail_if_no_progress (with_reducible refine Frame.rebuild ?_ rfl rfl rfl rfl)

theorem State.setCounter_frame {o : State} {s : State} {n : Nat} {c : Counter} (hF : Frame o s) :
    Frame o (State.setCounter s n c) := by
  unfold State.setCounter
  try dsimp only
  repeat' first
    | with_reducible assumption
    | split
    | fail_if_no_progress (with_reducible refine Frame.rebuild ?_ rfl rfl rfl rfl)

theorem State.setWindow_frame {o : State} {s : State} {b : Nat} {w : Window} (hF : Frame o s) :
    Frame o (State.setWindow s b w) := by
  unfold State.setWindow
  try dsimp only
  repeat' first
    | with_reducible assumption
    | split
    | fail_if_no_progress (with_reducible refine Frame.rebuild ?_ rfl rfl rfl rfl)

theorem State.setMmb_frame {o : State} {s : State} {b : Nat} {m : Mmb} (hF : Frame o s) :
    Frame o (State.setMmb s b m) := by
  unfold State.setMmb
  try dsimp only
  repeat' first
    | with_reducible assumption
    | split
    | fail_if_no_progress (with_reducible refine Frame.rebuild ?_ rfl rfl rfl rfl)

theorem State.setLpStripe_frame {o : State} {s : State} {lp : Nat} {x : Stripe} (hF : Frame o s) :
    Frame o (State.setLpStripe s lp x) := by
  unfold State.setLpStripe
  try dsimp only
  repeat' first
    | with_reducible assumption
    | with_reducible apply State.updPort_frame

theorem State.countAt_frame {o : State} {s : State} {l : List Nat} {code : Nat} {lpHalf cls arg : Option Nat} {n : Nat} (hF : Frame o s) :
    Frame o (State.countAt s l code lpHalf cls arg n) := by
  unfold State.countAt
  try dsimp only
  repeat' first
    | with_reducible assumption
    | with_reducible apply State.setCounter_frame
    | (with_reducible refine Frame.foldl ?_ ?_; rotate_left; (intro _ _ _; try dsimp only))
    | (with_reducible refine Frame.ite ?_ ?_ <;> intro _)

theorem State.noteCtx_frame {o : State} {s : State} {unit : Nat → Bool} {x : SampleCtx} (hF : Frame o s) :
    Frame o (State.noteCtx s unit x) := by
  unfold State.noteCtx
  try dsimp only
  repeat' first
    | with_reducible assumption
    | with_reducible apply State.setCounter_frame
    | (with_reducible refine Frame.foldl ?_ ?_; rotate_left; (intro _ _ _; try dsimp only))

theorem State.ctxFlit_frame {o : State} {s : State} {lp : Nat} {rx : Bool} {h : Hdr} (hF : Frame o s) :
    Frame o (State.ctxFlit s lp rx h) := by
  unfold State.ctxFlit
  try dsimp only
  repeat' first
    | with_reducible assumption
    | with_reducible apply State.noteCtx_frame

theorem State.ctxUnit_frame {o : State} {s : State} {kind unit : Nat} {x : SampleCtx} (hF : Frame o s) :
    Frame o (State.ctxUnit s kind unit x) := by
  unfold State.ctxUnit
  try dsimp only
  repeat' first
    | with_reducible assumption
    | with_reducible apply State.noteCtx_frame

theorem State.countLp_frame {o : State} {s : State} {lp code : Nat} {cls arg : Option Nat} {n : Nat} (hF : Frame o s) :
    Frame o (State.countLp s lp code cls arg n) := by
  unfold State.countLp
  try dsimp only
  repeat' first
    | with_reducible assumption
    | with_reducible apply State.countAt_frame
    | (with_reducible refine Frame.ite ?_ ?_ <;> intro _)

theorem State.countPort_frame {o : State} {s : State} {port code : Nat} {arg : Option Nat} {n : Nat} (hF : Frame o s) :
    Frame o (State.countPort s port code arg n) := by
  unfold State.countPort
  try dsimp only
  repeat' first
    | with_reducible assumption
    | with_reducible apply State.countAt_frame
    | (with_reducible refine Frame.ite ?_ ?_ <;> intro _)

theorem State.countGlobal_frame {o : State} {s : State} {code : Nat} {cls arg : Option Nat} {n : Nat} (hF : Frame o s) :
    Frame o (State.countGlobal s code cls arg n) := by
  unfold State.countGlobal
  try dsimp only
  repeat' first
    | with_reducible assumption
    | with_reducible apply State.countAt_frame
    | (with_reducible refine Frame.ite ?_ ?_ <;> intro _)

theorem State.countSlots_frame {o : State} {s : State} {lp heading : Nat} {arg : Option Nat} {n : Nat} (hF : Frame o s) :
    Frame o (State.countSlots s lp heading arg n) := by
  unfold State.countSlots
  try dsimp only
  repeat' first
    | with_reducible assumption
    | with_reducible apply State.countLp_frame

theorem State.attend_frame {o : State} {s : State} {m : BitVec 8} (hF : Frame o s) :
    Frame o (State.attend s m) := by
  unfold State.attend
  try dsimp only
  repeat' first
    | with_reducible assumption
    | split
    | fail_if_no_progress (with_reducible refine Frame.rebuild ?_ rfl rfl rfl rfl)

theorem State.msix_frame {o : State} {s : State} {v : Nat} (hF : Frame o s) :
    Frame o (State.msix s v) := by
  unfold State.msix
  try dsimp only
  repeat' first
    | with_reducible assumption
    | with_reducible apply State.emit_frame
    | (with_reducible refine Frame.ite ?_ ?_ <;> intro _)

theorem State.roleChanged_frame {o : State} {s : State} (hF : Frame o s) :
    Frame o (State.roleChanged s) := by
  unfold State.roleChanged
  try dsimp only
  repeat' first
    | with_reducible assumption
    | with_reducible apply State.attend_frame
    | split
    | fail_if_no_progress (with_reducible refine Frame.rebuild ?_ rfl rfl rfl rfl)

theorem State.linkChanged_frame {o : State} {s : State} {port : Nat} (hF : Frame o s) :
    Frame o (State.linkChanged s port) := by
  unfold State.linkChanged
  try dsimp only
  repeat' first
    | with_reducible assumption
    | with_reducible apply State.attend_frame
    | split
    | fail_if_no_progress (with_reducible refine Frame.rebuild ?_ rfl rfl rfl rfl)

theorem State.presenceChanged_frame {o : State} {s : State} {port : Nat} (hF : Frame o s) :
    Frame o (State.presenceChanged s port) := by
  unfold State.presenceChanged
  try dsimp only
  repeat' first
    | with_reducible assumption
    | with_reducible apply State.attend_frame
    | split
    | fail_if_no_progress (with_reducible refine Frame.rebuild ?_ rfl rfl rfl rfl)

theorem State.notice_frame {o : State} {s : State} {pair : Nat} {n : Notice} (hF : Frame o s) :
    Frame o (State.notice s pair n) := by
  unfold State.notice
  try dsimp only
  repeat' first
    | with_reducible assumption
    | with_reducible apply State.attend_frame
    | with_reducible apply State.msix_frame
    | (with_reducible refine Frame.ite ?_ ?_ <;> intro _)
    | split
    | fail_if_no_progress (with_reducible refine Frame.rebuild ?_ rfl rfl rfl rfl)

theorem State.replyIrq_frame {o : State} {s : State} (hF : Frame o s) :
    Frame o (State.replyIrq s) := by
  unfold State.replyIrq
  try dsimp only
  repeat' first
    | with_reducible assumption
    | with_reducible apply State.emit_frame
    | with_reducible apply State.msix_frame
    | (with_reducible refine Frame.ite ?_ ?_ <;> intro _)
    | split
    | fail_if_no_progress (with_reducible refine Frame.rebuild ?_ rfl rfl rfl rfl)

theorem State.writeSlot_frame {o : State} {s : State} {i : Nat} {r : Reply} (hF : Frame o s) :
    Frame o (State.writeSlot s i r) := by
  unfold State.writeSlot
  try dsimp only
  repeat' first
    | with_reducible assumption
    | with_reducible apply State.reply_frame
    | split
    | fail_if_no_progress (with_reducible refine Frame.rebuild ?_ rfl rfl rfl rfl)

theorem State.sendAgent_frame {o : State} {s : State} {f : AgentFrame} (hF : Frame o s) :
    Frame o (State.sendAgent s f) := by
  unfold State.sendAgent
  try dsimp only
  repeat' first
    | with_reducible assumption
    | (with_reducible refine Frame.ite ?_ ?_ <;> intro _)
    | split
    | fail_if_no_progress (with_reducible refine Frame.rebuild ?_ rfl rfl rfl rfl)

theorem State.deliver_frame {o : State} {s : State} {r : Reply} {dup : Bool} (hF : Frame o s) :
    Frame o (State.deliver s r dup) := by
  unfold State.deliver
  try dsimp only
  repeat' first
    | with_reducible assumption
    | with_reducible apply State.draw_frame
    | with_reducible apply State.replyIrq_frame
    | with_reducible apply State.writeSlot_frame
    | with_reducible apply State.sendAgent_frame
    | with_reducible refine State.draw_frame_pair ?_ (by with_reducible assumption)
    | (with_reducible refine Frame.ite ?_ ?_ <;> intro _)
    | split
    | fail_if_no_progress (with_reducible refine Frame.rebuild ?_ rfl rfl rfl rfl)

theorem State.countDenied_frame {o : State} {s : State} {src : Src} (hF : Frame o s) :
    Frame o (State.countDenied s src) := by
  unfold State.countDenied
  try dsimp only
  repeat' first
    | with_reducible assumption
    | split
    | fail_if_no_progress (with_reducible refine Frame.rebuild ?_ rfl rfl rfl rfl)

theorem State.completeAs_frame {o : State} {s : State} {dup : Bool} {c : Cmd} {op : BitVec 16} {keyKept : Bool} {st : BitVec 8} {detail : Nat} {data : Bytes} (hF : Frame o s) :
    Frame o (State.completeAs s dup c op keyKept st detail data) := by
  unfold State.completeAs
  try dsimp only
  repeat' first
    | with_reducible assumption
    | with_reducible apply State.countGlobal_frame
    | with_reducible apply State.deliver_frame
    | with_reducible apply State.countDenied_frame
    | with_reducible apply State.opcode_frame
    | (with_reducible refine Frame.ite ?_ ?_ <;> intro _)

theorem State.complete_frame {o : State} {s : State} {c : Cmd} {op : BitVec 16} {keyKept : Bool} {st : BitVec 8} {detail : Nat} {data : Bytes} (hF : Frame o s) :
    Frame o (State.complete s c op keyKept st detail data) := by
  unfold State.complete
  try dsimp only
  repeat' first
    | with_reducible assumption
    | with_reducible apply State.completeAs_frame

theorem State.reply_frame {o : State} {s : State} {c : Cmd} {op : BitVec 16} {st : BitVec 8} {detail : Nat} {data : Bytes} (hF : Frame o s) :
    Frame o (State.reply s c op st detail data) := by
  unfold State.reply
  try dsimp only
  repeat' first
    | with_reducible assumption
    | with_reducible apply State.complete_frame

theorem State.ok_frame {o : State} {s : State} {c : Cmd} {op : BitVec 16} {data : Bytes} (hF : Frame o s) :
    Frame o (State.ok s c op data) := by
  unfold State.ok
  try dsimp only
  repeat' first
    | with_reducible assumption
    | with_reducible apply State.reply_frame

theorem State.deny_frame {o : State} {s : State} {c : Cmd} {op : BitVec 16} {st : BitVec 8} {detail : Nat} (hF : Frame o s) :
    Frame o (State.deny s c op st detail) := by
  unfold State.deny
  try dsimp only
  repeat' first
    | with_reducible assumption
    | with_reducible apply State.reply_frame

theorem State.defer_frame {o : State} {s : State} {c : Cmd} {op : BitVec 16} {w : Work} (hF : Frame o s) :
    Frame o (State.defer s c op w) := by
  unfold State.defer
  try dsimp only
  repeat' first
    | with_reducible assumption
    | with_reducible apply State.opcode_frame
    | split
    | fail_if_no_progress (with_reducible refine Frame.rebuild ?_ rfl rfl rfl rfl)

theorem State.finishWork_frame {o : State} {s : State} {p : Work → Bool} {st : BitVec 8} {detail : Nat} {data : Bytes} (hF : Frame o s) :
    Frame o (State.finishWork s p st detail data) := by
  unfold State.finishWork
  try dsimp only
  repeat' first
    | with_reducible assumption
    | with_reducible apply State.complete_frame
    | with_reducible apply State.opcode_frame
    | split
    | fail_if_no_progress (with_reducible refine Frame.rebuild ?_ rfl rfl rfl rfl)

theorem State.finishAll_frame {o : State} {s : State} {p : Work → Bool} {st : BitVec 8} {detail : Nat} (hF : Frame o s) :
    Frame o (State.finishAll s p st detail) := by
  unfold State.finishAll
  try dsimp only
  repeat' first
    | with_reducible assumption
    | with_reducible apply State.finishWork_frame
    | (with_reducible refine Frame.foldl ?_ ?_; rotate_left; (intro _ _ _; try dsimp only))

end Sys2Proof.Machine
end

