-- ==== Sys2Proof/Laws/FrameTables.lean ====
section
/-! SUPPORT. Frame through Machine/Tables.lean: one lemma for each operation. -/

namespace Sys2Proof.Machine

theorem State.setEntry_frame {o : State} {s : State} {t n : Nat} {e : Entry} (hF : Frame o s) :
    Frame o (State.setEntry s t n e) := by
  unfold State.setEntry
  try dsimp only
  repeat' first
    | with_reducible assumption
    | split
    | fail_if_no_progress (with_reducible refine Frame.rebuild ?_ rfl rfl rfl rfl)

end Sys2Proof.Machine
end

