-- ==== Sys2Proof/Laws/FrameSwitchOps.lean ====
section
/-! SUPPORT. Frame through Machine/SwitchOps.lean: one lemma for each operation. -/

namespace Sys2Proof.Machine

theorem State.setCells_frame {o : State} {s : State} {k held granted : Nat} (hF : Frame o s) :
    Frame o (State.setCells s k held granted) := by
  unfold State.setCells
  try dsimp only
  repeat' first
    | with_reducible assumption
    | split
    | fail_if_no_progress (with_reducible refine Frame.rebuild ?_ rfl rfl rfl rfl)

theorem payOwed_frame {o : State} {n : Nat} {s : State} (hF : Frame o s) : Frame o (payOwed n s) := by
  induction n generalizing s with
  | zero => exact hF
  | succ n ih =>
    unfold payOwed
    dsimp only
    split
    · exact hF
    · split
      · exact hF
      · exact ih (Frame.rebuild hF rfl rfl rfl rfl)

theorem State.takeCells_frame {o : State} {s : State} {lp tc n : Nat} (hF : Frame o s) :
    Frame o (State.takeCells s lp tc n) := by
  unfold State.takeCells
  try dsimp only
  repeat' first
    | with_reducible assumption
    | with_reducible apply State.setCells_frame

theorem State.freeCells_frame {o : State} {s : State} {lp tc n : Nat} (hF : Frame o s) :
    Frame o (State.freeCells s lp tc n) := by
  unfold State.freeCells
  try dsimp only
  repeat' first
    | with_reducible assumption
    | with_reducible apply State.setCells_frame
    | with_reducible apply payOwed_frame

theorem State.issue_frame {o : State} {s : State} {lp c n : Nat} (hF : Frame o s) :
    Frame o (State.issue s lp c n) := by
  unfold State.issue
  try dsimp only
  repeat' first
    | with_reducible assumption
    | with_reducible apply State.setCells_frame
    | split
    | fail_if_no_progress (with_reducible refine Frame.rebuild ?_ rfl rfl rfl rfl)

theorem State.clearPending_frame {o : State} {s : State} {lp : Nat} (hF : Frame o s) :
    Frame o (State.clearPending s lp) := by
  unfold State.clearPending
  try dsimp only
  repeat' first
    | with_reducible assumption
    | split
    | fail_if_no_progress (with_reducible refine Frame.rebuild ?_ rfl rfl rfl rfl)

theorem State.addReserved_frame {o : State} {s : State} {lp tc : Nat} {n : Int} (hF : Frame o s) :
    Frame o (State.addReserved s lp tc n) := by
  unfold State.addReserved
  try dsimp only
  repeat' first
    | with_reducible assumption
    | split
    | fail_if_no_progress (with_reducible refine Frame.rebuild ?_ rfl rfl rfl rfl)

theorem State.useCredit_frame {o : State} {s : State} {lp tc : Nat} (hF : Frame o s) :
    Frame o (State.useCredit s lp tc) := by
  unfold State.useCredit
  try dsimp only
  repeat' first
    | with_reducible assumption
    | with_reducible apply State.addReserved_frame
    | split
    | fail_if_no_progress (with_reducible refine Frame.rebuild ?_ rfl rfl rfl rfl)

theorem State.setPace_frame {o : State} {s : State} {lp n : Nat} (hF : Frame o s) :
    Frame o (State.setPace s lp n) := by
  unfold State.setPace
  try dsimp only
  repeat' first
    | with_reducible assumption
    | split
    | fail_if_no_progress (with_reducible refine Frame.rebuild ?_ rfl rfl rfl rfl)

theorem State.setHold_frame {o : State} {s : State} {lp : Nat} {h : HoldSt} (hF : Frame o s) :
    Frame o (State.setHold s lp h) := by
  unfold State.setHold
  try dsimp only
  repeat' first
    | with_reducible assumption
    | with_reducible apply State.setRecov_frame

theorem State.putFlit_frame {o : State} {s : State} {lp : Nat} {h : Hdr} {payload : Bytes} {stomped : Bool} (hF : Frame o s) :
    Frame o (State.putFlit s lp h payload stomped) := by
  unfold State.putFlit
  try dsimp only
  repeat' first
    | with_reducible assumption
    | with_reducible apply State.emit_frame
    | with_reducible apply State.setLpStripe_frame

theorem State.putSync_frame {o : State} {s : State} {lp : Nat} (hF : Frame o s) :
    Frame o (State.putSync s lp) := by
  unfold State.putSync
  try dsimp only
  repeat' first
    | with_reducible assumption
    | with_reducible apply State.emit_frame
    | with_reducible apply State.setLpStripe_frame

theorem State.sendSeq_frame {o : State} {s : State} {lp : Nat} {h : Hdr} {payload : Bytes} {stomped : Bool} (hF : Frame o s) :
    Frame o (State.sendSeq s lp h payload stomped) := by
  unfold State.sendSeq
  try dsimp only
  repeat' first
    | with_reducible assumption
    | with_reducible apply State.setLpStripe_frame
    | with_reducible apply State.putFlit_frame

theorem State.countCtrl_frame {o : State} {s : State} {lp subtype : Nat} (hF : Frame o s) :
    Frame o (State.countCtrl s lp subtype) := by
  unfold State.countCtrl
  try dsimp only
  repeat' first
    | with_reducible assumption
    | with_reducible apply State.countLp_frame
    | with_reducible apply State.countSlots_frame

theorem State.sendSleepFlit_frame {o : State} {s : State} {port action : Nat} (hF : Frame o s) :
    Frame o (State.sendSleepFlit s port action) := by
  unfold State.sendSleepFlit
  try dsimp only
  repeat' first
    | with_reducible assumption
    | with_reducible apply State.emit_frame
    | with_reducible apply State.sendSeq_frame
    | with_reducible apply State.countCtrl_frame

theorem State.trySleepFlits_frame {o s : State} {port : Nat} {l : List Nat} (hF : Frame o s) : Frame o (s.trySleepFlits port l) := by
  induction l generalizing s with
  | nil => exact State.updPort_frame hF
  | cons a r ih =>
    unfold State.trySleepFlits
    split
    · exact ih (State.sendSleepFlit_frame hF)
    · exact State.updPort_frame hF

theorem State.flushSleepOut_frame {o : State} {s : State} {port : Nat} (hF : Frame o s) :
    Frame o (State.flushSleepOut s port) := by
  unfold State.flushSleepOut
  try dsimp only
  repeat' first
    | with_reducible assumption
    | with_reducible apply State.trySleepFlits_frame
    | (with_reducible refine Frame.ite ?_ ?_ <;> intro _)

theorem State.abandonSleep_frame {o : State} {s : State} {port : Nat} (hF : Frame o s) :
    Frame o (State.abandonSleep s port) := by
  unfold State.abandonSleep
  try dsimp only
  repeat' first
    | with_reducible assumption
    | with_reducible apply State.setPort_frame
    | with_reducible apply State.updPort_frame
    | with_reducible apply State.finishAll_frame
    | with_reducible apply State.flushSleepOut_frame
    | (with_reducible refine Frame.ite ?_ ?_ <;> intro _)

theorem State.sendCreditFlit_frame {o : State} {s : State} {lp : Nat} {init : Bool} {counts : List Nat} (hF : Frame o s) :
    Frame o (State.sendCreditFlit s lp init counts) := by
  unfold State.sendCreditFlit
  try dsimp only
  repeat' first
    | with_reducible assumption
    | with_reducible apply State.emit_frame
    | with_reducible apply State.sendSeq_frame
    | with_reducible apply State.countCtrl_frame
    | with_reducible apply State.abandonSleep_frame

theorem State.sendInit_frame {o : State} {s : State} {lp : Nat} (hF : Frame o s) :
    Frame o (State.sendInit s lp) := by
  unfold State.sendInit
  try dsimp only
  repeat' first
    | with_reducible assumption
    | with_reducible apply State.setLpStripe_frame
    | with_reducible apply State.clearPending_frame
    | with_reducible apply State.sendCreditFlit_frame
    | (with_reducible refine Frame.ite ?_ ?_ <;> intro _)

theorem State.sendFenceNotice_frame {o : State} {s : State} {n : Nat} {again : Bool} (hF : Frame o s) :
    Frame o (State.sendFenceNotice s n again) := by
  unfold State.sendFenceNotice
  try dsimp only
  repeat' first
    | with_reducible assumption
    | with_reducible apply State.setFence_frame
    | with_reducible apply State.sendAgent_frame
    | (with_reducible refine Frame.ite ?_ ?_ <;> intro _)

theorem State.openFence_frame {o : State} {s : State} {n : Nat} {f : Fence} (hF : Frame o s) :
    Frame o (State.openFence s n f) := by
  unfold State.openFence
  try dsimp only
  repeat' first
    | with_reducible assumption
    | with_reducible apply State.setFence_frame
    | with_reducible apply State.countGlobal_frame
    | with_reducible apply State.sendFenceNotice_frame

theorem State.freeFences_frame {o : State} {s : State} {l : List Nat} (hF : Frame o s) :
    Frame o (State.freeFences s l) := by
  unfold State.freeFences
  try dsimp only
  repeat' first
    | with_reducible assumption
    | with_reducible apply State.setFence_frame
    | (with_reducible refine Frame.foldl ?_ ?_; rotate_left; (intro _ _ _; try dsimp only))

theorem State.foldFences_frame {o : State} {s : State} {l : List Nat} {f : Fence} (hF : Frame o s) :
    Frame o (State.foldFences s l f) := by
  unfold State.foldFences
  try dsimp only
  repeat' first
    | with_reducible assumption
    | with_reducible apply State.openFence_frame
    | with_reducible apply State.freeFences_frame
    | split

theorem State.raiseWildcard_frame {o : State} {s : State} {lp tc : Nat} {fseq : BitVec 16} {reason : Nat} (hF : Frame o s) :
    Frame o (State.raiseWildcard s lp tc fseq reason) := by
  unfold State.raiseWildcard
  try dsimp only
  repeat' first
    | with_reducible assumption
    | with_reducible apply State.openFence_frame
    | with_reducible apply State.foldFences_frame
    | (with_reducible refine Frame.ite ?_ ?_ <;> intro _)
    | split

theorem State.raiseFence_frame {o : State} {s : State} {lp tc : Nat} {dest : BitVec 16} {target : Option Nat} {fseq : BitVec 16} {reason : Nat} (hF : Frame o s) :
    Frame o (State.raiseFence s lp tc dest target fseq reason) := by
  unfold State.raiseFence
  try dsimp only
  repeat' first
    | with_reducible assumption
    | with_reducible apply State.openFence_frame
    | with_reducible apply State.raiseWildcard_frame
    | (with_reducible refine Frame.ite ?_ ?_ <;> intro _)
    | split
    | fail_if_no_progress (with_reducible refine Frame.rebuild ?_ rfl rfl rfl rfl)

theorem State.lossFence_frame {o : State} {s : State} {lp : Nat} {h : Hdr} {reason : Nat} (hF : Frame o s) :
    Frame o (State.lossFence s lp h reason) := by
  unfold State.lossFence
  try dsimp only
  repeat' first
    | with_reducible assumption
    | with_reducible apply State.raiseFence_frame
    | (with_reducible refine Frame.foldl ?_ ?_; rotate_left; (intro _ _ _; try dsimp only))
    | (with_reducible refine Frame.ite ?_ ?_ <;> intro _)

theorem State.setArriving_frame {o : State} {s : State} {lp : Nat} {a : Arriving} (hF : Frame o s) :
    Frame o (State.setArriving s lp a) := by
  unfold State.setArriving
  try dsimp only
  repeat' first
    | with_reducible assumption
    | split
    | fail_if_no_progress (with_reducible refine Frame.rebuild ?_ rfl rfl rfl rfl)

theorem State.discardHead_frame {o : State} {s : State} {lp : Nat} {f : InFrame} {reason : Nat} (hF : Frame o s) :
    Frame o (State.discardHead s lp f reason) := by
  unfold State.discardHead
  try dsimp only
  repeat' first
    | with_reducible assumption
    | with_reducible apply State.countLp_frame
    | with_reducible apply State.freeCells_frame
    | with_reducible apply State.lossFence_frame
    | with_reducible apply State.setArriving_frame
    | (with_reducible refine Frame.ite ?_ ?_ <;> intro _)

theorem State.discardDiverted_frame {o : State} {s : State} {lp : Nat} {f : InFrame} (hF : Frame o s) :
    Frame o (State.discardDiverted s lp f) := by
  unfold State.discardDiverted
  try dsimp only
  repeat' first
    | with_reducible assumption
    | with_reducible apply State.countLp_frame
    | with_reducible apply State.freeCells_frame
    | with_reducible apply State.lossFence_frame

theorem State.dropHead_frame {o : State} {s : State} {lp : Nat} {f : InFrame} (hF : Frame o s) :
    Frame o (State.dropHead s lp f) := by
  unfold State.dropHead
  try dsimp only
  repeat' first
    | with_reducible assumption
    | with_reducible apply State.freeCells_frame
    | with_reducible apply State.setArriving_frame

theorem State.countRx_frame {o : State} {s : State} {lp : Nat} {h : Hdr} (hF : Frame o s) :
    Frame o (State.countRx s lp h) := by
  unfold State.countRx
  try dsimp only
  repeat' first
    | with_reducible assumption
    | with_reducible apply State.countLp_frame

theorem State.cellErrors_frame {o : State} {s : State} {l : List CellErr} (hF : Frame o s) :
    Frame o (State.cellErrors s l) := by
  unfold State.cellErrors
  try dsimp only
  repeat' first
    | with_reducible assumption
    | with_reducible apply State.bankUe_frame
    | with_reducible apply State.countGlobal_frame
    | with_reducible apply State.uncorrected_frame
    | (with_reducible refine Frame.foldl ?_ ?_; rotate_left; (intro _ _ _; try dsimp only))
    | (with_reducible refine Frame.ite ?_ ?_ <;> intro _)

theorem State.ingress_frame {o : State} {s : State} {lp : Nat} {f : InFrame} (hF : Frame o s) :
    Frame o (State.ingress s lp f) := by
  unfold State.ingress
  try dsimp only
  repeat' first
    | with_reducible assumption
    | with_reducible apply State.countLp_frame
    | with_reducible apply State.lossFence_frame
    | with_reducible apply State.setArriving_frame
    | with_reducible apply State.discardHead_frame
    | with_reducible apply State.dropHead_frame
    | with_reducible apply State.cellErrors_frame
    | (with_reducible refine Frame.ite ?_ ?_ <;> intro _)
    | split
    | fail_if_no_progress (with_reducible refine Frame.rebuild ?_ rfl rfl rfl rfl)

theorem State.setCurrent_frame {o : State} {s : State} {lp : Nat} {c : Option Current} (hF : Frame o s) :
    Frame o (State.setCurrent s lp c) := by
  unfold State.setCurrent
  try dsimp only
  repeat' first
    | with_reducible assumption
    | split
    | fail_if_no_progress (with_reducible refine Frame.rebuild ?_ rfl rfl rfl rfl)

theorem State.setFifo_frame {o : State} {s : State} {u : Nat} {l : List Staged} (hF : Frame o s) :
    Frame o (State.setFifo s u l) := by
  unfold State.setFifo
  try dsimp only
  repeat' first
    | with_reducible assumption
    | split
    | fail_if_no_progress (with_reducible refine Frame.rebuild ?_ rfl rfl rfl rfl)

theorem State.setMcFifo_frame {o : State} {s : State} {lp : Nat} {l : List Staged} (hF : Frame o s) :
    Frame o (State.setMcFifo s lp l) := by
  unfold State.setMcFifo
  try dsimp only
  repeat' first
    | with_reducible assumption
    | split
    | fail_if_no_progress (with_reducible refine Frame.rebuild ?_ rfl rfl rfl rfl)

theorem State.unqueue_frame {o : State} {s : State} {id : Nat} (hF : Frame o s) :
    Frame o (State.unqueue s id) := by
  unfold State.unqueue
  try dsimp only
  repeat' first
    | with_reducible assumption
    | with_reducible apply State.freeCells_frame
    | split
    | fail_if_no_progress (with_reducible refine Frame.rebuild ?_ rfl rfl rfl rfl)

theorem State.sendStomp_frame {o : State} {s : State} {lp : Nat} (hF : Frame o s) :
    Frame o (State.sendStomp s lp) := by
  unfold State.sendStomp
  try dsimp only
  repeat' first
    | with_reducible assumption
    | with_reducible apply State.emit_frame
    | with_reducible apply State.ctxFlit_frame
    | with_reducible apply State.countLp_frame
    | with_reducible apply State.countSlots_frame
    | with_reducible apply State.useCredit_frame
    | with_reducible apply State.sendSeq_frame
    | with_reducible apply State.setCurrent_frame
    | (with_reducible refine Frame.ite ?_ ?_ <;> intro _)
    | split
    | fail_if_no_progress (with_reducible refine Frame.rebuild ?_ rfl rfl rfl rfl)

theorem State.stompPayload_frame {o s : State} {p : Option Bytes} (hF : Frame o s) : Frame o (s.stompPayload p).2 := by
  cases p with
  | some b => exact hF
  | none => exact State.draw_frame hF

theorem State.stompPayload_frame_pair {o s : State} {p : Option Bytes} {a : Bytes} {b : State} (hF : Frame o s)
    (e : s.stompPayload p = (a, b)) : Frame o b := by
  have := State.stompPayload_frame (p := p) hF
  rw [e] at this
  exact this

theorem State.stompCurrent_frame {o : State} {s : State} {lp : Nat} {code : BitVec 4} {payload : Option Bytes} (hF : Frame o s) :
    Frame o (State.stompCurrent s lp code payload) := by
  unfold State.stompCurrent
  try dsimp only
  repeat' first
    | with_reducible assumption
    | with_reducible apply State.addReserved_frame
    | with_reducible apply State.setPace_frame
    | with_reducible apply State.setCurrent_frame
    | with_reducible apply State.unqueue_frame
    | with_reducible apply State.sendStomp_frame
    | with_reducible apply State.stompPayload_frame
    | with_reducible refine State.stompPayload_frame_pair ?_ (by with_reducible assumption)
    | (with_reducible refine Frame.ite ?_ ?_ <;> intro _)
    | split

theorem State.discardFrame_frame {o : State} {s : State} {q : QFrame} (hF : Frame o s) :
    Frame o (State.discardFrame s q) := by
  unfold State.discardFrame
  try dsimp only
  repeat' first
    | with_reducible assumption
    | with_reducible apply State.addReserved_frame
    | with_reducible apply State.setPace_frame
    | with_reducible apply State.setFifo_frame
    | with_reducible apply State.unqueue_frame
    | (with_reducible refine Frame.foldl ?_ ?_; rotate_left; (intro _ _ _; try dsimp only))
    | (with_reducible refine Frame.ite ?_ ?_ <;> intro _)

theorem State.faultFrame_frame {o : State} {s : State} {id reason : Nat} {code : BitVec 4} {payload : Option Bytes} (hF : Frame o s) :
    Frame o (State.faultFrame s id reason code payload) := by
  unfold State.faultFrame
  try dsimp only
  repeat' first
    | with_reducible assumption
    | with_reducible apply State.countLp_frame
    | with_reducible apply State.lossFence_frame
    | with_reducible apply State.setCurrent_frame
    | with_reducible apply State.stompCurrent_frame
    | with_reducible apply State.discardFrame_frame
    | (with_reducible refine Frame.ite ?_ ?_ <;> intro _)
    | split

theorem State.sentWhole_frame {o : State} {s : State} {lp : Nat} {h : Hdr} {content : Bytes} (hF : Frame o s) :
    Frame o (State.sentWhole s lp h content) := by
  unfold State.sentWhole
  try dsimp only
  repeat' first
    | with_reducible assumption
    | with_reducible apply State.emit_frame
    | with_reducible apply State.countLp_frame
    | with_reducible apply State.countSlots_frame

theorem State.ingressWaiting_frame {o : State} {s : State} {lp : Nat} {f : InFrame} (hF : Frame o s) :
    Frame o (State.ingressWaiting s lp f) := by
  unfold State.ingressWaiting
  try dsimp only
  repeat' first
    | with_reducible assumption
    | with_reducible apply State.setArriving_frame
    | with_reducible apply State.ingress_frame
    | (with_reducible refine Frame.ite ?_ ?_ <;> intro _)

theorem State.countHeld_frame {o : State} {s : State} (hF : Frame o s) :
    Frame o (State.countHeld s) := by
  unfold State.countHeld
  try dsimp only
  repeat' first
    | with_reducible assumption
    | with_reducible apply State.countGlobal_frame
    | split
    | fail_if_no_progress (with_reducible refine Frame.rebuild ?_ rfl rfl rfl rfl)

theorem State.arriveFrame_frame {o : State} {s : State} {lp : Nat} {f : InFrame} (hF : Frame o s) :
    Frame o (State.arriveFrame s lp f) := by
  unfold State.arriveFrame
  try dsimp only
  repeat' first
    | with_reducible assumption
    | with_reducible apply State.ctxFlit_frame
    | with_reducible apply State.takeCells_frame
    | with_reducible apply State.setArriving_frame
    | with_reducible apply State.countRx_frame
    | with_reducible apply State.ingress_frame
    | with_reducible apply State.countHeld_frame
    | (with_reducible refine Frame.ite ?_ ?_ <;> intro _)
    | split
    | fail_if_no_progress (with_reducible refine Frame.rebuild ?_ rfl rfl rfl rfl)

theorem State.takeDiverted_frame {o : State} {s : State} {lp : Nat} {foreign : Bool} {f : InFrame} (hF : Frame o s) :
    Frame o (State.takeDiverted s lp foreign f).1 := by
  unfold State.takeDiverted
  try dsimp only
  repeat' first
    | with_reducible assumption
    | with_reducible apply State.discardDiverted_frame
    | with_reducible apply State.cellErrors_frame
    | split
    | fail_if_no_progress (with_reducible refine Frame.rebuild ?_ rfl rfl rfl rfl)

theorem State.takeDiverted_frame_pair {o : State} {s : State} {lp : Nat} {foreign : Bool} {f : InFrame} (hF : Frame o s)
    {pa : State} {pb : Option Diverted} (eF : (State.takeDiverted s lp foreign f) = (pa, pb)) : Frame o pa := by
  have this : Frame o (State.takeDiverted s lp foreign f).1 := State.takeDiverted_frame (hF := hF)
  rw [eF] at this
  exact this

theorem State.claim_frame {o : State} {s : State} {lp : Nat} {foreign : Bool} {f : InFrame} (hF : Frame o s) :
    Frame o (State.claim s lp foreign f).1 := by
  unfold State.claim
  try dsimp only
  repeat' first
    | with_reducible assumption
    | with_reducible apply State.arriveFrame_frame
    | with_reducible apply State.takeDiverted_frame
    | with_reducible refine State.takeDiverted_frame_pair ?_ (by with_reducible assumption)
    | split

theorem State.claim_frame_pair {o : State} {s : State} {lp : Nat} {foreign : Bool} {f : InFrame} (hF : Frame o s)
    {pa : State} {pb : Option Diverted} (eF : (State.claim s lp foreign f) = (pa, pb)) : Frame o pa := by
  have this : Frame o (State.claim s lp foreign f).1 := State.claim_frame (hF := hF)
  rw [eF] at this
  exact this

theorem State.freeFrame_frame {o : State} {s : State} {lp : Nat} {f : InFrame} (hF : Frame o s) :
    Frame o (State.freeFrame s lp f) := by
  unfold State.freeFrame
  try dsimp only
  repeat' first
    | with_reducible assumption
    | with_reducible apply State.freeCells_frame

theorem State.dropAgentOut_frame {o : State} {s : State} {lp : Nat} (hF : Frame o s) :
    Frame o (State.dropAgentOut s lp) := by
  unfold State.dropAgentOut
  try dsimp only
  repeat' first
    | with_reducible assumption
    | split
    | fail_if_no_progress (with_reducible refine Frame.rebuild ?_ rfl rfl rfl rfl)

end Sys2Proof.Machine
end

