-- ==== Sys2Proof/Laws/FrameCounterOps.lean ====
section
/-! SUPPORT. Frame through Machine/CounterOps.lean: one lemma for each operation. -/

namespace Sys2Proof.Machine

theorem State.reprogram_frame {o : State} {s : State} {n : Nat} (hF : Frame o s) :
    Frame o (State.reprogram s n) := by
  unfold State.reprogram
  try dsimp only
  repeat' first
    | with_reducible assumption
    | with_reducible apply State.setCounter_frame

theorem State.applySelect_frame {o : State} {s : State} {n : Nat} (hF : Frame o s) :
    Frame o (State.applySelect s n) := by
  unfold State.applySelect
  try dsimp only
  repeat' first
    | with_reducible assumption
    | with_reducible apply State.setCounter_frame
    | with_reducible apply State.setEntry_frame
    | with_reducible apply State.reprogram_frame
    | split

theorem State.markWindows_frame {o : State} {s : State} {old : Beat} (hF : Frame o s) :
    Frame o (State.markWindows s old) := by
  unfold State.markWindows
  try dsimp only
  repeat' first
    | with_reducible assumption
    | with_reducible apply State.setWindow_frame
    | (with_reducible refine Frame.foldl ?_ ?_; rotate_left; (intro _ _ _; try dsimp only))
    | (with_reducible refine Frame.ite ?_ ?_ <;> intro _)

theorem State.closeWindow_frame {o : State} {s : State} {b : Nat} (hF : Frame o s) :
    Frame o (State.closeWindow s b) := by
  unfold State.closeWindow
  try dsimp only
  repeat' first
    | with_reducible assumption
    | with_reducible apply State.setCounter_frame
    | with_reducible apply State.setWindow_frame
    | (with_reducible refine Frame.foldl ?_ ?_; rotate_left; (intro _ _ _; try dsimp only))
    | (with_reducible refine Frame.ite ?_ ?_ <;> intro _)

theorem State.endWindow_frame {o : State} {s : State} {b : Nat} (hF : Frame o s) :
    Frame o (State.endWindow s b) := by
  unfold State.endWindow
  try dsimp only
  repeat' first
    | with_reducible assumption
    | with_reducible apply State.setWindow_frame
    | with_reducible apply State.closeWindow_frame
    | (with_reducible refine Frame.ite ?_ ?_ <;> intro _)

theorem State.applyWindow_frame {o : State} {s : State} {b : Nat} (hF : Frame o s) :
    Frame o (State.applyWindow s b) := by
  unfold State.applyWindow
  try dsimp only
  repeat' first
    | with_reducible assumption
    | with_reducible apply State.setCounter_frame
    | with_reducible apply State.setWindow_frame
    | (with_reducible refine Frame.foldl ?_ ?_; rotate_left; (intro _ _ _; try dsimp only))
    | split

theorem State.spoilWindow_frame {o : State} {s : State} {b : Nat} (hF : Frame o s) :
    Frame o (State.spoilWindow s b) := by
  unfold State.spoilWindow
  try dsimp only
  repeat' first
    | with_reducible assumption
    | with_reducible apply State.setWindow_frame

theorem State.spoilWindows_frame {o : State} {s : State} (hF : Frame o s) :
    Frame o (State.spoilWindows s) := by
  unfold State.spoilWindows
  try dsimp only
  repeat' first
    | with_reducible assumption
    | with_reducible apply State.spoilWindow_frame
    | (with_reducible refine Frame.foldl ?_ ?_; rotate_left; (intro _ _ _; try dsimp only))

theorem State.counterStep_frame {o : State} {s : State} (hF : Frame o s) :
    Frame o (State.counterStep s) := by
  unfold State.counterStep
  try dsimp only
  repeat' first
    | with_reducible assumption
    | with_reducible apply State.applySelect_frame
    | with_reducible apply State.endWindow_frame
    | with_reducible apply State.applyWindow_frame
    | (with_reducible refine Frame.foldl ?_ ?_; rotate_left; (intro _ _ _; try dsimp only))

theorem State.pushSample_frame {o : State} {s : State} {r : Sample} (hF : Frame o s) :
    Frame o (State.pushSample s r) := by
  unfold State.pushSample
  try dsimp only
  repeat' first
    | with_reducible assumption
    | with_reducible apply State.attend_frame
    | with_reducible apply State.msix_frame
    | (with_reducible refine Frame.ite ?_ ?_ <;> intro _)
    | split
    | fail_if_no_progress (with_reducible refine Frame.rebuild ?_ rfl rfl rfl rfl)

end Sys2Proof.Machine
end

