-- ==== Sys2Proof/Laws/FramePowerOps.lean ====
section
/-! SUPPORT. Frame through Machine/PowerOps.lean: one lemma for each operation. -/

namespace Sys2Proof.Machine

theorem State.updPower_frame {o : State} {s : State} {f : Power → Power} (hF : Frame o s) :
    Frame o (State.updPower s f) := by
  unfold State.updPower
  try dsimp only
  repeat' first
    | with_reducible assumption
    | split
    | fail_if_no_progress (with_reducible refine Frame.rebuild ?_ rfl rfl rfl rfl)

theorem State.powerAttn_frame {o : State} {s : State} {b : Bool} (hF : Frame o s) :
    Frame o (State.powerAttn s b) := by
  unfold State.powerAttn
  try dsimp only
  repeat' first
    | with_reducible assumption
    | with_reducible apply State.attend_frame
    | (with_reducible refine Frame.ite ?_ ?_ <;> intro _)

theorem State.refuseRaise_frame {o : State} {s : State} (hF : Frame o s) :
    Frame o (State.refuseRaise s) := by
  unfold State.refuseRaise
  try dsimp only
  repeat' first
    | with_reducible assumption
    | with_reducible apply State.updPower_frame
    | with_reducible apply State.powerAttn_frame

theorem State.lowerCap_frame {o : State} {s : State} {k : Nat} (hF : Frame o s) :
    Frame o (State.lowerCap s k) := by
  unfold State.lowerCap
  try dsimp only
  repeat' first
    | with_reducible assumption
    | with_reducible apply State.updPower_frame
    | (with_reducible refine Frame.ite ?_ ?_ <;> intro _)

theorem State.startMove_frame {o : State} {s : State} (hF : Frame o s) :
    Frame o (State.startMove s) := by
  unfold State.startMove
  try dsimp only
  repeat' first
    | with_reducible assumption
    | with_reducible apply State.updPower_frame
    | (with_reducible refine Frame.ite ?_ ?_ <;> intro _)

theorem State.retargetRail_frame {o : State} {s : State} (hF : Frame o s) :
    Frame o (State.retargetRail s) := by
  unfold State.retargetRail
  try dsimp only
  repeat' first
    | with_reducible assumption
    | with_reducible apply State.updPower_frame
    | with_reducible apply State.startMove_frame

theorem State.raiseCap_frame {o : State} {s : State} (hF : Frame o s) :
    Frame o (State.raiseCap s) := by
  unfold State.raiseCap
  try dsimp only
  repeat' first
    | with_reducible assumption
    | with_reducible apply State.updPower_frame

theorem State.powerBoundary_frame {o : State} {s : State} (hF : Frame o s) :
    Frame o (State.powerBoundary s) := by
  unfold State.powerBoundary
  try dsimp only
  repeat' first
    | with_reducible assumption
    | with_reducible apply State.updPower_frame
    | with_reducible apply State.powerAttn_frame
    | with_reducible apply State.retargetRail_frame
    | with_reducible apply State.raiseCap_frame

theorem State.endPowerBeat_frame {o : State} {s : State} (hF : Frame o s) :
    Frame o (State.endPowerBeat s) := by
  unfold State.endPowerBeat
  try dsimp only
  repeat' first
    | with_reducible assumption
    | with_reducible apply State.updPower_frame

theorem State.droopBoundary_frame {o : State} {s : State} {low : Bool} (hF : Frame o s) :
    Frame o (State.droopBoundary s low) := by
  unfold State.droopBoundary
  try dsimp only
  repeat' first
    | with_reducible assumption
    | with_reducible apply State.updPower_frame

theorem State.sample_frame {o : State} {s : State} {watts : Nat} (hF : Frame o s) :
    Frame o (State.sample s watts) := by
  unfold State.sample
  try dsimp only
  repeat' first
    | with_reducible assumption
    | with_reducible apply State.powerAttn_frame
    | with_reducible apply State.lowerCap_frame
    | (with_reducible refine Frame.ite ?_ ?_ <;> intro _)
    | split
    | fail_if_no_progress (with_reducible refine Frame.rebuild ?_ rfl rfl rfl rfl)

end Sys2Proof.Machine
end

