-- ==== Sys2Proof/Laws/FrameCollOps.lean ====
section
/-! SUPPORT. Frame through Machine/CollOps.lean: one lemma for each operation. -/

namespace Sys2Proof.Machine

theorem State.countPass_frame {o : State} {s : State} {code n sid chunk : Nat} (hF : Frame o s) :
    Frame o (State.countPass s code n sid chunk) := by
  unfold State.countPass
  try dsimp only
  repeat' first
    | with_reducible assumption
    | with_reducible apply State.draw_frame
    | with_reducible apply State.ctxUnit_frame
    | with_reducible apply State.countGlobal_frame
    | with_reducible refine State.draw_frame_pair ?_ (by with_reducible assumption)
    | (with_reducible refine Frame.ite ?_ ?_ <;> intro _)

theorem countPasses_frame {o : State} {g code n sid chunk : Nat} {s : State} (hF : Frame o s) :
    Frame o (countPasses g code n sid chunk s) := by
  induction g generalizing s with
  | zero => exact hF
  | succ g ih =>
    unfold countPasses
    exact ih (State.countPass_frame hF)

theorem State.flowOf_frame {o : State} {s : State} {m : Member} (hF : Frame o s) :
    Frame o (State.flowOf s m).2 := by
  unfold State.flowOf
  try dsimp only
  repeat' first
    | with_reducible assumption
    | with_reducible apply State.draw_frame
    | with_reducible refine State.draw_frame_pair ?_ (by with_reducible assumption)
    | split

theorem State.flowOf_frame_pair {o : State} {s : State} {m : Member} (hF : Frame o s)
    {pa : (BitVec 16 × Nat)} {pb : State} (eF : (State.flowOf s m) = (pa, pb)) : Frame o pb := by
  have this : Frame o (State.flowOf s m).2 := State.flowOf_frame (hF := hF)
  rw [eF] at this
  exact this

theorem State.marker_frame {o : State} {s : State} {sid : Nat} {m : Member} {kind aflags arg0 arg1 status detail : Nat} (hF : Frame o s) :
    Frame o (State.marker s sid m kind aflags arg0 arg1 status detail) := by
  unfold State.marker
  try dsimp only
  repeat' first
    | with_reducible assumption
    | with_reducible apply State.sendAgent_frame
    | with_reducible apply State.flowOf_frame

theorem State.countDiscard_frame {o : State} {s : State} (hF : Frame o s) :
    Frame o (State.countDiscard s) := by
  unfold State.countDiscard
  try dsimp only
  repeat' first
    | with_reducible assumption
    | with_reducible apply State.countGlobal_frame
    | split
    | fail_if_no_progress (with_reducible refine Frame.rebuild ?_ rfl rfl rfl rfl)

theorem State.dropColl_frame {o : State} {s : State} {lp : Nat} {f : InFrame} (hF : Frame o s) :
    Frame o (State.dropColl s lp f) := by
  unfold State.dropColl
  try dsimp only
  repeat' first
    | with_reducible assumption
    | with_reducible apply State.freeFrame_frame
    | with_reducible apply State.countDiscard_frame

theorem State.foreignMarker_frame {o : State} {s : State} {lp : Nat} {f : InFrame} (hF : Frame o s) :
    Frame o (State.foreignMarker s lp f) := by
  unfold State.foreignMarker
  try dsimp only
  repeat' first
    | with_reducible assumption
    | with_reducible apply State.sendAgent_frame
    | with_reducible apply State.dropColl_frame

theorem State.closeDone_frame {o : State} {s : State} {sid : Nat} {st : BitVec 8} {detail : Nat} (hF : Frame o s) :
    Frame o (State.closeDone s sid st detail) := by
  unfold State.closeDone
  try dsimp only
  repeat' first
    | with_reducible assumption
    | with_reducible apply State.finishWork_frame

theorem State.freeSession_frame {o : State} {s : State} {sid : Nat} (hF : Frame o s) :
    Frame o (State.freeSession s sid) := by
  unfold State.freeSession
  try dsimp only
  repeat' first
    | with_reducible assumption
    | with_reducible apply State.setSession_frame

theorem State.dropEntry_frame {o : State} {s : State} {sid : Nat} (hF : Frame o s) :
    Frame o (State.dropEntry s sid) := by
  unfold State.dropEntry
  try dsimp only
  repeat' first
    | with_reducible assumption
    | with_reducible apply State.dropColl_frame
    | (with_reducible refine Frame.foldl ?_ ?_; rotate_left; (intro _ _ _; try dsimp only))
    | split
    | fail_if_no_progress (with_reducible refine Frame.rebuild ?_ rfl rfl rfl rfl)

theorem State.settleChecking_frame {o : State} {s : State} {sid : Nat} (hF : Frame o s) :
    Frame o (State.settleChecking s sid) := by
  unfold State.settleChecking
  try dsimp only
  repeat' first
    | with_reducible assumption
    | with_reducible apply State.setSession_frame
    | with_reducible apply State.sentWhole_frame
    | (with_reducible refine Frame.foldl ?_ ?_; rotate_left; (intro _ _ _; try dsimp only))
    | split
    | fail_if_no_progress (with_reducible refine Frame.rebuild ?_ rfl rfl rfl rfl)

theorem State.dropResults_frame {o : State} {s : State} {sid : Nat} (hF : Frame o s) :
    Frame o (State.dropResults s sid) := by
  unfold State.dropResults
  try dsimp only
  repeat' first
    | with_reducible assumption
    | with_reducible apply State.addReserved_frame
    | with_reducible apply State.setCurrent_frame
    | with_reducible apply State.stompCurrent_frame
    | (with_reducible refine Frame.foldl ?_ ?_; rotate_left; (intro _ _ _; try dsimp only))
    | (with_reducible refine Frame.ite ?_ ?_ <;> intro _)
    | split
    | fail_if_no_progress (with_reducible refine Frame.rebuild ?_ rfl rfl rfl rfl)

theorem State.retract_frame {o : State} {s : State} {sid : Nat} {m : Member} (hF : Frame o s) :
    Frame o (State.retract s sid m) := by
  unfold State.retract
  try dsimp only
  repeat' first
    | with_reducible assumption
    | with_reducible apply State.setSession_frame
    | with_reducible apply State.countGlobal_frame
    | with_reducible apply State.marker_frame
    | (with_reducible refine Frame.ite ?_ ?_ <;> intro _)

theorem State.countAbort_frame {o : State} {s : State} {reason : Nat} (hF : Frame o s) :
    Frame o (State.countAbort s reason) := by
  unfold State.countAbort
  try dsimp only
  repeat' first
    | with_reducible assumption
    | with_reducible apply State.countGlobal_frame

theorem State.abortEpoch_frame {o : State} {s : State} {sid reason : Nat} {lp : Option Nat} (hF : Frame o s) :
    Frame o (State.abortEpoch s sid reason lp) := by
  unfold State.abortEpoch
  try dsimp only
  repeat' first
    | with_reducible assumption
    | with_reducible apply State.setSession_frame
    | with_reducible apply State.marker_frame
    | with_reducible apply State.closeDone_frame
    | with_reducible apply State.freeSession_frame
    | with_reducible apply State.dropEntry_frame
    | with_reducible apply State.settleChecking_frame
    | with_reducible apply State.dropResults_frame
    | with_reducible apply State.retract_frame
    | with_reducible apply State.countAbort_frame
    | (with_reducible refine Frame.foldl ?_ ?_; rotate_left; (intro _ _ _; try dsimp only))
    | (with_reducible refine Frame.ite ?_ ?_ <;> intro _)

theorem State.endEpoch_frame {o : State} {s : State} {sid : Nat} (hF : Frame o s) :
    Frame o (State.endEpoch s sid) := by
  unfold State.endEpoch
  try dsimp only
  repeat' first
    | with_reducible assumption
    | with_reducible apply State.setSession_frame
    | with_reducible apply State.marker_frame
    | with_reducible apply State.closeDone_frame
    | with_reducible apply State.freeSession_frame
    | with_reducible apply State.dropEntry_frame
    | (with_reducible refine Frame.foldl ?_ ?_; rotate_left; (intro _ _ _; try dsimp only))
    | (with_reducible refine Frame.ite ?_ ?_ <;> intro _)

theorem State.collLost_frame {o : State} {s : State} {lp : Nat} (hF : Frame o s) :
    Frame o (State.collLost s lp) := by
  unfold State.collLost
  try dsimp only
  repeat' first
    | with_reducible assumption
    | with_reducible apply State.abortEpoch_frame
    | (with_reducible refine Frame.foldl ?_ ?_; rotate_left; (intro _ _ _; try dsimp only))

theorem State.collResetAborts_frame {o : State} {s : State} (hF : Frame o s) :
    Frame o (State.collResetAborts s) := by
  unfold State.collResetAborts
  try dsimp only
  repeat' first
    | with_reducible assumption
    | with_reducible apply State.abortEpoch_frame
    | (with_reducible refine Frame.foldl ?_ ?_; rotate_left; (intro _ _ _; try dsimp only))

theorem State.finishChunk_frame {o : State} {s : State} {sid : Nat} {ch : Chunk} (hF : Frame o s) :
    Frame o (State.finishChunk s sid ch) := by
  unfold State.finishChunk
  try dsimp only
  repeat' first
    | with_reducible assumption
    | with_reducible apply State.setSession_frame
    | with_reducible apply State.sendAgent_frame
    | with_reducible apply countPasses_frame
    | (with_reducible refine Frame.foldl ?_ ?_; rotate_left; (intro _ _ _; try dsimp only))
    | (with_reducible refine Frame.ite ?_ ?_ <;> intro _)
    | split

theorem State.closeCheck_frame {o : State} {s : State} {sid : Nat} (hF : Frame o s) :
    Frame o (State.closeCheck s sid) := by
  unfold State.closeCheck
  try dsimp only
  repeat' first
    | with_reducible assumption
    | with_reducible apply State.abortEpoch_frame
    | (with_reducible refine Frame.ite ?_ ?_ <;> intro _)

theorem State.commitChunk_frame {o : State} {s : State} {sid : Nat} {ch : Chunk} (hF : Frame o s) :
    Frame o (State.commitChunk s sid ch) := by
  unfold State.commitChunk
  try dsimp only
  repeat' first
    | with_reducible assumption
    | with_reducible apply State.setSession_frame
    | with_reducible apply State.countGlobal_frame
    | with_reducible apply State.marker_frame
    | with_reducible apply State.endEpoch_frame
    | with_reducible apply State.closeCheck_frame
    | (with_reducible refine Frame.foldl ?_ ?_; rotate_left; (intro _ _ _; try dsimp only))
    | (with_reducible refine Frame.ite ?_ ?_ <;> intro _)
    | split

theorem State.beatSyncRelease_frame {o : State} {s : State} (hF : Frame o s) :
    Frame o (State.beatSyncRelease s) := by
  unfold State.beatSyncRelease
  try dsimp only
  repeat' first
    | with_reducible assumption
    | with_reducible apply State.setSession_frame
    | with_reducible apply State.complete_frame
    | with_reducible apply State.endEpoch_frame
    | (with_reducible refine Frame.foldl ?_ ?_; rotate_left; (intro _ _ _; try dsimp only))
    | (with_reducible refine Frame.ite ?_ ?_ <;> intro _)

theorem State.damageGroup_frame {o : State} {s : State} {sid chunk group : Nat} {kind : DamageKind} (hF : Frame o s) :
    Frame o (State.damageGroup s sid chunk group kind) := by
  unfold State.damageGroup
  try dsimp only
  repeat' first
    | with_reducible assumption
    | with_reducible apply State.bankUe_frame
    | with_reducible apply State.countPass_frame
    | with_reducible apply State.abortEpoch_frame
    | (with_reducible refine Frame.ite ?_ ?_ <;> intro _)
    | split
    | fail_if_no_progress (with_reducible refine Frame.rebuild ?_ rfl rfl rfl rfl)

end Sys2Proof.Machine
end

