-- ==== Sys2Proof/Laws/FrameRecoveryOps.lean ====
section
/-! SUPPORT. Frame through Machine/RecoveryOps.lean: one lemma for each operation. -/

namespace Sys2Proof.Machine

theorem State.setStripeSt_frame {o : State} {s : State} {port : Nat} {sd : Side} {st : StripeSt} (hF : Frame o s) :
    Frame o (State.setStripeSt s port sd st) := by
  unfold State.setStripeSt
  try dsimp only
  repeat' first
    | with_reducible assumption
    | with_reducible apply State.setPort_frame
    | with_reducible apply State.linkChanged_frame
    | (with_reducible refine Frame.ite ?_ ?_ <;> intro _)

theorem State.latchPreset_frame {o : State} {s : State} {port : Nat} (hF : Frame o s) :
    Frame o (State.latchPreset s port) := by
  unfold State.latchPreset
  try dsimp only
  repeat' first
    | with_reducible assumption
    | with_reducible apply State.setPort_frame

theorem State.sendTraining_frame {o : State} {s : State} {port : Nat} {sd : Side} (hF : Frame o s) :
    Frame o (State.sendTraining s port sd) := by
  unfold State.sendTraining
  try dsimp only
  repeat' first
    | with_reducible assumption
    | with_reducible apply State.emit_frame
    | (with_reducible refine Frame.ite ?_ ?_ <;> intro _)

theorem State.setTxSp_frame {o : State} {s : State} {port role : Nat} (hF : Frame o s) :
    Frame o (State.setTxSp s port role) := by
  unfold State.setTxSp
  try dsimp only
  repeat' first
    | with_reducible assumption
    | with_reducible apply State.updPort_frame
    | with_reducible apply State.linkChanged_frame
    | (with_reducible refine Frame.ite ?_ ?_ <;> intro _)

theorem State.setRxSp_frame {o : State} {s : State} {port role : Nat} (hF : Frame o s) :
    Frame o (State.setRxSp s port role) := by
  unfold State.setRxSp
  try dsimp only
  repeat' first
    | with_reducible assumption
    | with_reducible apply State.updPort_frame
    | with_reducible apply State.linkChanged_frame
    | (with_reducible refine Frame.ite ?_ ?_ <;> intro _)

theorem State.enterSend_frame {o : State} {s : State} {port : Nat} {sd : Side} (hF : Frame o s) :
    Frame o (State.enterSend s port sd) := by
  unfold State.enterSend
  try dsimp only
  repeat' first
    | with_reducible assumption
    | with_reducible apply State.setPort_frame
    | with_reducible apply State.setStripeSt_frame
    | with_reducible apply State.latchPreset_frame
    | with_reducible apply State.sendTraining_frame
    | with_reducible apply State.setTxSp_frame
    | with_reducible apply State.setRxSp_frame

theorem State.dropReplay_frame {o : State} {s : State} {lp : Nat} (hF : Frame o s) :
    Frame o (State.dropReplay s lp) := by
  unfold State.dropReplay
  try dsimp only
  repeat' first
    | with_reducible assumption
    | with_reducible apply State.setLpStripe_frame

theorem State.failAttempt_frame {o : State} {s : State} {port : Nat} {sd : Side} {code : Nat} (hF : Frame o s) :
    Frame o (State.failAttempt s port sd code) := by
  unfold State.failAttempt
  try dsimp only
  repeat' first
    | with_reducible assumption
    | with_reducible apply State.updPort_frame
    | with_reducible apply State.setStripeSt_frame

theorem State.clearCredits_frame {o : State} {s : State} {lp : Nat} (hF : Frame o s) :
    Frame o (State.clearCredits s lp) := by
  unfold State.clearCredits
  try dsimp only
  repeat' first
    | with_reducible assumption
    | with_reducible apply State.setCells_frame
    | with_reducible apply payOwed_frame
    | (with_reducible refine Frame.foldl ?_ ?_; rotate_left; (intro _ _ _; try dsimp only))
    | split
    | fail_if_no_progress (with_reducible refine Frame.rebuild ?_ rfl rfl rfl rfl)

theorem State.loseArriving_frame {o : State} {s : State} {lp : Nat} (hF : Frame o s) :
    Frame o (State.loseArriving s lp) := by
  unfold State.loseArriving
  try dsimp only
  repeat' first
    | with_reducible assumption
    | with_reducible apply State.setArriving_frame
    | with_reducible apply State.discardHead_frame
    | with_reducible apply State.faultFrame_frame
    | split
    | fail_if_no_progress (with_reducible refine Frame.rebuild ?_ rfl rfl rfl rfl)

theorem State.countHolding_frame {o : State} {s : State} {lp : Nat} (hF : Frame o s) :
    Frame o (State.countHolding s lp) := by
  unfold State.countHolding
  try dsimp only
  repeat' first
    | with_reducible assumption
    | with_reducible apply State.countLp_frame
    | (with_reducible refine Frame.foldl ?_ ?_; rotate_left; (intro _ _ _; try dsimp only))

theorem State.lpDown_frame {o : State} {s : State} {lp : Nat} (hF : Frame o s) :
    Frame o (State.lpDown s lp) := by
  unfold State.lpDown
  try dsimp only
  repeat' first
    | with_reducible assumption
    | with_reducible apply State.setRecov_frame
    | with_reducible apply State.collLost_frame
    | with_reducible apply State.clearCredits_frame
    | with_reducible apply State.loseArriving_frame
    | with_reducible apply State.countHolding_frame

theorem State.endPortWork_frame {o : State} {s : State} {port : Nat} {lanes : List Nat} {all : Bool} (hF : Frame o s) :
    Frame o (State.endPortWork s port lanes all) := by
  unfold State.endPortWork
  try dsimp only
  repeat' first
    | with_reducible assumption
    | with_reducible apply State.updPort_frame
    | with_reducible apply State.finishAll_frame

theorem State.stripeDown_frame {o : State} {s : State} {port : Nat} {sd : Side} {code : Nat} {next : StripeSt} (hF : Frame o s) :
    Frame o (State.stripeDown s port sd code next) := by
  unfold State.stripeDown
  try dsimp only
  repeat' first
    | with_reducible assumption
    | with_reducible apply State.updPort_frame
    | with_reducible apply State.setStripeSt_frame
    | with_reducible apply State.enterSend_frame
    | with_reducible apply State.lpDown_frame
    | with_reducible apply State.endPortWork_frame
    | (with_reducible refine Frame.ite ?_ ?_ <;> intro _)

theorem State.portDownAll_frame {o : State} {s : State} {port code : Nat} (hF : Frame o s) :
    Frame o (State.portDownAll s port code) := by
  unfold State.portDownAll
  try dsimp only
  repeat' first
    | with_reducible assumption
    | with_reducible apply State.stripeDown_frame
    | (with_reducible refine Frame.foldl ?_ ?_; rotate_left; (intro _ _ _; try dsimp only))
    | (with_reducible refine Frame.ite ?_ ?_ <;> intro _)

theorem State.losePresence_frame {o : State} {s : State} {port : Nat} (hF : Frame o s) :
    Frame o (State.losePresence s port) := by
  unfold State.losePresence
  try dsimp only
  repeat' first
    | with_reducible assumption
    | with_reducible apply State.updPort_frame
    | with_reducible apply State.stripeDown_frame
    | (with_reducible refine Frame.foldl ?_ ?_; rotate_left; (intro _ _ _; try dsimp only))
    | (with_reducible refine Frame.ite ?_ ?_ <;> intro _)

theorem State.setPresence_frame {o : State} {s : State} {bus : Nat} {m : Mmb} (hF : Frame o s) :
    Frame o (State.setPresence s bus m) := by
  unfold State.setPresence
  try dsimp only
  repeat' first
    | with_reducible assumption
    | with_reducible apply State.setMmb_frame
    | with_reducible apply State.presenceChanged_frame
    | with_reducible apply State.losePresence_frame
    | (with_reducible refine Frame.foldl ?_ ?_; rotate_left; (intro _ _ _; try dsimp only))
    | (with_reducible refine Frame.ite ?_ ?_ <;> intro _)

theorem State.dropHeld_frame {o : State} {s : State} {lp : Nat} (hF : Frame o s) :
    Frame o (State.dropHeld s lp) := by
  unfold State.dropHeld
  try dsimp only
  repeat' first
    | with_reducible assumption
    | with_reducible apply State.setCurrent_frame
    | with_reducible apply State.setFifo_frame
    | with_reducible apply State.setMcFifo_frame
    | with_reducible apply State.unqueue_frame
    | with_reducible apply State.dropAgentOut_frame
    | (with_reducible refine Frame.foldl ?_ ?_; rotate_left; (intro _ _ _; try dsimp only))
    | split
    | fail_if_no_progress (with_reducible refine Frame.rebuild ?_ rfl rfl rfl rfl)

theorem State.discardHeld_frame {o : State} {s : State} {lp reason : Nat} (hF : Frame o s) :
    Frame o (State.discardHeld s lp reason).1 := by
  unfold State.discardHeld
  try dsimp only
  repeat' first
    | with_reducible assumption
    | with_reducible apply State.raiseFence_frame
    | with_reducible apply State.dropHeld_frame
    | (with_reducible refine Frame.foldl ?_ ?_; rotate_left; (intro _ _ _; try dsimp only))
    | (with_reducible refine Frame.ite ?_ ?_ <;> intro _)

theorem State.discardHeld_frame_pair {o : State} {s : State} {lp reason : Nat} (hF : Frame o s)
    {pa : State} {pb : Nat} (eF : (State.discardHeld s lp reason) = (pa, pb)) : Frame o pa := by
  have this : Frame o (State.discardHeld s lp reason).1 := State.discardHeld_frame (hF := hF)
  rw [eF] at this
  exact this

theorem State.endHold_frame {o : State} {s : State} {lp reason : Nat} (hF : Frame o s) :
    Frame o (State.endHold s lp reason).1 := by
  unfold State.endHold
  try dsimp only
  repeat' first
    | with_reducible assumption
    | with_reducible apply State.setRecov_frame
    | with_reducible apply State.setHold_frame
    | with_reducible apply State.dropReplay_frame
    | with_reducible apply State.discardHeld_frame
    | with_reducible refine State.discardHeld_frame_pair ?_ (by with_reducible assumption)
    | (with_reducible refine Frame.ite ?_ ?_ <;> intro _)

theorem State.endHold_frame_pair {o : State} {s : State} {lp reason : Nat} (hF : Frame o s)
    {pa : State} {pb : Nat} (eF : (State.endHold s lp reason) = (pa, pb)) : Frame o pa := by
  have this : Frame o (State.endHold s lp reason).1 := State.endHold_frame (hF := hF)
  rw [eF] at this
  exact this

theorem State.expireHolds_frame {o : State} {s : State} (hF : Frame o s) :
    Frame o (State.expireHolds s) := by
  unfold State.expireHolds
  try dsimp only
  repeat' first
    | with_reducible assumption
    | with_reducible apply State.endHold_frame
    | with_reducible refine State.endHold_frame_pair ?_ (by with_reducible assumption)
    | (with_reducible refine Frame.foldl ?_ ?_; rotate_left; (intro _ _ _; try dsimp only))
    | (with_reducible refine Frame.ite ?_ ?_ <;> intro _)

theorem State.sendWaitingNotices_frame {o : State} {s : State} {lp : Nat} (hF : Frame o s) :
    Frame o (State.sendWaitingNotices s lp) := by
  unfold State.sendWaitingNotices
  try dsimp only
  repeat' first
    | with_reducible assumption
    | with_reducible apply State.sendFenceNotice_frame
    | (with_reducible refine Frame.foldl ?_ ?_; rotate_left; (intro _ _ _; try dsimp only))

theorem State.linkUp_frame {o : State} {s : State} {lp : Nat} {resumed : Bool} (hF : Frame o s) :
    Frame o (State.linkUp s lp resumed) := by
  unfold State.linkUp
  try dsimp only
  repeat' first
    | with_reducible assumption
    | with_reducible apply State.setRecov_frame
    | with_reducible apply State.setHold_frame
    | with_reducible apply State.discardHeld_frame
    | with_reducible apply State.sendWaitingNotices_frame
    | with_reducible refine State.discardHeld_frame_pair ?_ (by with_reducible assumption)
    | (with_reducible refine Frame.ite ?_ ?_ <;> intro _)

theorem State.initCredits_frame {o : State} {s : State} {lp : Nat} (hF : Frame o s) :
    Frame o (State.initCredits s lp) := by
  unfold State.initCredits
  try dsimp only
  repeat' first
    | with_reducible assumption
    | with_reducible apply State.setLpStripe_frame
    | with_reducible apply State.issue_frame
    | with_reducible apply State.sendInit_frame
    | (with_reducible refine Frame.foldl ?_ ?_; rotate_left; (intro _ _ _; try dsimp only))

theorem State.creditsIn_frame {o : State} {s : State} {lp : Nat} {init : Bool} {counts : List (BitVec 16)} (hF : Frame o s) :
    Frame o (State.creditsIn s lp init counts) := by
  unfold State.creditsIn
  try dsimp only
  repeat' first
    | with_reducible assumption
    | with_reducible apply State.linkUp_frame
    | (with_reducible refine Frame.foldl ?_ ?_; rotate_left; (intro _ _ _; try dsimp only))
    | (with_reducible refine Frame.ite ?_ ?_ <;> intro _)
    | split
    | fail_if_no_progress (with_reducible refine Frame.rebuild ?_ rfl rfl rfl rfl)

end Sys2Proof.Machine
end

