-- ==== Sys2Proof/Laws/FrameBistOps.lean ====
section
/-! SUPPORT. Frame through Machine/BistOps.lean: one lemma for each operation. -/

namespace Sys2Proof.Machine

theorem State.updBist_frame {o : State} {s : State} {f : Bist → Bist} (hF : Frame o s) :
    Frame o (State.updBist s f) := by
  unfold State.updBist
  try dsimp only
  repeat' first
    | with_reducible assumption
    | split
    | fail_if_no_progress (with_reducible refine Frame.rebuild ?_ rfl rfl rfl rfl)

theorem State.setBankRole_frame {o : State} {s : State} {k : SpareKind} {n : Nat} {r : Role} (hF : Frame o s) :
    Frame o (State.setBankRole s k n r) := by
  unfold State.setBankRole
  try dsimp only
  repeat' first
    | with_reducible assumption
    | with_reducible apply State.setRcRole_frame
    | with_reducible apply State.setBufRole_frame
    | with_reducible apply State.setDreyRole_frame
    | split

theorem State.changeRole_frame {o : State} {s : State} {k : SpareKind} {n : Nat} {r : Role} (hF : Frame o s) :
    Frame o (State.changeRole s k n r) := by
  unfold State.changeRole
  try dsimp only
  repeat' first
    | with_reducible assumption
    | with_reducible apply State.roleChanged_frame
    | with_reducible apply State.updBist_frame
    | with_reducible apply State.setBankRole_frame
    | (with_reducible refine Frame.ite ?_ ?_ <;> intro _)
    | split

theorem State.setSeq_frame {o : State} {s : State} {tp : Nat} {q : TestSeq} (hF : Frame o s) :
    Frame o (State.setSeq s tp q) := by
  unfold State.setSeq
  try dsimp only
  repeat' first
    | with_reducible assumption
    | with_reducible apply State.updBist_frame

theorem State.markUnusable_frame {o : State} {s : State} {k : SpareKind} {n : Nat} (hF : Frame o s) :
    Frame o (State.markUnusable s k n) := by
  unfold State.markUnusable
  try dsimp only
  repeat' first
    | with_reducible assumption
    | with_reducible apply State.updBist_frame
    | with_reducible apply State.changeRole_frame

theorem State.loseBank_frame {o : State} {s : State} {k : SpareKind} {n : Nat} (hF : Frame o s) :
    Frame o (State.loseBank s k n) := by
  unfold State.loseBank
  try dsimp only
  repeat' first
    | with_reducible assumption
    | with_reducible apply State.markUnusable_frame
    | (with_reducible refine Frame.ite ?_ ?_ <;> intro _)
    | split
    | fail_if_no_progress (with_reducible refine Frame.rebuild ?_ rfl rfl rfl rfl)

theorem State.startCopy_frame {o : State} {s : State} {k : SpareKind} {n spare : Nat} {condemned : Bool} (hF : Frame o s) :
    Frame o (State.startCopy s k n spare condemned) := by
  unfold State.startCopy
  try dsimp only
  repeat' first
    | with_reducible assumption
    | with_reducible apply State.updBist_frame
    | with_reducible apply State.changeRole_frame

theorem State.bringOut_frame {o : State} {s : State} {k : SpareKind} {n spare : Nat} (hF : Frame o s) :
    Frame o (State.bringOut s k n spare) := by
  unfold State.bringOut
  try dsimp only
  repeat' first
    | with_reducible assumption
    | with_reducible apply State.changeRole_frame
    | with_reducible apply State.markUnusable_frame
    | with_reducible apply State.startCopy_frame
    | split

theorem State.endCopy_frame {o : State} {s : State} {k : SpareKind} {n spare : Nat} {condemned : Bool} (hF : Frame o s) :
    Frame o (State.endCopy s k n spare condemned) := by
  unfold State.endCopy
  try dsimp only
  repeat' first
    | with_reducible assumption
    | with_reducible apply State.updBist_frame
    | with_reducible apply State.changeRole_frame
    | with_reducible apply State.markUnusable_frame
    | (with_reducible refine Frame.ite ?_ ?_ <;> intro _)

theorem State.nextBank_frame {o : State} {s : State} {tp : Nat} (hF : Frame o s) :
    Frame o (State.nextBank s tp).1 := by
  unfold State.nextBank
  try dsimp only
  repeat' first
    | with_reducible assumption
    | with_reducible apply State.changeRole_frame
    | with_reducible apply State.setSeq_frame
    | with_reducible apply State.startCopy_frame
    | split

theorem State.nextBank_frame_pair {o : State} {s : State} {tp : Nat} (hF : Frame o s)
    {pa : State} {pb : Bool} (eF : (State.nextBank s tp) = (pa, pb)) : Frame o pa := by
  have this : Frame o (State.nextBank s tp).1 := State.nextBank_frame (hF := hF)
  rw [eF] at this
  exact this

theorem State.endMarchCopy_frame {o : State} {s : State} {tp n : Nat} (hF : Frame o s) :
    Frame o (State.endMarchCopy s tp n) := by
  unfold State.endMarchCopy
  try dsimp only
  repeat' first
    | with_reducible assumption
    | with_reducible apply State.setSeq_frame
    | with_reducible apply State.endCopy_frame
    | split

theorem State.endMarch_frame {o : State} {s : State} {tp n : Nat} {bad : Bool} (hF : Frame o s) :
    Frame o (State.endMarch s tp n bad) := by
  unfold State.endMarch
  try dsimp only
  repeat' first
    | with_reducible assumption
    | with_reducible apply State.updBist_frame
    | with_reducible apply State.changeRole_frame
    | with_reducible apply State.setSeq_frame
    | with_reducible apply State.markUnusable_frame
    | with_reducible apply State.endMarchCopy_frame
    | (with_reducible refine Frame.ite ?_ ?_ <;> intro _)

theorem State.cutMarch_frame {o : State} {s : State} {tp : Nat} (hF : Frame o s) :
    Frame o (State.cutMarch s tp) := by
  unfold State.cutMarch
  try dsimp only
  repeat' first
    | with_reducible assumption
    | with_reducible apply State.updBist_frame
    | with_reducible apply State.changeRole_frame
    | (with_reducible refine Frame.ite ?_ ?_ <;> intro _)
    | split

theorem State.writeResult_frame {o : State} {s : State} {tp : Nat} {q : TestSeq} {done : Bool} {outcome stop detail : Nat} (hF : Frame o s) :
    Frame o (State.writeResult s tp q done outcome stop detail) := by
  unfold State.writeResult
  try dsimp only
  repeat' first
    | with_reducible assumption
    | with_reducible apply State.setResult_frame

theorem State.runSeq_frame {o : State} {s : State} {tp : Nat} {te : TestEnd} (hF : Frame o s) :
    Frame o (State.runSeq s tp te) := by
  unfold State.runSeq
  try dsimp only
  repeat' first
    | with_reducible assumption
    | with_reducible apply State.setSeq_frame

theorem State.scanCounters_frame {o : State} {s : State} {n : Nat} (hF : Frame o s) :
    Frame o (State.scanCounters s n) := by
  unfold State.scanCounters
  try dsimp only
  repeat' first
    | with_reducible assumption
    | with_reducible apply State.setCounter_frame
    | (with_reducible refine Frame.foldl ?_ ?_; rotate_left; (intro _ _ _; try dsimp only))

theorem State.endPortTest_frame {o : State} {s : State} {n : Nat} {te : TestEnd} {outcome : Nat} (hF : Frame o s) :
    Frame o (State.endPortTest s n te outcome) := by
  unfold State.endPortTest
  try dsimp only
  repeat' first
    | with_reducible assumption
    | with_reducible apply State.updPort_frame
    | with_reducible apply State.roleChanged_frame
    | with_reducible apply State.stripeDown_frame
    | with_reducible apply State.updBist_frame
    | (with_reducible refine Frame.foldl ?_ ?_; rotate_left; (intro _ _ _; try dsimp only))
    | (with_reducible refine Frame.ite ?_ ?_ <;> intro _)

theorem State.endClusterTest_frame {o : State} {s : State} {c outcome : Nat} (hF : Frame o s) :
    Frame o (State.endClusterTest s c outcome) := by
  unfold State.endClusterTest
  try dsimp only
  repeat' first
    | with_reducible assumption
    | with_reducible apply State.updBist_frame
    | with_reducible apply State.changeRole_frame
    | with_reducible apply State.markUnusable_frame
    | (with_reducible refine Frame.ite ?_ ?_ <;> intro _)

theorem State.closeTest_frame {o : State} {s : State} {tp : Nat} {te : TestEnd} {done : Bool} {stop : Nat} (hF : Frame o s) :
    Frame o (State.closeTest s tp te done stop) := by
  unfold State.closeTest
  try dsimp only
  repeat' first
    | with_reducible assumption
    | with_reducible apply State.updBist_frame
    | with_reducible apply State.setSeq_frame
    | with_reducible apply State.writeResult_frame
    | with_reducible apply State.scanCounters_frame
    | with_reducible apply State.endPortTest_frame
    | with_reducible apply State.endClusterTest_frame
    | (with_reducible refine Frame.ite ?_ ?_ <;> intro _)

theorem State.goMarch_frame {o : State} {s : State} {tp : Nat} {te : TestEnd} (hF : Frame o s) :
    Frame o (State.goMarch s tp te) := by
  unfold State.goMarch
  try dsimp only
  repeat' first
    | with_reducible assumption
    | with_reducible apply State.nextBank_frame
    | with_reducible apply State.closeTest_frame
    | with_reducible refine State.nextBank_frame_pair ?_ (by with_reducible assumption)
    | (with_reducible refine Frame.ite ?_ ?_ <;> intro _)

theorem State.marchOn_frame {o s : State} {tp : Nat} {te : TestEnd} {n : Nat} (hF : Frame o s) : Frame o (s.marchOn tp te n) := by
  induction n generalizing s with
  | zero => exact hF
  | succ n ih =>
    unfold State.marchOn
    split
    · exact hF
    · dsimp only
      split
      · exact ih (State.goMarch_frame (State.endMarch_frame hF))
      · exact State.goMarch_frame (State.endMarch_frame hF)

theorem State.endTest_frame {o : State} {s : State} {tp : Nat} {te : TestEnd} {done : Bool} {stop : Nat} (hF : Frame o s) :
    Frame o (State.endTest s tp te done stop) := by
  unfold State.endTest
  try dsimp only
  repeat' first
    | with_reducible assumption
    | with_reducible apply State.cutMarch_frame
    | with_reducible apply State.runSeq_frame
    | with_reducible apply State.closeTest_frame
    | with_reducible apply State.marchOn_frame
    | (with_reducible refine Frame.ite ?_ ?_ <;> intro _)

theorem State.drawEnd_frame {o : State} {s : State} {tp : Nat} (hF : Frame o s) :
    Frame o (State.drawEnd s tp).2 := by
  unfold State.drawEnd
  try dsimp only
  repeat' first
    | with_reducible assumption
    | with_reducible apply State.draw_frame
    | with_reducible refine State.draw_frame_pair ?_ (by with_reducible assumption)
    | split

theorem State.drawEnd_frame_pair {o : State} {s : State} {tp : Nat} (hF : Frame o s)
    {pa : TestEnd} {pb : State} (eF : (State.drawEnd s tp) = (pa, pb)) : Frame o pb := by
  have this : Frame o (State.drawEnd s tp).2 := State.drawEnd_frame (hF := hF)
  rw [eF] at this
  exact this

theorem State.stopTest_frame {o : State} {s : State} {stop : Nat} {tp : Nat} (hF : Frame o s) :
    Frame o (State.stopTest s stop tp) := by
  unfold State.stopTest
  try dsimp only
  repeat' first
    | with_reducible assumption
    | with_reducible apply State.endTest_frame
    | with_reducible apply State.drawEnd_frame
    | with_reducible refine State.drawEnd_frame_pair ?_ (by with_reducible assumption)
    | (with_reducible refine Frame.ite ?_ ?_ <;> intro _)

theorem State.stopTests_frame {o : State} {s : State} {stop : Nat} (hF : Frame o s) :
    Frame o (State.stopTests s stop) := by
  unfold State.stopTests
  try dsimp only
  repeat' first
    | with_reducible assumption
    | with_reducible apply State.stopTest_frame
    | (with_reducible refine Frame.foldl ?_ ?_; rotate_left; (intro _ _ _; try dsimp only))

theorem State.abortCheck_frame {o : State} {s : State} (hF : Frame o s) :
    Frame o (State.abortCheck s) := by
  unfold State.abortCheck
  try dsimp only
  repeat' first
    | with_reducible assumption
    | with_reducible apply State.finishWork_frame
    | (with_reducible refine Frame.foldl ?_ ?_; rotate_left; (intro _ _ _; try dsimp only))

theorem State.endRestore_frame {o : State} {s : State} {tp : Nat} (hF : Frame o s) :
    Frame o (State.endRestore s tp) := by
  unfold State.endRestore
  try dsimp only
  repeat' first
    | with_reducible assumption
    | with_reducible apply State.stripeDown_frame
    | with_reducible apply State.updBist_frame
    | with_reducible apply State.abortCheck_frame
    | (with_reducible refine Frame.foldl ?_ ?_; rotate_left; (intro _ _ _; try dsimp only))
    | (with_reducible refine Frame.ite ?_ ?_ <;> intro _)

theorem State.capChanged_frame {o : State} {s : State} {old : Nat} (hF : Frame o s) :
    Frame o (State.capChanged s old) := by
  unfold State.capChanged
  try dsimp only
  repeat' first
    | with_reducible assumption
    | with_reducible apply State.lowerCap_frame
    | with_reducible apply State.updBist_frame
    | with_reducible apply State.stopTests_frame
    | with_reducible apply State.abortCheck_frame
    | (with_reducible refine Frame.ite ?_ ?_ <;> intro _)

theorem State.droopStops_frame {o : State} {s : State} (hF : Frame o s) :
    Frame o (State.droopStops s) := by
  unfold State.droopStops
  try dsimp only
  repeat' first
    | with_reducible assumption
    | with_reducible apply State.updBist_frame
    | with_reducible apply State.stopTests_frame
    | with_reducible apply State.abortCheck_frame

theorem State.startTest_frame {o : State} {s : State} {tp : Nat} (hF : Frame o s) :
    Frame o (State.startTest s tp) := by
  unfold State.startTest
  try dsimp only
  repeat' first
    | with_reducible assumption
    | with_reducible apply State.setResult_frame
    | with_reducible apply State.spoilWindow_frame
    | with_reducible apply State.updBist_frame
    | with_reducible apply State.changeRole_frame
    | with_reducible apply State.setSeq_frame
    | with_reducible apply State.goMarch_frame
    | (with_reducible refine Frame.ite ?_ ?_ <;> intro _)
    | split

theorem State.neverRan_frame {o : State} {s : State} {tp stop : Nat} (hF : Frame o s) :
    Frame o (State.neverRan s tp stop) := by
  unfold State.neverRan
  try dsimp only
  repeat' first
    | with_reducible assumption
    | with_reducible apply State.setResult_frame
    | with_reducible apply State.updBist_frame

theorem State.endSlot_frame {o : State} {s : State} (hF : Frame o s) :
    Frame o (State.endSlot s) := by
  unfold State.endSlot
  try dsimp only
  repeat' first
    | with_reducible assumption
    | with_reducible apply State.finishWork_frame
    | with_reducible apply State.updBist_frame
    | split

theorem State.startSlot_frame {o : State} {s : State} {slot : Nat} (hF : Frame o s) :
    Frame o (State.startSlot s slot) := by
  unfold State.startSlot
  try dsimp only
  repeat' first
    | with_reducible assumption
    | with_reducible apply State.updBist_frame
    | with_reducible apply State.startTest_frame
    | with_reducible apply State.neverRan_frame
    | (with_reducible refine Frame.foldl ?_ ?_; rotate_left; (intro _ _ _; try dsimp only))
    | (with_reducible refine Frame.ite ?_ ?_ <;> intro _)
    | split

theorem State.expireSlot_frame {o : State} {s : State} (hF : Frame o s) :
    Frame o (State.expireSlot s) := by
  unfold State.expireSlot
  try dsimp only
  repeat' first
    | with_reducible assumption
    | with_reducible apply State.neverRan_frame
    | with_reducible apply State.endSlot_frame
    | (with_reducible refine Frame.foldl ?_ ?_; rotate_left; (intro _ _ _; try dsimp only))
    | split

theorem State.deadlineSlot_frame {o : State} {s : State} {ends : List (Nat × TestEnd)} (hF : Frame o s) :
    Frame o (State.deadlineSlot s ends) := by
  unfold State.deadlineSlot
  try dsimp only
  repeat' first
    | with_reducible assumption
    | with_reducible apply State.endTest_frame
    | with_reducible apply State.stopTest_frame
    | with_reducible apply State.abortCheck_frame
    | with_reducible apply State.endSlot_frame
    | (with_reducible refine Frame.foldl ?_ ?_; rotate_left; (intro _ _ _; try dsimp only))
    | split

theorem State.stopRunSlot_frame {o : State} {s : State} {ends : List (Nat × TestEnd)} (hF : Frame o s) :
    Frame o (State.stopRunSlot s ends) := by
  unfold State.stopRunSlot
  try dsimp only
  repeat' first
    | with_reducible assumption
    | with_reducible apply State.endSlot_frame
    | with_reducible apply State.deadlineSlot_frame
    | (with_reducible refine Frame.ite ?_ ?_ <;> intro _)
    | split

theorem State.startRunSlot_frame {o : State} {s : State} (hF : Frame o s) :
    Frame o (State.startRunSlot s) := by
  unfold State.startRunSlot
  try dsimp only
  repeat' first
    | with_reducible assumption
    | with_reducible apply State.startSlot_frame
    | with_reducible apply State.expireSlot_frame
    | (with_reducible refine Frame.ite ?_ ?_ <;> intro _)
    | split

end Sys2Proof.Machine
end

