-- ==== Sys2Proof/Laws/FrameTableOps.lean ====
section
/-! SUPPORT. Frame through Machine/TableOps.lean: one lemma for each operation. -/

namespace Sys2Proof.Machine

theorem State.putEntries_frame {o : State} {s : State} {t : Nat} {l : List (Nat × Nat)} (hF : Frame o s) :
    Frame o (State.putEntries s t l) := by
  unfold State.putEntries
  try dsimp only
  repeat' first
    | with_reducible assumption
    | with_reducible apply State.setEntry_frame
    | (with_reducible refine Frame.foldl ?_ ?_; rotate_left; (intro _ _ _; try dsimp only))

theorem State.changeGuar_frame {o : State} {s : State} {k : Nat} {e : Entry} (hF : Frame o s) :
    Frame o (State.changeGuar s k e) := by
  unfold State.changeGuar
  try dsimp only
  repeat' first
    | with_reducible assumption
    | with_reducible apply State.setEntry_frame
    | with_reducible apply payOwed_frame
    | (with_reducible refine Frame.ite ?_ ?_ <;> intro _)
    | split
    | fail_if_no_progress (with_reducible refine Frame.rebuild ?_ rfl rfl rfl rfl)

theorem State.writeEntry_frame {o : State} {s : State} {t n : Nat} {e : Entry} (hF : Frame o s) :
    Frame o (State.writeEntry s t n e) := by
  unfold State.writeEntry
  try dsimp only
  repeat' first
    | with_reducible assumption
    | with_reducible apply State.setEntry_frame
    | with_reducible apply State.reprogram_frame
    | with_reducible apply State.changeGuar_frame
    | (with_reducible refine Frame.ite ?_ ?_ <;> intro _)
    | split

theorem applyEntries_frame {o : State} {t : Nat} {l : List (Nat × Nat)} {k : Nat} {s : State} (hF : Frame o s) : Frame o (applyEntries t l k s).1 := by
  induction l generalizing k s with
  | nil => exact hF
  | cons _ _ ih =>
    unfold applyEntries
    try dsimp only
    repeat' first
      | with_reducible assumption
      | with_reducible apply ih
      | with_reducible assumption
      | with_reducible apply State.writeEntry_frame
      | (with_reducible refine Frame.ite ?_ ?_ <;> intro _)
      | split
      | fail_if_no_progress (with_reducible refine Frame.rebuild ?_ rfl rfl rfl rfl)

theorem State.dropImage_frame {o : State} {s : State} {h : BitVec 32} (hF : Frame o s) :
    Frame o (State.dropImage s h) := by
  unfold State.dropImage
  try dsimp only
  repeat' first
    | with_reducible assumption
    | split
    | fail_if_no_progress (with_reducible refine Frame.rebuild ?_ rfl rfl rfl rfl)

theorem State.setImageSt_frame {o : State} {s : State} {h : BitVec 32} {st : ImageSt} (hF : Frame o s) :
    Frame o (State.setImageSt s h st) := by
  unfold State.setImageSt
  try dsimp only
  repeat' first
    | with_reducible assumption
    | split
    | fail_if_no_progress (with_reducible refine Frame.rebuild ?_ rfl rfl rfl rfl)

theorem State.noteApply_frame {o : State} {s : State} {t : Nat} {st : BitVec 8} {detail : Nat} (hF : Frame o s) :
    Frame o (State.noteApply s t st detail) := by
  unfold State.noteApply
  try dsimp only
  repeat' first
    | with_reducible assumption
    | split
    | fail_if_no_progress (with_reducible refine Frame.rebuild ?_ rfl rfl rfl rfl)

theorem State.clampCurve_frame {o : State} {s : State} (hF : Frame o s) :
    Frame o (State.clampCurve s) := by
  unfold State.clampCurve
  try dsimp only
  repeat' first
    | with_reducible assumption
    | with_reducible apply State.updPower_frame

theorem State.applyImage_frame {o : State} {s : State} {im : Image} (hF : Frame o s) :
    Frame o (State.applyImage s im).1 := by
  unfold State.applyImage
  try dsimp only
  repeat' first
    | with_reducible assumption
    | with_reducible apply State.refuseRaise_frame
    | with_reducible apply State.capChanged_frame
    | with_reducible apply applyEntries_frame
    | with_reducible apply State.dropImage_frame
    | with_reducible apply State.setImageSt_frame
    | with_reducible apply State.noteApply_frame
    | with_reducible apply State.clampCurve_frame
    | (with_reducible refine Frame.ite ?_ ?_ <;> intro _)
    | split
    | fail_if_no_progress (with_reducible refine Frame.rebuild ?_ rfl rfl rfl rfl)

theorem State.applyImage_frame_pair {o : State} {s : State} {im : Image} (hF : Frame o s)
    {pa : State} {pb : BitVec 8 × Nat} (eF : (State.applyImage s im) = (pa, pb)) : Frame o pa := by
  have this : Frame o (State.applyImage s im).1 := State.applyImage_frame (hF := hF)
  rw [eF] at this
  exact this

end Sys2Proof.Machine
end

