-- ==== Sys2Proof/Laws/FrameAgendaOps.lean ====
section
/-! SUPPORT. Frame through Machine/AgendaOps.lean: one lemma for each operation. -/

namespace Sys2Proof.Machine

theorem State.updBeat_frame {o : State} {s : State} {f : BeatUnit → BeatUnit} (hF : Frame o s) :
    Frame o (State.updBeat s f) := by
  unfold State.updBeat
  try dsimp only
  repeat' first
    | with_reducible assumption
    | split
    | fail_if_no_progress (with_reducible refine Frame.rebuild ?_ rfl rfl rfl rfl)

theorem State.becomeRoot_frame {o : State} {s : State} (hF : Frame o s) :
    Frame o (State.becomeRoot s) := by
  unfold State.becomeRoot
  try dsimp only
  repeat' first
    | with_reducible assumption
    | with_reducible apply State.updBeat_frame

theorem State.leaveRoot_frame {o : State} {s : State} (hF : Frame o s) :
    Frame o (State.leaveRoot s) := by
  unfold State.leaveRoot
  try dsimp only
  repeat' first
    | with_reducible assumption
    | with_reducible apply State.updBeat_frame

theorem State.setRoot_frame {o : State} {s : State} {addr : BitVec 8} (hF : Frame o s) :
    Frame o (State.setRoot s addr) := by
  unfold State.setRoot
  try dsimp only
  repeat' first
    | with_reducible assumption
    | with_reducible apply State.updBeat_frame
    | with_reducible apply State.becomeRoot_frame
    | with_reducible apply State.leaveRoot_frame
    | (with_reducible refine Frame.ite ?_ ?_ <;> intro _)

theorem State.unstage_frame {o : State} {s : State} {x : AgEntry} (hF : Frame o s) :
    Frame o (State.unstage s x) := by
  unfold State.unstage
  try dsimp only
  repeat' first
    | with_reducible assumption
    | (with_reducible refine Frame.ite ?_ ?_ <;> intro _)
    | split
    | fail_if_no_progress (with_reducible refine Frame.rebuild ?_ rfl rfl rfl rfl)

theorem State.finishEntry_frame {o : State} {s : State} {e : Nat} {st : EntrySt} {why : BitVec 8} {detail : Nat} (hF : Frame o s) :
    Frame o (State.finishEntry s e st why detail) := by
  unfold State.finishEntry
  try dsimp only
  repeat' first
    | with_reducible assumption
    | with_reducible apply State.setAgEntry_frame
    | with_reducible apply State.countGlobal_frame
    | with_reducible apply State.notice_frame
    | with_reducible apply State.unstage_frame
    | (with_reducible refine Frame.ite ?_ ?_ <;> intro _)

theorem State.stageOne_frame {o : State} {s : State} {c : Cmd} {spec : TargetSpec} {i : StageItem} (hF : Frame o s) :
    Frame o (State.stageOne s c spec i).1 := by
  unfold State.stageOne
  try dsimp only
  repeat' first
    | with_reducible assumption
    | with_reducible apply State.setAgEntry_frame
    | with_reducible apply State.finishEntry_frame
    | (with_reducible refine Frame.foldl ?_ ?_; rotate_left; (intro _ _ _; try dsimp only))
    | split
    | fail_if_no_progress (with_reducible refine Frame.rebuild ?_ rfl rfl rfl rfl)

theorem State.stageOne_frame_pair {o : State} {s : State} {c : Cmd} {spec : TargetSpec} {i : StageItem} (hF : Frame o s)
    {pa : State} {pb : Nat × Nat} (eF : (State.stageOne s c spec i) = (pa, pb)) : Frame o pa := by
  have this : Frame o (State.stageOne s c spec i).1 := State.stageOne_frame (hF := hF)
  rw [eF] at this
  exact this

theorem State.stageAll_frame {o : State} {s : State} {c : Cmd} {spec : TargetSpec} {items : List StageItem} (hF : Frame o s) :
    Frame o (State.stageAll s c spec items).1 := by
  unfold State.stageAll
  try dsimp only
  repeat' first
    | with_reducible assumption
    | with_reducible apply State.stageOne_frame
    | with_reducible refine State.stageOne_frame_pair ?_ (by with_reducible assumption)
    | (with_reducible refine Frame.foldl_fst ?_ ?_; rotate_left; (intro _ _ _; try dsimp only))

theorem State.stageAll_frame_pair {o : State} {s : State} {c : Cmd} {spec : TargetSpec} {items : List StageItem} (hF : Frame o s)
    {pa : State} {pb : Bytes} (eF : (State.stageAll s c spec items) = (pa, pb)) : Frame o pa := by
  have this : Frame o (State.stageAll s c spec items).1 := State.stageAll_frame (hF := hF)
  rw [eF] at this
  exact this

theorem State.markEntries_frame {o : State} {s : State} (hF : Frame o s) :
    Frame o (State.markEntries s) := by
  unfold State.markEntries
  try dsimp only
  repeat' first
    | with_reducible assumption
    | with_reducible apply State.setAgEntry_frame
    | (with_reducible refine Frame.foldl ?_ ?_; rotate_left; (intro _ _ _; try dsimp only))
    | (with_reducible refine Frame.ite ?_ ?_ <;> intro _)

theorem State.expireLate_frame {o : State} {s : State} (hF : Frame o s) :
    Frame o (State.expireLate s) := by
  unfold State.expireLate
  try dsimp only
  repeat' first
    | with_reducible assumption
    | with_reducible apply State.finishEntry_frame
    | (with_reducible refine Frame.foldl ?_ ?_; rotate_left; (intro _ _ _; try dsimp only))

theorem State.agdWrite_frame {o : State} {s : State} {addr : Nat} {v : Word} (hF : Frame o s) :
    Frame o (State.agdWrite s addr v) := by
  unfold State.agdWrite
  try dsimp only
  repeat' first
    | with_reducible assumption
    | with_reducible apply State.spoilWindows_frame
    | with_reducible apply State.updBeat_frame
    | (with_reducible refine Frame.ite ?_ ?_ <;> intro _)
    | split
    | fail_if_no_progress (with_reducible refine Frame.rebuild ?_ rfl rfl rfl rfl)

theorem State.powerStepTo_frame {o : State} {s : State} {e : Nat} (hF : Frame o s) :
    Frame o (State.powerStepTo s e).1 := by
  unfold State.powerStepTo
  try dsimp only
  repeat' first
    | with_reducible assumption
    | with_reducible apply State.updPower_frame
    | with_reducible apply State.refuseRaise_frame
    | split

theorem State.powerStepTo_frame_pair {o : State} {s : State} {e : Nat} (hF : Frame o s)
    {pa : State} {pb : Option (BitVec 8 × Nat)} (eF : (State.powerStepTo s e) = (pa, pb)) : Frame o pa := by
  have this : Frame o (State.powerStepTo s e).1 := State.powerStepTo_frame (hF := hF)
  rw [eF] at this
  exact this

theorem State.stopSlot_frame {o : State} {s : State} {slot : Nat} (hF : Frame o s) :
    Frame o (State.stopSlot s slot) := by
  unfold State.stopSlot
  try dsimp only
  repeat' first
    | with_reducible assumption
    | with_reducible apply State.stopTest_frame
    | with_reducible apply State.abortCheck_frame
    | with_reducible apply State.endRestore_frame
    | (with_reducible refine Frame.foldl ?_ ?_; rotate_left; (intro _ _ _; try dsimp only))
    | split

theorem State.bistStartSlot_frame {o : State} {s : State} {slot : Nat} (hF : Frame o s) :
    Frame o (State.bistStartSlot s slot).1 := by
  unfold State.bistStartSlot
  try dsimp only
  repeat' first
    | with_reducible assumption
    | with_reducible apply State.updBist_frame
    | with_reducible apply State.startTest_frame
    | with_reducible apply State.neverRan_frame
    | with_reducible apply State.startSlot_frame
    | (with_reducible refine Frame.foldl ?_ ?_; rotate_left; (intro _ _ _; try dsimp only))
    | (with_reducible refine Frame.ite ?_ ?_ <;> intro _)
    | split

theorem State.bistStartSlot_frame_pair {o : State} {s : State} {slot : Nat} (hF : Frame o s)
    {pa : State} {pb : Option (BitVec 8 × Nat)} (eF : (State.bistStartSlot s slot) = (pa, pb)) : Frame o pa := by
  have this : Frame o (State.bistStartSlot s slot).1 := State.bistStartSlot_frame (hF := hF)
  rw [eF] at this
  exact this

theorem State.actEntry_frame {o : State} {s : State} {x : AgEntry} (hF : Frame o s) :
    Frame o (State.actEntry s x).1 := by
  unfold State.actEntry
  try dsimp only
  repeat' first
    | with_reducible assumption
    | with_reducible apply State.applyImage_frame
    | with_reducible apply State.updBeat_frame
    | with_reducible apply State.setRoot_frame
    | with_reducible apply State.agdWrite_frame
    | with_reducible apply State.powerStepTo_frame
    | with_reducible apply State.stopSlot_frame
    | with_reducible apply State.bistStartSlot_frame
    | with_reducible refine State.applyImage_frame_pair ?_ (by with_reducible assumption)
    | with_reducible refine State.powerStepTo_frame_pair ?_ (by with_reducible assumption)
    | with_reducible refine State.bistStartSlot_frame_pair ?_ (by with_reducible assumption)
    | split

theorem State.actEntry_frame_pair {o : State} {s : State} {x : AgEntry} (hF : Frame o s)
    {pa : State} {pb : Option (BitVec 8 × Nat)} (eF : (State.actEntry s x) = (pa, pb)) : Frame o pa := by
  have this : Frame o (State.actEntry s x).1 := State.actEntry_frame (hF := hF)
  rw [eF] at this
  exact this

theorem State.applyEntry_frame {o : State} {s : State} {e : Nat} (hF : Frame o s) :
    Frame o (State.applyEntry s e) := by
  unfold State.applyEntry
  try dsimp only
  repeat' first
    | with_reducible assumption
    | with_reducible apply State.finishEntry_frame
    | with_reducible apply State.actEntry_frame
    | with_reducible refine State.actEntry_frame_pair ?_ (by with_reducible assumption)
    | (with_reducible refine Frame.ite ?_ ?_ <;> intro _)
    | split

theorem State.doStep5_frame {o s : State} {x : Step5} (hF : Frame o s) : Frame o (s.doStep5 x) := by
  cases x with
  | entry e => exact State.applyEntry_frame hF
  | slotStop => exact State.stopRunSlot_frame hF
  | slotStart => exact State.startRunSlot_frame hF

theorem State.applyDue_frame {o : State} {s : State} {e action : Nat} (hF : Frame o s) :
    Frame o (State.applyDue s e action) := by
  unfold State.applyDue
  try dsimp only
  repeat' first
    | with_reducible assumption
    | with_reducible apply State.applyEntry_frame
    | (with_reducible refine Frame.ite ?_ ?_ <;> intro _)

theorem applyAll_frame {o : State} {n : Nat} {s : State} (hF : Frame o s) : Frame o (applyAll n s) := by
  induction n generalizing s with
  | zero => exact hF
  | succ _ ih =>
    unfold applyAll
    try dsimp only
    repeat' first
      | with_reducible assumption
      | with_reducible apply ih
      | with_reducible assumption
      | with_reducible apply State.doStep5_frame
      | (with_reducible refine Frame.ite ?_ ?_ <;> intro _)
      | split
      | fail_if_no_progress (with_reducible refine Frame.rebuild ?_ rfl rfl rfl rfl)

theorem State.testDrains_frame {o : State} {s : State} (hF : Frame o s) :
    Frame o (State.testDrains s) := by
  unfold State.testDrains
  try dsimp only
  repeat' first
    | with_reducible assumption
    | with_reducible apply State.finishWork_frame
    | (with_reducible refine Frame.foldl ?_ ?_; rotate_left; (intro _ _ _; try dsimp only))
    | split

theorem State.boundarySteps_frame {o : State} {s : State} (hF : Frame o s) :
    Frame o (State.boundarySteps s) := by
  unfold State.boundarySteps
  try dsimp only
  repeat' first
    | with_reducible assumption
    | with_reducible apply State.counterStep_frame
    | with_reducible apply State.powerBoundary_frame
    | with_reducible apply State.beatSyncRelease_frame
    | with_reducible apply State.expireHolds_frame
    | with_reducible apply State.updBeat_frame
    | with_reducible apply State.expireLate_frame
    | with_reducible apply applyAll_frame
    | with_reducible apply State.testDrains_frame

end Sys2Proof.Machine
end

