-- ==== Sys2Proof/Laws/FrameLineCode.lean ====
section
/-! SUPPORT. Frame through Machine/LineCode.lean: one lemma for each operation. -/

namespace Sys2Proof.Machine

theorem State.codeErrors_frame {o : State} {s : State} {port lane n : Nat} (hF : Frame o s) :
    Frame o (State.codeErrors s port lane n) := by
  unfold State.codeErrors
  try dsimp only
  repeat' first
    | with_reducible assumption
    | with_reducible apply State.updPort_frame
    | with_reducible apply State.countPort_frame
    | (with_reducible refine Frame.ite ?_ ?_ <;> intro _)

theorem State.decodeClock_frame {o : State} {s : State} {port : Nat} {l : List (BitVec 10)} (hF : Frame o s) :
    Frame o (State.decodeClock s port l).2 := by
  unfold State.decodeClock
  try dsimp only
  repeat' first
    | with_reducible assumption
    | with_reducible apply State.updPort_frame
    | with_reducible apply State.codeErrors_frame

theorem State.decodeClock_frame_pair {o : State} {s : State} {port : Nat} {l : List (BitVec 10)} (hF : Frame o s)
    {pa : List (Option Nat)} {pb : State} (eF : (State.decodeClock s port l) = (pa, pb)) : Frame o pb := by
  have this : Frame o (State.decodeClock s port l).2 := State.decodeClock_frame (hF := hF)
  rw [eF] at this
  exact this

end Sys2Proof.Machine
end

