-- ==== Sys2Proof/Laws/FrameTxLine.lean ====
section
/-! SUPPORT. Frame through Machine/TxLine.lean: one lemma for each operation. -/

namespace Sys2Proof.Machine

theorem State.sendRows_frame {o : State} {s : State} {port : Nat} {clock : Bool} {rows : List (Nat × List Nat)} (hF : Frame o s) :
    Frame o (State.sendRows s port clock rows).2 := by
  unfold State.sendRows
  try dsimp only
  repeat' first
    | with_reducible assumption
    | with_reducible apply State.setPort_frame
    | (with_reducible refine Frame.foldl_snd ?_ ?_; rotate_left; (intro _ _ _; try dsimp only))

theorem State.sendRows_frame_pair {o : State} {s : State} {port : Nat} {clock : Bool} {rows : List (Nat × List Nat)} (hF : Frame o s)
    {pa : List (Nat × List Level)} {pb : State} (eF : (State.sendRows s port clock rows) = (pa, pb)) : Frame o pb := by
  have this : Frame o (State.sendRows s port clock rows).2 := State.sendRows_frame (hF := hF)
  rw [eF] at this
  exact this

theorem State.sendClock_frame {o : State} {s : State} {port n : Nat} (hF : Frame o s) :
    Frame o (State.sendClock s port n).2 := by
  unfold State.sendClock
  try dsimp only
  repeat' first
    | with_reducible assumption
    | with_reducible apply State.updPort_frame
    | with_reducible apply State.sendRows_frame

theorem State.sendClock_frame_pair {o : State} {s : State} {port n : Nat} (hF : Frame o s)
    {pa : List (Nat × List Level)} {pb : State} (eF : (State.sendClock s port n) = (pa, pb)) : Frame o pb := by
  have this : Frame o (State.sendClock s port n).2 := State.sendClock_frame (hF := hF)
  rw [eF] at this
  exact this

theorem State.portBlock_frame {o : State} {s : State} {port : Nat} (hF : Frame o s) :
    Frame o (State.portBlock s port) := by
  unfold State.portBlock
  try dsimp only
  repeat' first
    | with_reducible assumption
    | with_reducible apply State.updPort_frame
    | with_reducible apply State.emit_frame
    | with_reducible apply State.sendRows_frame
    | with_reducible apply State.sendClock_frame
    | with_reducible refine State.sendRows_frame_pair ?_ (by with_reducible assumption)
    | with_reducible refine State.sendClock_frame_pair ?_ (by with_reducible assumption)
    | (with_reducible refine Frame.foldl_snd ?_ ?_; rotate_left; (intro _ _ _; try dsimp only))
    | (with_reducible refine Frame.ite ?_ ?_ <;> intro _)

theorem State.sendSleepLanes_frame {o : State} {s : State} {port : Nat} (hF : Frame o s) :
    Frame o (State.sendSleepLanes s port) := by
  unfold State.sendSleepLanes
  try dsimp only
  repeat' first
    | with_reducible assumption
    | with_reducible apply State.updPort_frame
    | with_reducible apply State.emit_frame
    | with_reducible apply State.sendClock_frame
    | with_reducible apply State.portBlock_frame

end Sys2Proof.Machine
end

