-- ==== Sys2Proof/Laws/FrameAgenda.lean ====
section
/-! SUPPORT. Frame through Machine/Agenda.lean: one lemma for each operation. -/

namespace Sys2Proof.Machine

theorem State.sendMarkers_frame {o : State} {s : State} (hF : Frame o s) :
    Frame o (State.sendMarkers s) := by
  unfold State.sendMarkers
  try dsimp only
  repeat' first
    | with_reducible assumption
    | with_reducible apply State.updPort_frame
    | with_reducible apply State.emit_frame
    | with_reducible apply State.marker_frame
    | (with_reducible refine Frame.foldl ?_ ?_; rotate_left; (intro _ _ _; try dsimp only))
    | (with_reducible refine Frame.ite ?_ ?_ <;> intro _)

theorem State.markerReject_frame {o : State} {s : State} {port arg : Nat} (hF : Frame o s) :
    Frame o (State.markerReject s port arg) := by
  unfold State.markerReject
  try dsimp only
  repeat' first
    | with_reducible assumption
    | with_reducible apply State.updPort_frame
    | with_reducible apply State.countPort_frame
    | (with_reducible refine Frame.ite ?_ ?_ <;> intro _)

theorem execMarkerReceived_frame {o : State} {port : Port} {arrival : Int} {start : BitVec 10} {groups : List (BitVec 10)} {s : State} (hF : Frame o s) :
    FrameOut o (execMarkerReceived port arrival start groups s) := by
  unfold execMarkerReceived
  try dsimp only
  repeat' first
    | with_reducible assumption
    | with_reducible apply State.updBeat_frame
    | with_reducible apply State.decodeClock_frame
    | with_reducible apply State.markerReject_frame
    | with_reducible refine State.decodeClock_frame_pair ?_ (by with_reducible assumption)
    | with_reducible apply FrameOut.next
    | (with_reducible refine FrameOut.ite ?_ ?_ <;> intro _)
    | (with_reducible refine Frame.ite ?_ ?_ <;> intro _)
    | split

theorem State.follow_frame {o : State} {s : State} (hF : Frame o s) :
    Frame o (State.follow s) := by
  unfold State.follow
  try dsimp only
  repeat' first
    | with_reducible assumption
    | with_reducible apply State.updBeat_frame
    | with_reducible apply State.markerReject_frame
    | (with_reducible refine Frame.foldl ?_ ?_; rotate_left; (intro _ _ _; try dsimp only))
    | (with_reducible refine Frame.ite ?_ ?_ <;> intro _)
    | split

theorem execBeatFollowUpdate_frame {o : State} {s : State} (hF : Frame o s) :
    FrameOut o (execBeatFollowUpdate s) := by
  unfold execBeatFollowUpdate
  try dsimp only
  repeat' first
    | with_reducible assumption
    | with_reducible apply State.follow_frame
    | with_reducible apply FrameOut.next
    | (with_reducible refine FrameOut.ite ?_ ?_ <;> intro _)

theorem execLockAcquired_frame {o : State} {s : State} (hF : Frame o s) :
    FrameOut o (execLockAcquired s) := by
  unfold execLockAcquired
  try dsimp only
  repeat' first
    | with_reducible assumption
    | with_reducible apply State.updBeat_frame
    | with_reducible apply FrameOut.next
    | (with_reducible refine FrameOut.ite ?_ ?_ <;> intro _)

theorem execHoldoverEntry_frame {o : State} {s : State} (hF : Frame o s) :
    FrameOut o (execHoldoverEntry s) := by
  unfold execHoldoverEntry
  try dsimp only
  repeat' first
    | with_reducible assumption
    | with_reducible apply State.updBeat_frame
    | with_reducible apply FrameOut.next
    | (with_reducible refine FrameOut.ite ?_ ?_ <;> intro _)

theorem execDrift_frame {o : State} {s : State} (hF : Frame o s) :
    FrameOut o (execDrift s) := by
  unfold execDrift
  try dsimp only
  repeat' first
    | with_reducible assumption
    | with_reducible apply State.updBeat_frame
    | with_reducible apply FrameOut.next
    | (with_reducible refine FrameOut.ite ?_ ?_ <;> intro _)

theorem execFreerunEntry_frame {o : State} {s : State} (hF : Frame o s) :
    FrameOut o (execFreerunEntry s) := by
  unfold execFreerunEntry
  try dsimp only
  repeat' first
    | with_reducible assumption
    | with_reducible apply State.updBeat_frame
    | with_reducible apply FrameOut.next
    | (with_reducible refine FrameOut.ite ?_ ?_ <;> intro _)

theorem State.countBeat_frame {o : State} {s : State} (hF : Frame o s) :
    Frame o (State.countBeat s) := by
  unfold State.countBeat
  try dsimp only
  repeat' first
    | with_reducible assumption
    | with_reducible apply State.markWindows_frame
    | with_reducible apply State.spoilWindows_frame
    | with_reducible apply State.updBeat_frame
    | with_reducible apply State.becomeRoot_frame
    | with_reducible apply State.markEntries_frame
    | with_reducible apply State.sendMarkers_frame
    | (with_reducible refine Frame.ite ?_ ?_ <;> intro _)

theorem execBeatBoundary_frame {o : State} {detectorsLow : Bool} {s : State} (hF : Frame o s) :
    FrameOut o (execBeatBoundary detectorsLow s) := by
  unfold execBeatBoundary
  try dsimp only
  repeat' first
    | with_reducible assumption
    | with_reducible apply State.endPowerBeat_frame
    | with_reducible apply State.droopBoundary_frame
    | with_reducible apply State.boundarySteps_frame
    | with_reducible apply State.follow_frame
    | with_reducible apply State.countBeat_frame
    | with_reducible apply FrameOut.next
    | (with_reducible refine FrameOut.ite ?_ ?_ <;> intro _)
    | split
    | fail_if_no_progress (with_reducible refine Frame.rebuild ?_ rfl rfl rfl rfl)

theorem execBoundarySteps_frame {o : State} {s : State} (hF : Frame o s) :
    FrameOut o (execBoundarySteps s) := by
  unfold execBoundarySteps
  try dsimp only
  repeat' first
    | with_reducible assumption
    | with_reducible apply State.boundarySteps_frame
    | with_reducible apply FrameOut.next
    | (with_reducible refine FrameOut.ite ?_ ?_ <;> intro _)

theorem execTableApply_frame {o : State} {entry : Fin 256} {s : State} (hF : Frame o s) :
    FrameOut o (execTableApply entry s) := by
  unfold execTableApply
  try dsimp only
  repeat' first
    | with_reducible assumption
    | with_reducible apply State.applyDue_frame
    | with_reducible apply FrameOut.next

theorem execAgendaCwWrite_frame {o : State} {entry : Fin 256} {s : State} (hF : Frame o s) :
    FrameOut o (execAgendaCwWrite entry s) := by
  unfold execAgendaCwWrite
  try dsimp only
  repeat' first
    | with_reducible assumption
    | with_reducible apply State.applyDue_frame
    | with_reducible apply FrameOut.next

theorem execPowerStep_frame {o : State} {entry : Fin 256} {s : State} (hF : Frame o s) :
    FrameOut o (execPowerStep entry s) := by
  unfold execPowerStep
  try dsimp only
  repeat' first
    | with_reducible assumption
    | with_reducible apply State.applyDue_frame
    | with_reducible apply FrameOut.next

theorem execBistStop_frame {o : State} {entry : Fin 256} {s : State} (hF : Frame o s) :
    FrameOut o (execBistStop entry s) := by
  unfold execBistStop
  try dsimp only
  repeat' first
    | with_reducible assumption
    | with_reducible apply State.applyDue_frame
    | with_reducible apply FrameOut.next

theorem execBistStart_frame {o : State} {entry : Fin 256} {s : State} (hF : Frame o s) :
    FrameOut o (execBistStart entry s) := by
  unfold execBistStart
  try dsimp only
  repeat' first
    | with_reducible assumption
    | with_reducible apply State.applyDue_frame
    | with_reducible apply FrameOut.next

theorem execBeatRoot_frame {o : State} {entry : Fin 256} {s : State} (hF : Frame o s) :
    FrameOut o (execBeatRoot entry s) := by
  unfold execBeatRoot
  try dsimp only
  repeat' first
    | with_reducible assumption
    | with_reducible apply State.applyDue_frame
    | with_reducible apply FrameOut.next

theorem execBeatPeriod_frame {o : State} {entry : Fin 256} {s : State} (hF : Frame o s) :
    FrameOut o (execBeatPeriod entry s) := by
  unfold execBeatPeriod
  try dsimp only
  repeat' first
    | with_reducible assumption
    | with_reducible apply State.applyDue_frame
    | with_reducible apply FrameOut.next

theorem execMark_frame {o : State} {entry : Fin 256} {s : State} (hF : Frame o s) :
    FrameOut o (execMark entry s) := by
  unfold execMark
  try dsimp only
  repeat' first
    | with_reducible assumption
    | with_reducible apply State.applyDue_frame
    | with_reducible apply FrameOut.next

end Sys2Proof.Machine
end

