-- ==== Sys2Proof/Laws/FrameBist.lean ====
section
/-! SUPPORT. Frame through Machine/Bist.lean: one lemma for each operation. -/

namespace Sys2Proof.Machine

theorem execPowerSample_frame {o : State} {watts : Nat} {s : State} (hF : Frame o s) :
    FrameOut o (execPowerSample watts s) := by
  unfold execPowerSample
  try dsimp only
  repeat' first
    | with_reducible assumption
    | with_reducible apply State.sample_frame
    | with_reducible apply FrameOut.next
    | (with_reducible refine FrameOut.ite ?_ ?_ <;> intro _)

theorem State.decaf_frame {o : State} {s : State} (hF : Frame o s) :
    Frame o (State.decaf s) := by
  unfold State.decaf
  try dsimp only
  repeat' first
    | with_reducible assumption
    | with_reducible apply State.updPower_frame

theorem execDroopLightTrip_frame {o : State} {s : State} (hF : Frame o s) :
    FrameOut o (execDroopLightTrip s) := by
  unfold execDroopLightTrip
  try dsimp only
  repeat' first
    | with_reducible assumption
    | with_reducible apply State.updPower_frame
    | with_reducible apply State.decaf_frame
    | with_reducible apply FrameOut.next
    | (with_reducible refine FrameOut.ite ?_ ?_ <;> intro _)

theorem execDroopHeavyTrip_frame {o : State} {s : State} (hF : Frame o s) :
    FrameOut o (execDroopHeavyTrip s) := by
  unfold execDroopHeavyTrip
  try dsimp only
  repeat' first
    | with_reducible assumption
    | with_reducible apply State.updPower_frame
    | with_reducible apply State.droopStops_frame
    | with_reducible apply FrameOut.next
    | (with_reducible refine FrameOut.ite ?_ ?_ <;> intro _)

theorem execDroopFurtherStep_frame {o : State} {s : State} (hF : Frame o s) :
    FrameOut o (execDroopFurtherStep s) := by
  unfold execDroopFurtherStep
  try dsimp only
  repeat' first
    | with_reducible assumption
    | with_reducible apply State.decaf_frame
    | with_reducible apply FrameOut.next
    | (with_reducible refine FrameOut.ite ?_ ?_ <;> intro _)

theorem execVreqFrame_frame {o : State} {s : State} (hF : Frame o s) :
    FrameOut o (execVreqFrame s) := by
  unfold execVreqFrame
  try dsimp only
  repeat' first
    | with_reducible assumption
    | with_reducible apply State.emit_frame
    | with_reducible apply State.updPower_frame
    | with_reducible apply FrameOut.next
    | (with_reducible refine FrameOut.ite ?_ ?_ <;> intro _)

theorem execRailSettled_frame {o : State} {s : State} (hF : Frame o s) :
    FrameOut o (execRailSettled s) := by
  unfold execRailSettled
  try dsimp only
  repeat' first
    | with_reducible assumption
    | with_reducible apply State.updPower_frame
    | with_reducible apply FrameOut.next
    | (with_reducible refine FrameOut.ite ?_ ?_ <;> intro _)

theorem execVreqFault_frame {o : State} {s : State} (hF : Frame o s) :
    FrameOut o (execVreqFault s) := by
  unfold execVreqFault
  try dsimp only
  repeat' first
    | with_reducible assumption
    | with_reducible apply State.updPower_frame
    | with_reducible apply State.powerAttn_frame
    | with_reducible apply FrameOut.next
    | (with_reducible refine FrameOut.ite ?_ ?_ <;> intro _)

theorem execVreqFaultClear_frame {o : State} {s : State} (hF : Frame o s) :
    FrameOut o (execVreqFaultClear s) := by
  unfold execVreqFaultClear
  try dsimp only
  repeat' first
    | with_reducible assumption
    | with_reducible apply State.emit_frame
    | with_reducible apply State.updPower_frame
    | with_reducible apply State.startMove_frame
    | with_reducible apply FrameOut.next
    | (with_reducible refine FrameOut.ite ?_ ?_ <;> intro _)
    | (with_reducible refine Frame.ite ?_ ?_ <;> intro _)

theorem execBistPartitionDone_frame {o : State} {part : Fin 96} {result : TestEnd} {s : State} (hF : Frame o s) :
    FrameOut o (execBistPartitionDone part result s) := by
  unfold execBistPartitionDone
  try dsimp only
  repeat' first
    | with_reducible assumption
    | with_reducible apply State.endTest_frame
    | with_reducible apply State.abortCheck_frame
    | with_reducible apply FrameOut.next
    | (with_reducible refine FrameOut.ite ?_ ?_ <;> intro _)

theorem execBistRestore_frame {o : State} {part : Fin 96} {s : State} (hF : Frame o s) :
    FrameOut o (execBistRestore part s) := by
  unfold execBistRestore
  try dsimp only
  repeat' first
    | with_reducible assumption
    | with_reducible apply State.endRestore_frame
    | with_reducible apply FrameOut.next
    | (with_reducible refine FrameOut.ite ?_ ?_ <;> intro _)

theorem execBistSlotDeadline_frame {o : State} {ends : List (Nat × TestEnd)} {s : State} (hF : Frame o s) :
    FrameOut o (execBistSlotDeadline ends s) := by
  unfold execBistSlotDeadline
  try dsimp only
  repeat' first
    | with_reducible assumption
    | with_reducible apply State.deadlineSlot_frame
    | with_reducible apply FrameOut.next
    | (with_reducible refine FrameOut.ite ?_ ?_ <;> intro _)
    | split

theorem execBistSlotRetry_frame {o : State} {s : State} (hF : Frame o s) :
    FrameOut o (execBistSlotRetry s) := by
  unfold execBistSlotRetry
  try dsimp only
  repeat' first
    | with_reducible assumption
    | with_reducible apply State.startSlot_frame
    | with_reducible apply FrameOut.next
    | (with_reducible refine FrameOut.ite ?_ ?_ <;> intro _)
    | split

theorem execSlotWaitExpiry_frame {o : State} {s : State} (hF : Frame o s) :
    FrameOut o (execSlotWaitExpiry s) := by
  unfold execSlotWaitExpiry
  try dsimp only
  repeat' first
    | with_reducible assumption
    | with_reducible apply State.expireSlot_frame
    | with_reducible apply FrameOut.next
    | (with_reducible refine FrameOut.ite ?_ ?_ <;> intro _)
    | split

theorem execBistSlotEnd_frame {o : State} {s : State} (hF : Frame o s) :
    FrameOut o (execBistSlotEnd s) := by
  unfold execBistSlotEnd
  try dsimp only
  repeat' first
    | with_reducible assumption
    | with_reducible apply State.endSlot_frame
    | with_reducible apply FrameOut.next
    | (with_reducible refine FrameOut.ite ?_ ?_ <;> intro _)
    | split

theorem execBistNextSlot_frame {o : State} {s : State} (hF : Frame o s) :
    FrameOut o (execBistNextSlot s) := by
  unfold execBistNextSlot
  try dsimp only
  repeat' first
    | with_reducible assumption
    | with_reducible apply State.startSlot_frame
    | with_reducible apply FrameOut.next
    | (with_reducible refine FrameOut.ite ?_ ?_ <;> intro _)
    | split

theorem State.noteBroughtIn_frame {o : State} {s : State} {k : SpareKind} {n : Nat} (hF : Frame o s) :
    Frame o (State.noteBroughtIn s k n) := by
  unfold State.noteBroughtIn
  try dsimp only
  repeat' first
    | with_reducible assumption
    | split
    | fail_if_no_progress (with_reducible refine Frame.rebuild ?_ rfl rfl rfl rfl)

theorem State.copyErr_frame {o s : State} {bank : Nat} {e : CopyErr} (hF : Frame o s) : Frame o (s.copyErr bank e) := by
  cases e with
  | frame id => exact State.faultFrame_frame hF
  | group sid chunk group page => exact State.damageGroup_frame hF

theorem State.resumeHalves_frame {o : State} {s : State} (hF : Frame o s) :
    Frame o (State.resumeHalves s) := by
  unfold State.resumeHalves
  try dsimp only
  repeat' first
    | with_reducible assumption
    | with_reducible apply State.goMarch_frame
    | (with_reducible refine Frame.foldl ?_ ?_; rotate_left; (intro _ _ _; try dsimp only))
    | (with_reducible refine Frame.ite ?_ ?_ <;> intro _)

theorem execBankCopyDone_frame {o : State} {kind : SpareKind} {copy : BankCopy} {s : State} (hF : Frame o s) :
    FrameOut o (execBankCopyDone kind copy s) := by
  unfold execBankCopyDone
  try dsimp only
  repeat' first
    | with_reducible assumption
    | with_reducible apply State.endCopy_frame
    | with_reducible apply State.endMarchCopy_frame
    | with_reducible apply State.noteBroughtIn_frame
    | with_reducible apply State.copyErr_frame
    | with_reducible apply State.resumeHalves_frame
    | (with_reducible refine Frame.foldl ?_ ?_; rotate_left; (intro _ _ _; try dsimp only))
    | with_reducible apply FrameOut.next
    | (with_reducible refine FrameOut.ite ?_ ?_ <;> intro _)
    | (with_reducible refine Frame.ite ?_ ?_ <;> intro _)
    | split

theorem execSpareAutoBringIn_frame {o : State} {kind : SpareKind} {unit : Nat} {s : State} (hF : Frame o s) :
    FrameOut o (execSpareAutoBringIn kind unit s) := by
  unfold execSpareAutoBringIn
  try dsimp only
  repeat' first
    | with_reducible assumption
    | with_reducible apply State.updBist_frame
    | with_reducible apply State.loseBank_frame
    | with_reducible apply State.bringOut_frame
    | with_reducible apply FrameOut.next
    | (with_reducible refine FrameOut.ite ?_ ?_ <;> intro _)
    | split

theorem execSpareBringInComplete_frame {o : State} {s : State} (hF : Frame o s) :
    FrameOut o (execSpareBringInComplete s) := by
  unfold execSpareBringInComplete
  try dsimp only
  repeat' first
    | with_reducible assumption
    | with_reducible apply State.finishWork_frame
    | with_reducible apply FrameOut.next
    | (with_reducible refine FrameOut.ite ?_ ?_ <;> intro _)
    | split

theorem execFuseBlow_frame {o : State} {s : State} (hF : Frame o s) :
    FrameOut o (execFuseBlow s) := by
  unfold execFuseBlow
  try dsimp only
  repeat' first
    | with_reducible assumption
    | with_reducible apply State.emit_frame
    | with_reducible apply State.updBist_frame
    | (with_reducible refine Frame.foldl ?_ ?_; rotate_left; (intro _ _ _; try dsimp only))
    | with_reducible apply FrameOut.next
    | (with_reducible refine FrameOut.ite ?_ ?_ <;> intro _)

end Sys2Proof.Machine
end

