-- ==== Sys2Proof/Laws/FramePackets.lean ====
section
/-! SUPPORT. Frame through Machine/Packets.lean: one lemma for each operation. -/

namespace Sys2Proof.Machine

theorem State.arrive_frame {o : State} {s : State} {p : Packet} (hF : Frame o s) :
    Frame o (State.arrive s p) := by
  unfold State.arrive
  try dsimp only
  repeat' first
    | with_reducible assumption
    | split
    | fail_if_no_progress (with_reducible refine Frame.rebuild ?_ rfl rfl rfl rfl)

theorem State.takeBus_frame {o : State} {s : State} {src : Src} {b : Bytes} (hF : Frame o s) :
    Frame o (State.takeBus s src b) := by
  unfold State.takeBus
  try dsimp only
  repeat' first
    | with_reducible assumption
    | with_reducible apply State.arrive_frame
    | split
    | fail_if_no_progress (with_reducible refine Frame.rebuild ?_ rfl rfl rfl rfl)

theorem State.updRing_frame {o s : State} {f : Ring → Ring} (hF : Frame o s) (e : (f s.ring).config = s.ring.config) :
    Frame o (s.updRing f) :=
  Frame.rebuild hF e rfl rfl rfl

theorem State.updRing_frame_ok {o s : State} {f : Ring → Ring} (hF : Frame o s) (g : RingOk s.ring → RingOk (f s.ring)) :
    Frame o (s.updRing f) :=
  hF.trans ⟨rfl, List.prefix_rfl, Nat.le_refl _, id, g, id⟩

theorem execPcieCmdFetch_frame {o : State} {slot : Bytes} {s : State} (hF : Frame o s) :
    FrameOut o (execPcieCmdFetch slot s) := by
  unfold execPcieCmdFetch
  try dsimp only
  repeat' first
    | with_reducible assumption
    | with_reducible apply State.writeSlot_frame
    | with_reducible apply State.arrive_frame
    | with_reducible apply State.updRing_frame
    | with_reducible apply FrameOut.next
    | (with_reducible refine FrameOut.ite ?_ ?_ <;> intro _)
    | split
    | fail_if_no_progress (with_reducible refine Frame.rebuild ?_ rfl rfl rfl rfl)
    | exact rfl

theorem execCmdTailWrite_frame {o : State} {value : Word} {s : State} (hF : Frame o s) :
    FrameOut o (execCmdTailWrite value s) := by
  unfold execCmdTailWrite
  try dsimp only
  repeat' first
    | with_reducible assumption
    | with_reducible apply State.updRing_frame
    | with_reducible apply FrameOut.next
    | (with_reducible refine FrameOut.ite ?_ ?_ <;> intro _)
    | split
    | fail_if_no_progress (with_reducible refine Frame.rebuild ?_ rfl rfl rfl rfl)
    | exact rfl

theorem execReplyDoneWrite_frame {o : State} {value : Word} {s : State} (hF : Frame o s) :
    FrameOut o (execReplyDoneWrite value s) := by
  unfold execReplyDoneWrite
  try dsimp only
  repeat' first
    | with_reducible assumption
    | with_reducible apply State.reply_frame
    | with_reducible apply State.updRing_frame
    | with_reducible apply FrameOut.next
    | (with_reducible refine FrameOut.ite ?_ ?_ <;> intro _)
    | split
    | fail_if_no_progress (with_reducible refine Frame.rebuild ?_ rfl rfl rfl rfl)
    | exact rfl

theorem execRingCfgWrite_frame {o : State} {value : Word} {s : State} (hF : Frame o s) :
    FrameOut o (execRingCfgWrite value s) := by
  unfold execRingCfgWrite
  split
  · exact FrameOut.next hF
  · refine FrameOut.next (State.updRing_frame_ok hF ?_)
    intro h
    obtain ⟨h1, h2, h3, h4, h5, h6⟩ := h
    have b9 : wbits value 9 8 < 4 := Nat.mod_lt _ (by decide)
    have b13 : wbits value 13 12 < 4 := Nat.mod_lt _ (by decide)
    refine ⟨?_, ?_, ?_, ?_, h5, h6⟩ <;> dsimp only <;> split <;> simp_all <;> omega

theorem execRingBaseWrite_frame {o : State} {reply : Bool} {value : Word} {s : State} (hF : Frame o s) :
    FrameOut o (execRingBaseWrite reply value s) := by
  have low : ∀ v : Word, v &&& ~~~(0xFFF : Word) &&& 0xFFF = 0 := by
    intro v
    rw [BitVec.and_assoc]
    simp
  unfold execRingBaseWrite
  split
  · exact FrameOut.next hF
  · refine FrameOut.next (State.updRing_frame_ok hF ?_)
    intro h
    obtain ⟨h1, h2, h3, h4, h5, h6⟩ := h
    refine ⟨h1, h2, h3, h4, ?_, ?_⟩ <;> dsimp only <;> split
    · exact low value
    · exact h5
    · exact low value
    · exact h6

theorem execBar0Write_frame {o : State} {offset : BitVec 12} {value : Word} {s : State} (hF : Frame o s) :
    FrameOut o (execBar0Write offset value s) := by
  unfold execBar0Write
  try dsimp only
  repeat' first
    | with_reducible assumption
    | with_reducible apply State.updRing_frame
    | with_reducible apply FrameOut.next
    | (with_reducible refine FrameOut.ite ?_ ?_ <;> intro _)
    | split
    | fail_if_no_progress (with_reducible refine Frame.rebuild ?_ rfl rfl rfl rfl)
    | exact rfl

theorem execReplyIrqHoldoffEnd_frame {o : State} {s : State} (hF : Frame o s) :
    FrameOut o (execReplyIrqHoldoffEnd s) := by
  unfold execReplyIrqHoldoffEnd
  try dsimp only
  repeat' first
    | with_reducible assumption
    | with_reducible apply State.replyIrq_frame
    | with_reducible apply State.updRing_frame
    | with_reducible apply FrameOut.next
    | (with_reducible refine FrameOut.ite ?_ ?_ <;> intro _)
    | (with_reducible refine Frame.ite ?_ ?_ <;> intro _)
    | split
    | fail_if_no_progress (with_reducible refine Frame.rebuild ?_ rfl rfl rfl rfl)
    | exact rfl

theorem execTc7CmdFrame_frame {o : State} {lp : Lp} {foreign : Bool} {frame : InFrame} {s : State} (hF : Frame o s) :
    FrameOut o (execTc7CmdFrame lp foreign frame s) := by
  unfold execTc7CmdFrame
  try dsimp only
  repeat' first
    | with_reducible assumption
    | with_reducible apply State.countLp_frame
    | with_reducible apply State.claim_frame
    | with_reducible apply State.freeFrame_frame
    | with_reducible apply State.arrive_frame
    | with_reducible refine State.claim_frame_pair ?_ (by with_reducible assumption)
    | with_reducible apply FrameOut.next
    | (with_reducible refine FrameOut.ite ?_ ?_ <;> intro _)
    | split

end Sys2Proof.Machine
end

