-- ==== Sys2Proof/Laws/FrameBuses.lean ====
section
/-! SUPPORT. Frame through Machine/Buses.lean: one lemma for each operation. -/

namespace Sys2Proof.Machine

theorem State.updSide_frame {o s : State} {f : Sideband → Sideband} (hF : Frame o s)
    (e : (f s.side).staticAddr = s.side.staticAddr) : Frame o (s.updSide f) :=
  Frame.rebuild hF rfl rfl rfl e

theorem State.takeRead_frame {o : State} {s : State} {x : Stored} (hF : Frame o s) :
    Frame o (State.takeRead s x) := by
  unfold State.takeRead
  try dsimp only
  repeat' first
    | with_reducible assumption
    | with_reducible apply State.reply_frame
    | (with_reducible refine Frame.ite ?_ ?_ <;> intro _)
    | split
    | fail_if_no_progress (with_reducible refine Frame.rebuild ?_ rfl rfl rfl rfl)

theorem State.chain_frame {o s : State} {f : SbFrame} {act : SbFrame → State} (hF : Frame o s) (g : ∀ x, Frame o (act x)) :
    Frame o (s.chain f act) := by
  unfold State.chain
  split
  · exact hF
  · split
    · exact hF
    · exact g _

theorem State.sendSb_frame {o : State} {s : State} {f : SbFrame} (hF : Frame o s) :
    Frame o (State.sendSb s f) := by
  unfold State.sendSb
  try dsimp only
  repeat' first
    | with_reducible assumption
    | with_reducible apply State.emit_frame

theorem State.sendSbReply_frame {o : State} {s : State} {f : SbFrame} {r : Option Reply} (hF : Frame o s) :
    Frame o (State.sendSbReply s f r) := by
  unfold State.sendSbReply
  try dsimp only
  repeat' first
    | with_reducible assumption
    | with_reducible apply State.emit_frame

theorem State.countFrameErr_frame {o : State} {s : State} (hF : Frame o s) :
    Frame o (State.countFrameErr s) := by
  unfold State.countFrameErr
  try dsimp only
  repeat' first
    | with_reducible assumption
    | with_reducible apply State.updSide_frame
    | split
    | fail_if_no_progress (with_reducible refine Frame.rebuild ?_ rfl rfl rfl rfl)
    | exact rfl

theorem State.discardSb_frame {o : State} {s : State} (hF : Frame o s) :
    Frame o (State.discardSb s) := by
  unfold State.discardSb
  try dsimp only
  repeat' first
    | with_reducible assumption
    | with_reducible apply State.countFrameErr_frame
    | (with_reducible refine Frame.ite ?_ ?_ <;> intro _)

theorem State.receiveSb_frame {o s : State} {x : SbWire} {act : SbFrame → Out} (hF : Frame o s) (g : ∀ f, FrameOut o (act f)) :
    FrameOut o (s.receiveSb x act) := by
  unfold State.receiveSb
  split
  · exact g _
  · exact FrameOut.next (State.discardSb_frame hF)

theorem execSbCmd_frame {o : State} {wire : SbWire} {s : State} (hF : Frame o s) :
    FrameOut o (execSbCmd wire s) := by
  unfold execSbCmd
  try dsimp only
  repeat' first
    | with_reducible assumption
    | with_reducible apply State.takeBus_frame
    | with_reducible apply State.chain_frame
    | with_reducible apply State.sendSb_frame
    | with_reducible apply State.receiveSb_frame
    | with_reducible apply FrameOut.next
    | (with_reducible refine FrameOut.ite ?_ ?_ <;> intro _)
    | split
    | fail_if_no_progress (with_reducible refine Frame.rebuild ?_ rfl rfl rfl rfl)
    | (intro _; try dsimp only)

theorem execSbSelect_frame {o : State} {wire : SbWire} {s : State} (hF : Frame o s) :
    FrameOut o (execSbSelect wire s) := by
  unfold execSbSelect
  try dsimp only
  repeat' first
    | with_reducible assumption
    | with_reducible apply State.chain_frame
    | with_reducible apply State.sendSb_frame
    | with_reducible apply State.receiveSb_frame
    | with_reducible apply FrameOut.next
    | (with_reducible refine FrameOut.ite ?_ ?_ <;> intro _)
    | split
    | fail_if_no_progress (with_reducible refine Frame.rebuild ?_ rfl rfl rfl rfl)
    | (intro _; try dsimp only)

theorem execSbRead_frame {o : State} {wire : SbWire} {s : State} (hF : Frame o s) :
    FrameOut o (execSbRead wire s) := by
  unfold execSbRead
  try dsimp only
  repeat' first
    | with_reducible assumption
    | with_reducible apply State.takeRead_frame
    | with_reducible apply State.chain_frame
    | with_reducible apply State.sendSbReply_frame
    | with_reducible apply State.receiveSb_frame
    | with_reducible apply FrameOut.next
    | (with_reducible refine FrameOut.ite ?_ ?_ <;> intro _)
    | split
    | fail_if_no_progress (with_reducible refine Frame.rebuild ?_ rfl rfl rfl rfl)
    | (intro _; try dsimp only)

theorem execSbSeqQuery_frame {o : State} {wire : SbWire} {s : State} (hF : Frame o s) :
    FrameOut o (execSbSeqQuery wire s) := by
  unfold execSbSeqQuery
  try dsimp only
  repeat' first
    | with_reducible assumption
    | with_reducible apply State.chain_frame
    | with_reducible apply State.sendSb_frame
    | with_reducible apply State.receiveSb_frame
    | with_reducible apply FrameOut.next
    | (with_reducible refine FrameOut.ite ?_ ?_ <;> intro _)
    | split
    | fail_if_no_progress (with_reducible refine Frame.rebuild ?_ rfl rfl rfl rfl)
    | (intro _; try dsimp only)

theorem execSbPoll_frame {o : State} {wire : SbWire} {s : State} (hF : Frame o s) :
    FrameOut o (execSbPoll wire s) := by
  unfold execSbPoll
  try dsimp only
  repeat' first
    | with_reducible assumption
    | with_reducible apply State.chain_frame
    | with_reducible apply State.sendSb_frame
    | with_reducible apply State.receiveSb_frame
    | with_reducible apply FrameOut.next
    | (with_reducible refine FrameOut.ite ?_ ?_ <;> intro _)
    | split
    | fail_if_no_progress (with_reducible refine Frame.rebuild ?_ rfl rfl rfl rfl)
    | (intro _; try dsimp only)

theorem execSbFrameForward_frame {o : State} {wire : SbWire} {s : State} (hF : Frame o s) :
    FrameOut o (execSbFrameForward wire s) := by
  unfold execSbFrameForward
  try dsimp only
  repeat' first
    | with_reducible assumption
    | with_reducible apply State.chain_frame
    | with_reducible apply State.sendSb_frame
    | with_reducible apply State.countFrameErr_frame
    | with_reducible apply State.receiveSb_frame
    | with_reducible apply FrameOut.next
    | (with_reducible refine FrameOut.ite ?_ ?_ <;> intro _)
    | split
    | fail_if_no_progress (with_reducible refine Frame.rebuild ?_ rfl rfl rfl rfl)
    | (intro _; try dsimp only)

theorem execSbFrameDiscard_frame {o : State} {s : State} (hF : Frame o s) :
    FrameOut o (execSbFrameDiscard s) := by
  unfold execSbFrameDiscard
  try dsimp only
  repeat' first
    | with_reducible assumption
    | with_reducible apply State.discardSb_frame
    | with_reducible apply FrameOut.next

theorem execChainLost_frame {o : State} {s : State} (hF : Frame o s) :
    FrameOut o (execChainLost s) := by
  unfold execChainLost
  try dsimp only
  repeat' first
    | with_reducible assumption
    | with_reducible apply State.updSide_frame
    | with_reducible apply FrameOut.next
    | (with_reducible refine FrameOut.ite ?_ ?_ <;> intro _)
    | split
    | fail_if_no_progress (with_reducible refine Frame.rebuild ?_ rfl rfl rfl rfl)
    | exact rfl

theorem State.enumerate_frame {o s : State} {mode : Nat} {f : SbFrame} {act : EnumFields → EnumFields × State} (hF : Frame o s)
    (g : ∀ e, Frame o (act e).2) : FrameOut o (s.enumerate mode f act) := by
  unfold State.enumerate
  split
  · exact FrameOut.next hF
  · exact FrameOut.next (State.chain_frame hF fun _ => State.emit_frame (g _))

theorem execSbEnumSurvey_frame {o : State} {wire : SbWire} {s : State} (hF : Frame o s) :
    FrameOut o (execSbEnumSurvey wire s) := by
  unfold execSbEnumSurvey
  try dsimp only
  repeat' first
    | with_reducible assumption
    | with_reducible apply State.receiveSb_frame
    | with_reducible apply State.enumerate_frame
    | with_reducible apply FrameOut.next
    | split
    | fail_if_no_progress (with_reducible refine Frame.rebuild ?_ rfl rfl rfl rfl)
    | (intro _; try dsimp only)

theorem execSbEnumAssign_frame {o : State} {wire : SbWire} {s : State} (hF : Frame o s) :
    FrameOut o (execSbEnumAssign wire s) := by
  unfold execSbEnumAssign
  try dsimp only
  repeat' first
    | with_reducible assumption
    | with_reducible apply State.updSide_frame
    | with_reducible apply State.receiveSb_frame
    | with_reducible apply State.enumerate_frame
    | with_reducible apply FrameOut.next
    | split
    | fail_if_no_progress (with_reducible refine Frame.rebuild ?_ rfl rfl rfl rfl)
    | (intro _; try dsimp only)
    | exact rfl

theorem execSbEnumCommit_frame {o : State} {wire : SbWire} {s : State} (hF : Frame o s) :
    FrameOut o (execSbEnumCommit wire s) := by
  unfold execSbEnumCommit
  try dsimp only
  repeat' first
    | with_reducible assumption
    | with_reducible apply State.updBeat_frame
    | with_reducible apply State.receiveSb_frame
    | with_reducible apply State.enumerate_frame
    | with_reducible apply FrameOut.next
    | split
    | fail_if_no_progress (with_reducible refine Frame.rebuild ?_ rfl rfl rfl rfl)
    | (intro _; try dsimp only)

theorem execSbEnumClear_frame {o : State} {wire : SbWire} {s : State} (hF : Frame o s) :
    FrameOut o (execSbEnumClear wire s) := by
  unfold execSbEnumClear
  try dsimp only
  repeat' first
    | with_reducible assumption
    | with_reducible apply State.setRoot_frame
    | with_reducible apply State.updSide_frame
    | with_reducible apply State.receiveSb_frame
    | with_reducible apply State.enumerate_frame
    | with_reducible apply FrameOut.next
    | split
    | fail_if_no_progress (with_reducible refine Frame.rebuild ?_ rfl rfl rfl rfl)
    | (intro _; try dsimp only)
    | exact rfl

theorem State.i3cWrite_frame {o : State} {s : State} {act : State} (hF : Frame o s) (hF2 : Frame o act) :
    FrameOut o (State.i3cWrite s act) := by
  unfold State.i3cWrite
  try dsimp only
  repeat' first
    | with_reducible assumption
    | with_reducible apply State.emit_frame
    | with_reducible apply FrameOut.next
    | (with_reducible refine FrameOut.ite ?_ ?_ <;> intro _)

theorem execI3cCommand_frame {o : State} {xfer : Byte} {packet : Bytes} {s : State} (hF : Frame o s) :
    FrameOut o (execI3cCommand xfer packet s) := by
  unfold execI3cCommand
  try dsimp only
  repeat' first
    | with_reducible assumption
    | with_reducible apply State.takeBus_frame
    | with_reducible apply State.updSide_frame
    | with_reducible apply State.i3cWrite_frame
    | with_reducible apply FrameOut.next
    | (with_reducible refine FrameOut.ite ?_ ?_ <;> intro _)
    | (with_reducible refine Frame.ite ?_ ?_ <;> intro _)
    | split
    | fail_if_no_progress (with_reducible refine Frame.rebuild ?_ rfl rfl rfl rfl)
    | exact rfl

theorem execI3cSelect_frame {o : State} {seq : BitVec 32} {s : State} (hF : Frame o s) :
    FrameOut o (execI3cSelect seq s) := by
  unfold execI3cSelect
  try dsimp only
  repeat' first
    | with_reducible assumption
    | with_reducible apply State.i3cWrite_frame
    | with_reducible apply FrameOut.next
    | split
    | fail_if_no_progress (with_reducible refine Frame.rebuild ?_ rfl rfl rfl rfl)

theorem execI3cSeqQuery_frame {o : State} {s : State} (hF : Frame o s) :
    FrameOut o (execI3cSeqQuery s) := by
  unfold execI3cSeqQuery
  try dsimp only
  repeat' first
    | with_reducible assumption
    | with_reducible apply State.i3cWrite_frame
    | with_reducible apply FrameOut.next
    | split
    | fail_if_no_progress (with_reducible refine Frame.rebuild ?_ rfl rfl rfl rfl)

theorem execI3cPrivateRead_frame {o : State} {endsEarly : Bool} {s : State} (hF : Frame o s) :
    FrameOut o (execI3cPrivateRead endsEarly s) := by
  unfold execI3cPrivateRead
  try dsimp only
  repeat' first
    | with_reducible assumption
    | with_reducible apply State.emit_frame
    | with_reducible apply State.takeRead_frame
    | with_reducible apply FrameOut.next
    | (with_reducible refine FrameOut.ite ?_ ?_ <;> intro _)
    | (with_reducible refine Frame.ite ?_ ?_ <;> intro _)
    | split
    | fail_if_no_progress (with_reducible refine Frame.rebuild ?_ rfl rfl rfl rfl)

theorem State.ccc_frame {o : State} {s : State} {act : State} (hF : Frame o s) (hF2 : Frame o act) :
    FrameOut o (State.ccc s act) := by
  unfold State.ccc
  try dsimp only
  repeat' first
    | with_reducible assumption
    | with_reducible apply FrameOut.next
    | (with_reducible refine FrameOut.ite ?_ ?_ <;> intro _)

theorem State.cccBytes_frame {o : State} {s : State} {b : Bytes} (hF : Frame o s) :
    FrameOut o (State.cccBytes s b) := by
  unfold State.cccBytes
  try dsimp only
  repeat' first
    | with_reducible assumption
    | with_reducible apply State.emit_frame
    | with_reducible apply State.ccc_frame

theorem execEntdaa_frame {o : State} {addr : BitVec 7} {s : State} (hF : Frame o s) :
    FrameOut o (execEntdaa addr s) := by
  unfold execEntdaa
  try dsimp only
  repeat' first
    | with_reducible assumption
    | with_reducible apply State.updSide_frame
    | with_reducible apply State.ccc_frame
    | with_reducible apply FrameOut.next
    | (with_reducible refine Frame.ite ?_ ?_ <;> intro _)
    | split
    | fail_if_no_progress (with_reducible refine Frame.rebuild ?_ rfl rfl rfl rfl)
    | exact rfl

theorem execSetdasa_frame {o : State} {static : BitVec 7} {addr : BitVec 7} {s : State} (hF : Frame o s) :
    FrameOut o (execSetdasa static addr s) := by
  unfold execSetdasa
  try dsimp only
  repeat' first
    | with_reducible assumption
    | with_reducible apply State.updSide_frame
    | with_reducible apply State.ccc_frame
    | with_reducible apply FrameOut.next
    | (with_reducible refine Frame.ite ?_ ?_ <;> intro _)
    | split
    | fail_if_no_progress (with_reducible refine Frame.rebuild ?_ rfl rfl rfl rfl)
    | exact rfl

theorem execRstdaa_frame {o : State} {s : State} (hF : Frame o s) :
    FrameOut o (execRstdaa s) := by
  unfold execRstdaa
  try dsimp only
  repeat' first
    | with_reducible assumption
    | with_reducible apply State.updSide_frame
    | with_reducible apply State.ccc_frame
    | with_reducible apply FrameOut.next
    | split
    | fail_if_no_progress (with_reducible refine Frame.rebuild ?_ rfl rfl rfl rfl)
    | exact rfl

theorem execSetmwl_frame {o : State} {length : BitVec 16} {s : State} (hF : Frame o s) :
    FrameOut o (execSetmwl length s) := by
  unfold execSetmwl
  try dsimp only
  repeat' first
    | with_reducible assumption
    | with_reducible apply State.ccc_frame

theorem execSetmrl_frame {o : State} {length : BitVec 16} {s : State} (hF : Frame o s) :
    FrameOut o (execSetmrl length s) := by
  unfold execSetmrl
  try dsimp only
  repeat' first
    | with_reducible assumption
    | with_reducible apply State.ccc_frame

theorem execGetmwl_frame {o : State} {s : State} (hF : Frame o s) :
    FrameOut o (execGetmwl s) := by
  unfold execGetmwl
  try dsimp only
  repeat' first
    | with_reducible assumption
    | with_reducible apply State.cccBytes_frame

theorem execGetmrl_frame {o : State} {s : State} (hF : Frame o s) :
    FrameOut o (execGetmrl s) := by
  unfold execGetmrl
  try dsimp only
  repeat' first
    | with_reducible assumption
    | with_reducible apply State.cccBytes_frame

theorem execGetpid_frame {o : State} {s : State} (hF : Frame o s) :
    FrameOut o (execGetpid s) := by
  unfold execGetpid
  try dsimp only
  repeat' first
    | with_reducible assumption
    | with_reducible apply State.cccBytes_frame

theorem execGetbcr_frame {o : State} {s : State} (hF : Frame o s) :
    FrameOut o (execGetbcr s) := by
  unfold execGetbcr
  try dsimp only
  repeat' first
    | with_reducible assumption
    | with_reducible apply State.cccBytes_frame

theorem execGetdcr_frame {o : State} {s : State} (hF : Frame o s) :
    FrameOut o (execGetdcr s) := by
  unfold execGetdcr
  try dsimp only
  repeat' first
    | with_reducible assumption
    | with_reducible apply State.cccBytes_frame

theorem execGetstatus_frame {o s : State} (hF : Frame o s) : FrameOut o (execGetstatus s) := by
  unfold execGetstatus
  refine State.ccc_frame hF (State.emit_frame ?_)
  exact hF.trans ⟨rfl, List.prefix_rfl, Nat.le_succ _, id, id, id⟩

theorem State.raiseIbi_frame {o : State} {s : State} (hF : Frame o s) :
    Frame o (State.raiseIbi s) := by
  unfold State.raiseIbi
  try dsimp only
  repeat' first
    | with_reducible assumption
    | with_reducible apply State.emit_frame
    | with_reducible apply State.updSide_frame
    | (with_reducible refine Frame.ite ?_ ?_ <;> intro _)
    | split
    | fail_if_no_progress (with_reducible refine Frame.rebuild ?_ rfl rfl rfl rfl)
    | exact rfl

theorem execIbiRaise_frame {o : State} {s : State} (hF : Frame o s) :
    FrameOut o (execIbiRaise s) := by
  unfold execIbiRaise
  try dsimp only
  repeat' first
    | with_reducible assumption
    | with_reducible apply State.raiseIbi_frame
    | with_reducible apply FrameOut.next
    | (with_reducible refine FrameOut.ite ?_ ?_ <;> intro _)

theorem execEnec_frame {o : State} {s : State} (hF : Frame o s) :
    FrameOut o (execEnec s) := by
  unfold execEnec
  try dsimp only
  repeat' first
    | with_reducible assumption
    | with_reducible apply State.updSide_frame
    | with_reducible apply State.ccc_frame
    | with_reducible apply State.raiseIbi_frame
    | with_reducible apply FrameOut.next
    | split
    | fail_if_no_progress (with_reducible refine Frame.rebuild ?_ rfl rfl rfl rfl)
    | exact rfl

theorem execDisec_frame {o : State} {s : State} (hF : Frame o s) :
    FrameOut o (execDisec s) := by
  unfold execDisec
  try dsimp only
  repeat' first
    | with_reducible assumption
    | with_reducible apply State.updSide_frame
    | with_reducible apply State.ccc_frame
    | with_reducible apply FrameOut.next
    | split
    | fail_if_no_progress (with_reducible refine Frame.rebuild ?_ rfl rfl rfl rfl)
    | exact rfl

theorem execRstact_frame {o : State} {action : Byte} {s : State} (hF : Frame o s) :
    FrameOut o (execRstact action s) := by
  unfold execRstact
  try dsimp only
  repeat' first
    | with_reducible assumption
    | with_reducible apply State.updSide_frame
    | with_reducible apply State.ccc_frame
    | with_reducible apply FrameOut.next
    | (with_reducible refine Frame.ite ?_ ?_ <;> intro _)
    | split
    | fail_if_no_progress (with_reducible refine Frame.rebuild ?_ rfl rfl rfl rfl)
    | exact rfl

theorem execBmcAbsent_frame {o : State} {s : State} (hF : Frame o s) :
    FrameOut o (execBmcAbsent s) := by
  unfold execBmcAbsent
  try dsimp only
  repeat' first
    | with_reducible assumption
    | with_reducible apply State.updSide_frame
    | with_reducible apply FrameOut.next
    | (with_reducible refine FrameOut.ite ?_ ?_ <;> intro _)
    | split
    | fail_if_no_progress (with_reducible refine Frame.rebuild ?_ rfl rfl rfl rfl)
    | exact rfl

end Sys2Proof.Machine
end

