-- ==== Sys2Proof/Laws/FrameSwitch.lean ====
section
/-! SUPPORT. Frame through Machine/Switch.lean: one lemma for each operation. -/

namespace Sys2Proof.Machine

theorem State.updHead_frame {o : State} {s : State} {lp : Nat} {f : InFrame → InFrame} (hF : Frame o s) :
    Frame o (State.updHead s lp f) := by
  unfold State.updHead
  try dsimp only
  repeat' first
    | with_reducible assumption
    | split
    | fail_if_no_progress (with_reducible refine Frame.rebuild ?_ rfl rfl rfl rfl)

theorem State.breakArriving_frame {o : State} {s : State} {lp : Nat} (hF : Frame o s) :
    Frame o (State.breakArriving s lp) := by
  unfold State.breakArriving
  try dsimp only
  repeat' first
    | with_reducible assumption
    | with_reducible apply State.setArriving_frame
    | with_reducible apply State.discardHead_frame
    | with_reducible apply State.faultFrame_frame
    | with_reducible apply State.updHead_frame
    | split

theorem State.frameFlit_frame {o : State} {s : State} {lp : Nat} {h : Hdr} {payload : Bytes} {stomped : Bool} (hF : Frame o s) :
    Frame o (State.frameFlit s lp h payload stomped) := by
  unfold State.frameFlit
  try dsimp only
  repeat' first
    | with_reducible assumption
    | with_reducible apply State.countLp_frame
    | with_reducible apply State.takeCells_frame
    | with_reducible apply State.freeCells_frame
    | with_reducible apply State.setArriving_frame
    | with_reducible apply State.discardHead_frame
    | with_reducible apply State.countRx_frame
    | with_reducible apply State.faultFrame_frame
    | with_reducible apply State.updHead_frame
    | with_reducible apply State.breakArriving_frame
    | (with_reducible refine Frame.ite ?_ ?_ <;> intro _)
    | split
    | fail_if_no_progress (with_reducible refine Frame.rebuild ?_ rfl rfl rfl rfl)

theorem execFrameHeadIngress_frame {o : State} {lp : Lp} {frame : InFrame} {s : State} (hF : Frame o s) :
    FrameOut o (execFrameHeadIngress lp frame s) := by
  unfold execFrameHeadIngress
  try dsimp only
  repeat' first
    | with_reducible assumption
    | with_reducible apply State.ingressWaiting_frame
    | with_reducible apply State.countHeld_frame
    | with_reducible apply State.arriveFrame_frame
    | with_reducible apply FrameOut.next
    | (with_reducible refine FrameOut.ite ?_ ?_ <;> intro _)
    | split
    | fail_if_no_progress (with_reducible refine Frame.rebuild ?_ rfl rfl rfl rfl)

theorem execIngressHoldRelease_frame {o : State} {s : State} (hF : Frame o s) :
    FrameOut o (execIngressHoldRelease s) := by
  unfold execIngressHoldRelease
  try dsimp only
  repeat' first
    | with_reducible assumption
    | with_reducible apply State.ingressWaiting_frame
    | (with_reducible refine Frame.foldl ?_ ?_; rotate_left; (intro _ _ _; try dsimp only))
    | with_reducible apply FrameOut.next
    | (with_reducible refine FrameOut.ite ?_ ?_ <;> intro _)
    | split
    | fail_if_no_progress (with_reducible refine Frame.rebuild ?_ rfl rfl rfl rfl)

theorem execCreditIssue_frame {o : State} {lp : Lp} {s : State} (hF : Frame o s) :
    FrameOut o (execCreditIssue lp s) := by
  unfold execCreditIssue
  try dsimp only
  repeat' first
    | with_reducible assumption
    | with_reducible apply State.issue_frame
    | with_reducible apply FrameOut.next
    | (with_reducible refine FrameOut.ite ?_ ?_ <;> intro _)
    | split

theorem execCreditFlush_frame {o : State} {lp : Lp} {s : State} (hF : Frame o s) :
    FrameOut o (execCreditFlush lp s) := by
  unfold execCreditFlush
  try dsimp only
  repeat' first
    | with_reducible assumption
    | with_reducible apply State.clearPending_frame
    | with_reducible apply State.sendCreditFlit_frame
    | with_reducible apply State.sendInit_frame
    | with_reducible apply FrameOut.next
    | (with_reducible refine FrameOut.ite ?_ ?_ <;> intro _)

theorem State.reserveOut_frame {o : State} {s : State} {x : Xbar} {j c u n need : Nat} (hF : Frame o s) :
    Frame o (State.reserveOut s x j c u n need).1 := by
  unfold State.reserveOut
  try dsimp only
  repeat' first
    | with_reducible assumption
    | with_reducible apply State.addReserved_frame
    | with_reducible apply State.setPace_frame

theorem State.reserveOut_frame_pair {o : State} {s : State} {x : Xbar} {j c u n need : Nat} (hF : Frame o s)
    {pa : State} {pb : Xbar} (eF : (State.reserveOut s x j c u n need) = (pa, pb)) : Frame o pa := by
  have this : Frame o (State.reserveOut s x j c u n need).1 := State.reserveOut_frame (hF := hF)
  rw [eF] at this
  exact this

theorem State.releaseOut_frame {o : State} {s : State} {x : Xbar} {j c u n need : Nat} (hF : Frame o s) :
    Frame o (State.releaseOut s x j c u n need).1 := by
  unfold State.releaseOut
  try dsimp only
  repeat' first
    | with_reducible assumption
    | with_reducible apply State.addReserved_frame
    | with_reducible apply State.setPace_frame

theorem State.releaseOut_frame_pair {o : State} {s : State} {x : Xbar} {j c u n need : Nat} (hF : Frame o s)
    {pa : State} {pb : Xbar} (eF : (State.releaseOut s x j c u n need) = (pa, pb)) : Frame o pa := by
  have this : Frame o (State.releaseOut s x j c u n need).1 := State.releaseOut_frame (hF := hF)
  rw [eF] at this
  exact this

theorem State.stageFifo_frame {o : State} {s : State} {u : Nat} {q : QFrame} {l : List Bytes} (hF : Frame o s) :
    Frame o (State.stageFifo s u q l) := by
  unfold State.stageFifo
  try dsimp only
  repeat' first
    | with_reducible assumption
    | with_reducible apply State.setFifo_frame
    | (with_reducible refine Frame.ite ?_ ?_ <;> intro _)

theorem State.stage_frame {o : State} {s : State} {u lp : Nat} {q : QFrame} {l : List Bytes} (hF : Frame o s) :
    Frame o (State.stage s u lp q l) := by
  unfold State.stage
  try dsimp only
  repeat' first
    | with_reducible assumption
    | with_reducible apply State.setCurrent_frame
    | with_reducible apply State.stageFifo_frame
    | (with_reducible refine Frame.ite ?_ ?_ <;> intro _)
    | split

theorem State.movePieces_frame {o : State} {s : State} {i j inSlot u : Nat} {l : List (QFrame × Nat)} (hF : Frame o s) :
    Frame o (State.movePieces s i j inSlot u l) := by
  unfold State.movePieces
  try dsimp only
  repeat' first
    | with_reducible assumption
    | with_reducible apply State.countGlobal_frame
    | with_reducible apply State.freeCells_frame
    | with_reducible apply State.cellErrors_frame
    | with_reducible apply State.faultFrame_frame
    | with_reducible apply State.stage_frame
    | (with_reducible refine Frame.foldl ?_ ?_; rotate_left; (intro _ _ _; try dsimp only))
    | (with_reducible refine Frame.ite ?_ ?_ <;> intro _)
    | split
    | fail_if_no_progress (with_reducible refine Frame.rebuild ?_ rfl rfl rfl rfl)

theorem State.lockedPass_frame {o : State} {s : State} (hF : Frame o s) :
    Frame o (State.lockedPass s).1 := by
  unfold State.lockedPass
  try dsimp only
  repeat' first
    | with_reducible assumption
    | with_reducible apply State.countGlobal_frame
    | with_reducible apply State.reserveOut_frame
    | with_reducible apply State.movePieces_frame
    | with_reducible refine State.reserveOut_frame_pair ?_ (by with_reducible assumption)
    | (with_reducible refine Frame.foldl_fst ?_ ?_; rotate_left; (intro _ _ _; try dsimp only))
    | split
    | fail_if_no_progress (with_reducible refine Frame.rebuild ?_ rfl rfl rfl rfl)

theorem State.lockedPass_frame_pair {o : State} {s : State} (hF : Frame o s)
    {pa : State} {pb : Xbar} (eF : (State.lockedPass s) = (pa, pb)) : Frame o pa := by
  have this : Frame o (State.lockedPass s).1 := State.lockedPass_frame (hF := hF)
  rw [eF] at this
  exact this

theorem grantOne_frame {o : State} {j : Nat} {a : Grants × List Nat × Bool} {r : Request} (hF : Frame o a.1.1) :
    Frame o (grantOne j a r).1.1 := by
  obtain ⟨⟨s, x, gs⟩, l, e⟩ := a
  unfold grantOne
  dsimp only
  split
  · exact hF
  · split
    · exact State.reserveOut_frame (x := x) (u := 0) hF
    · exact hF

theorem grantOutput_frame {o : State} {a : Grants} {jr : Nat × List Request} (hF : Frame o a.1) :
    Frame o (grantOutput a jr).1 := by
  unfold grantOutput
  have go : ∀ (l : List Request) (q : Grants × List Nat × Bool), Frame o q.1.1 → Frame o (l.foldl (grantOne jr.1) q).1.1 := by
    intro l
    induction l with
    | nil => exact fun _ h => h
    | cons r t ih => exact fun q h => ih _ (grantOne_frame h)
  exact go _ _ hF

theorem acceptOne_frame {o : State} {i : Nat} {a : Accepts × Nat} {g : Request × Nat} (hF : Frame o a.1.1) :
    Frame o (acceptOne i a g).1.1 := by
  obtain ⟨⟨s, x, d⟩, n⟩ := a
  unfold acceptOne
  dsimp only
  split
  · exact State.releaseOut_frame (x := x) (u := 0) hF
  · exact Frame.rebuild (State.movePieces_frame hF) rfl rfl rfl rfl

theorem acceptInput_frame {o : State} {p : SMap Nat} {gs : List (Request × Nat)} {first : Bool} {a : Accepts} {i : Nat}
    (hF : Frame o a.1) : Frame o (acceptInput p gs first a i).1 := by
  have go : ∀ (l : List (Request × Nat)) (q : Accepts × Nat), Frame o q.1.1 → Frame o (l.foldl (acceptOne i) q).1.1 := by
    intro l
    induction l with
    | nil => exact fun _ h => h
    | cons r t ih => exact fun q h => ih _ (acceptOne_frame h)
  unfold acceptInput
  dsimp only
  split
  · exact Frame.rebuild (go _ _ hF) rfl rfl rfl rfl
  · exact go _ _ hF

theorem State.moveGptr_frame {o : State} {s : State} {reqs : List (Nat × List Request)} {done : List Request} (hF : Frame o s) :
    Frame o (State.moveGptr s reqs done) := by
  unfold State.moveGptr
  try dsimp only
  repeat' first
    | with_reducible assumption
    | (with_reducible refine Frame.foldl ?_ ?_; rotate_left; (intro _ _ _; try dsimp only))
    | split
    | fail_if_no_progress (with_reducible refine Frame.rebuild ?_ rfl rfl rfl rfl)

theorem State.matchOnce_frame {o s : State} {x : Xbar} {first : Bool} (hF : Frame o s) : Frame o (s.matchOnce x first).1 := by
  have g : Frame o ((s.requests x).foldl grantOutput (s, x, [])).1 :=
    Frame.foldl_fst hF fun _ _ h => grantOutput_frame h
  have a := Frame.foldl_fst (l := distinct (((s.requests x).foldl grantOutput (s, x, [])).2.2.map fun q => q.1.i))
    (p := (((s.requests x).foldl grantOutput (s, x, [])).1, ((s.requests x).foldl grantOutput (s, x, [])).2.1,
      ([] : List Request)))
    (f := acceptInput s.sw.aptr ((s.requests x).foldl grantOutput (s, x, [])).2.2 first) g fun _ _ h => acceptInput_frame h
  unfold State.matchOnce
  dsimp only
  split
  · exact State.moveGptr_frame a
  · exact a

theorem State.matchOnce_frame_pair {o s : State} {x : Xbar} {first : Bool} {a : State} {b : Xbar} (hF : Frame o s)
    (eF : s.matchOnce x first = (a, b)) : Frame o a := by
  have this : Frame o (s.matchOnce x first).1 := State.matchOnce_frame hF
  rw [eF] at this
  exact this

theorem State.gainPace_frame {o : State} {s : State} (hF : Frame o s) :
    Frame o (State.gainPace s) := by
  unfold State.gainPace
  try dsimp only
  repeat' first
    | with_reducible assumption
    | with_reducible apply State.setPace_frame
    | (with_reducible refine Frame.foldl ?_ ?_; rotate_left; (intro _ _ _; try dsimp only))

theorem execSuperCellTime_frame {o : State} {s : State} (hF : Frame o s) :
    FrameOut o (execSuperCellTime s) := by
  unfold execSuperCellTime
  try dsimp only
  repeat' first
    | with_reducible assumption
    | with_reducible apply State.lockedPass_frame
    | with_reducible apply State.matchOnce_frame
    | with_reducible apply State.gainPace_frame
    | with_reducible refine State.lockedPass_frame_pair ?_ (by with_reducible assumption)
    | with_reducible refine State.matchOnce_frame_pair ?_ (by with_reducible assumption)
    | with_reducible apply FrameOut.next
    | (with_reducible refine FrameOut.ite ?_ ?_ <;> intro _)
    | split
    | fail_if_no_progress (with_reducible refine Frame.rebuild ?_ rfl rfl rfl rfl)

theorem State.endFrame_frame {o : State} {s : State} {lp : Nat} {c : Current} (hF : Frame o s) :
    Frame o (State.endFrame s lp c) := by
  unfold State.endFrame
  try dsimp only
  repeat' first
    | with_reducible assumption
    | with_reducible apply State.setCurrent_frame
    | with_reducible apply State.sentWhole_frame
    | (with_reducible refine Frame.ite ?_ ?_ <;> intro _)
    | split
    | fail_if_no_progress (with_reducible refine Frame.rebuild ?_ rfl rfl rfl rfl)

theorem sendFlits_frame {o : State} {n lp : Nat} {s : State} (hF : Frame o s) : Frame o (sendFlits n lp s) := by
  induction n generalizing s with
  | zero => exact hF
  | succ _ ih =>
    unfold sendFlits
    try dsimp only
    repeat' first
      | with_reducible assumption
      | with_reducible apply ih
      | with_reducible assumption
      | with_reducible apply State.ctxFlit_frame
      | with_reducible apply State.countLp_frame
      | with_reducible apply State.useCredit_frame
      | with_reducible apply State.sendSeq_frame
      | with_reducible apply State.setCurrent_frame
      | with_reducible apply State.endFrame_frame
      | (with_reducible refine Frame.ite ?_ ?_ <;> intro _)
      | split
      | fail_if_no_progress (with_reducible refine Frame.rebuild ?_ rfl rfl rfl rfl)

theorem dropFencedStaged_frame {o : State} {n lp : Nat} {slot : Option Nat} {s : State} (hF : Frame o s) : Frame o (dropFencedStaged n lp slot s) := by
  induction n generalizing s with
  | zero => exact hF
  | succ _ ih =>
    unfold dropFencedStaged
    try dsimp only
    repeat' first
      | with_reducible assumption
      | with_reducible apply ih
      | with_reducible assumption
      | with_reducible apply State.countLp_frame
      | with_reducible apply State.addReserved_frame
      | with_reducible apply State.setFifo_frame
      | with_reducible apply State.setMcFifo_frame
      | with_reducible apply State.unqueue_frame
      | (with_reducible refine Frame.ite ?_ ?_ <;> intro _)
      | split
      | fail_if_no_progress (with_reducible refine Frame.rebuild ?_ rfl rfl rfl rfl)

theorem State.mergeReady_frame {o s : State} {lp source : Nat} {p : Current × State} (hF : Frame o s)
    (eF : s.mergeReady lp source = some p) : Frame o p.2 := by
  unfold State.mergeReady at eF
  dsimp only at eF
  repeat' split at eF
  all_goals first
    | (cases eF; done)
    | (cases eF
       repeat' first
         | with_reducible assumption
         | with_reducible apply State.setFifo_frame
         | with_reducible apply State.setMcFifo_frame
         | with_reducible apply State.addReserved_frame
         | fail_if_no_progress (with_reducible refine Frame.rebuild ?_ rfl rfl rfl rfl))

theorem State.mergeChoose_frame {o s : State} {lp : Nat} {p : Current × State} (hF : Frame o s)
    (eF : s.mergeChoose lp = some p) : Frame o p.2 := by
  unfold State.mergeChoose at eF
  dsimp only at eF
  have go : ∀ (l : List (Current × State)) (b : Option (Current × State)) (f : Option (Current × State) → (Current × State) → Option (Current × State)),
      (∀ b c q, f b c = some q → q = c ∨ b = some q) → (∀ q, b = some q → Frame o q.2) → (∀ c ∈ l, Frame o c.2) →
      ∀ q, l.foldl f b = some q → Frame o q.2 := by
    intro l
    induction l with
    | nil => exact fun b f _ h _ q e => h q e
    | cons c t ih =>
      intro b f hf hb hl q e
      refine ih _ f hf ?_ (fun c hc => hl c (List.mem_cons_of_mem _ hc)) q e
      intro q e
      rcases hf _ _ _ e with r | r
      · rw [r]; exact hl c List.mem_cons_self
      · exact hb q r
  refine go _ _ _ ?_ ?_ ?_ _ eF
  · intro b c q e
    split at e
    · cases e; exact Or.inl rfl
    · split at e
      · cases e; exact Or.inl rfl
      · exact Or.inr e
  · intro q e; cases e
  · intro c hc
    obtain ⟨src, -, e⟩ := List.mem_filterMap.mp hc
    exact State.mergeReady_frame hF e

theorem execEgressMergeSelect_frame {o : State} {lp : Lp} {s : State} (hF : Frame o s) :
    FrameOut o (execEgressMergeSelect lp s) := by
  unfold execEgressMergeSelect
  try dsimp only
  repeat' first
    | with_reducible assumption
    | with_reducible apply State.abandonSleep_frame
    | with_reducible apply State.setCurrent_frame
    | with_reducible apply State.sendStomp_frame
    | with_reducible apply sendFlits_frame
    | with_reducible apply dropFencedStaged_frame
    | (refine State.mergeChoose_frame (p := (_, _)) ?_ (by with_reducible assumption))
    | (with_reducible refine Frame.foldl ?_ ?_; rotate_left; (intro _ _ _; try dsimp only))
    | with_reducible apply FrameOut.next
    | (with_reducible refine FrameOut.ite ?_ ?_ <;> intro _)
    | split
    | fail_if_no_progress (with_reducible refine Frame.rebuild ?_ rfl rfl rfl rfl)

theorem execUnderrun_frame {o : State} {lp : Lp} {s : State} (hF : Frame o s) :
    FrameOut o (execUnderrun lp s) := by
  unfold execUnderrun
  try dsimp only
  repeat' first
    | with_reducible assumption
    | with_reducible apply State.lossFence_frame
    | with_reducible apply State.stompCurrent_frame
    | with_reducible apply FrameOut.next
    | (with_reducible refine FrameOut.ite ?_ ?_ <;> intro _)
    | split

theorem State.releaseFrame_frame {o : State} {s : State} {q : QFrame} (hF : Frame o s) :
    Frame o (State.releaseFrame s q) := by
  unfold State.releaseFrame
  try dsimp only
  repeat' first
    | with_reducible assumption
    | with_reducible apply State.countLp_frame
    | with_reducible apply State.countGlobal_frame
    | with_reducible apply State.addReserved_frame
    | with_reducible apply State.raiseFence_frame
    | with_reducible apply State.setMcFifo_frame
    | with_reducible apply State.unqueue_frame
    | (with_reducible refine Frame.foldl ?_ ?_; rotate_left; (intro _ _ _; try dsimp only))
    | (with_reducible refine Frame.ite ?_ ?_ <;> intro _)
    | split
    | fail_if_no_progress (with_reducible refine Frame.rebuild ?_ rfl rfl rfl rfl)

theorem execMulticastRelease_frame {o : State} {s : State} (hF : Frame o s) :
    FrameOut o (execMulticastRelease s) := by
  unfold execMulticastRelease
  try dsimp only
  repeat' first
    | with_reducible assumption
    | with_reducible apply State.cellErrors_frame
    | with_reducible apply State.faultFrame_frame
    | with_reducible apply State.releaseFrame_frame
    | with_reducible apply FrameOut.next
    | (with_reducible refine FrameOut.ite ?_ ?_ <;> intro _)
    | (with_reducible refine Frame.ite ?_ ?_ <;> intro _)
    | split

end Sys2Proof.Machine
end

