-- ==== Sys2Proof/Laws/FrameLinkOps.lean ====
section
/-! SUPPORT. Frame through Machine/LinkOps.lean: one lemma for each operation. -/

namespace Sys2Proof.Machine

theorem State.updStripe_frame {o : State} {s : State} {port : Nat} {sd : Side} {f : Stripe → Stripe} (hF : Frame o s) :
    Frame o (State.updStripe s port sd f) := by
  unfold State.updStripe
  try dsimp only
  repeat' first
    | with_reducible assumption
    | with_reducible apply State.updPort_frame

theorem State.updLp_frame {o : State} {s : State} {lp : Nat} {f : Stripe → Stripe} (hF : Frame o s) :
    Frame o (State.updLp s lp f) := by
  unfold State.updLp
  try dsimp only
  repeat' first
    | with_reducible assumption
    | with_reducible apply State.updStripe_frame

theorem State.sendCtrl_frame {o : State} {s : State} {lp subtype : Nat} {bytes : Bytes} (hF : Frame o s) :
    Frame o (State.sendCtrl s lp subtype bytes) := by
  unfold State.sendCtrl
  try dsimp only
  repeat' first
    | with_reducible assumption
    | with_reducible apply State.putFlit_frame
    | with_reducible apply State.countCtrl_frame

theorem State.sendAck_frame {o : State} {s : State} {lp : Nat} (hF : Frame o s) :
    Frame o (State.sendAck s lp) := by
  unfold State.sendAck
  try dsimp only
  repeat' first
    | with_reducible assumption
    | with_reducible apply State.emit_frame
    | with_reducible apply State.abandonSleep_frame
    | with_reducible apply State.sendCtrl_frame

theorem State.sendNak_frame {o : State} {s : State} {lp : Nat} (hF : Frame o s) :
    Frame o (State.sendNak s lp) := by
  unfold State.sendNak
  try dsimp only
  repeat' first
    | with_reducible assumption
    | with_reducible apply State.updPort_frame
    | with_reducible apply State.emit_frame
    | with_reducible apply State.abandonSleep_frame
    | with_reducible apply State.sendCtrl_frame
    | (with_reducible refine Frame.ite ?_ ?_ <;> intro _)

theorem State.sendLane_frame {o : State} {s : State} {port : Nat} {sd : Side} {code : Nat} {m : LaneMsg} (hF : Frame o s) :
    Frame o (State.sendLane s port sd code m) := by
  unfold State.sendLane
  try dsimp only
  repeat' first
    | with_reducible assumption
    | with_reducible apply State.updPort_frame
    | with_reducible apply State.emit_frame
    | with_reducible apply State.abandonSleep_frame
    | with_reducible apply State.sendCtrl_frame
    | (with_reducible refine Frame.ite ?_ ?_ <;> intro _)

theorem State.flushLaneOut_frame {o : State} {s : State} {port : Nat} (hF : Frame o s) :
    Frame o (State.flushLaneOut s port) := by
  unfold State.flushLaneOut
  try dsimp only
  repeat' first
    | with_reducible assumption
    | with_reducible apply State.updPort_frame
    | with_reducible apply State.sendLane_frame
    | (with_reducible refine Frame.foldl ?_ ?_; rotate_left; (intro _ _ _; try dsimp only))

theorem State.ackIn_frame {o : State} {s : State} {lp a : Nat} (hF : Frame o s) :
    Frame o (State.ackIn s lp a) := by
  unfold State.ackIn
  try dsimp only
  repeat' first
    | with_reducible assumption
    | with_reducible apply State.flushSleepOut_frame
    | with_reducible apply State.sendInit_frame
    | with_reducible apply State.updLp_frame
    | (with_reducible refine Frame.ite ?_ ?_ <;> intro _)

theorem State.resendFlit_frame {o : State} {s : State} {lp : Nat} {f : TxFlit} (hF : Frame o s) :
    Frame o (State.resendFlit s lp f) := by
  unfold State.resendFlit
  try dsimp only
  repeat' first
    | with_reducible assumption
    | with_reducible apply State.countLp_frame
    | with_reducible apply State.countSlots_frame
    | with_reducible apply State.putFlit_frame
    | (with_reducible refine Frame.ite ?_ ?_ <;> intro _)

theorem State.resend_frame {o : State} {s : State} {lp : Nat} (hF : Frame o s) :
    Frame o (State.resend s lp) := by
  unfold State.resend
  try dsimp only
  repeat' first
    | with_reducible assumption
    | with_reducible apply State.emit_frame
    | with_reducible apply State.putSync_frame
    | with_reducible apply State.updLp_frame
    | with_reducible apply State.sendCtrl_frame
    | with_reducible apply State.resendFlit_frame
    | with_reducible apply State.replay_frame
    | (with_reducible refine Frame.foldl ?_ ?_; rotate_left; (intro _ _ _; try dsimp only))

theorem State.replayNow_frame {o : State} {s : State} {lp : Nat} (hF : Frame o s) :
    Frame o (State.replayNow s lp) := by
  unfold State.replayNow
  try dsimp only
  repeat' first
    | with_reducible assumption
    | with_reducible apply State.updPort_frame
    | with_reducible apply State.stripeDown_frame
    | with_reducible apply State.updLp_frame
    | with_reducible apply State.resend_frame
    | (with_reducible refine Frame.ite ?_ ?_ <;> intro _)

theorem State.nakIn_frame {o : State} {s : State} {lp a : Nat} (hF : Frame o s) :
    Frame o (State.nakIn s lp a) := by
  unfold State.nakIn
  try dsimp only
  repeat' first
    | with_reducible assumption
    | with_reducible apply State.stripeDown_frame
    | with_reducible apply State.updLp_frame
    | with_reducible apply State.replayNow_frame
    | with_reducible apply State.replay_frame
    | (with_reducible refine Frame.ite ?_ ?_ <;> intro _)

theorem State.linkError_frame {o : State} {s : State} {lp : Nat} (hF : Frame o s) :
    Frame o (State.linkError s lp) := by
  unfold State.linkError
  try dsimp only
  repeat' first
    | with_reducible assumption
    | with_reducible apply State.updLp_frame
    | with_reducible apply State.sendNak_frame
    | (with_reducible refine Frame.ite ?_ ?_ <;> intro _)

theorem State.takeFaults_frame {o : State} {s : State} {lp : Nat} (hF : Frame o s) :
    Frame o (State.takeFaults s lp) := by
  unfold State.takeFaults
  try dsimp only
  repeat' first
    | with_reducible assumption
    | with_reducible apply State.updLp_frame
    | with_reducible apply State.linkError_frame
    | (with_reducible refine Frame.ite ?_ ?_ <;> intro _)

theorem State.takeSeq_frame {o : State} {s : State} {lp : Nat} (hF : Frame o s) :
    Frame o (State.takeSeq s lp).1 := by
  unfold State.takeSeq
  try dsimp only
  repeat' first
    | with_reducible assumption
    | with_reducible apply State.updLp_frame
    | split

theorem State.takeSeq_frame_pair {o : State} {s : State} {lp : Nat} (hF : Frame o s)
    {pa : State} {pb : Bool} (eF : (State.takeSeq s lp) = (pa, pb)) : Frame o pa := by
  have this : Frame o (State.takeSeq s lp).1 := State.takeSeq_frame (hF := hF)
  rw [eF] at this
  exact this

theorem State.spareDone_frame {o : State} {s : State} {port : Nat} {dir : Dir} {lane : Nat} (hF : Frame o s) :
    Frame o (State.spareDone s port dir lane) := by
  unfold State.spareDone
  try dsimp only
  repeat' first
    | with_reducible assumption
    | with_reducible apply State.finishWork_frame

theorem State.spareDenied_frame {o : State} {s : State} {port : Nat} {dir : Dir} {lane : Nat} (hF : Frame o s) :
    Frame o (State.spareDenied s port dir lane) := by
  unfold State.spareDenied
  try dsimp only
  repeat' first
    | with_reducible assumption
    | with_reducible apply State.finishWork_frame

theorem State.endRxJob_frame {o : State} {s : State} {port : Nat} (hF : Frame o s) :
    Frame o (State.endRxJob s port) := by
  unfold State.endRxJob
  try dsimp only
  repeat' first
    | with_reducible assumption
    | with_reducible apply State.updPort_frame
    | with_reducible apply State.linkChanged_frame
    | with_reducible apply State.setRxSp_frame
    | with_reducible apply State.updStripe_frame
    | with_reducible apply State.spareDone_frame
    | (with_reducible refine Frame.ite ?_ ?_ <;> intro _)
    | split

theorem State.replayStartIn_frame {o : State} {s : State} {lp start : Nat} (hF : Frame o s) :
    Frame o (State.replayStartIn s lp start) := by
  unfold State.replayStartIn
  try dsimp only
  repeat' first
    | with_reducible assumption
    | with_reducible apply State.stripeDown_frame
    | with_reducible apply State.updLp_frame
    | with_reducible apply State.endRxJob_frame
    | (with_reducible refine Frame.ite ?_ ?_ <;> intro _)
    | split

theorem State.startWake_frame {o : State} {s : State} {port : Nat} (hF : Frame o s) :
    Frame o (State.startWake s port) := by
  unfold State.startWake
  try dsimp only
  repeat' first
    | with_reducible assumption
    | with_reducible apply State.updPort_frame
    | with_reducible apply State.emit_frame
    | (with_reducible refine Frame.ite ?_ ?_ <;> intro _)

theorem State.autoWake_frame {o : State} {s : State} {port : Nat} (hF : Frame o s) :
    Frame o (State.autoWake s port) := by
  unfold State.autoWake
  try dsimp only
  repeat' first
    | with_reducible assumption
    | with_reducible apply State.updPort_frame
    | with_reducible apply State.startWake_frame
    | (with_reducible refine Frame.ite ?_ ?_ <;> intro _)

theorem State.sleepCheck_frame {o : State} {s : State} {port : Nat} (hF : Frame o s) :
    Frame o (State.sleepCheck s port) := by
  unfold State.sleepCheck
  try dsimp only
  repeat' first
    | with_reducible assumption
    | with_reducible apply State.finishWork_frame
    | (with_reducible refine Frame.foldl ?_ ?_; rotate_left; (intro _ _ _; try dsimp only))

theorem State.peerAsksSleep_frame {o : State} {s : State} {port : Nat} (hF : Frame o s) :
    Frame o (State.peerAsksSleep s port) := by
  unfold State.peerAsksSleep
  try dsimp only
  repeat' first
    | with_reducible assumption
    | with_reducible apply State.setPort_frame
    | with_reducible apply State.flushSleepOut_frame
    | (with_reducible refine Frame.ite ?_ ?_ <;> intro _)

theorem State.peerAsksWake_frame {o : State} {s : State} {port : Nat} (hF : Frame o s) :
    Frame o (State.peerAsksWake s port) := by
  unfold State.peerAsksWake
  try dsimp only
  repeat' first
    | with_reducible assumption
    | with_reducible apply State.abandonSleep_frame
    | with_reducible apply State.startWake_frame

theorem State.peerRefusesSleep_frame {o : State} {s : State} {port : Nat} (hF : Frame o s) :
    Frame o (State.peerRefusesSleep s port) := by
  unfold State.peerRefusesSleep
  try dsimp only
  repeat' first
    | with_reducible assumption
    | with_reducible apply State.updPort_frame
    | with_reducible apply State.finishAll_frame
    | (with_reducible refine Frame.ite ?_ ?_ <;> intro _)

theorem State.rxSleep_frame {o : State} {s : State} {port : Nat} (hF : Frame o s) :
    Frame o (State.rxSleep s port) := by
  unfold State.rxSleep
  try dsimp only
  repeat' first
    | with_reducible assumption
    | with_reducible apply State.updPort_frame
    | with_reducible apply State.emit_frame
    | with_reducible apply State.finishAll_frame
    | with_reducible apply State.sleepCheck_frame

theorem State.startDiscard_frame {o : State} {s : State} {port : Nat} {sd : Side} {clock : Bool} (hF : Frame o s) :
    Frame o (State.startDiscard s port sd clock) := by
  unfold State.startDiscard
  try dsimp only
  repeat' first
    | with_reducible assumption
    | with_reducible apply State.updStripe_frame
    | (with_reducible refine Frame.foldl ?_ ?_; rotate_left; (intro _ _ _; try dsimp only))
    | (with_reducible refine Frame.ite ?_ ?_ <;> intro _)

theorem State.openRequest_frame {o : State} {s : State} {port : Nat} {sd : Side} {spare : Option Nat} {half : Option (List Nat)} (hF : Frame o s) :
    Frame o (State.openRequest s port sd spare half) := by
  unfold State.openRequest
  try dsimp only
  repeat' first
    | with_reducible assumption
    | with_reducible apply State.updPort_frame
    | with_reducible apply State.emit_frame
    | with_reducible apply State.setRxSp_frame
    | with_reducible apply State.sendLane_frame
    | with_reducible apply State.startDiscard_frame
    | split

theorem State.resolveLoss_frame {o : State} {s : State} {port : Nat} {sd : Side} (hF : Frame o s) :
    Frame o (State.resolveLoss s port sd) := by
  unfold State.resolveLoss
  try dsimp only
  repeat' first
    | with_reducible assumption
    | with_reducible apply State.stripeDown_frame
    | with_reducible apply State.openRequest_frame
    | split

theorem State.dropRxHitless_frame {o : State} {s : State} {port : Nat} (hF : Frame o s) :
    Frame o (State.dropRxHitless s port) := by
  unfold State.dropRxHitless
  try dsimp only
  repeat' first
    | with_reducible assumption
    | with_reducible apply State.updPort_frame
    | with_reducible apply State.spareDenied_frame
    | (with_reducible refine Frame.ite ?_ ?_ <;> intro _)
    | split

theorem State.loseLane_frame {o : State} {s : State} {port lane : Nat} (hF : Frame o s) :
    Frame o (State.loseLane s port lane) := by
  unfold State.loseLane
  try dsimp only
  repeat' first
    | with_reducible assumption
    | with_reducible apply State.updPort_frame
    | with_reducible apply State.portDownAll_frame
    | with_reducible apply State.openRequest_frame
    | with_reducible apply State.resolveLoss_frame
    | with_reducible apply State.dropRxHitless_frame
    | (with_reducible refine Frame.ite ?_ ?_ <;> intro _)

theorem State.startRxSwap_frame {o : State} {s : State} {port lane : Nat} {restore : Bool} (hF : Frame o s) :
    Frame o (State.startRxSwap s port lane restore) := by
  unfold State.startRxSwap
  try dsimp only
  repeat' first
    | with_reducible assumption
    | with_reducible apply State.updPort_frame
    | with_reducible apply State.emit_frame
    | with_reducible apply State.setRxSp_frame
    | with_reducible apply State.sendLane_frame
    | with_reducible apply State.startDiscard_frame
    | (with_reducible refine Frame.ite ?_ ?_ <;> intro _)

theorem State.startTxSwap_frame {o : State} {s : State} {port lane : Nat} {restore : Bool} (hF : Frame o s) :
    Frame o (State.startTxSwap s port lane restore) := by
  unfold State.startTxSwap
  try dsimp only
  repeat' first
    | with_reducible assumption
    | with_reducible apply State.updPort_frame
    | with_reducible apply State.sendLane_frame

theorem State.goSpare_frame {o : State} {s : State} {n : Nat} {d : Dir} {lane : Nat} {restore : Bool} (hF : Frame o s) :
    Frame o (State.goSpare s n d lane restore) := by
  unfold State.goSpare
  try dsimp only
  repeat' first
    | with_reducible assumption
    | with_reducible apply State.startRxSwap_frame
    | with_reducible apply State.startTxSwap_frame
    | split

theorem State.serveSpare_frame {o : State} {s : State} {n : Nat} (hF : Frame o s) :
    Frame o (State.serveSpare s n) := by
  unfold State.serveSpare
  try dsimp only
  repeat' first
    | with_reducible assumption
    | with_reducible apply State.spareDenied_frame
    | with_reducible apply State.goSpare_frame
    | (with_reducible refine Frame.foldl ?_ ?_; rotate_left; (intro _ _ _; try dsimp only))
    | (with_reducible refine Frame.ite ?_ ?_ <;> intro _)
    | split

end Sys2Proof.Machine
end

