-- ==== Sys2Proof/Laws/FrameMemOps.lean ====
section
/-! SUPPORT. Frame through Machine/MemOps.lean: one lemma for each operation. -/

namespace Sys2Proof.Machine

theorem State.updMem_frame {o s : State} {f : FabMem → FabMem} (hF : Frame o s) (e : (f s.mem).cells = s.mem.cells) :
    Frame o (s.updMem f) :=
  Frame.rebuild hF rfl e rfl rfl

theorem State.updMem_frame_cells {o s : State} {f : FabMem → FabMem} (hF : Frame o s)
    (g : Memory.wf s.mem.cells = true → Memory.wf (f s.mem).cells = true) : Frame o (s.updMem f) :=
  hF.trans ⟨rfl, List.prefix_rfl, Nat.le_refl _, g, id, id⟩

theorem State.putMem_frame {o s : State} {off : Nat} {b : Bytes} (hF : Frame o s) : Frame o (s.putMem off b) :=
  State.updMem_frame_cells hF fun h => putCells_wf off b h

theorem State.clearLost_frame {o : State} {s : State} {g : Nat} (hF : Frame o s) :
    Frame o (State.clearLost s g) := by
  unfold State.clearLost
  try dsimp only
  repeat' first
    | with_reducible assumption
    | with_reducible apply State.updMem_frame
    | split
    | fail_if_no_progress (with_reducible refine Frame.rebuild ?_ rfl rfl rfl rfl)
    | exact rfl

theorem State.loseSlot_frame {o : State} {s : State} {slot : Nat} (hF : Frame o s) :
    Frame o (State.loseSlot s slot) := by
  unfold State.loseSlot
  try dsimp only
  repeat' first
    | with_reducible assumption
    | with_reducible apply State.updMem_frame
    | split
    | fail_if_no_progress (with_reducible refine Frame.rebuild ?_ rfl rfl rfl rfl)
    | exact rfl

theorem State.logEcc_frame {o : State} {s : State} {stack : Nat} {unc : Bool} {sector : Nat} (hF : Frame o s) :
    Frame o (State.logEcc s stack unc sector) := by
  unfold State.logEcc
  try dsimp only
  repeat' first
    | with_reducible assumption
    | with_reducible apply State.updMem_frame
    | with_reducible apply State.uncorrected_frame
    | split
    | fail_if_no_progress (with_reducible refine Frame.rebuild ?_ rfl rfl rfl rfl)
    | exact rfl

theorem State.addErrors_frame {o : State} {s : State} {stack ce ue : Nat} (hF : Frame o s) :
    Frame o (State.addErrors s stack ce ue) := by
  unfold State.addErrors
  try dsimp only
  repeat' first
    | with_reducible assumption
    | with_reducible apply State.setStack_frame

theorem State.poison_frame {o : State} {s : State} {sector : Nat} (hF : Frame o s) :
    Frame o (State.poison s sector).1 := by
  unfold State.poison
  try dsimp only
  repeat' first
    | with_reducible assumption
    | with_reducible apply State.updMem_frame
    | split
    | fail_if_no_progress (with_reducible refine Frame.rebuild ?_ rfl rfl rfl rfl)
    | exact rfl

theorem State.poison_frame_pair {o : State} {s : State} {sector : Nat} (hF : Frame o s)
    {pa : State} {pb : Bool} (eF : (State.poison s sector) = (pa, pb)) : Frame o pa := by
  have this : Frame o (State.poison s sector).1 := State.poison_frame (hF := hF)
  rw [eF] at this
  exact this

theorem State.uncorrected_frame {o : State} {s : State} {sector : Nat} (hF : Frame o s) :
    Frame o (State.uncorrected s sector) := by
  unfold State.uncorrected
  try dsimp only
  repeat' first
    | with_reducible assumption
    | with_reducible apply State.updMem_frame
    | with_reducible apply State.logEcc_frame
    | with_reducible apply State.addErrors_frame
    | with_reducible apply State.poison_frame
    | with_reducible refine State.poison_frame_pair ?_ (by with_reducible assumption)
    | split
    | fail_if_no_progress (with_reducible refine Frame.rebuild ?_ rfl rfl rfl rfl)
    | exact rfl

theorem State.correctedErr_frame {o : State} {s : State} {sector : Nat} (hF : Frame o s) :
    Frame o (State.correctedErr s sector) := by
  unfold State.correctedErr
  try dsimp only
  repeat' first
    | with_reducible assumption
    | with_reducible apply State.updMem_frame
    | with_reducible apply State.logEcc_frame
    | with_reducible apply State.addErrors_frame
    | split
    | fail_if_no_progress (with_reducible refine Frame.rebuild ?_ rfl rfl rfl rfl)
    | exact rfl

theorem State.readSectors_frame {o : State} {s : State} {l : List Nat} {lost : Bool} {ecc : EccReport} (hF : Frame o s) :
    Frame o (State.readSectors s l lost ecc).1 := by
  unfold State.readSectors
  try dsimp only
  repeat' first
    | with_reducible assumption
    | with_reducible apply State.poison_frame
    | with_reducible apply State.uncorrected_frame
    | with_reducible apply State.correctedErr_frame
    | with_reducible refine State.poison_frame_pair ?_ (by with_reducible assumption)
    | (with_reducible refine Frame.foldl ?_ ?_; rotate_left; (intro _ _ _; try dsimp only))

theorem State.readSectors_frame_pair {o : State} {s : State} {l : List Nat} {lost : Bool} {ecc : EccReport} (hF : Frame o s)
    {pa : State} {pb : Bool} (eF : (State.readSectors s l lost ecc) = (pa, pb)) : Frame o pa := by
  have this : Frame o (State.readSectors s l lost ecc).1 := State.readSectors_frame (hF := hF)
  rw [eF] at this
  exact this

theorem State.countPlaces_frame {o : State} {s : State} {heading : Nat} {l : List Nat} (hF : Frame o s) :
    Frame o (State.countPlaces s heading l) := by
  unfold State.countPlaces
  try dsimp only
  repeat' first
    | with_reducible assumption
    | with_reducible apply State.countGlobal_frame
    | (with_reducible refine Frame.foldl ?_ ?_; rotate_left; (intro _ _ _; try dsimp only))

theorem State.countSectors_frame {o : State} {s : State} {code : Nat} {l rmw : List Nat} (hF : Frame o s) :
    Frame o (State.countSectors s code l rmw) := by
  unfold State.countSectors
  try dsimp only
  repeat' first
    | with_reducible assumption
    | with_reducible apply State.countGlobal_frame
    | with_reducible apply State.countPlaces_frame
    | (with_reducible refine Frame.foldl ?_ ?_; rotate_left; (intro _ _ _; try dsimp only))

theorem State.writeRange_frame {o : State} {s : State} {off : Nat} {b : Bytes} {rmw : List Nat} (hF : Frame o s) :
    Frame o (State.writeRange s off b rmw) := by
  unfold State.writeRange
  try dsimp only
  repeat' first
    | with_reducible assumption
    | with_reducible apply State.updMem_frame
    | with_reducible apply State.putMem_frame
    | with_reducible apply State.poison_frame
    | with_reducible apply State.countPlaces_frame
    | with_reducible apply State.countSectors_frame
    | with_reducible refine State.poison_frame_pair ?_ (by with_reducible assumption)
    | split
    | fail_if_no_progress (with_reducible refine Frame.rebuild ?_ rfl rfl rfl rfl)
    | exact rfl

theorem State.sendMem_frame {o : State} {s : State} {lp : Nat} {r : MemReq} {st flags off frag detail : Nat} {data : Bytes} (hF : Frame o s) :
    Frame o (State.sendMem s lp r st flags off frag detail data) := by
  unfold State.sendMem
  try dsimp only
  repeat' first
    | with_reducible assumption
    | with_reducible apply State.countGlobal_frame
    | with_reducible apply State.sendAgent_frame
    | (with_reducible refine Frame.ite ?_ ?_ <;> intro _)

theorem State.answerMem_frame {o : State} {s : State} {r : MemReq} {st flags : Nat} {data : Bytes} (hF : Frame o s) :
    Frame o (State.answerMem s r st flags data) := by
  unfold State.answerMem
  try dsimp only
  repeat' first
    | with_reducible assumption
    | with_reducible apply State.sendMem_frame

theorem State.sendFragment_frame {o : State} {s : State} {x : MemRead} {ecc : EccReport} (hF : Frame o s) :
    Frame o (State.sendFragment s x ecc).1 := by
  unfold State.sendFragment
  try dsimp only
  repeat' first
    | with_reducible assumption
    | with_reducible apply State.countGlobal_frame
    | with_reducible apply State.readSectors_frame
    | with_reducible apply State.countSectors_frame
    | with_reducible apply State.sendMem_frame
    | with_reducible refine State.readSectors_frame_pair ?_ (by with_reducible assumption)
    | (with_reducible refine Frame.foldl ?_ ?_; rotate_left; (intro _ _ _; try dsimp only))
    | (with_reducible refine Frame.ite ?_ ?_ <;> intro _)
    | split

theorem State.sendFragment_frame_pair {o : State} {s : State} {x : MemRead} {ecc : EccReport} (hF : Frame o s)
    {pa : State} {pb : MemRead} (eF : (State.sendFragment s x ecc) = (pa, pb)) : Frame o pa := by
  have this : Frame o (State.sendFragment s x ecc).1 := State.sendFragment_frame (hF := hF)
  rw [eF] at this
  exact this

theorem State.writeMem_frame {o : State} {s : State} {off : Nat} {b : Bytes} {ecc : EccReport} (hF : Frame o s) :
    Frame o (State.writeMem s off b ecc).1 := by
  unfold State.writeMem
  try dsimp only
  repeat' first
    | with_reducible assumption
    | with_reducible apply State.clearLost_frame
    | with_reducible apply State.readSectors_frame
    | with_reducible apply State.countPlaces_frame
    | with_reducible apply State.writeRange_frame
    | with_reducible refine State.readSectors_frame_pair ?_ (by with_reducible assumption)
    | (with_reducible refine Frame.ite ?_ ?_ <;> intro _)
    | split

theorem State.writeMem_frame_pair {o : State} {s : State} {off : Nat} {b : Bytes} {ecc : EccReport} (hF : Frame o s)
    {pa : State} {pb : Bool} (eF : (State.writeMem s off b ecc) = (pa, pb)) : Frame o pa := by
  have this : Frame o (State.writeMem s off b ecc).1 := State.writeMem_frame (hF := hF)
  rw [eF] at this
  exact this

theorem State.doAtomic_frame {o : State} {s : State} {r : MemReq} {ecc : EccReport} (hF : Frame o s) :
    Frame o (State.doAtomic s r ecc) := by
  unfold State.doAtomic
  try dsimp only
  repeat' first
    | with_reducible assumption
    | with_reducible apply State.countGlobal_frame
    | with_reducible apply State.readSectors_frame
    | with_reducible apply State.countPlaces_frame
    | with_reducible apply State.countSectors_frame
    | with_reducible apply State.writeRange_frame
    | with_reducible apply State.answerMem_frame
    | with_reducible refine State.readSectors_frame_pair ?_ (by with_reducible assumption)
    | (with_reducible refine Frame.ite ?_ ?_ <;> intro _)

theorem State.enterMem_frame {o : State} {s : State} {r : MemReq} {ecc : EccReport} (hF : Frame o s) :
    FrameOpt o (State.enterMem s r ecc) := by
  unfold State.enterMem
  try dsimp only
  repeat' first
    | with_reducible assumption
    | with_reducible apply State.updMem_frame
    | with_reducible apply State.answerMem_frame
    | with_reducible apply State.sendFragment_frame
    | with_reducible apply State.writeMem_frame
    | with_reducible apply State.doAtomic_frame
    | with_reducible refine State.sendFragment_frame_pair ?_ (by with_reducible assumption)
    | with_reducible refine State.writeMem_frame_pair ?_ (by with_reducible assumption)
    | with_reducible apply FrameOpt.some
    | with_reducible exact FrameOpt.none
    | (with_reducible refine FrameOpt.ite ?_ ?_ <;> intro _)
    | (with_reducible refine Frame.ite ?_ ?_ <;> intro _)
    | split
    | fail_if_no_progress (with_reducible refine Frame.rebuild ?_ rfl rfl rfl rfl)
    | exact rfl

theorem State.setRole_frame {o : State} {s : State} {n : Nat} {r : StackRole} (hF : Frame o s) :
    Frame o (State.setRole s n r) := by
  unfold State.setRole
  try dsimp only
  repeat' first
    | with_reducible assumption
    | with_reducible apply State.setStack_frame

theorem State.changeStack_frame {o : State} {s : State} {n : Nat} {r : StackRole} (hF : Frame o s) :
    Frame o (State.changeStack s n r) := by
  unfold State.changeStack
  try dsimp only
  repeat' first
    | with_reducible assumption
    | with_reducible apply State.roleChanged_frame
    | with_reducible apply State.setRole_frame

theorem State.startMigration_frame {o : State} {s : State} {src spare : Nat} {auto : Bool} (hF : Frame o s) :
    Frame o (State.startMigration s src spare auto) := by
  unfold State.startMigration
  try dsimp only
  repeat' first
    | with_reducible assumption
    | with_reducible apply State.updMem_frame
    | with_reducible apply State.changeStack_frame
    | split
    | fail_if_no_progress (with_reducible refine Frame.rebuild ?_ rfl rfl rfl rfl)
    | exact rfl

theorem State.retire_frame {o : State} {s : State} {n : Nat} (hF : Frame o s) :
    Frame o (State.retire s n) := by
  unfold State.retire
  try dsimp only
  repeat' first
    | with_reducible assumption
    | with_reducible apply State.updBist_frame
    | with_reducible apply State.changeStack_frame

theorem State.finishMigration_frame {o : State} {s : State} (hF : Frame o s) :
    Frame o (State.finishMigration s) := by
  unfold State.finishMigration
  try dsimp only
  repeat' first
    | with_reducible assumption
    | with_reducible apply State.updMem_frame
    | with_reducible apply State.loseSlot_frame
    | with_reducible apply State.changeStack_frame
    | with_reducible apply State.retire_frame
    | split
    | fail_if_no_progress (with_reducible refine Frame.rebuild ?_ rfl rfl rfl rfl)
    | exact rfl

theorem State.doMemWork_frame {o : State} {s : State} {w : Work} {ecc : EccReport} (hF : Frame o s) :
    Frame o (State.doMemWork s w ecc).1 := by
  unfold State.doMemWork
  try dsimp only
  repeat' first
    | with_reducible assumption
    | with_reducible apply State.clearLost_frame
    | with_reducible apply State.readSectors_frame
    | with_reducible apply State.countPlaces_frame
    | with_reducible apply State.countSectors_frame
    | with_reducible apply State.writeRange_frame
    | with_reducible apply State.writeMem_frame
    | with_reducible refine State.readSectors_frame_pair ?_ (by with_reducible assumption)
    | with_reducible refine State.writeMem_frame_pair ?_ (by with_reducible assumption)
    | (with_reducible refine Frame.foldl ?_ ?_; rotate_left; (intro _ _ _; try dsimp only))
    | split

theorem State.doMemWork_frame_pair {o : State} {s : State} {w : Work} {ecc : EccReport} (hF : Frame o s)
    {pa : State} {pb : BitVec 8 × Bytes} (eF : (State.doMemWork s w ecc) = (pa, pb)) : Frame o pa := by
  have this : Frame o (State.doMemWork s w ecc).1 := State.doMemWork_frame (hF := hF)
  rw [eF] at this
  exact this

end Sys2Proof.Machine
end

