-- ==== Sys2Proof/Laws/FrameControlWords.lean ====
section
/-! SUPPORT. Frame through Machine/ControlWords.lean: one lemma for each operation. -/

namespace Sys2Proof.Machine

theorem State.drainFence_frame {o : State} {s : State} {n : Nat} (hF : Frame o s) :
    Frame o (State.drainFence s n) := by
  unfold State.drainFence
  try dsimp only
  repeat' first
    | with_reducible assumption
    | with_reducible apply State.setFence_frame

theorem State.writeWord_frame {o : State} {s : State} {addr : Nat} {v : Word} (hF : Frame o s) :
    Frame o (State.writeWord s addr v) := by
  unfold State.writeWord
  try dsimp only
  repeat' first
    | with_reducible assumption
    | with_reducible apply State.updPort_frame
    | with_reducible apply State.setRecov_frame
    | with_reducible apply State.attend_frame
    | with_reducible apply State.updPower_frame
    | with_reducible apply State.setPresence_frame
    | with_reducible apply State.updBist_frame
    | with_reducible apply State.updBeat_frame
    | with_reducible apply State.updMem_frame
    | with_reducible apply State.drainFence_frame
    | (with_reducible refine Frame.ite ?_ ?_ <;> intro _)
    | split
    | fail_if_no_progress (with_reducible refine Frame.rebuild ?_ rfl rfl rfl rfl)
    | exact rfl

theorem State.clearRc_frame {o : State} {s : State} {addr : Nat} (hF : Frame o s) :
    Frame o (State.clearRc s addr) := by
  unfold State.clearRc
  try dsimp only
  repeat' first
    | with_reducible assumption
    | with_reducible apply State.updPort_frame
    | with_reducible apply State.setMmb_frame
    | with_reducible apply State.updPower_frame
    | with_reducible apply State.updMem_frame
    | (with_reducible refine Frame.ite ?_ ?_ <;> intro _)
    | split
    | fail_if_no_progress (with_reducible refine Frame.rebuild ?_ rfl rfl rfl rfl)
    | exact rfl

end Sys2Proof.Machine
end

