-- ==== Sys2Proof/Laws/FrameParams.lean ====
section
/-! SUPPORT. Frame through Machine/Params.lean: one lemma for each operation. -/

namespace Sys2Proof.Machine

theorem State.opcode_frame {o : State} {s : State} {i : Instr} {c : Cmd} {op : BitVec 16} {body : State} (hF : Frame o s) (hF2 : Frame o body) :
    FrameOut o (State.opcode s i c op body) := by
  unfold State.opcode
  try dsimp only
  repeat' first
    | with_reducible assumption
    | with_reducible apply State.deny_frame
    | with_reducible apply FrameOut.next
    | (with_reducible refine FrameOut.ite ?_ ?_ <;> intro _)
    | split

theorem State.gate_frame {o : State} {s : State} {c : Cmd} {op : BitVec 16} {why : Option (BitVec 8 × Nat)} {body : State} (hF : Frame o s) (hF2 : Frame o body) :
    Frame o (State.gate s c op why body) := by
  unfold State.gate
  try dsimp only
  repeat' first
    | with_reducible assumption
    | with_reducible apply State.deny_frame
    | split

end Sys2Proof.Machine
end

