-- ==== Sys2Proof/Laws/FrameReplay.lean ====
section
/-! SUPPORT. Frame through Machine/Replay.lean: one lemma for each operation. -/

namespace Sys2Proof.Machine

theorem execFlitCrcError_frame {o : State} {lp : Lp} {s : State} (hF : Frame o s) :
    FrameOut o (execFlitCrcError lp s) := by
  unfold execFlitCrcError
  try dsimp only
  repeat' first
    | with_reducible assumption
    | with_reducible apply State.countLp_frame
    | with_reducible apply State.linkError_frame
    | with_reducible apply FrameOut.next
    | (with_reducible refine FrameOut.ite ?_ ?_ <;> intro _)

theorem execNakRepeat_frame {o : State} {lp : Lp} {s : State} (hF : Frame o s) :
    FrameOut o (execNakRepeat lp s) := by
  unfold execNakRepeat
  try dsimp only
  repeat' first
    | with_reducible assumption
    | with_reducible apply State.sendNak_frame
    | with_reducible apply FrameOut.next
    | (with_reducible refine FrameOut.ite ?_ ?_ <;> intro _)

theorem execNakReceived_frame {o : State} {lp : Lp} {ackSeq : BitVec 12} {next : BitVec 12} {s : State} (hF : Frame o s) :
    FrameOut o (execNakReceived lp ackSeq next s) := by
  unfold execNakReceived
  try dsimp only
  repeat' first
    | with_reducible assumption
    | with_reducible apply State.ackIn_frame
    | with_reducible apply State.nakIn_frame
    | with_reducible apply FrameOut.next
    | (with_reducible refine FrameOut.ite ?_ ?_ <;> intro _)

theorem execReplayStartReceived_frame {o : State} {lp : Lp} {ackSeq : BitVec 12} {start : BitVec 12} {s : State} (hF : Frame o s) :
    FrameOut o (execReplayStartReceived lp ackSeq start s) := by
  unfold execReplayStartReceived
  try dsimp only
  repeat' first
    | with_reducible assumption
    | with_reducible apply State.ackIn_frame
    | with_reducible apply State.replayStartIn_frame
    | with_reducible apply State.serveSpare_frame
    | with_reducible apply FrameOut.next
    | (with_reducible refine FrameOut.ite ?_ ?_ <;> intro _)

theorem execAckReceived_frame {o : State} {lp : Lp} {ackSeq : BitVec 12} {s : State} (hF : Frame o s) :
    FrameOut o (execAckReceived lp ackSeq s) := by
  unfold execAckReceived
  try dsimp only
  repeat' first
    | with_reducible assumption
    | with_reducible apply State.ackIn_frame
    | with_reducible apply FrameOut.next
    | (with_reducible refine FrameOut.ite ?_ ?_ <;> intro _)

theorem execAckTimeout_frame {o : State} {lp : Lp} {s : State} (hF : Frame o s) :
    FrameOut o (execAckTimeout lp s) := by
  unfold execAckTimeout
  try dsimp only
  repeat' first
    | with_reducible assumption
    | with_reducible apply State.replayNow_frame
    | with_reducible apply FrameOut.next
    | (with_reducible refine FrameOut.ite ?_ ?_ <;> intro _)

theorem execAckDue_frame {o : State} {lp : Lp} {s : State} (hF : Frame o s) :
    FrameOut o (execAckDue lp s) := by
  unfold execAckDue
  try dsimp only
  repeat' first
    | with_reducible assumption
    | with_reducible apply State.sendAck_frame
    | with_reducible apply FrameOut.next
    | (with_reducible refine FrameOut.ite ?_ ?_ <;> intro _)

theorem execCreditFlitReceived_frame {o : State} {lp : Lp} {init : Bool} {counts : List (BitVec 16)} {s : State} (hF : Frame o s) :
    FrameOut o (execCreditFlitReceived lp init counts s) := by
  unfold execCreditFlitReceived
  try dsimp only
  repeat' first
    | with_reducible assumption
    | with_reducible apply State.creditsIn_frame
    | with_reducible apply State.takeSeq_frame
    | with_reducible refine State.takeSeq_frame_pair ?_ (by with_reducible assumption)
    | with_reducible apply FrameOut.next
    | (with_reducible refine FrameOut.ite ?_ ?_ <;> intro _)
    | (with_reducible refine Frame.ite ?_ ?_ <;> intro _)

end Sys2Proof.Machine
end

