-- ==== Sys2Proof/Laws/FrameSleep.lean ====
section
/-! SUPPORT. Frame through Machine/Sleep.lean: one lemma for each operation. -/

namespace Sys2Proof.Machine

theorem State.sleepIn_frame {o : State} {s : State} {port action : Nat} (hF : Frame o s) :
    Frame o (State.sleepIn s port action) := by
  unfold State.sleepIn
  try dsimp only
  repeat' first
    | with_reducible assumption
    | with_reducible apply State.peerAsksSleep_frame
    | with_reducible apply State.peerAsksWake_frame
    | with_reducible apply State.peerRefusesSleep_frame
    | split

theorem State.sleepFlitIn_frame {o : State} {s : State} {port action : Nat} (hF : Frame o s) :
    Frame o (State.sleepFlitIn s port action) := by
  unfold State.sleepFlitIn
  try dsimp only
  repeat' first
    | with_reducible assumption
    | with_reducible apply State.takeSeq_frame
    | with_reducible apply State.sleepIn_frame
    | with_reducible refine State.takeSeq_frame_pair ?_ (by with_reducible assumption)
    | (with_reducible refine Frame.ite ?_ ?_ <;> intro _)

theorem execSleepFlitWake_frame {o : State} {port : Port} {s : State} (hF : Frame o s) :
    FrameOut o (execSleepFlitWake port s) := by
  unfold execSleepFlitWake
  try dsimp only
  repeat' first
    | with_reducible assumption
    | with_reducible apply State.sleepFlitIn_frame
    | with_reducible apply FrameOut.next

theorem execSleepFlitSleep_frame {o : State} {port : Port} {s : State} (hF : Frame o s) :
    FrameOut o (execSleepFlitSleep port s) := by
  unfold execSleepFlitSleep
  try dsimp only
  repeat' first
    | with_reducible assumption
    | with_reducible apply State.sleepFlitIn_frame
    | with_reducible apply FrameOut.next

theorem execSleepFlitRefuse_frame {o : State} {port : Port} {s : State} (hF : Frame o s) :
    FrameOut o (execSleepFlitRefuse port s) := by
  unfold execSleepFlitRefuse
  try dsimp only
  repeat' first
    | with_reducible assumption
    | with_reducible apply State.sleepFlitIn_frame
    | with_reducible apply FrameOut.next

theorem execTxSleepEnter_frame {o : State} {port : Port} {s : State} (hF : Frame o s) :
    FrameOut o (execTxSleepEnter port s) := by
  unfold execTxSleepEnter
  try dsimp only
  repeat' first
    | with_reducible assumption
    | with_reducible apply State.updPort_frame
    | with_reducible apply State.emit_frame
    | with_reducible apply State.abandonSleep_frame
    | with_reducible apply State.sendSleepLanes_frame
    | with_reducible apply State.sleepCheck_frame
    | with_reducible apply State.replay_frame
    | with_reducible apply FrameOut.next
    | (with_reducible refine FrameOut.ite ?_ ?_ <;> intro _)

theorem execTxAutoWake_frame {o : State} {port : Port} {s : State} (hF : Frame o s) :
    FrameOut o (execTxAutoWake port s) := by
  unfold execTxAutoWake
  try dsimp only
  repeat' first
    | with_reducible assumption
    | with_reducible apply State.stopTest_frame
    | with_reducible apply State.autoWake_frame
    | with_reducible apply FrameOut.next
    | (with_reducible refine FrameOut.ite ?_ ?_ <;> intro _)

theorem execTxWakeSettled_frame {o : State} {port : Port} {s : State} (hF : Frame o s) :
    FrameOut o (execTxWakeSettled port s) := by
  unfold execTxWakeSettled
  try dsimp only
  repeat' first
    | with_reducible assumption
    | with_reducible apply State.setPort_frame
    | with_reducible apply State.emit_frame
    | with_reducible apply FrameOut.next
    | (with_reducible refine FrameOut.ite ?_ ?_ <;> intro _)

theorem execWakePreambleEnd_frame {o : State} {port : Port} {s : State} (hF : Frame o s) :
    FrameOut o (execWakePreambleEnd port s) := by
  unfold execWakePreambleEnd
  try dsimp only
  repeat' first
    | with_reducible assumption
    | with_reducible apply State.setPort_frame
    | with_reducible apply State.putSync_frame
    | with_reducible apply State.flushSleepOut_frame
    | with_reducible apply State.sendInit_frame
    | with_reducible apply State.flushLaneOut_frame
    | with_reducible apply State.sleepCheck_frame
    | (with_reducible refine Frame.foldl ?_ ?_; rotate_left; (intro _ _ _; try dsimp only))
    | with_reducible apply FrameOut.next
    | (with_reducible refine FrameOut.ite ?_ ?_ <;> intro _)

theorem execRxWakeBlockAlignment_frame {o : State} {port : Port} {s : State} (hF : Frame o s) :
    FrameOut o (execRxWakeBlockAlignment port s) := by
  unfold execRxWakeBlockAlignment
  try dsimp only
  repeat' first
    | with_reducible assumption
    | with_reducible apply State.setPort_frame
    | with_reducible apply FrameOut.next
    | (with_reducible refine FrameOut.ite ?_ ?_ <;> intro _)

theorem State.wakeFails_frame {o : State} {s : State} {port : Nat} (hF : Frame o s) :
    Frame o (State.wakeFails s port) := by
  unfold State.wakeFails
  try dsimp only
  repeat' first
    | with_reducible assumption
    | with_reducible apply State.updPort_frame
    | with_reducible apply State.portDownAll_frame

theorem execRxWakeAlignTimeout_frame {o : State} {port : Port} {s : State} (hF : Frame o s) :
    FrameOut o (execRxWakeAlignTimeout port s) := by
  unfold execRxWakeAlignTimeout
  try dsimp only
  repeat' first
    | with_reducible assumption
    | with_reducible apply State.wakeFails_frame
    | with_reducible apply FrameOut.next
    | (with_reducible refine FrameOut.ite ?_ ?_ <;> intro _)

theorem execRxWakeSyncTimeout_frame {o : State} {port : Port} {s : State} (hF : Frame o s) :
    FrameOut o (execRxWakeSyncTimeout port s) := by
  unfold execRxWakeSyncTimeout
  try dsimp only
  repeat' first
    | with_reducible assumption
    | with_reducible apply State.wakeFails_frame
    | with_reducible apply FrameOut.next
    | (with_reducible refine FrameOut.ite ?_ ?_ <;> intro _)

theorem execSleepReqTimeout_frame {o : State} {port : Port} {s : State} (hF : Frame o s) :
    FrameOut o (execSleepReqTimeout port s) := by
  unfold execSleepReqTimeout
  try dsimp only
  repeat' first
    | with_reducible assumption
    | with_reducible apply State.updPort_frame
    | with_reducible apply State.finishAll_frame
    | with_reducible apply FrameOut.next
    | (with_reducible refine FrameOut.ite ?_ ?_ <;> intro _)

end Sys2Proof.Machine
end

