-- ==== Sys2Proof/Laws/FrameLaneSpares.lean ====
section
/-! SUPPORT. Frame through Machine/LaneSpares.lean: one lemma for each operation. -/

namespace Sys2Proof.Machine

theorem State.applyTxMap_frame {o : State} {s : State} {port : Nat} {sd : Side} {lane : Option Nat} {restore : Bool} {width first : Nat} (hF : Frame o s) :
    Frame o (State.applyTxMap s port sd lane restore width first) := by
  unfold State.applyTxMap
  try dsimp only
  repeat' first
    | with_reducible assumption
    | with_reducible apply State.updPort_frame
    | with_reducible apply State.linkChanged_frame
    | with_reducible apply State.setTxSp_frame
    | with_reducible apply State.updStripe_frame
    | (with_reducible refine Frame.ite ?_ ?_ <;> intro _)
    | split

theorem State.reqSpareIn_frame {o : State} {s : State} {port : Nat} {m : LaneMsg} (hF : Frame o s) :
    Frame o (State.reqSpareIn s port m) := by
  unfold State.reqSpareIn
  try dsimp only
  repeat' first
    | with_reducible assumption
    | with_reducible apply State.updPort_frame
    | with_reducible apply State.emit_frame
    | with_reducible apply State.startWake_frame
    | (with_reducible refine Frame.ite ?_ ?_ <;> intro _)

theorem State.readyIn_frame {o : State} {s : State} {port : Nat} {m : LaneMsg} (hF : Frame o s) :
    Frame o (State.readyIn s port m) := by
  unfold State.readyIn
  try dsimp only
  repeat' first
    | with_reducible assumption
    | with_reducible apply State.updPort_frame
    | with_reducible apply State.replayNow_frame
    | with_reducible apply State.nakIn_frame
    | with_reducible apply State.spareDone_frame
    | with_reducible apply State.applyTxMap_frame
    | (with_reducible refine Frame.foldl ?_ ?_; rotate_left; (intro _ _ _; try dsimp only))
    | (with_reducible refine Frame.ite ?_ ?_ <;> intro _)
    | split

theorem State.reqWidthIn_frame {o : State} {s : State} {port : Nat} {m : LaneMsg} (hF : Frame o s) :
    Frame o (State.reqWidthIn s port m) := by
  unfold State.reqWidthIn
  try dsimp only
  repeat' first
    | with_reducible assumption
    | with_reducible apply State.updPort_frame
    | with_reducible apply State.nakIn_frame
    | with_reducible apply State.applyTxMap_frame
    | (with_reducible refine Frame.ite ?_ ?_ <;> intro _)

theorem State.askIn_frame {o : State} {s : State} {port : Nat} {m : LaneMsg} (hF : Frame o s) :
    Frame o (State.askIn s port m) := by
  unfold State.askIn
  try dsimp only
  repeat' first
    | with_reducible assumption
    | with_reducible apply State.sendLane_frame
    | with_reducible apply State.startRxSwap_frame
    | (with_reducible refine Frame.ite ?_ ?_ <;> intro _)

theorem State.switchedIn_frame {o : State} {s : State} {port : Nat} {m : LaneMsg} (hF : Frame o s) :
    Frame o (State.switchedIn s port m) := by
  unfold State.switchedIn
  try dsimp only
  repeat' first
    | with_reducible assumption
    | with_reducible apply State.updPort_frame
    | with_reducible apply State.sendLane_frame
    | with_reducible apply State.spareDone_frame
    | with_reducible apply State.applyTxMap_frame
    | (with_reducible refine Frame.ite ?_ ?_ <;> intro _)
    | split

theorem State.doneIn_frame {o : State} {s : State} {port : Nat} {m : LaneMsg} (hF : Frame o s) :
    Frame o (State.doneIn s port m) := by
  unfold State.doneIn
  try dsimp only
  repeat' first
    | with_reducible assumption
    | with_reducible apply State.updPort_frame
    | with_reducible apply State.spareDone_frame
    | (with_reducible refine Frame.ite ?_ ?_ <;> intro _)
    | split

theorem State.refuseIn_frame {o : State} {s : State} {port : Nat} {m : LaneMsg} (hF : Frame o s) :
    Frame o (State.refuseIn s port m) := by
  unfold State.refuseIn
  try dsimp only
  repeat' first
    | with_reducible assumption
    | with_reducible apply State.setPort_frame
    | with_reducible apply State.spareDenied_frame
    | with_reducible apply State.dropRxHitless_frame
    | (with_reducible refine Frame.ite ?_ ?_ <;> intro _)

theorem State.laneIn_frame {o : State} {s : State} {port code : Nat} {m : LaneMsg} (hF : Frame o s) :
    Frame o (State.laneIn s port code m) := by
  unfold State.laneIn
  try dsimp only
  repeat' first
    | with_reducible assumption
    | with_reducible apply State.reqSpareIn_frame
    | with_reducible apply State.readyIn_frame
    | with_reducible apply State.reqWidthIn_frame
    | with_reducible apply State.askIn_frame
    | with_reducible apply State.switchedIn_frame
    | with_reducible apply State.doneIn_frame
    | with_reducible apply State.refuseIn_frame
    | split

theorem execLaneReqSpare_frame {o : State} {port : Port} {msg : LaneMsg} {s : State} (hF : Frame o s) :
    FrameOut o (execLaneReqSpare port msg s) := by
  unfold execLaneReqSpare
  try dsimp only
  repeat' first
    | with_reducible assumption
    | with_reducible apply State.serveSpare_frame
    | with_reducible apply State.laneIn_frame
    | with_reducible apply FrameOut.next
    | (with_reducible refine FrameOut.ite ?_ ?_ <;> intro _)

theorem execLaneReady_frame {o : State} {port : Port} {msg : LaneMsg} {s : State} (hF : Frame o s) :
    FrameOut o (execLaneReady port msg s) := by
  unfold execLaneReady
  try dsimp only
  repeat' first
    | with_reducible assumption
    | with_reducible apply State.serveSpare_frame
    | with_reducible apply State.laneIn_frame
    | with_reducible apply FrameOut.next
    | (with_reducible refine FrameOut.ite ?_ ?_ <;> intro _)

theorem execLaneReqWidth_frame {o : State} {port : Port} {msg : LaneMsg} {s : State} (hF : Frame o s) :
    FrameOut o (execLaneReqWidth port msg s) := by
  unfold execLaneReqWidth
  try dsimp only
  repeat' first
    | with_reducible assumption
    | with_reducible apply State.serveSpare_frame
    | with_reducible apply State.laneIn_frame
    | with_reducible apply FrameOut.next
    | (with_reducible refine FrameOut.ite ?_ ?_ <;> intro _)

theorem execLaneAsk_frame {o : State} {port : Port} {msg : LaneMsg} {s : State} (hF : Frame o s) :
    FrameOut o (execLaneAsk port msg s) := by
  unfold execLaneAsk
  try dsimp only
  repeat' first
    | with_reducible assumption
    | with_reducible apply State.serveSpare_frame
    | with_reducible apply State.laneIn_frame
    | with_reducible apply FrameOut.next
    | (with_reducible refine FrameOut.ite ?_ ?_ <;> intro _)

theorem execLaneSwitched_frame {o : State} {port : Port} {msg : LaneMsg} {s : State} (hF : Frame o s) :
    FrameOut o (execLaneSwitched port msg s) := by
  unfold execLaneSwitched
  try dsimp only
  repeat' first
    | with_reducible assumption
    | with_reducible apply State.serveSpare_frame
    | with_reducible apply State.laneIn_frame
    | with_reducible apply FrameOut.next
    | (with_reducible refine FrameOut.ite ?_ ?_ <;> intro _)

theorem execLaneDone_frame {o : State} {port : Port} {msg : LaneMsg} {s : State} (hF : Frame o s) :
    FrameOut o (execLaneDone port msg s) := by
  unfold execLaneDone
  try dsimp only
  repeat' first
    | with_reducible assumption
    | with_reducible apply State.serveSpare_frame
    | with_reducible apply State.laneIn_frame
    | with_reducible apply FrameOut.next
    | (with_reducible refine FrameOut.ite ?_ ?_ <;> intro _)

theorem execLaneRefuse_frame {o : State} {port : Port} {msg : LaneMsg} {s : State} (hF : Frame o s) :
    FrameOut o (execLaneRefuse port msg s) := by
  unfold execLaneRefuse
  try dsimp only
  repeat' first
    | with_reducible assumption
    | with_reducible apply State.serveSpare_frame
    | with_reducible apply State.laneIn_frame
    | with_reducible apply FrameOut.next
    | (with_reducible refine FrameOut.ite ?_ ?_ <;> intro _)

theorem execLaneMsgRepeat_frame {o : State} {port : Port} {side : Side} {s : State} (hF : Frame o s) :
    FrameOut o (execLaneMsgRepeat port side s) := by
  unfold execLaneMsgRepeat
  try dsimp only
  repeat' first
    | with_reducible assumption
    | with_reducible apply State.sendLane_frame
    | with_reducible apply FrameOut.next
    | (with_reducible refine FrameOut.ite ?_ ?_ <;> intro _)
    | (with_reducible refine Frame.ite ?_ ?_ <;> intro _)
    | split

theorem execSwapTimeout_frame {o : State} {port : Port} {dir : Dir} {s : State} (hF : Frame o s) :
    FrameOut o (execSwapTimeout port dir s) := by
  unfold execSwapTimeout
  try dsimp only
  repeat' first
    | with_reducible assumption
    | with_reducible apply State.stripeDown_frame
    | with_reducible apply State.portDownAll_frame
    | with_reducible apply FrameOut.next
    | (with_reducible refine FrameOut.ite ?_ ?_ <;> intro _)
    | split

theorem execHitlessSwitch_frame {o : State} {port : Port} {s : State} (hF : Frame o s) :
    FrameOut o (execHitlessSwitch port s) := by
  unfold execHitlessSwitch
  try dsimp only
  repeat' first
    | with_reducible assumption
    | with_reducible apply State.updPort_frame
    | with_reducible apply State.setRxSp_frame
    | with_reducible apply State.sendLane_frame
    | with_reducible apply FrameOut.next
    | (with_reducible refine FrameOut.ite ?_ ?_ <;> intro _)
    | split

theorem execHitlessAbandon_frame {o : State} {port : Port} {dir : Dir} {s : State} (hF : Frame o s) :
    FrameOut o (execHitlessAbandon port dir s) := by
  unfold execHitlessAbandon
  try dsimp only
  repeat' first
    | with_reducible assumption
    | with_reducible apply State.setPort_frame
    | with_reducible apply State.spareDenied_frame
    | with_reducible apply State.dropRxHitless_frame
    | with_reducible apply State.serveSpare_frame
    | with_reducible apply FrameOut.next
    | (with_reducible refine FrameOut.ite ?_ ?_ <;> intro _)
    | split

theorem State.ctrlFlit_frame {o : State} {s : State} {lp : Nat} {h : Hdr} {b : Bytes} (hF : Frame o s) :
    Frame o (State.ctrlFlit s lp h b) := by
  unfold State.ctrlFlit
  try dsimp only
  repeat' first
    | with_reducible assumption
    | with_reducible apply State.updPort_frame
    | with_reducible apply State.creditsIn_frame
    | with_reducible apply State.nakIn_frame
    | with_reducible apply State.takeSeq_frame
    | with_reducible apply State.replayStartIn_frame
    | with_reducible apply State.sleepIn_frame
    | with_reducible apply State.laneIn_frame
    | with_reducible refine State.takeSeq_frame_pair ?_ (by with_reducible assumption)
    | (with_reducible refine Frame.ite ?_ ?_ <;> intro _)
    | split

theorem State.takeFlit_frame {o : State} {s : State} {n : Nat} {flit : BitVec 2048} (hF : Frame o s) :
    Frame o (State.takeFlit s n flit) := by
  unfold State.takeFlit
  try dsimp only
  repeat' first
    | with_reducible assumption
    | with_reducible apply State.updPort_frame
    | with_reducible apply State.ctxFlit_frame
    | with_reducible apply State.countLp_frame
    | with_reducible apply State.frameFlit_frame
    | with_reducible apply State.ackIn_frame
    | with_reducible apply State.linkError_frame
    | with_reducible apply State.takeSeq_frame
    | with_reducible apply State.ctrlFlit_frame
    | with_reducible refine State.takeSeq_frame_pair ?_ (by with_reducible assumption)
    | (with_reducible refine Frame.ite ?_ ?_ <;> intro _)
    | split

theorem execFlitReceived_frame {o : State} {lp : Lp} {flit : BitVec 2048} {s : State} (hF : Frame o s) :
    FrameOut o (execFlitReceived lp flit s) := by
  unfold execFlitReceived
  try dsimp only
  repeat' first
    | with_reducible assumption
    | with_reducible apply State.updLp_frame
    | with_reducible apply State.takeFaults_frame
    | with_reducible apply State.serveSpare_frame
    | with_reducible apply State.takeFlit_frame
    | with_reducible apply FrameOut.next
    | (with_reducible refine FrameOut.ite ?_ ?_ <;> intro _)

end Sys2Proof.Machine
end

