-- ==== Sys2Proof/Laws/FrameOpLinks.lean ====
section
/-! SUPPORT. Frame through Machine/OpLinks.lean: one lemma for each operation. -/

namespace Sys2Proof.Machine

theorem execPortStatus_frame {o : State} {c : Cmd} {port : Byte} {s : State} (hF : Frame o s) :
    FrameOut o (execPortStatus c port s) := by
  unfold execPortStatus
  try dsimp only
  repeat' first
    | with_reducible assumption
    | with_reducible apply State.ok_frame
    | with_reducible apply State.opcode_frame

theorem execLaneStatus_frame {o : State} {c : Cmd} {port : Byte} {s : State} (hF : Frame o s) :
    FrameOut o (execLaneStatus c port s) := by
  unfold execLaneStatus
  try dsimp only
  repeat' first
    | with_reducible assumption
    | with_reducible apply State.ok_frame
    | with_reducible apply State.opcode_frame

theorem State.disablePort_frame {o : State} {s : State} {n : Nat} (hF : Frame o s) :
    Frame o (State.disablePort s n) := by
  unfold State.disablePort
  try dsimp only
  repeat' first
    | with_reducible assumption
    | with_reducible apply State.updPort_frame
    | with_reducible apply State.finishAll_frame
    | with_reducible apply State.dropReplay_frame
    | with_reducible apply State.stripeDown_frame
    | (with_reducible refine Frame.foldl ?_ ?_; rotate_left; (intro _ _ _; try dsimp only))
    | (with_reducible refine Frame.ite ?_ ?_ <;> intro _)

theorem State.enablePort_frame {o : State} {s : State} {n : Nat} {mode : Byte} (hF : Frame o s) :
    Frame o (State.enablePort s n mode) := by
  unfold State.enablePort
  try dsimp only
  repeat' first
    | with_reducible assumption
    | with_reducible apply State.updPort_frame
    | with_reducible apply State.setStripeSt_frame
    | with_reducible apply State.enterSend_frame
    | (with_reducible refine Frame.foldl ?_ ?_; rotate_left; (intro _ _ _; try dsimp only))
    | (with_reducible refine Frame.ite ?_ ?_ <;> intro _)

theorem State.retrainPort_frame {o : State} {s : State} {n : Nat} (hF : Frame o s) :
    Frame o (State.retrainPort s n) := by
  unfold State.retrainPort
  try dsimp only
  repeat' first
    | with_reducible assumption
    | with_reducible apply State.stripeDown_frame
    | (with_reducible refine Frame.foldl ?_ ?_; rotate_left; (intro _ _ _; try dsimp only))
    | (with_reducible refine Frame.ite ?_ ?_ <;> intro _)

theorem execPortAdminDisable_frame {o : State} {c : Cmd} {port : Byte} {mode : Byte} {s : State} (hF : Frame o s) :
    FrameOut o (execPortAdminDisable c port mode s) := by
  unfold execPortAdminDisable
  try dsimp only
  repeat' first
    | with_reducible assumption
    | with_reducible apply State.ok_frame
    | with_reducible apply State.opcode_frame
    | with_reducible apply State.gate_frame
    | with_reducible apply State.disablePort_frame

theorem execPortAdminEnable_frame {o : State} {c : Cmd} {port : Byte} {mode : Byte} {s : State} (hF : Frame o s) :
    FrameOut o (execPortAdminEnable c port mode s) := by
  unfold execPortAdminEnable
  try dsimp only
  repeat' first
    | with_reducible assumption
    | with_reducible apply State.ok_frame
    | with_reducible apply State.opcode_frame
    | with_reducible apply State.gate_frame
    | with_reducible apply State.enablePort_frame

theorem execPortAdminRetrain_frame {o : State} {c : Cmd} {port : Byte} {mode : Byte} {s : State} (hF : Frame o s) :
    FrameOut o (execPortAdminRetrain c port mode s) := by
  unfold execPortAdminRetrain
  try dsimp only
  repeat' first
    | with_reducible assumption
    | with_reducible apply State.ok_frame
    | with_reducible apply State.opcode_frame
    | with_reducible apply State.gate_frame
    | with_reducible apply State.retrainPort_frame

theorem State.askSleep_frame {o : State} {s : State} {n action : Nat} (hF : Frame o s) :
    Frame o (State.askSleep s n action) := by
  unfold State.askSleep
  try dsimp only
  repeat' first
    | with_reducible assumption
    | with_reducible apply State.updPort_frame
    | with_reducible apply State.flushSleepOut_frame
    | with_reducible apply State.autoWake_frame

theorem execPortSleep_frame {o : State} {c : Cmd} {port : Byte} {dirs : Byte} {s : State} (hF : Frame o s) :
    FrameOut o (execPortSleep c port dirs s) := by
  unfold execPortSleep
  try dsimp only
  repeat' first
    | with_reducible assumption
    | with_reducible apply State.updPort_frame
    | with_reducible apply State.defer_frame
    | with_reducible apply State.sleepCheck_frame
    | with_reducible apply State.opcode_frame
    | with_reducible apply State.gate_frame
    | with_reducible apply State.askSleep_frame
    | with_reducible apply FrameOut.next
    | (with_reducible refine Frame.ite ?_ ?_ <;> intro _)

theorem execPortWake_frame {o : State} {c : Cmd} {port : Byte} {dirs : Byte} {s : State} (hF : Frame o s) :
    FrameOut o (execPortWake c port dirs s) := by
  unfold execPortWake
  try dsimp only
  repeat' first
    | with_reducible assumption
    | with_reducible apply State.defer_frame
    | with_reducible apply State.abandonSleep_frame
    | with_reducible apply State.startWake_frame
    | with_reducible apply State.sleepCheck_frame
    | with_reducible apply State.opcode_frame
    | with_reducible apply State.gate_frame
    | with_reducible apply State.askSleep_frame
    | with_reducible apply FrameOut.next
    | (with_reducible refine Frame.ite ?_ ?_ <;> intro _)

theorem execEyeScan_frame {o : State} {c : Cmd} {port : Byte} {lane : Byte} {hSteps : Byte} {vSteps : Byte} {dwell : Byte} {s : State} (hF : Frame o s) :
    FrameOut o (execEyeScan c port lane hSteps vSteps dwell s) := by
  unfold execEyeScan
  try dsimp only
  repeat' first
    | with_reducible assumption
    | with_reducible apply State.updPort_frame
    | with_reducible apply State.defer_frame
    | with_reducible apply State.opcode_frame
    | with_reducible apply State.gate_frame

theorem execEyeScanComplete_frame {o : State} {port : Port} {lane : Lane} {counts : List (BitVec 16)} {s : State} (hF : Frame o s) :
    FrameOut o (execEyeScanComplete port lane counts s) := by
  unfold execEyeScanComplete
  try dsimp only
  repeat' first
    | with_reducible assumption
    | with_reducible apply State.updPort_frame
    | with_reducible apply State.finishWork_frame
    | with_reducible apply FrameOut.next
    | (with_reducible refine FrameOut.ite ?_ ?_ <;> intro _)

theorem execEqOverride_frame {o : State} {c : Cmd} {port : Byte} {lane : Byte} {ctle : Byte} {s : State} (hF : Frame o s) :
    FrameOut o (execEqOverride c port lane ctle s) := by
  unfold execEqOverride
  try dsimp only
  repeat' first
    | with_reducible assumption
    | with_reducible apply State.updPort_frame
    | with_reducible apply State.ok_frame
    | with_reducible apply State.opcode_frame
    | with_reducible apply State.gate_frame
    | with_reducible apply FrameOut.next
    | (with_reducible refine Frame.ite ?_ ?_ <;> intro _)

theorem State.startSpare_frame {o : State} {s : State} {c : Cmd} {op : BitVec 16} {n : Nat} {d : Dir} {lane : Nat} {restore : Bool} (hF : Frame o s) :
    Frame o (State.startSpare s c op n d lane restore) := by
  unfold State.startSpare
  try dsimp only
  repeat' first
    | with_reducible assumption
    | with_reducible apply State.defer_frame
    | with_reducible apply State.goSpare_frame
    | (with_reducible refine Frame.ite ?_ ?_ <;> intro _)

theorem execSpareSwap_frame {o : State} {c : Cmd} {port : Byte} {dir : Byte} {lane : Byte} {s : State} (hF : Frame o s) :
    FrameOut o (execSpareSwap c port dir lane s) := by
  unfold execSpareSwap
  try dsimp only
  repeat' first
    | with_reducible assumption
    | with_reducible apply State.opcode_frame
    | with_reducible apply State.gate_frame
    | with_reducible apply State.startSpare_frame

theorem execSpareRestore_frame {o : State} {c : Cmd} {port : Byte} {dir : Byte} {lane : Byte} {s : State} (hF : Frame o s) :
    FrameOut o (execSpareRestore c port dir lane s) := by
  unfold execSpareRestore
  try dsimp only
  repeat' first
    | with_reducible assumption
    | with_reducible apply State.opcode_frame
    | with_reducible apply State.gate_frame
    | with_reducible apply State.startSpare_frame

theorem State.busAccess_frame {o s : State} {w : Work} (hF : Frame o s) : Frame o (s.busAccess w) := by
  unfold State.busAccess
  dsimp only
  split
  · refine Frame.ite (fun _ => Frame.foldl ?_ fun _ _ h => State.emit_frame h) fun _ => State.emit_frame ?_
    all_goals exact Frame.ite (fun _ => hF) fun _ => State.emit_frame hF
  · exact hF

theorem State.serveCart_frame {o : State} {s : State} {bus : Nat} (hF : Frame o s) :
    Frame o (State.serveCart s bus) := by
  unfold State.serveCart
  try dsimp only
  repeat' first
    | with_reducible assumption
    | with_reducible apply State.busAccess_frame
    | (with_reducible refine Frame.ite ?_ ?_ <;> intro _)
    | split
    | fail_if_no_progress (with_reducible refine Frame.rebuild ?_ rfl rfl rfl rfl)

theorem State.startCart_frame {o : State} {s : State} {c : Cmd} {op : BitVec 16} {bus : Nat} {w : Work} (hF : Frame o s) :
    Frame o (State.startCart s c op bus w) := by
  unfold State.startCart
  try dsimp only
  repeat' first
    | with_reducible assumption
    | with_reducible apply State.defer_frame
    | with_reducible apply State.serveCart_frame

theorem State.endCart_frame {o : State} {s : State} {bus : Nat} {st : BitVec 8} {data : Bytes} (hF : Frame o s) :
    Frame o (State.endCart s bus st data) := by
  unfold State.endCart
  try dsimp only
  repeat' first
    | with_reducible assumption
    | with_reducible apply State.finishWork_frame
    | with_reducible apply State.serveCart_frame

theorem execCartRead_frame {o : State} {c : Cmd} {bus : Byte} {dev : Byte} {page : Byte} {offset : BitVec 16} {count : BitVec 16} {s : State} (hF : Frame o s) :
    FrameOut o (execCartRead c bus dev page offset count s) := by
  unfold execCartRead
  try dsimp only
  repeat' first
    | with_reducible assumption
    | with_reducible apply State.opcode_frame
    | with_reducible apply State.gate_frame
    | with_reducible apply State.startCart_frame

theorem execCartWrite_frame {o : State} {c : Cmd} {bus : Byte} {dev : Byte} {page : Byte} {offset : BitVec 16} {count : BitVec 16} {data : Bytes} {s : State} (hF : Frame o s) :
    FrameOut o (execCartWrite c bus dev page offset count data s) := by
  unfold execCartWrite
  try dsimp only
  repeat' first
    | with_reducible assumption
    | with_reducible apply State.opcode_frame
    | with_reducible apply State.gate_frame
    | with_reducible apply State.startCart_frame

theorem execCartTransferDone_frame {o : State} {bus : Fin 8} {acked : Bool} {data : Bytes} {s : State} (hF : Frame o s) :
    FrameOut o (execCartTransferDone bus acked data s) := by
  unfold execCartTransferDone
  try dsimp only
  repeat' first
    | with_reducible assumption
    | with_reducible apply State.setMmb_frame
    | with_reducible apply State.endCart_frame
    | with_reducible apply FrameOut.next
    | (with_reducible refine FrameOut.ite ?_ ?_ <;> intro _)
    | split

end Sys2Proof.Machine
end

