-- ==== Sys2Proof/Laws/FrameCartridges.lean ====
section
/-! SUPPORT. Frame through Machine/Cartridges.lean: one lemma for each operation. -/

namespace Sys2Proof.Machine

theorem execCartPresChange_frame {o : State} {bus : Fin 8} {seated : Bool} {s : State} (hF : Frame o s) :
    FrameOut o (execCartPresChange bus seated s) := by
  unfold execCartPresChange
  try dsimp only
  repeat' first
    | with_reducible assumption
    | with_reducible apply State.setPresence_frame
    | with_reducible apply FrameOut.next
    | (with_reducible refine FrameOut.ite ?_ ?_ <;> intro _)

theorem State.cablesRead_frame {o s : State} {bus : Nat} {v : Option Byte} (hF : Frame o s) : Frame o (s.cablesRead bus v) := by
  cases v with
  | none => exact State.setMmb_frame hF
  | some v => exact State.setPresence_frame hF

theorem State.readCables_frame {o : State} {s : State} {bus : Nat} {cables : Option Byte} (hF : Frame o s) :
    Frame o (State.readCables s bus cables) := by
  unfold State.readCables
  try dsimp only
  repeat' first
    | with_reducible assumption
    | with_reducible apply State.emit_frame
    | with_reducible apply State.cablesRead_frame

theorem execMmbInt_frame {o : State} {bus : Fin 8} {cables : Option Byte} {s : State} (hF : Frame o s) :
    FrameOut o (execMmbInt bus cables s) := by
  unfold execMmbInt
  try dsimp only
  repeat' first
    | with_reducible assumption
    | with_reducible apply State.readCables_frame
    | with_reducible apply FrameOut.next
    | (with_reducible refine FrameOut.ite ?_ ?_ <;> intro _)

theorem execPresencePoll_frame {o : State} {bus : Fin 8} {cables : Option Byte} {s : State} (hF : Frame o s) :
    FrameOut o (execPresencePoll bus cables s) := by
  unfold execPresencePoll
  try dsimp only
  repeat' first
    | with_reducible assumption
    | with_reducible apply State.readCables_frame
    | with_reducible apply FrameOut.next
    | (with_reducible refine FrameOut.ite ?_ ?_ <;> intro _)

theorem execMmbRetry_frame {o : State} {bus : Fin 8} {cables : Option Byte} {s : State} (hF : Frame o s) :
    FrameOut o (execMmbRetry bus cables s) := by
  unfold execMmbRetry
  try dsimp only
  repeat' first
    | with_reducible assumption
    | with_reducible apply State.readCables_frame
    | with_reducible apply FrameOut.next
    | (with_reducible refine FrameOut.ite ?_ ?_ <;> intro _)

theorem execMmbTransferTimeout_frame {o : State} {bus : Fin 8} {s : State} (hF : Frame o s) :
    FrameOut o (execMmbTransferTimeout bus s) := by
  unfold execMmbTransferTimeout
  try dsimp only
  repeat' first
    | with_reducible assumption
    | with_reducible apply State.emit_frame
    | with_reducible apply State.setPresence_frame
    | with_reducible apply State.endCart_frame
    | with_reducible apply FrameOut.next
    | (with_reducible refine FrameOut.ite ?_ ?_ <;> intro _)
    | (with_reducible refine Frame.ite ?_ ?_ <;> intro _)

theorem State.retimerFault_frame {o : State} {s : State} {bus : Nat} (hF : Frame o s) :
    Frame o (State.retimerFault s bus) := by
  unfold State.retimerFault
  try dsimp only
  repeat' first
    | with_reducible assumption
    | with_reducible apply State.setMmb_frame
    | with_reducible apply State.attend_frame

theorem State.countTransfer_frame {o : State} {s : State} {bus : Nat} {acked : Bool} (hF : Frame o s) :
    Frame o (State.countTransfer s bus acked) := by
  unfold State.countTransfer
  try dsimp only
  repeat' first
    | with_reducible assumption
    | with_reducible apply State.setMmb_frame

theorem State.pollRetimer_frame {o : State} {s : State} {bus : Nat} {page : Bytes} {k : Nat} {status : Option Byte} (hF : Frame o s) :
    Frame o (State.pollRetimer s bus page k status) := by
  unfold State.pollRetimer
  try dsimp only
  repeat' first
    | with_reducible assumption
    | with_reducible apply State.emit_frame
    | with_reducible apply State.retimerFault_frame
    | with_reducible apply State.countTransfer_frame
    | (with_reducible refine Frame.ite ?_ ?_ <;> intro _)
    | split

theorem execRetimerPoll_frame {o : State} {port : Port} {statuses : List (Option Byte)} {s : State} (hF : Frame o s) :
    FrameOut o (execRetimerPoll port statuses s) := by
  unfold execRetimerPoll
  try dsimp only
  repeat' first
    | with_reducible assumption
    | with_reducible apply State.pollRetimer_frame
    | (with_reducible refine Frame.foldl ?_ ?_; rotate_left; (intro _ _ _; try dsimp only))
    | with_reducible apply FrameOut.next
    | (with_reducible refine FrameOut.ite ?_ ?_ <;> intro _)
    | split

theorem State.readPage_frame {o : State} {s : State} {bus page : Nat} {b : Option Bytes} (hF : Frame o s) :
    Frame o (State.readPage s bus page b) := by
  unfold State.readPage
  try dsimp only
  repeat' first
    | with_reducible assumption
    | with_reducible apply State.emit_frame
    | with_reducible apply State.countTransfer_frame

theorem State.page0Read_frame {o s : State} {bus : Nat} {v : Option Bytes} (hF : Frame o s) : Frame o (s.page0Read bus v) := by
  cases v with
  | none => exact State.setMmb_frame hF
  | some v => exact State.setPresence_frame hF

theorem State.restartRetimer_frame {o : State} {s : State} {bus : Nat} {page : Bytes} {k : Nat} {acked : Bool} (hF : Frame o s) :
    Frame o (State.restartRetimer s bus page k acked) := by
  unfold State.restartRetimer
  try dsimp only
  repeat' first
    | with_reducible assumption
    | with_reducible apply State.emit_frame
    | with_reducible apply State.retimerFault_frame
    | with_reducible apply State.countTransfer_frame
    | (with_reducible refine Frame.ite ?_ ?_ <;> intro _)

theorem State.readIdentity_frame {o : State} {s : State} {port : Nat} {page0 page : Option Bytes} (hF : Frame o s) :
    Frame o (State.readIdentity s port page0 page) := by
  unfold State.readIdentity
  try dsimp only
  repeat' first
    | with_reducible assumption
    | with_reducible apply State.updPort_frame
    | with_reducible apply State.readPage_frame
    | with_reducible apply State.page0Read_frame

theorem State.restartRetimers_frame {o : State} {s : State} {port : Nat} {acks : List Bool} (hF : Frame o s) :
    Frame o (State.restartRetimers s port acks) := by
  unfold State.restartRetimers
  try dsimp only
  repeat' first
    | with_reducible assumption
    | with_reducible apply State.restartRetimer_frame
    | (with_reducible refine Frame.foldl ?_ ?_; rotate_left; (intro _ _ _; try dsimp only))
    | split

theorem State.attemptReady_frame {o : State} {s : State} {port : Nat} {read : Bool} {sd : Side} (hF : Frame o s) :
    Frame o (State.attemptReady s port read sd) := by
  unfold State.attemptReady
  try dsimp only
  repeat' first
    | with_reducible assumption
    | with_reducible apply State.latchPreset_frame
    | with_reducible apply State.sendTraining_frame
    | with_reducible apply State.updStripe_frame
    | (with_reducible refine Frame.ite ?_ ?_ <;> intro _)

theorem execCartIdentityRead_frame {o : State} {port : Port} {page0 : Option Bytes} {page : Option Bytes} {acks : List Bool} {s : State} (hF : Frame o s) :
    FrameOut o (execCartIdentityRead port page0 page acks s) := by
  unfold execCartIdentityRead
  try dsimp only
  repeat' first
    | with_reducible assumption
    | with_reducible apply State.serveCart_frame
    | with_reducible apply State.readIdentity_frame
    | with_reducible apply State.restartRetimers_frame
    | with_reducible apply State.attemptReady_frame
    | (with_reducible refine Frame.foldl ?_ ?_; rotate_left; (intro _ _ _; try dsimp only))
    | with_reducible apply FrameOut.next
    | (with_reducible refine FrameOut.ite ?_ ?_ <;> intro _)
    | (with_reducible refine Frame.ite ?_ ?_ <;> intro _)

end Sys2Proof.Machine
end

