-- ==== Sys2Proof/Laws/FrameCollectives.lean ====
section
/-! SUPPORT. Frame through Machine/Collectives.lean: one lemma for each operation. -/

namespace Sys2Proof.Machine

theorem State.beginEpoch_frame {o : State} {s : State} {sid lp : Nat} {b : Bytes} (hF : Frame o s) :
    Frame o (State.beginEpoch s sid lp b) := by
  unfold State.beginEpoch
  try dsimp only
  repeat' first
    | with_reducible assumption
    | with_reducible apply State.setSession_frame
    | with_reducible apply State.countGlobal_frame
    | with_reducible apply State.abortEpoch_frame
    | (with_reducible refine Frame.ite ?_ ?_ <;> intro _)

theorem State.barrierCheck_frame {o : State} {s : State} {sid : Nat} (hF : Frame o s) :
    Frame o (State.barrierCheck s sid) := by
  unfold State.barrierCheck
  try dsimp only
  repeat' first
    | with_reducible assumption
    | with_reducible apply State.setSession_frame
    | with_reducible apply State.endEpoch_frame
    | (with_reducible refine Frame.ite ?_ ?_ <;> intro _)
    | split

theorem State.takeDesc_frame {o : State} {s : State} {lp : Nat} {foreign : Bool} {f : InFrame} (hF : Frame o s) :
    FrameOpt o (State.takeDesc s lp foreign f) := by
  unfold State.takeDesc
  try dsimp only
  repeat' first
    | with_reducible assumption
    | with_reducible apply State.setSession_frame
    | with_reducible apply State.countGlobal_frame
    | with_reducible apply State.freeFrame_frame
    | with_reducible apply State.countDiscard_frame
    | with_reducible apply State.dropColl_frame
    | with_reducible apply State.foreignMarker_frame
    | with_reducible apply State.abortEpoch_frame
    | with_reducible apply State.beginEpoch_frame
    | with_reducible apply State.barrierCheck_frame
    | with_reducible apply FrameOpt.some
    | with_reducible exact FrameOpt.none
    | (with_reducible refine FrameOpt.ite ?_ ?_ <;> intro _)
    | (with_reducible refine Frame.ite ?_ ?_ <;> intro _)

theorem State.addData_frame {o : State} {s : State} {sid lp : Nat} {d : Desc} {m : Member} {f : InFrame} {p : Nat} (hF : Frame o s) :
    Frame o (State.addData s sid lp d m f p) := by
  unfold State.addData
  try dsimp only
  repeat' first
    | with_reducible assumption
    | with_reducible apply State.setSession_frame
    | with_reducible apply State.countGlobal_frame
    | with_reducible apply countPasses_frame
    | (with_reducible refine Frame.ite ?_ ?_ <;> intro _)

theorem State.takeData_frame {o : State} {s : State} {lp : Nat} {foreign : Bool} {f : InFrame} (hF : Frame o s) :
    FrameOpt o (State.takeData s lp foreign f) := by
  unfold State.takeData
  try dsimp only
  repeat' first
    | with_reducible assumption
    | with_reducible apply State.freeFrame_frame
    | with_reducible apply State.dropColl_frame
    | with_reducible apply State.foreignMarker_frame
    | with_reducible apply State.abortEpoch_frame
    | with_reducible apply State.addData_frame
    | with_reducible apply FrameOpt.some
    | with_reducible exact FrameOpt.none
    | (with_reducible refine FrameOpt.ite ?_ ?_ <;> intro _)
    | split

theorem State.takeAck_frame {o : State} {s : State} {lp : Nat} {f : InFrame} (hF : Frame o s) :
    Frame o (State.takeAck s lp f) := by
  unfold State.takeAck
  try dsimp only
  repeat' first
    | with_reducible assumption
    | with_reducible apply State.setSession_frame
    | with_reducible apply State.freeFrame_frame
    | with_reducible apply State.dropColl_frame
    | (with_reducible refine Frame.ite ?_ ?_ <;> intro _)
    | split
    | fail_if_no_progress (with_reducible refine Frame.rebuild ?_ rfl rfl rfl rfl)

theorem State.takeColl_frame {o : State} {s : State} {lp : Nat} {foreign : Bool} {f : InFrame} (hF : Frame o s) :
    FrameOpt o (State.takeColl s lp foreign f) := by
  unfold State.takeColl
  try dsimp only
  repeat' first
    | with_reducible assumption
    | (refine State.takeDesc_frame ?_ _ (by with_reducible assumption))
    | with_reducible apply State.takeDesc_frame
    | (refine State.takeData_frame ?_ _ (by with_reducible assumption))
    | with_reducible apply State.takeData_frame
    | with_reducible apply State.takeAck_frame
    | with_reducible apply FrameOpt.some
    | with_reducible exact FrameOpt.none
    | (with_reducible refine FrameOpt.ite ?_ ?_ <;> intro _)

theorem State.collArrive_frame {o : State} {s : State} {x : Diverted} (hF : Frame o s) :
    Frame o (State.collArrive s x) := by
  unfold State.collArrive
  try dsimp only
  repeat' first
    | with_reducible assumption
    | (refine State.takeColl_frame ?_ _ (by with_reducible assumption))
    | with_reducible apply State.takeColl_frame
    | (with_reducible refine Frame.ite ?_ ?_ <;> intro _)
    | split
    | fail_if_no_progress (with_reducible refine Frame.rebuild ?_ rfl rfl rfl rfl)

theorem State.collGiven_frame {o : State} {s : State} {lp : Nat} {foreign : Bool} {f : InFrame} (hF : Frame o s) :
    Frame o (State.collGiven s lp foreign f) := by
  unfold State.collGiven
  try dsimp only
  repeat' first
    | with_reducible assumption
    | with_reducible apply State.claim_frame
    | with_reducible apply State.collArrive_frame
    | with_reducible refine State.claim_frame_pair ?_ (by with_reducible assumption)
    | split

theorem execCollDescReceived_frame {o : State} {lp : Lp} {foreign : Bool} {frame : InFrame} {s : State} (hF : Frame o s) :
    FrameOut o (execCollDescReceived lp foreign frame s) := by
  unfold execCollDescReceived
  try dsimp only
  repeat' first
    | with_reducible assumption
    | with_reducible apply State.collGiven_frame
    | with_reducible apply FrameOut.next
    | (with_reducible refine FrameOut.ite ?_ ?_ <;> intro _)

theorem execCollDataReceived_frame {o : State} {lp : Lp} {foreign : Bool} {frame : InFrame} {s : State} (hF : Frame o s) :
    FrameOut o (execCollDataReceived lp foreign frame s) := by
  unfold execCollDataReceived
  try dsimp only
  repeat' first
    | with_reducible assumption
    | with_reducible apply State.collGiven_frame
    | with_reducible apply FrameOut.next
    | (with_reducible refine FrameOut.ite ?_ ?_ <;> intro _)

theorem execAbortAckReceived_frame {o : State} {lp : Lp} {foreign : Bool} {frame : InFrame} {s : State} (hF : Frame o s) :
    FrameOut o (execAbortAckReceived lp foreign frame s) := by
  unfold execAbortAckReceived
  try dsimp only
  repeat' first
    | with_reducible assumption
    | with_reducible apply State.collGiven_frame
    | with_reducible apply FrameOut.next
    | (with_reducible refine FrameOut.ite ?_ ?_ <;> intro _)

theorem State.admitEntry_frame {o : State} {s : State} {x : Diverted} (hF : Frame o s) :
    FrameOpt o (State.admitEntry s x) := by
  unfold State.admitEntry
  try dsimp only
  repeat' first
    | with_reducible assumption
    | (refine State.takeColl_frame ?_ _ (by with_reducible assumption))
    | with_reducible apply State.takeColl_frame
    | with_reducible apply FrameOpt.some
    | with_reducible exact FrameOpt.none
    | (with_reducible refine FrameOpt.ite ?_ ?_ <;> intro _)
    | split
    | fail_if_no_progress (with_reducible refine Frame.rebuild ?_ rfl rfl rfl rfl)

theorem State.admitFirst_frame {o s : State} {l : List Diverted} (hF : Frame o s) : Frame o (s.admitFirst l) := by
  induction l with
  | nil => exact hF
  | cons x l ih =>
    unfold State.admitFirst
    split
    · exact State.admitEntry_frame hF _ (by assumption)
    · exact ih

theorem execCollEntryAdmit_frame {o : State} {lp : Lp} {s : State} (hF : Frame o s) :
    FrameOut o (execCollEntryAdmit lp s) := by
  unfold execCollEntryAdmit
  try dsimp only
  repeat' first
    | with_reducible assumption
    | with_reducible apply State.admitFirst_frame
    | with_reducible apply FrameOut.next
    | (with_reducible refine FrameOut.ite ?_ ?_ <;> intro _)

theorem execNextEpochDescTakeUp_frame {o : State} {sid : Fin 4096} {s : State} (hF : Frame o s) :
    FrameOut o (execNextEpochDescTakeUp sid s) := by
  unfold execNextEpochDescTakeUp
  try dsimp only
  repeat' first
    | with_reducible assumption
    | (refine State.admitEntry_frame ?_ _ (by with_reducible assumption))
    | with_reducible apply State.admitEntry_frame
    | (with_reducible refine Frame.foldl ?_ ?_; rotate_left; (intro _ _ _; try dsimp only))
    | with_reducible apply FrameOut.next
    | (with_reducible refine FrameOut.ite ?_ ?_ <;> intro _)
    | (with_reducible refine Frame.getD ?_ ?_)

theorem execChunkFinish_frame {o : State} {sid : Fin 4096} {chunk : BitVec 32} {s : State} (hF : Frame o s) :
    FrameOut o (execChunkFinish sid chunk s) := by
  unfold execChunkFinish
  try dsimp only
  repeat' first
    | with_reducible assumption
    | with_reducible apply State.complete_frame
    | with_reducible apply State.finishChunk_frame
    | with_reducible apply FrameOut.next
    | (with_reducible refine FrameOut.ite ?_ ?_ <;> intro _)
    | split

theorem State.takeChecking_frame {o s : State} {lp : Nat} {p : AgentFrame × State} (hF : Frame o s)
    (eF : s.takeChecking lp = some p) : Frame o p.2 := by
  unfold State.takeChecking at eF
  split at eF
  · cases eF
  · cases eF
    exact Frame.rebuild hF rfl rfl rfl rfl

theorem execResultFramePassed_frame {o : State} {lp : Lp} {s : State} (hF : Frame o s) :
    FrameOut o (execResultFramePassed lp s) := by
  unfold execResultFramePassed
  try dsimp only
  repeat' first
    | with_reducible assumption
    | with_reducible apply State.setSession_frame
    | with_reducible apply State.sentWhole_frame
    | (refine State.takeChecking_frame (p := (_, _)) ?_ (by with_reducible assumption))
    | with_reducible apply FrameOut.next
    | (with_reducible refine FrameOut.ite ?_ ?_ <;> intro _)
    | split

theorem execResultResend_frame {o : State} {lp : Lp} {s : State} (hF : Frame o s) :
    FrameOut o (execResultResend lp s) := by
  unfold execResultResend
  try dsimp only
  repeat' first
    | with_reducible assumption
    | with_reducible apply State.emit_frame
    | with_reducible apply State.setLpStripe_frame
    | with_reducible apply State.countLp_frame
    | with_reducible apply State.countSlots_frame
    | with_reducible apply State.abortEpoch_frame
    | (refine State.takeChecking_frame (p := (_, _)) ?_ (by with_reducible assumption))
    | with_reducible apply FrameOut.next
    | (with_reducible refine FrameOut.ite ?_ ?_ <;> intro _)
    | split
    | fail_if_no_progress (with_reducible refine Frame.rebuild ?_ rfl rfl rfl rfl)

theorem execChunkCommit_frame {o : State} {sid : Fin 4096} {chunk : BitVec 32} {s : State} (hF : Frame o s) :
    FrameOut o (execChunkCommit sid chunk s) := by
  unfold execChunkCommit
  try dsimp only
  repeat' first
    | with_reducible assumption
    | with_reducible apply State.commitChunk_frame
    | with_reducible apply FrameOut.next
    | (with_reducible refine FrameOut.ite ?_ ?_ <;> intro _)
    | split

theorem execSlotGroupDamaged_frame {o : State} {sid : Fin 4096} {chunk : BitVec 32} {group : Nat} {kind : DamageKind} {s : State} (hF : Frame o s) :
    FrameOut o (execSlotGroupDamaged sid chunk group kind s) := by
  unfold execSlotGroupDamaged
  try dsimp only
  repeat' first
    | with_reducible assumption
    | with_reducible apply State.damageGroup_frame
    | with_reducible apply FrameOut.next
    | (with_reducible refine FrameOut.ite ?_ ?_ <;> intro _)

theorem execStallTimeout_frame {o : State} {sid : Fin 4096} {s : State} (hF : Frame o s) :
    FrameOut o (execStallTimeout sid s) := by
  unfold execStallTimeout
  try dsimp only
  repeat' first
    | with_reducible assumption
    | with_reducible apply State.abortEpoch_frame
    | with_reducible apply FrameOut.next
    | (with_reducible refine FrameOut.ite ?_ ?_ <;> intro _)

theorem execBeatSyncRelease_frame {o : State} {s : State} (hF : Frame o s) :
    FrameOut o (execBeatSyncRelease s) := by
  unfold execBeatSyncRelease
  try dsimp only
  repeat' first
    | with_reducible assumption
    | with_reducible apply State.beatSyncRelease_frame
    | with_reducible apply FrameOut.next
    | (with_reducible refine FrameOut.ite ?_ ?_ <;> intro _)

end Sys2Proof.Machine
end

