-- ==== Sys2Proof/Laws/FrameOpControl.lean ====
section
/-! SUPPORT. Frame through Machine/OpControl.lean: one lemma for each operation. -/

namespace Sys2Proof.Machine

theorem execIdentityRead_frame {o : State} {c : Cmd} {s : State} (hF : Frame o s) :
    FrameOut o (execIdentityRead c s) := by
  unfold execIdentityRead
  try dsimp only
  repeat' first
    | with_reducible assumption
    | with_reducible apply State.ok_frame
    | with_reducible apply State.opcode_frame

theorem State.readRun_frame {o : State} {s : State} {addr count : Nat} (hF : Frame o s) :
    Frame o (State.readRun s addr count).2 := by
  unfold State.readRun
  try dsimp only
  repeat' first
    | with_reducible assumption
    | with_reducible apply State.clearRc_frame
    | (with_reducible refine Frame.foldl ?_ ?_; rotate_left; (intro _ _ _; try dsimp only))

theorem State.readRun_frame_pair {o : State} {s : State} {addr count : Nat} (hF : Frame o s)
    {pa : Bytes} {pb : State} (eF : (State.readRun s addr count) = (pa, pb)) : Frame o pb := by
  have this : Frame o (State.readRun s addr count).2 := State.readRun_frame (hF := hF)
  rw [eF] at this
  exact this

theorem execCwRead_frame {o : State} {c : Cmd} {addr : BitVec 32} {count : BitVec 16} {s : State} (hF : Frame o s) :
    FrameOut o (execCwRead c addr count s) := by
  unfold execCwRead
  try dsimp only
  repeat' first
    | with_reducible assumption
    | with_reducible apply State.ok_frame
    | with_reducible apply State.opcode_frame
    | with_reducible apply State.readRun_frame

theorem execCwWrite_frame {o : State} {c : Cmd} {addr : BitVec 32} {count : BitVec 16} {spec : TargetSpec} {values : List Word} {s : State} (hF : Frame o s) :
    FrameOut o (execCwWrite c addr count spec values s) := by
  unfold execCwWrite
  try dsimp only
  repeat' first
    | with_reducible assumption
    | with_reducible apply State.ok_frame
    | with_reducible apply State.stageAll_frame
    | with_reducible apply State.writeWord_frame
    | with_reducible apply State.opcode_frame
    | with_reducible apply State.gate_frame
    | with_reducible refine State.stageAll_frame_pair ?_ (by with_reducible assumption)
    | (with_reducible refine Frame.foldl ?_ ?_; rotate_left; (intro _ _ _; try dsimp only))

theorem execCwModify_frame {o : State} {c : Cmd} {addr : BitVec 32} {mask : Word} {value : Word} {s : State} (hF : Frame o s) :
    FrameOut o (execCwModify c addr mask value s) := by
  unfold execCwModify
  try dsimp only
  repeat' first
    | with_reducible assumption
    | with_reducible apply State.ok_frame
    | with_reducible apply State.writeWord_frame
    | with_reducible apply State.clearRc_frame
    | with_reducible apply State.opcode_frame
    | with_reducible apply State.gate_frame

theorem execNoticeRead_frame {o : State} {c : Cmd} {max : Byte} {s : State} (hF : Frame o s) :
    FrameOut o (execNoticeRead c max s) := by
  unfold execNoticeRead
  try dsimp only
  repeat' first
    | with_reducible assumption
    | with_reducible apply State.ok_frame
    | with_reducible apply State.opcode_frame
    | with_reducible apply FrameOut.next
    | split
    | fail_if_no_progress (with_reducible refine Frame.rebuild ?_ rfl rfl rfl rfl)

theorem execBeatStatusRead_frame {o : State} {c : Cmd} {s : State} (hF : Frame o s) :
    FrameOut o (execBeatStatusRead c s) := by
  unfold execBeatStatusRead
  try dsimp only
  repeat' first
    | with_reducible assumption
    | with_reducible apply State.ok_frame
    | with_reducible apply State.opcode_frame

theorem State.stageReply_frame {o : State} {s : State} {c : Cmd} {op : BitVec 16} {spec : TargetSpec} {item : StageItem} (hF : Frame o s) :
    Frame o (State.stageReply s c op spec item) := by
  unfold State.stageReply
  try dsimp only
  repeat' first
    | with_reducible assumption
    | with_reducible apply State.ok_frame
    | with_reducible apply State.stageAll_frame
    | with_reducible apply State.gate_frame

theorem execBeatRootSet_frame {o : State} {c : Cmd} {root : Byte} {spec : TargetSpec} {s : State} (hF : Frame o s) :
    FrameOut o (execBeatRootSet c root spec s) := by
  unfold execBeatRootSet
  try dsimp only
  repeat' first
    | with_reducible assumption
    | with_reducible apply State.opcode_frame
    | with_reducible apply State.stageReply_frame

theorem execBeatPeriodSet_frame {o : State} {c : Cmd} {period : Byte} {spec : TargetSpec} {s : State} (hF : Frame o s) :
    FrameOut o (execBeatPeriodSet c period spec s) := by
  unfold execBeatPeriodSet
  try dsimp only
  repeat' first
    | with_reducible assumption
    | with_reducible apply State.opcode_frame
    | with_reducible apply State.stageReply_frame

theorem execAgendaStageCwWrite_frame {o : State} {c : Cmd} {spec : TargetSpec} {paramA : Word} {paramB : Word} {s : State} (hF : Frame o s) :
    FrameOut o (execAgendaStageCwWrite c spec paramA paramB s) := by
  unfold execAgendaStageCwWrite
  try dsimp only
  repeat' first
    | with_reducible assumption
    | with_reducible apply State.opcode_frame
    | with_reducible apply State.stageReply_frame

theorem execAgendaStagePowerStep_frame {o : State} {c : Cmd} {spec : TargetSpec} {paramA : Word} {paramB : Word} {s : State} (hF : Frame o s) :
    FrameOut o (execAgendaStagePowerStep c spec paramA paramB s) := by
  unfold execAgendaStagePowerStep
  try dsimp only
  repeat' first
    | with_reducible assumption
    | with_reducible apply State.opcode_frame
    | with_reducible apply State.stageReply_frame

theorem execAgendaStageBistStop_frame {o : State} {c : Cmd} {spec : TargetSpec} {paramA : Word} {paramB : Word} {s : State} (hF : Frame o s) :
    FrameOut o (execAgendaStageBistStop c spec paramA paramB s) := by
  unfold execAgendaStageBistStop
  try dsimp only
  repeat' first
    | with_reducible assumption
    | with_reducible apply State.opcode_frame
    | with_reducible apply State.stageReply_frame

theorem execAgendaStageBistStart_frame {o : State} {c : Cmd} {spec : TargetSpec} {paramA : Word} {paramB : Word} {s : State} (hF : Frame o s) :
    FrameOut o (execAgendaStageBistStart c spec paramA paramB s) := by
  unfold execAgendaStageBistStart
  try dsimp only
  repeat' first
    | with_reducible assumption
    | with_reducible apply State.opcode_frame
    | with_reducible apply State.stageReply_frame

theorem execAgendaStageMark_frame {o : State} {c : Cmd} {spec : TargetSpec} {paramA : Word} {paramB : Word} {s : State} (hF : Frame o s) :
    FrameOut o (execAgendaStageMark c spec paramA paramB s) := by
  unfold execAgendaStageMark
  try dsimp only
  repeat' first
    | with_reducible assumption
    | with_reducible apply State.opcode_frame
    | with_reducible apply State.stageReply_frame

theorem execAgendaCancel_frame {o : State} {c : Cmd} {entry : BitVec 16} {order : BitVec 16} {s : State} (hF : Frame o s) :
    FrameOut o (execAgendaCancel c entry order s) := by
  unfold execAgendaCancel
  try dsimp only
  repeat' first
    | with_reducible assumption
    | with_reducible apply State.ok_frame
    | with_reducible apply State.finishEntry_frame
    | with_reducible apply State.opcode_frame
    | with_reducible apply State.gate_frame

theorem execAgendaRead_frame {o : State} {c : Cmd} {first : BitVec 16} {count : BitVec 16} {s : State} (hF : Frame o s) :
    FrameOut o (execAgendaRead c first count s) := by
  unfold execAgendaRead
  try dsimp only
  repeat' first
    | with_reducible assumption
    | with_reducible apply State.ok_frame
    | with_reducible apply State.opcode_frame

end Sys2Proof.Machine
end

