-- ==== Sys2Proof/Laws/FrameOpTables.lean ====
section
/-! SUPPORT. Frame through Machine/OpTables.lean: one lemma for each operation. -/

namespace Sys2Proof.Machine

theorem execTableImageOpen_frame {o : State} {c : Cmd} {table : Byte} {length : BitVec 32} {s : State} (hF : Frame o s) :
    FrameOut o (execTableImageOpen c table length s) := by
  unfold execTableImageOpen
  try dsimp only
  repeat' first
    | with_reducible assumption
    | with_reducible apply State.ok_frame
    | with_reducible apply State.opcode_frame
    | with_reducible apply State.gate_frame
    | with_reducible apply FrameOut.next
    | split
    | fail_if_no_progress (with_reducible refine Frame.rebuild ?_ rfl rfl rfl rfl)

theorem execTableImageWrite_frame {o : State} {c : Cmd} {handle : BitVec 32} {offset : BitVec 32} {data : Bytes} {s : State} (hF : Frame o s) :
    FrameOut o (execTableImageWrite c handle offset data s) := by
  unfold execTableImageWrite
  try dsimp only
  repeat' first
    | with_reducible assumption
    | with_reducible apply State.ok_frame
    | with_reducible apply State.opcode_frame
    | with_reducible apply State.gate_frame
    | with_reducible apply FrameOut.next
    | split
    | fail_if_no_progress (with_reducible refine Frame.rebuild ?_ rfl rfl rfl rfl)

theorem execTableImageSeal_frame {o : State} {c : Cmd} {handle : BitVec 32} {s : State} (hF : Frame o s) :
    FrameOut o (execTableImageSeal c handle s) := by
  unfold execTableImageSeal
  try dsimp only
  repeat' first
    | with_reducible assumption
    | with_reducible apply State.defer_frame
    | with_reducible apply State.setImageSt_frame
    | with_reducible apply State.opcode_frame
    | with_reducible apply State.gate_frame

theorem execSealComplete_frame {o : State} {handle : BitVec 32} {s : State} (hF : Frame o s) :
    FrameOut o (execSealComplete handle s) := by
  unfold execSealComplete
  try dsimp only
  repeat' first
    | with_reducible assumption
    | with_reducible apply State.ok_frame
    | with_reducible apply State.finishWork_frame
    | with_reducible apply State.dropImage_frame
    | with_reducible apply State.setImageSt_frame
    | with_reducible apply FrameOut.next
    | (with_reducible refine FrameOut.ite ?_ ?_ <;> intro _)
    | split

theorem execTableStage_frame {o : State} {c : Cmd} {handle : BitVec 32} {spec : TargetSpec} {s : State} (hF : Frame o s) :
    FrameOut o (execTableStage c handle spec s) := by
  unfold execTableStage
  try dsimp only
  repeat' first
    | with_reducible assumption
    | with_reducible apply State.ok_frame
    | with_reducible apply State.setImageSt_frame
    | with_reducible apply State.stageAll_frame
    | with_reducible apply State.opcode_frame
    | with_reducible apply State.gate_frame

theorem execTableImageDiscard_frame {o : State} {c : Cmd} {handle : BitVec 32} {s : State} (hF : Frame o s) :
    FrameOut o (execTableImageDiscard c handle s) := by
  unfold execTableImageDiscard
  try dsimp only
  repeat' first
    | with_reducible assumption
    | with_reducible apply State.ok_frame
    | with_reducible apply State.dropImage_frame
    | with_reducible apply State.opcode_frame
    | with_reducible apply State.gate_frame

theorem execTableRead_frame {o : State} {c : Cmd} {table : Byte} {first : BitVec 32} {count : BitVec 16} {s : State} (hF : Frame o s) :
    FrameOut o (execTableRead c table first count s) := by
  unfold execTableRead
  try dsimp only
  repeat' first
    | with_reducible assumption
    | with_reducible apply State.ok_frame
    | with_reducible apply State.opcode_frame
    | with_reducible apply State.gate_frame

theorem execTableStatus_frame {o : State} {c : Cmd} {table : Byte} {s : State} (hF : Frame o s) :
    FrameOut o (execTableStatus c table s) := by
  unfold execTableStatus
  try dsimp only
  repeat' first
    | with_reducible assumption
    | with_reducible apply State.ok_frame
    | with_reducible apply State.opcode_frame

theorem execTableImageList_frame {o : State} {c : Cmd} {first : Byte} {max : Byte} {s : State} (hF : Frame o s) :
    FrameOut o (execTableImageList c first max s) := by
  unfold execTableImageList
  try dsimp only
  repeat' first
    | with_reducible assumption
    | with_reducible apply State.ok_frame
    | with_reducible apply State.opcode_frame

theorem State.setHolder_frame {o : State} {s : State} {kind id : Nat} {h : Option (Src × Nat)} (hF : Frame o s) :
    Frame o (State.setHolder s kind id h) := by
  unfold State.setHolder
  try dsimp only
  repeat' first
    | with_reducible assumption
    | (with_reducible refine Frame.ite ?_ ?_ <;> intro _)
    | split
    | fail_if_no_progress (with_reducible refine Frame.rebuild ?_ rfl rfl rfl rfl)

theorem execHold_frame {o : State} {c : Cmd} {kind : Byte} {id : Byte} {s : State} (hF : Frame o s) :
    FrameOut o (execHold c kind id s) := by
  unfold execHold
  try dsimp only
  repeat' first
    | with_reducible assumption
    | with_reducible apply State.ok_frame
    | with_reducible apply State.opcode_frame
    | with_reducible apply State.gate_frame
    | with_reducible apply State.setHolder_frame

theorem execRelease_frame {o : State} {c : Cmd} {kind : Byte} {id : Byte} {s : State} (hF : Frame o s) :
    FrameOut o (execRelease c kind id s) := by
  unfold execRelease
  try dsimp only
  repeat' first
    | with_reducible assumption
    | with_reducible apply State.ok_frame
    | with_reducible apply State.opcode_frame
    | with_reducible apply State.gate_frame
    | with_reducible apply State.setHolder_frame

end Sys2Proof.Machine
end

