-- ==== Sys2Proof/Laws/FrameOpUnits.lean ====
section
/-! SUPPORT. Frame through Machine/OpUnits.lean: one lemma for each operation. -/

namespace Sys2Proof.Machine

theorem execSwitchStatus_frame {o : State} {c : Cmd} {s : State} (hF : Frame o s) :
    FrameOut o (execSwitchStatus c s) := by
  unfold execSwitchStatus
  try dsimp only
  repeat' first
    | with_reducible assumption
    | with_reducible apply State.ok_frame
    | with_reducible apply State.opcode_frame
    | with_reducible apply State.gate_frame

theorem execVoqRead_frame {o : State} {c : Cmd} {inLp : Byte} {outLp : Byte} {classes : Byte} {s : State} (hF : Frame o s) :
    FrameOut o (execVoqRead c inLp outLp classes s) := by
  unfold execVoqRead
  try dsimp only
  repeat' first
    | with_reducible assumption
    | with_reducible apply State.ok_frame
    | with_reducible apply State.opcode_frame
    | with_reducible apply State.gate_frame

theorem execCreditRead_frame {o : State} {c : Cmd} {lp : Byte} {s : State} (hF : Frame o s) :
    FrameOut o (execCreditRead c lp s) := by
  unfold execCreditRead
  try dsimp only
  repeat' first
    | with_reducible assumption
    | with_reducible apply State.ok_frame
    | with_reducible apply State.opcode_frame
    | with_reducible apply State.gate_frame

theorem execPortDrain_frame {o : State} {c : Cmd} {lp : Byte} {classes : Byte} {timeout : BitVec 16} {s : State} (hF : Frame o s) :
    FrameOut o (execPortDrain c lp classes timeout s) := by
  unfold execPortDrain
  try dsimp only
  repeat' first
    | with_reducible assumption
    | with_reducible apply State.defer_frame
    | with_reducible apply State.opcode_frame
    | with_reducible apply State.gate_frame

theorem execPortDrainTest_frame {o : State} {s : State} (hF : Frame o s) :
    FrameOut o (execPortDrainTest s) := by
  unfold execPortDrainTest
  try dsimp only
  repeat' first
    | with_reducible assumption
    | with_reducible apply State.testDrains_frame
    | with_reducible apply FrameOut.next
    | (with_reducible refine FrameOut.ite ?_ ?_ <;> intro _)

theorem execHeldDiscard_frame {o : State} {c : Cmd} {port : Byte} {s : State} (hF : Frame o s) :
    FrameOut o (execHeldDiscard c port s) := by
  unfold execHeldDiscard
  try dsimp only
  repeat' first
    | with_reducible assumption
    | with_reducible apply State.ok_frame
    | with_reducible apply State.endHold_frame
    | with_reducible apply State.opcode_frame
    | with_reducible apply State.gate_frame
    | with_reducible refine State.endHold_frame_pair ?_ (by with_reducible assumption)
    | (with_reducible refine Frame.foldl_fst ?_ ?_; rotate_left; (intro _ _ _; try dsimp only))

theorem execMemStatus_frame {o : State} {c : Cmd} {s : State} (hF : Frame o s) :
    FrameOut o (execMemStatus c s) := by
  unfold execMemStatus
  try dsimp only
  repeat' first
    | with_reducible assumption
    | with_reducible apply State.ok_frame
    | with_reducible apply State.uncorrected_frame
    | with_reducible apply State.opcode_frame
    | with_reducible apply State.gate_frame

theorem execMemAlloc_frame {o : State} {c : Cmd} {size : Word} {owner : Word} {s : State} (hF : Frame o s) :
    FrameOut o (execMemAlloc c size owner s) := by
  unfold execMemAlloc
  try dsimp only
  repeat' first
    | with_reducible assumption
    | with_reducible apply State.ok_frame
    | with_reducible apply State.deny_frame
    | with_reducible apply State.updMem_frame
    | with_reducible apply State.opcode_frame
    | with_reducible apply FrameOut.next
    | split
    | fail_if_no_progress (with_reducible refine Frame.rebuild ?_ rfl rfl rfl rfl)
    | exact rfl

theorem execMemFree_frame {o : State} {c : Cmd} {offset : Word} {s : State} (hF : Frame o s) :
    FrameOut o (execMemFree c offset s) := by
  unfold execMemFree
  try dsimp only
  repeat' first
    | with_reducible assumption
    | with_reducible apply State.ok_frame
    | with_reducible apply State.updMem_frame
    | with_reducible apply State.opcode_frame
    | with_reducible apply State.gate_frame
    | with_reducible apply FrameOut.next
    | split
    | fail_if_no_progress (with_reducible refine Frame.rebuild ?_ rfl rfl rfl rfl)
    | exact rfl

theorem execMemFill_frame {o : State} {c : Cmd} {offset : Word} {size : Word} {pattern : Word} {s : State} (hF : Frame o s) :
    FrameOut o (execMemFill c offset size pattern s) := by
  unfold execMemFill
  try dsimp only
  repeat' first
    | with_reducible assumption
    | with_reducible apply State.defer_frame
    | with_reducible apply State.opcode_frame
    | with_reducible apply State.gate_frame

theorem execMemRead_frame {o : State} {c : Cmd} {offset : Word} {count : BitVec 16} {s : State} (hF : Frame o s) :
    FrameOut o (execMemRead c offset count s) := by
  unfold execMemRead
  try dsimp only
  repeat' first
    | with_reducible assumption
    | with_reducible apply State.defer_frame
    | with_reducible apply State.opcode_frame
    | with_reducible apply State.gate_frame

theorem execMemWrite_frame {o : State} {c : Cmd} {offset : Word} {count : BitVec 16} {data : Bytes} {s : State} (hF : Frame o s) :
    FrameOut o (execMemWrite c offset count data s) := by
  unfold execMemWrite
  try dsimp only
  repeat' first
    | with_reducible assumption
    | with_reducible apply State.defer_frame
    | with_reducible apply State.opcode_frame
    | with_reducible apply State.gate_frame

theorem execEccLogRead_frame {o : State} {c : Cmd} {max : Byte} {s : State} (hF : Frame o s) :
    FrameOut o (execEccLogRead c max s) := by
  unfold execEccLogRead
  try dsimp only
  repeat' first
    | with_reducible assumption
    | with_reducible apply State.ok_frame
    | with_reducible apply State.opcode_frame
    | with_reducible apply State.gate_frame

theorem execSessionOpen_frame {o : State} {c : Cmd} {sid : BitVec 16} {mg : BitVec 16} {flags : Byte} {members : BitVec 128} {quota : BitVec 32} {s : State} (hF : Frame o s) :
    FrameOut o (execSessionOpen c sid mg flags members quota s) := by
  unfold execSessionOpen
  try dsimp only
  repeat' first
    | with_reducible assumption
    | with_reducible apply State.setSession_frame
    | with_reducible apply State.draw_frame
    | with_reducible apply State.ok_frame
    | with_reducible apply State.opcode_frame
    | with_reducible apply State.gate_frame
    | with_reducible refine State.draw_frame_pair ?_ (by with_reducible assumption)
    | with_reducible apply FrameOut.next
    | split

theorem execSessionClose_frame {o : State} {c : Cmd} {sid : BitVec 16} {s : State} (hF : Frame o s) :
    FrameOut o (execSessionClose c sid s) := by
  unfold execSessionClose
  try dsimp only
  repeat' first
    | with_reducible assumption
    | with_reducible apply State.setSession_frame
    | with_reducible apply State.ok_frame
    | with_reducible apply State.defer_frame
    | with_reducible apply State.freeSession_frame
    | with_reducible apply State.dropEntry_frame
    | with_reducible apply State.closeCheck_frame
    | with_reducible apply State.opcode_frame
    | with_reducible apply State.gate_frame
    | with_reducible apply FrameOut.next
    | (with_reducible refine Frame.ite ?_ ?_ <;> intro _)

theorem execSessionCloseForce_frame {o : State} {c : Cmd} {sid : BitVec 16} {s : State} (hF : Frame o s) :
    FrameOut o (execSessionCloseForce c sid s) := by
  unfold execSessionCloseForce
  try dsimp only
  repeat' first
    | with_reducible assumption
    | with_reducible apply State.ok_frame
    | with_reducible apply State.freeSession_frame
    | with_reducible apply State.dropEntry_frame
    | with_reducible apply State.abortEpoch_frame
    | with_reducible apply State.opcode_frame
    | with_reducible apply State.gate_frame
    | with_reducible apply FrameOut.next
    | (with_reducible refine Frame.ite ?_ ?_ <;> intro _)

theorem execSessionStatus_frame {o : State} {c : Cmd} {sid : BitVec 16} {s : State} (hF : Frame o s) :
    FrameOut o (execSessionStatus c sid s) := by
  unfold execSessionStatus
  try dsimp only
  repeat' first
    | with_reducible assumption
    | with_reducible apply State.ok_frame
    | with_reducible apply State.opcode_frame
    | with_reducible apply State.gate_frame

theorem execSessionList_frame {o : State} {c : Cmd} {first : BitVec 16} {s : State} (hF : Frame o s) :
    FrameOut o (execSessionList c first s) := by
  unfold execSessionList
  try dsimp only
  repeat' first
    | with_reducible assumption
    | with_reducible apply State.ok_frame
    | with_reducible apply State.opcode_frame
    | with_reducible apply State.gate_frame

theorem execEngineStatus_frame {o : State} {c : Cmd} {s : State} (hF : Frame o s) :
    FrameOut o (execEngineStatus c s) := by
  unfold execEngineStatus
  try dsimp only
  repeat' first
    | with_reducible assumption
    | with_reducible apply State.ok_frame
    | with_reducible apply State.opcode_frame
    | with_reducible apply State.gate_frame

theorem execPowerStatus_frame {o : State} {c : Cmd} {s : State} (hF : Frame o s) :
    FrameOut o (execPowerStatus c s) := by
  unfold execPowerStatus
  try dsimp only
  repeat' first
    | with_reducible assumption
    | with_reducible apply State.ok_frame
    | with_reducible apply State.opcode_frame

theorem State.putCeiling_frame {o : State} {s : State} {c : Cmd} {cap : Nat} (hF : Frame o s) :
    Frame o (State.putCeiling s c cap) := by
  unfold State.putCeiling
  try dsimp only
  repeat' first
    | with_reducible assumption
    | with_reducible apply State.updPower_frame
    | split
    | fail_if_no_progress (with_reducible refine Frame.rebuild ?_ rfl rfl rfl rfl)

theorem State.putHostReq_frame {o : State} {s : State} {c : Cmd} {cap : Nat} (hF : Frame o s) :
    Frame o (State.putHostReq s c cap) := by
  unfold State.putHostReq
  try dsimp only
  repeat' first
    | with_reducible assumption
    | with_reducible apply State.updPower_frame
    | split
    | fail_if_no_progress (with_reducible refine Frame.rebuild ?_ rfl rfl rfl rfl)

theorem State.capReply_frame {o : State} {s : State} {c : Cmd} {op : BitVec 16} {t : State} (hF : Frame o s) (hF2 : Frame o t) :
    Frame o (State.capReply s c op t) := by
  unfold State.capReply
  try dsimp only
  repeat' first
    | with_reducible assumption
    | with_reducible apply State.ok_frame
    | with_reducible apply State.deny_frame
    | with_reducible apply State.refuseRaise_frame
    | with_reducible apply State.capChanged_frame
    | (with_reducible refine Frame.ite ?_ ?_ <;> intro _)

theorem execCeilingSet_frame {o : State} {c : Cmd} {cap : BitVec 16} {s : State} (hF : Frame o s) :
    FrameOut o (execCeilingSet c cap s) := by
  unfold execCeilingSet
  try dsimp only
  repeat' first
    | with_reducible assumption
    | with_reducible apply State.reply_frame
    | with_reducible apply State.opcode_frame
    | with_reducible apply State.putCeiling_frame
    | with_reducible apply State.capReply_frame
    | with_reducible apply FrameOut.next
    | (with_reducible refine Frame.ite ?_ ?_ <;> intro _)

theorem execHostRequestSet_frame {o : State} {c : Cmd} {cap : BitVec 16} {s : State} (hF : Frame o s) :
    FrameOut o (execHostRequestSet c cap s) := by
  unfold execHostRequestSet
  try dsimp only
  repeat' first
    | with_reducible assumption
    | with_reducible apply State.reply_frame
    | with_reducible apply State.opcode_frame
    | with_reducible apply State.putHostReq_frame
    | with_reducible apply State.capReply_frame
    | with_reducible apply FrameOut.next
    | (with_reducible refine Frame.ite ?_ ?_ <;> intro _)

theorem execTelemetryRead_frame {o : State} {c : Cmd} {flags : Byte} {s : State} (hF : Frame o s) :
    FrameOut o (execTelemetryRead c flags s) := by
  unfold execTelemetryRead
  try dsimp only
  repeat' first
    | with_reducible assumption
    | with_reducible apply State.ok_frame
    | with_reducible apply State.updPower_frame
    | with_reducible apply State.opcode_frame
    | with_reducible apply FrameOut.next
    | (with_reducible refine Frame.ite ?_ ?_ <;> intro _)

end Sys2Proof.Machine
end

