-- ==== Sys2Proof/Laws/FrameOpTest.lean ====
section
/-! SUPPORT. Frame through Machine/OpTest.lean: one lemma for each operation. -/

namespace Sys2Proof.Machine

theorem execBistRun_frame {o : State} {c : Cmd} {parts : BitVec 96} {spec : TargetSpec} {s : State} (hF : Frame o s) :
    FrameOut o (execBistRun c parts spec s) := by
  unfold execBistRun
  try dsimp only
  repeat' first
    | with_reducible assumption
    | with_reducible apply State.defer_frame
    | with_reducible apply State.updBist_frame
    | with_reducible apply State.stageAll_frame
    | with_reducible apply State.opcode_frame
    | with_reducible apply State.gate_frame

theorem execBistResult_frame {o : State} {c : Cmd} {part : Byte} {s : State} (hF : Frame o s) :
    FrameOut o (execBistResult c part s) := by
  unfold execBistResult
  try dsimp only
  repeat' first
    | with_reducible assumption
    | with_reducible apply State.ok_frame
    | with_reducible apply State.opcode_frame

theorem execBistAbort_frame {o : State} {c : Cmd} {part : Byte} {s : State} (hF : Frame o s) :
    FrameOut o (execBistAbort c part s) := by
  unfold execBistAbort
  try dsimp only
  repeat' first
    | with_reducible assumption
    | with_reducible apply State.defer_frame
    | with_reducible apply State.stopTest_frame
    | with_reducible apply State.abortCheck_frame
    | with_reducible apply State.opcode_frame
    | with_reducible apply State.gate_frame
    | (with_reducible refine Frame.foldl ?_ ?_; rotate_left; (intro _ _ _; try dsimp only))

theorem execSpareStatus_frame {o : State} {c : Cmd} {s : State} (hF : Frame o s) :
    FrameOut o (execSpareStatus c s) := by
  unfold execSpareStatus
  try dsimp only
  repeat' first
    | with_reducible assumption
    | with_reducible apply State.ok_frame
    | with_reducible apply State.opcode_frame

theorem execSpareBringInStack_frame {o : State} {c : Cmd} {unit : BitVec 16} {s : State} (hF : Frame o s) :
    FrameOut o (execSpareBringInStack c unit s) := by
  unfold execSpareBringInStack
  try dsimp only
  repeat' first
    | with_reducible assumption
    | with_reducible apply State.defer_frame
    | with_reducible apply State.startMigration_frame
    | with_reducible apply State.opcode_frame
    | with_reducible apply State.gate_frame

theorem execSpareBringIn_frame {o : State} {c : Cmd} {kind : Byte} {unit : BitVec 16} {s : State} (hF : Frame o s) :
    FrameOut o (execSpareBringIn c kind unit s) := by
  unfold execSpareBringIn
  try dsimp only
  repeat' first
    | with_reducible assumption
    | with_reducible apply State.defer_frame
    | with_reducible apply State.bringOut_frame
    | with_reducible apply State.opcode_frame
    | with_reducible apply State.gate_frame

theorem State.snapshot_frame {o : State} {s : State} {n : Nat} (hF : Frame o s) :
    Frame o (State.snapshot s n) := by
  unfold State.snapshot
  try dsimp only
  repeat' first
    | with_reducible assumption
    | with_reducible apply State.setCounter_frame

theorem execCtrRead_frame {o : State} {c : Cmd} {bank : Byte} {first : BitVec 16} {count : BitVec 16} {s : State} (hF : Frame o s) :
    FrameOut o (execCtrRead c bank first count s) := by
  unfold execCtrRead
  try dsimp only
  repeat' first
    | with_reducible assumption
    | with_reducible apply State.ok_frame
    | with_reducible apply State.opcode_frame
    | with_reducible apply State.gate_frame
    | with_reducible apply State.snapshot_frame
    | (with_reducible refine Frame.foldl ?_ ?_; rotate_left; (intro _ _ _; try dsimp only))

theorem execCtrSelect_frame {o : State} {c : Cmd} {bank : Byte} {index : BitVec 16} {event : BitVec 16} {s : State} (hF : Frame o s) :
    FrameOut o (execCtrSelect c bank index event s) := by
  unfold execCtrSelect
  try dsimp only
  repeat' first
    | with_reducible assumption
    | with_reducible apply State.setCounter_frame
    | with_reducible apply State.ok_frame
    | with_reducible apply State.opcode_frame
    | with_reducible apply State.gate_frame

theorem execCtrWindowSet_frame {o : State} {c : Cmd} {bank : Byte} {window : BitVec 32} {s : State} (hF : Frame o s) :
    FrameOut o (execCtrWindowSet c bank window s) := by
  unfold execCtrWindowSet
  try dsimp only
  repeat' first
    | with_reducible assumption
    | with_reducible apply State.setWindow_frame
    | with_reducible apply State.ok_frame
    | with_reducible apply State.opcode_frame
    | with_reducible apply State.gate_frame

theorem execSampleConfig_frame {o : State} {c : Cmd} {bank : Byte} {index : BitVec 16} {period : Word} {enable : Byte} {s : State} (hF : Frame o s) :
    FrameOut o (execSampleConfig c bank index period enable s) := by
  unfold execSampleConfig
  try dsimp only
  repeat' first
    | with_reducible assumption
    | with_reducible apply State.setCounter_frame
    | with_reducible apply State.ok_frame
    | with_reducible apply State.opcode_frame
    | with_reducible apply State.gate_frame

theorem execSampleRead_frame {o : State} {c : Cmd} {max : Byte} {s : State} (hF : Frame o s) :
    FrameOut o (execSampleRead c max s) := by
  unfold execSampleRead
  try dsimp only
  repeat' first
    | with_reducible assumption
    | with_reducible apply State.ok_frame
    | with_reducible apply State.opcode_frame
    | with_reducible apply State.gate_frame
    | with_reducible apply FrameOut.next
    | split
    | fail_if_no_progress (with_reducible refine Frame.rebuild ?_ rfl rfl rfl rfl)

theorem State.putKey_frame {o : State} {s : State} {n : Nat} {k : KeySlot} (hF : Frame o s) :
    Frame o (State.putKey s n k) := by
  unfold State.putKey
  try dsimp only
  repeat' first
    | with_reducible assumption
    | with_reducible apply State.setKey_frame
    | split
    | fail_if_no_progress (with_reducible refine Frame.rebuild ?_ rfl rfl rfl rfl)

theorem State.keyReply_frame {o : State} {s : State} {c : Cmd} {op : BitVec 16} {n : Nat} (hF : Frame o s) :
    Frame o (State.keyReply s c op n) := by
  unfold State.keyReply
  try dsimp only
  repeat' first
    | with_reducible assumption
    | with_reducible apply State.complete_frame

theorem execKeyLoad_frame {o : State} {c : Cmd} {slot : Byte} {mask : Byte} {flags : Byte} {epoch : BitVec 48} {key : BitVec 256} {s : State} (hF : Frame o s) :
    FrameOut o (execKeyLoad c slot mask flags epoch key s) := by
  unfold execKeyLoad
  try dsimp only
  repeat' first
    | with_reducible assumption
    | with_reducible apply State.opcode_frame
    | with_reducible apply State.gate_frame
    | with_reducible apply State.putKey_frame
    | with_reducible apply State.keyReply_frame
    | with_reducible apply FrameOut.next
    | split
    | fail_if_no_progress (with_reducible refine Frame.rebuild ?_ rfl rfl rfl rfl)

theorem execKeyClear_frame {o : State} {c : Cmd} {slot : Byte} {s : State} (hF : Frame o s) :
    FrameOut o (execKeyClear c slot s) := by
  unfold execKeyClear
  try dsimp only
  repeat' first
    | with_reducible assumption
    | with_reducible apply State.opcode_frame
    | with_reducible apply State.gate_frame
    | with_reducible apply State.putKey_frame
    | with_reducible apply State.keyReply_frame

theorem execKeyStatus_frame {o : State} {c : Cmd} {s : State} (hF : Frame o s) :
    FrameOut o (execKeyStatus c s) := by
  unfold execKeyStatus
  try dsimp only
  repeat' first
    | with_reducible assumption
    | with_reducible apply State.ok_frame
    | with_reducible apply State.opcode_frame

theorem execAuthReqSet_frame {o : State} {c : Cmd} {bits : Byte} {s : State} (hF : Frame o s) :
    FrameOut o (execAuthReqSet c bits s) := by
  unfold execAuthReqSet
  try dsimp only
  repeat' first
    | with_reducible assumption
    | with_reducible apply State.ok_frame
    | with_reducible apply State.opcode_frame
    | with_reducible apply State.gate_frame
    | with_reducible apply FrameOut.next
    | split
    | fail_if_no_progress (with_reducible refine Frame.rebuild ?_ rfl rfl rfl rfl)

theorem execTc7AllowSet_frame {o : State} {c : Cmd} {allow : BitVec 128} {s : State} (hF : Frame o s) :
    FrameOut o (execTc7AllowSet c allow s) := by
  unfold execTc7AllowSet
  try dsimp only
  repeat' first
    | with_reducible assumption
    | with_reducible apply State.ok_frame
    | with_reducible apply State.opcode_frame
    | with_reducible apply FrameOut.next
    | split
    | fail_if_no_progress (with_reducible refine Frame.rebuild ?_ rfl rfl rfl rfl)

theorem execAuthFailRead_frame {o : State} {c : Cmd} {s : State} (hF : Frame o s) :
    FrameOut o (execAuthFailRead c s) := by
  unfold execAuthFailRead
  try dsimp only
  repeat' first
    | with_reducible assumption
    | with_reducible apply State.ok_frame
    | with_reducible apply State.opcode_frame

end Sys2Proof.Machine
end

