-- ==== Sys2Proof/Laws/FrameResetOps.lean ====
section
/-! SUPPORT. Frame through Machine/ResetOps.lean: one lemma for each operation. -/

namespace Sys2Proof.Machine

theorem State.zeroBank_frame {o : State} {s : State} {n : Nat} (hF : Frame o s) :
    Frame o (State.zeroBank s n) := by
  unfold State.zeroBank
  try dsimp only
  repeat' first
    | with_reducible assumption
    | with_reducible apply State.setCounter_frame
    | (with_reducible refine Frame.foldl ?_ ?_; rotate_left; (intro _ _ _; try dsimp only))

theorem State.stopStripes_frame {o : State} {s : State} {n : Nat} (hF : Frame o s) :
    Frame o (State.stopStripes s n) := by
  unfold State.stopStripes
  try dsimp only
  repeat' first
    | with_reducible assumption
    | with_reducible apply State.setStripeSt_frame

theorem State.resetEgress_frame {o : State} {s : State} {n : Nat} (hF : Frame o s) :
    Frame o (State.resetEgress s n) := by
  unfold State.resetEgress
  try dsimp only
  repeat' first
    | with_reducible assumption
    | with_reducible apply State.setPace_frame
    | (with_reducible refine Frame.foldl ?_ ?_; rotate_left; (intro _ _ _; try dsimp only))
    | split
    | fail_if_no_progress (with_reducible refine Frame.rebuild ?_ rfl rfl rfl rfl)

theorem State.clearPort_frame {o : State} {s : State} {n : Nat} (hF : Frame o s) :
    Frame o (State.clearPort s n) := by
  unfold State.clearPort
  try dsimp only
  repeat' first
    | with_reducible assumption
    | with_reducible apply State.updPort_frame
    | with_reducible apply State.stripeDown_frame
    | with_reducible apply State.zeroBank_frame
    | with_reducible apply State.stopStripes_frame
    | with_reducible apply State.resetEgress_frame
    | with_reducible apply FabMem.afterReset_frame
    | (with_reducible refine Frame.foldl ?_ ?_; rotate_left; (intro _ _ _; try dsimp only))
    | (with_reducible refine Frame.ite ?_ ?_ <;> intro _)

theorem State.wipePort_frame {o : State} {s : State} {n : Nat} (hF : Frame o s) :
    Frame o (State.wipePort s n) := by
  unfold State.wipePort
  try dsimp only
  repeat' first
    | with_reducible assumption
    | with_reducible apply State.updPort_frame
    | with_reducible apply State.zeroBank_frame
    | with_reducible apply State.stopStripes_frame

theorem State.resumePort_frame {o : State} {s : State} {n : Nat} (hF : Frame o s) :
    Frame o (State.resumePort s n) := by
  unfold State.resumePort
  try dsimp only
  repeat' first
    | with_reducible assumption
    | with_reducible apply State.setStripeSt_frame
    | with_reducible apply State.enterSend_frame
    | (with_reducible refine Frame.foldl ?_ ?_; rotate_left; (intro _ _ _; try dsimp only))
    | (with_reducible refine Frame.ite ?_ ?_ <;> intro _)

theorem State.clearColl_frame {o : State} {s : State} (hF : Frame o s) :
    Frame o (State.clearColl s) := by
  unfold State.clearColl
  try dsimp only
  repeat' first
    | with_reducible assumption
    | with_reducible apply State.dropColl_frame
    | (with_reducible refine Frame.foldl ?_ ?_; rotate_left; (intro _ _ _; try dsimp only))
    | split
    | fail_if_no_progress (with_reducible refine Frame.rebuild ?_ rfl rfl rfl rfl)

theorem FabMem.afterReset_cells (m : FabMem) : m.afterReset.cells = m.cells := by
  unfold FabMem.afterReset
  dsimp only

theorem FabMem.afterModule_cells (m : FabMem) : m.afterModule.cells = m.cells := by
  unfold FabMem.afterModule
  dsimp only
  exact FabMem.afterReset_cells m

theorem ringOk_reset : RingOk resetRing := by
  refine ⟨?_, ?_, ?_, ?_, ?_, ?_⟩ <;> decide

theorem strapOk_side {s : State} (h : s.pkg.trayPos < 4) (e : s.side = resetSide s.pkg.trayPos) : StrapOk s :=
  ⟨h, by rw [e]; rfl⟩

theorem State.clearSwitch_frame {o : State} {s : State} (hF : Frame o s) :
    Frame o (State.clearSwitch s) := by
  unfold State.clearSwitch
  try dsimp only
  repeat' first
    | with_reducible assumption
    | with_reducible apply State.wipePort_frame
    | (with_reducible refine Frame.foldl ?_ ?_; rotate_left; (intro _ _ _; try dsimp only))
    | split
    | fail_if_no_progress (with_reducible refine Frame.rebuild ?_ rfl rfl rfl rfl)

theorem State.clearMgmt_frame {o s : State} (hF : Frame o s) : Frame o s.clearMgmt :=
  hF.trans ⟨rfl, List.prefix_rfl, Nat.le_refl _, id, fun _ => ringOk_reset, id⟩

theorem State.clearCounters_frame {o : State} {s : State} (hF : Frame o s) :
    Frame o (State.clearCounters s) := by
  unfold State.clearCounters
  try dsimp only
  repeat' first
    | with_reducible assumption
    | with_reducible apply State.zeroBank_frame
    | (with_reducible refine Frame.foldl ?_ ?_; rotate_left; (intro _ _ _; try dsimp only))
    | split
    | fail_if_no_progress (with_reducible refine Frame.rebuild ?_ rfl rfl rfl rfl)

theorem State.clearShared_frame {o : State} {s : State} (hF : Frame o s) :
    Frame o (State.clearShared s) := by
  unfold State.clearShared
  try dsimp only
  repeat' first
    | with_reducible assumption
    | with_reducible apply State.clearSwitch_frame
    | with_reducible apply State.clearMgmt_frame
    | with_reducible apply State.clearCounters_frame
    | split
    | fail_if_no_progress (with_reducible refine Frame.rebuild ?_ rfl rfl rfl rfl)

theorem State.disablePorts_frame {o : State} {s : State} (hF : Frame o s) :
    Frame o (State.disablePorts s) := by
  unfold State.disablePorts
  try dsimp only
  repeat' first
    | with_reducible assumption
    | with_reducible apply State.updPort_frame
    | (with_reducible refine Frame.foldl ?_ ?_; rotate_left; (intro _ _ _; try dsimp only))

theorem State.clearModule_frame {o s : State} (hF : Frame o s) : Frame o s.clearModule := by
  have h := State.disablePorts_frame (State.clearShared_frame hF)
  unfold State.clearModule
  generalize s.clearShared.disablePorts = c at h
  exact Frame.rebuild h rfl (FabMem.afterModule_cells c.mem) rfl rfl

theorem State.stopForReset_frame {o : State} {s : State} {l : List Nat} (hF : Frame o s) :
    Frame o (State.stopForReset s l) := by
  unfold State.stopForReset
  try dsimp only
  repeat' first
    | with_reducible assumption
    | with_reducible apply State.stopTest_frame
    | with_reducible apply State.abortCheck_frame
    | with_reducible apply State.endRestore_frame
    | (with_reducible refine Frame.foldl ?_ ?_; rotate_left; (intro _ _ _; try dsimp only))

theorem State.beginColl_frame {o : State} {s : State} (hF : Frame o s) :
    Frame o (State.beginColl s) := by
  unfold State.beginColl
  try dsimp only
  repeat' first
    | with_reducible assumption
    | with_reducible apply State.collResetAborts_frame
    | with_reducible apply State.clearColl_frame
    | (with_reducible refine Frame.ite ?_ ?_ <;> intro _)
    | split
    | fail_if_no_progress (with_reducible refine Frame.rebuild ?_ rfl rfl rfl rfl)

theorem State.selfRefreshOn_frame {o : State} {s : State} (hF : Frame o s) :
    Frame o (State.selfRefreshOn s) := by
  unfold State.selfRefreshOn
  try dsimp only
  repeat' first
    | with_reducible assumption
    | split
    | fail_if_no_progress (with_reducible refine Frame.rebuild ?_ rfl rfl rfl rfl)

theorem State.setFwd_frame {o : State} {s : State} {high : Bool} (hF : Frame o s) :
    Frame o (State.setFwd s high) := by
  unfold State.setFwd
  try dsimp only
  repeat' first
    | with_reducible assumption
    | with_reducible apply State.emit_frame
    | (with_reducible refine Frame.ite ?_ ?_ <;> intro _)
    | split
    | fail_if_no_progress (with_reducible refine Frame.rebuild ?_ rfl rfl rfl rfl)

theorem State.startReset_frame {o s : State} {r : ResetReq} (hF : Frame o s) : Frame o (s.startReset r) := by
  unfold State.startReset
  extract_lets now a b m d
  have ha : Frame o a := State.stopForReset_frame hF
  have hb : Frame o b := State.finishAll_frame ha
  have hc : Frame o d := Frame.rebuild hb rfl rfl rfl rfl
  clear_value d
  split
  · exact State.clearPort_frame hc
  · exact State.clearSwitch_frame hc
  · exact Frame.rebuild hc rfl (FabMem.afterReset_cells _) rfl rfl
  · exact State.beginColl_frame hc
  · exact State.setFwd_frame (State.clearMgmt_frame hc)
  · exact State.setFwd_frame (State.selfRefreshOn_frame (State.clearModule_frame hc))

theorem State.endReset_frame {o s : State} (hF : Frame o s) : Frame o s.endReset := by
  unfold State.endReset
  split
  · exact hF
  · rename_i r rest _
    have h : Frame o (if r.scope = 4 ∧ s.mgmt.markerWait = true then s.clearColl else s) :=
      Frame.ite (fun _ => State.clearColl_frame hF) fun _ => hF
    generalize (if r.scope = 4 ∧ s.mgmt.markerWait = true then s.clearColl else s) = a at h
    extract_lets w m k l b
    have hb : Frame o b := Frame.rebuild h rfl rfl rfl rfl
    clear_value b
    split
    · exact State.resumePort_frame hb
    · exact Frame.foldl hb fun _ _ h => State.resumePort_frame h
    · exact State.setFwd_frame (Frame.rebuild hb rfl rfl rfl rfl)
    · exact State.setFwd_frame (Frame.rebuild hb rfl rfl rfl rfl)
    · exact hb

theorem State.landReset_frame {o s : State} (hF : Frame o s) : Frame o s.landReset :=
  hF.trans ⟨rfl, List.prefix_append _ _, Nat.le_refl _, id, fun _ => ringOk_reset, fun h => strapOk_side h.1 rfl⟩

theorem State.powerOnReset_frame {o s : State} (hF : Frame o s) : Frame o s.powerOnReset :=
  hF.trans ⟨rfl, List.prefix_append _ _, Nat.le_refl _, fun _ => rfl, fun _ => ringOk_reset, fun h => strapOk_side h.1 rfl⟩

theorem State.holdLand_frame {o : State} {s : State} (hF : Frame o s) :
    Frame o (State.holdLand s) := by
  unfold State.holdLand
  try dsimp only
  repeat' first
    | with_reducible assumption
    | with_reducible apply State.landReset_frame
    | (with_reducible refine Frame.ite ?_ ?_ <;> intro _)

theorem State.startSequence_frame {o : State} {s : State} {land : Bool} (hF : Frame o s) :
    Frame o (State.startSequence s land) := by
  unfold State.startSequence
  try dsimp only
  repeat' first
    | with_reducible assumption
    | (with_reducible refine Frame.ite ?_ ?_ <;> intro _)
    | split
    | fail_if_no_progress (with_reducible refine Frame.rebuild ?_ rfl rfl rfl rfl)

theorem State.sampleStraps_frame {o s : State} {n : Nat} {b : Bool} (hF : Frame o s) (h : n < 4) : Frame o (s.sampleStraps n b) :=
  hF.trans ⟨rfl, List.prefix_rfl, Nat.le_refl _, id, id, fun _ => ⟨h, rfl⟩⟩

theorem State.zeroise_frame {o : State} {s : State} (hF : Frame o s) :
    Frame o (State.zeroise s) := by
  unfold State.zeroise
  try dsimp only
  repeat' first
    | with_reducible assumption
    | with_reducible apply State.updBist_frame
    | split
    | fail_if_no_progress (with_reducible refine Frame.rebuild ?_ rfl rfl rfl rfl)

theorem State.loadTap_frame {o : State} {s : State} {code : BitVec 8} (hF : Frame o s) :
    Frame o (State.loadTap s code) := by
  unfold State.loadTap
  try dsimp only
  repeat' first
    | with_reducible assumption
    | with_reducible apply State.holdLand_frame
    | with_reducible apply State.startSequence_frame
    | with_reducible apply State.zeroise_frame
    | (with_reducible refine Frame.ite ?_ ?_ <;> intro _)
    | split
    | fail_if_no_progress (with_reducible refine Frame.rebuild ?_ rfl rfl rfl rfl)

theorem State.readFuses_frame {o : State} {s : State} (hF : Frame o s) :
    Frame o (State.readFuses s) := by
  unfold State.readFuses
  try dsimp only
  repeat' first
    | with_reducible assumption
    | with_reducible apply State.updBist_frame
    | with_reducible apply State.updMem_frame
    | with_reducible apply State.loseSlot_frame
    | with_reducible apply State.setRole_frame
    | (with_reducible refine Frame.foldl ?_ ?_; rotate_left; (intro _ _ _; try dsimp only))
    | (with_reducible refine Frame.ite ?_ ?_ <;> intro _)
    | split
    | fail_if_no_progress (with_reducible refine Frame.rebuild ?_ rfl rfl rfl rfl)
    | dsimp only

theorem State.failStack_frame {o : State} {s : State} {bad : List Nat} {n : Nat} (hF : Frame o s) :
    Frame o (State.failStack s bad n) := by
  unfold State.failStack
  try dsimp only
  repeat' first
    | with_reducible assumption
    | with_reducible apply State.setStack_frame
    | with_reducible apply State.emit_frame
    | with_reducible apply State.updBist_frame
    | with_reducible apply State.updMem_frame
    | with_reducible apply State.loseSlot_frame
    | with_reducible apply State.changeStack_frame
    | (with_reducible refine Frame.ite ?_ ?_ <;> intro _)
    | split
    | fail_if_no_progress (with_reducible refine Frame.rebuild ?_ rfl rfl rfl rfl)
    | exact rfl

theorem State.powerOnTest_frame {o : State} {s : State} {tp : Nat} {te : TestEnd} (hF : Frame o s) :
    Frame o (State.powerOnTest s tp te) := by
  unfold State.powerOnTest
  try dsimp only
  repeat' first
    | with_reducible assumption
    | with_reducible apply State.endTest_frame
    | with_reducible apply State.endRestore_frame
    | with_reducible apply State.startTest_frame

theorem State.powerOnSlots_frame {o : State} {s : State} (hF : Frame o s) :
    Frame o (State.powerOnSlots s) := by
  unfold State.powerOnSlots
  try dsimp only
  repeat' first
    | with_reducible assumption
    | with_reducible apply State.draw_frame
    | with_reducible apply State.updBist_frame

end Sys2Proof.Machine
end

