-- ==== Sys2Proof/Laws/FrameResets.lean ====
section
/-! SUPPORT. Frame through Machine/Resets.lean: one lemma for each operation. -/

namespace Sys2Proof.Machine

theorem State.stageReset_frame {o : State} {s : State} {c : Cmd} {scope unit : Nat} (hF : Frame o s) :
    Frame o (State.stageReset s c scope unit) := by
  unfold State.stageReset
  try dsimp only
  repeat' first
    | with_reducible assumption
    | with_reducible apply State.draw_frame
    | with_reducible apply State.ok_frame
    | with_reducible refine State.draw_frame_pair ?_ (by with_reducible assumption)
    | split
    | fail_if_no_progress (with_reducible refine Frame.rebuild ?_ rfl rfl rfl rfl)

theorem State.runReset_frame {o : State} {s : State} {c : Cmd} {scope unit : Nat} (hF : Frame o s) :
    Frame o (State.runReset s c scope unit) := by
  unfold State.runReset
  try dsimp only
  repeat' first
    | with_reducible assumption
    | with_reducible apply State.ok_frame
    | with_reducible apply State.deny_frame
    | with_reducible apply State.stageReset_frame
    | (with_reducible refine Frame.ite ?_ ?_ <;> intro _)
    | split

theorem execResetPort_frame {o : State} {c : Cmd} {unit : Byte} {s : State} (hF : Frame o s) :
    FrameOut o (execResetPort c unit s) := by
  unfold execResetPort
  try dsimp only
  repeat' first
    | with_reducible assumption
    | with_reducible apply State.opcode_frame
    | with_reducible apply State.runReset_frame

theorem execResetSwitch_frame {o : State} {c : Cmd} {unit : Byte} {s : State} (hF : Frame o s) :
    FrameOut o (execResetSwitch c unit s) := by
  unfold execResetSwitch
  try dsimp only
  repeat' first
    | with_reducible assumption
    | with_reducible apply State.opcode_frame
    | with_reducible apply State.runReset_frame

theorem execResetMemory_frame {o : State} {c : Cmd} {unit : Byte} {s : State} (hF : Frame o s) :
    FrameOut o (execResetMemory c unit s) := by
  unfold execResetMemory
  try dsimp only
  repeat' first
    | with_reducible assumption
    | with_reducible apply State.opcode_frame
    | with_reducible apply State.runReset_frame

theorem execResetCollective_frame {o : State} {c : Cmd} {unit : Byte} {s : State} (hF : Frame o s) :
    FrameOut o (execResetCollective c unit s) := by
  unfold execResetCollective
  try dsimp only
  repeat' first
    | with_reducible assumption
    | with_reducible apply State.opcode_frame
    | with_reducible apply State.runReset_frame

theorem execResetManagement_frame {o : State} {c : Cmd} {unit : Byte} {s : State} (hF : Frame o s) :
    FrameOut o (execResetManagement c unit s) := by
  unfold execResetManagement
  try dsimp only
  repeat' first
    | with_reducible assumption
    | with_reducible apply State.opcode_frame
    | with_reducible apply State.runReset_frame

theorem execResetModule_frame {o : State} {c : Cmd} {unit : Byte} {s : State} (hF : Frame o s) :
    FrameOut o (execResetModule c unit s) := by
  unfold execResetModule
  try dsimp only
  repeat' first
    | with_reducible assumption
    | with_reducible apply State.opcode_frame
    | with_reducible apply State.runReset_frame

theorem execResetStatus_frame {o : State} {c : Cmd} {s : State} (hF : Frame o s) :
    FrameOut o (execResetStatus c s) := by
  unfold execResetStatus
  try dsimp only
  repeat' first
    | with_reducible assumption
    | with_reducible apply State.ok_frame
    | with_reducible apply State.opcode_frame

theorem execResetStart_frame {o : State} {s : State} (hF : Frame o s) :
    FrameOut o (execResetStart s) := by
  unfold execResetStart
  try dsimp only
  repeat' first
    | with_reducible assumption
    | with_reducible apply State.startReset_frame
    | with_reducible apply FrameOut.next
    | (with_reducible refine FrameOut.ite ?_ ?_ <;> intro _)
    | split

theorem execResetMarkerWaitExpiry_frame {o : State} {s : State} (hF : Frame o s) :
    FrameOut o (execResetMarkerWaitExpiry s) := by
  unfold execResetMarkerWaitExpiry
  try dsimp only
  repeat' first
    | with_reducible assumption
    | with_reducible apply State.clearColl_frame
    | with_reducible apply FrameOut.next
    | (with_reducible refine FrameOut.ite ?_ ?_ <;> intro _)

theorem execResetEnd_frame {o : State} {s : State} (hF : Frame o s) :
    FrameOut o (execResetEnd s) := by
  unfold execResetEnd
  try dsimp only
  repeat' first
    | with_reducible assumption
    | with_reducible apply State.endReset_frame
    | with_reducible apply FrameOut.next
    | (with_reducible refine FrameOut.ite ?_ ?_ <;> intro _)

theorem execPorNFall_frame {o : State} {s : State} (hF : Frame o s) :
    FrameOut o (execPorNFall s) := by
  unfold execPorNFall
  try dsimp only
  repeat' first
    | with_reducible assumption
    | with_reducible apply State.powerOnReset_frame
    | with_reducible apply FrameOut.next
    | (with_reducible refine FrameOut.ite ?_ ?_ <;> intro _)
    | split
    | fail_if_no_progress (with_reducible refine Frame.rebuild ?_ rfl rfl rfl rfl)

theorem execPorNRise_frame {o : State} {trayPos : Fin 4} {bistStrap : Bool} {lowLongEnough : Bool} {s : State} (hF : Frame o s) :
    FrameOut o (execPorNRise trayPos bistStrap lowLongEnough s) := by
  unfold execPorNRise
  refine FrameOut.ite (fun _ => FrameOut.next hF) fun _ => FrameOut.ite (fun _ => FrameOut.fault) fun _ => FrameOut.next ?_
  exact State.startSequence_frame (State.sampleStraps_frame (Frame.rebuild hF rfl rfl rfl rfl) trayPos.isLt)

theorem execRstNAssert_frame {o : State} {s : State} (hF : Frame o s) :
    FrameOut o (execRstNAssert s) := by
  unfold execRstNAssert
  try dsimp only
  repeat' first
    | with_reducible assumption
    | with_reducible apply State.holdLand_frame
    | with_reducible apply FrameOut.next
    | (with_reducible refine FrameOut.ite ?_ ?_ <;> intro _)
    | split
    | fail_if_no_progress (with_reducible refine Frame.rebuild ?_ rfl rfl rfl rfl)

theorem execRstNRelease_frame {o : State} {trayPos : Fin 4} {bistStrap : Bool} {s : State} (hF : Frame o s) :
    FrameOut o (execRstNRelease trayPos bistStrap s) := by
  unfold execRstNRelease
  refine FrameOut.ite (fun _ => FrameOut.next hF) fun _ => FrameOut.next ?_
  exact State.startSequence_frame (State.sampleStraps_frame (Frame.rebuild hF rfl rfl rfl rfl) trayPos.isLt)

theorem execRailLeavesRegulation_frame {o : State} {rail : Rail} {belowTenPercent : Bool} {s : State} (hF : Frame o s) :
    FrameOut o (execRailLeavesRegulation rail belowTenPercent s) := by
  unfold execRailLeavesRegulation
  refine FrameOut.ite (fun _ => FrameOut.next (State.updMem_frame_cells hF fun _ => rfl)) fun _ =>
    FrameOut.ite (fun _ => FrameOut.next (State.emit_frame (Frame.rebuild hF rfl rfl rfl rfl))) fun _ => FrameOut.next hF

theorem execPerstNAssert_frame {o : State} {s : State} (hF : Frame o s) :
    FrameOut o (execPerstNAssert s) := by
  unfold execPerstNAssert
  try dsimp only
  repeat' first
    | with_reducible assumption
    | with_reducible apply FrameOut.next

theorem execThermtrip_frame {o : State} {s : State} (hF : Frame o s) :
    FrameOut o (execThermtrip s) := by
  unfold execThermtrip
  try dsimp only
  repeat' first
    | with_reducible assumption
    | with_reducible apply State.emit_frame
    | with_reducible apply State.setFwd_frame
    | with_reducible apply FrameOut.next
    | (with_reducible refine FrameOut.ite ?_ ?_ <;> intro _)
    | split
    | fail_if_no_progress (with_reducible refine Frame.rebuild ?_ rfl rfl rfl rfl)

theorem execFuseReadDone_frame {o : State} {s : State} (hF : Frame o s) :
    FrameOut o (execFuseReadDone s) := by
  unfold execFuseReadDone
  try dsimp only
  repeat' first
    | with_reducible assumption
    | with_reducible apply State.readFuses_frame
    | with_reducible apply FrameOut.next
    | (with_reducible refine FrameOut.ite ?_ ?_ <;> intro _)
    | split
    | fail_if_no_progress (with_reducible refine Frame.rebuild ?_ rfl rfl rfl rfl)

theorem execPowerOnSelfTestDone_frame {o : State} {results : List (Nat × TestEnd)} {s : State} (hF : Frame o s) :
    FrameOut o (execPowerOnSelfTestDone results s) := by
  unfold execPowerOnSelfTestDone
  try dsimp only
  repeat' first
    | with_reducible assumption
    | with_reducible apply State.zeroise_frame
    | with_reducible apply State.powerOnTest_frame
    | with_reducible apply State.powerOnSlots_frame
    | (with_reducible refine Frame.foldl ?_ ?_; rotate_left; (intro _ _ _; try dsimp only))
    | with_reducible apply FrameOut.next
    | (with_reducible refine FrameOut.ite ?_ ?_ <;> intro _)
    | split
    | fail_if_no_progress (with_reducible refine Frame.rebuild ?_ rfl rfl rfl rfl)

theorem execStackTrainingDone_frame {o : State} {failed : List Nat} {s : State} (hF : Frame o s) :
    FrameOut o (execStackTrainingDone failed s) := by
  unfold execStackTrainingDone
  try dsimp only
  repeat' first
    | with_reducible assumption
    | with_reducible apply State.failStack_frame
    | (with_reducible refine Frame.foldl ?_ ?_; rotate_left; (intro _ _ _; try dsimp only))
    | with_reducible apply FrameOut.next
    | (with_reducible refine FrameOut.ite ?_ ?_ <;> intro _)
    | split
    | fail_if_no_progress (with_reducible refine Frame.rebuild ?_ rfl rfl rfl rfl)

theorem execManagementReady_frame {o : State} {s : State} (hF : Frame o s) :
    FrameOut o (execManagementReady s) := by
  unfold execManagementReady
  try dsimp only
  repeat' first
    | with_reducible assumption
    | with_reducible apply State.setFwd_frame
    | with_reducible apply FrameOut.next
    | (with_reducible refine FrameOut.ite ?_ ?_ <;> intro _)
    | split
    | fail_if_no_progress (with_reducible refine Frame.rebuild ?_ rfl rfl rfl rfl)

theorem execTrstNAssert_frame {o : State} {s : State} (hF : Frame o s) :
    FrameOut o (execTrstNAssert s) := by
  unfold execTrstNAssert
  try dsimp only
  repeat' first
    | with_reducible assumption
    | with_reducible apply State.loadTap_frame
    | with_reducible apply FrameOut.next

theorem execTapExtest_frame {o : State} {s : State} (hF : Frame o s) :
    FrameOut o (execTapExtest s) := by
  unfold execTapExtest
  try dsimp only
  repeat' first
    | with_reducible assumption
    | with_reducible apply State.loadTap_frame
    | with_reducible apply FrameOut.next

theorem execTapIdcode_frame {o : State} {s : State} (hF : Frame o s) :
    FrameOut o (execTapIdcode s) := by
  unfold execTapIdcode
  try dsimp only
  repeat' first
    | with_reducible assumption
    | with_reducible apply State.loadTap_frame
    | with_reducible apply FrameOut.next

theorem execTapSamplePreload_frame {o : State} {s : State} (hF : Frame o s) :
    FrameOut o (execTapSamplePreload s) := by
  unfold execTapSamplePreload
  try dsimp only
  repeat' first
    | with_reducible assumption
    | with_reducible apply State.loadTap_frame
    | with_reducible apply FrameOut.next

theorem execTapClamp_frame {o : State} {s : State} (hF : Frame o s) :
    FrameOut o (execTapClamp s) := by
  unfold execTapClamp
  try dsimp only
  repeat' first
    | with_reducible assumption
    | with_reducible apply State.loadTap_frame
    | with_reducible apply FrameOut.next

theorem execTapHighz_frame {o : State} {s : State} (hF : Frame o s) :
    FrameOut o (execTapHighz s) := by
  unfold execTapHighz
  try dsimp only
  repeat' first
    | with_reducible assumption
    | with_reducible apply State.loadTap_frame
    | with_reducible apply FrameOut.next

theorem execTapScanAccess_frame {o : State} {s : State} (hF : Frame o s) :
    FrameOut o (execTapScanAccess s) := by
  unfold execTapScanAccess
  try dsimp only
  repeat' first
    | with_reducible assumption
    | with_reducible apply State.loadTap_frame
    | with_reducible apply FrameOut.next

theorem execTapBypass_frame {o : State} {code : TapCode} {s : State} (hF : Frame o s) :
    FrameOut o (execTapBypass code s) := by
  unfold execTapBypass
  try dsimp only
  repeat' first
    | with_reducible assumption
    | with_reducible apply State.loadTap_frame
    | with_reducible apply FrameOut.next
    | (with_reducible refine FrameOut.ite ?_ ?_ <;> intro _)

theorem execTapInstructionRelease_frame {o : State} {code : TapCode} {s : State} (hF : Frame o s) :
    FrameOut o (execTapInstructionRelease code s) := by
  unfold execTapInstructionRelease
  try dsimp only
  repeat' first
    | with_reducible assumption
    | with_reducible apply State.loadTap_frame
    | with_reducible apply FrameOut.next
    | (with_reducible refine FrameOut.ite ?_ ?_ <;> intro _)

end Sys2Proof.Machine
end

