-- ==== Sys2Proof/Laws/FrameCommandPath.lean ====
section
/-! SUPPORT. Frame through Machine/CommandPath.lean: one lemma for each operation. -/

namespace Sys2Proof.Machine

theorem State.takePacket_frame {o : State} {s : State} {k : Src × Nat} (hF : Frame o s) :
    Frame o (State.takePacket s k) := by
  unfold State.takePacket
  try dsimp only
  repeat' first
    | with_reducible assumption
    | split
    | fail_if_no_progress (with_reducible refine Frame.rebuild ?_ rfl rfl rfl rfl)

theorem State.seeController_frame {o : State} {s : State} {src : Src} (hF : Frame o s) :
    Frame o (State.seeController s src) := by
  unfold State.seeController
  try dsimp only
  repeat' first
    | with_reducible assumption
    | split
    | fail_if_no_progress (with_reducible refine Frame.rebuild ?_ rfl rfl rfl rfl)

theorem State.replay_frame {o : State} {s : State} {c : Cmd} {op : BitVec 16} (hF : Frame o s) :
    Frame o (State.replay s c op) := by
  unfold State.replay
  try dsimp only
  repeat' first
    | with_reducible assumption
    | with_reducible apply State.deliver_frame
    | with_reducible apply State.completeAs_frame
    | split

theorem runLow_frame {o : State} {i : Instr} {s : State} (hF : Frame o s) :
    FrameOptOut o (runLow i s) := by
  unfold runLow
  try dsimp only
  repeat' first
    | with_reducible assumption
    | with_reducible apply execIdentityRead_frame
    | with_reducible apply execCwRead_frame
    | with_reducible apply execCwWrite_frame
    | with_reducible apply execCwModify_frame
    | with_reducible apply execNoticeRead_frame
    | with_reducible apply execBeatStatusRead_frame
    | with_reducible apply execBeatRootSet_frame
    | with_reducible apply execBeatPeriodSet_frame
    | with_reducible apply execAgendaStageCwWrite_frame
    | with_reducible apply execAgendaStagePowerStep_frame
    | with_reducible apply execAgendaStageBistStop_frame
    | with_reducible apply execAgendaStageBistStart_frame
    | with_reducible apply execAgendaStageMark_frame
    | with_reducible apply execAgendaCancel_frame
    | with_reducible apply execAgendaRead_frame
    | with_reducible apply execTableImageOpen_frame
    | with_reducible apply execTableImageWrite_frame
    | with_reducible apply execTableImageSeal_frame
    | with_reducible apply execTableStage_frame
    | with_reducible apply execTableImageDiscard_frame
    | with_reducible apply execTableRead_frame
    | with_reducible apply execTableStatus_frame
    | with_reducible apply execTableImageList_frame
    | with_reducible apply execHold_frame
    | with_reducible apply execRelease_frame
    | with_reducible apply FrameOptOut.some
    | with_reducible exact FrameOptOut.none
    | split

theorem runMid_frame {o : State} {i : Instr} {s : State} (hF : Frame o s) :
    FrameOptOut o (runMid i s) := by
  unfold runMid
  try dsimp only
  repeat' first
    | with_reducible assumption
    | with_reducible apply execPortStatus_frame
    | with_reducible apply execLaneStatus_frame
    | with_reducible apply execPortAdminDisable_frame
    | with_reducible apply execPortAdminEnable_frame
    | with_reducible apply execPortAdminRetrain_frame
    | with_reducible apply execPortSleep_frame
    | with_reducible apply execPortWake_frame
    | with_reducible apply execEyeScan_frame
    | with_reducible apply execEqOverride_frame
    | with_reducible apply execSpareSwap_frame
    | with_reducible apply execSpareRestore_frame
    | with_reducible apply execCartRead_frame
    | with_reducible apply execCartWrite_frame
    | with_reducible apply execSwitchStatus_frame
    | with_reducible apply execVoqRead_frame
    | with_reducible apply execCreditRead_frame
    | with_reducible apply execPortDrain_frame
    | with_reducible apply execHeldDiscard_frame
    | with_reducible apply execMemStatus_frame
    | with_reducible apply execMemAlloc_frame
    | with_reducible apply execMemFree_frame
    | with_reducible apply execMemFill_frame
    | with_reducible apply execMemRead_frame
    | with_reducible apply execMemWrite_frame
    | with_reducible apply execEccLogRead_frame
    | with_reducible apply FrameOptOut.some
    | with_reducible exact FrameOptOut.none
    | split

theorem runHigh_frame {o : State} {i : Instr} {s : State} (hF : Frame o s) :
    FrameOptOut o (runHigh i s) := by
  unfold runHigh
  try dsimp only
  repeat' first
    | with_reducible assumption
    | with_reducible apply execSessionOpen_frame
    | with_reducible apply execSessionClose_frame
    | with_reducible apply execSessionCloseForce_frame
    | with_reducible apply execSessionStatus_frame
    | with_reducible apply execSessionList_frame
    | with_reducible apply execEngineStatus_frame
    | with_reducible apply execPowerStatus_frame
    | with_reducible apply execCeilingSet_frame
    | with_reducible apply execHostRequestSet_frame
    | with_reducible apply execTelemetryRead_frame
    | with_reducible apply execBistRun_frame
    | with_reducible apply execBistResult_frame
    | with_reducible apply execBistAbort_frame
    | with_reducible apply execSpareStatus_frame
    | with_reducible apply execSpareBringInStack_frame
    | with_reducible apply execSpareBringIn_frame
    | with_reducible apply execCtrRead_frame
    | with_reducible apply execCtrSelect_frame
    | with_reducible apply execCtrWindowSet_frame
    | with_reducible apply execSampleConfig_frame
    | with_reducible apply execSampleRead_frame
    | with_reducible apply execKeyLoad_frame
    | with_reducible apply execKeyClear_frame
    | with_reducible apply execKeyStatus_frame
    | with_reducible apply execAuthReqSet_frame
    | with_reducible apply execTc7AllowSet_frame
    | with_reducible apply execAuthFailRead_frame
    | with_reducible apply execResetPort_frame
    | with_reducible apply execResetSwitch_frame
    | with_reducible apply execResetMemory_frame
    | with_reducible apply execResetCollective_frame
    | with_reducible apply execResetManagement_frame
    | with_reducible apply execResetModule_frame
    | with_reducible apply execResetStatus_frame
    | with_reducible apply FrameOptOut.some
    | with_reducible exact FrameOptOut.none
    | split

theorem runOpcode_frame {o : State} {i : Instr} {s : State} (hF : Frame o s) : FrameOut o (runOpcode i s) := by
  unfold runOpcode
  split
  · exact runLow_frame hF _ ‹_›
  · split
    · exact runMid_frame hF _ ‹_›
    · cases e : runHigh i s with
      | none => exact FrameOut.next hF
      | some x => exact runHigh_frame hF _ e

theorem State.runParams_frame {o : State} {s : State} {c : Cmd} {op : BitVec 16} {b p : Bytes} (hF : Frame o s) :
    FrameOut o (State.runParams s c op b p) := by
  unfold State.runParams
  try dsimp only
  repeat' first
    | with_reducible assumption
    | with_reducible apply State.completeAs_frame
    | with_reducible apply State.complete_frame
    | with_reducible apply runOpcode_frame
    | with_reducible apply FrameOut.next
    | split

theorem State.runPacket_frame {o : State} {s : State} {src : Src} {origin : Nat} {p : Packet} (hF : Frame o s) :
    FrameOut o (State.runPacket s src origin p) := by
  unfold State.runPacket
  try dsimp only
  repeat' first
    | with_reducible assumption
    | with_reducible apply State.complete_frame
    | with_reducible apply State.seeController_frame
    | with_reducible apply State.replay_frame
    | with_reducible apply State.runParams_frame
    | with_reducible apply FrameOut.next
    | (with_reducible refine FrameOut.ite ?_ ?_ <;> intro _)
    | split
    | fail_if_no_progress (with_reducible refine Frame.rebuild ?_ rfl rfl rfl rfl)

theorem State.startResets_frame {o : State} {s : State} (hF : Frame o s) :
    Frame o (State.startResets s) := by
  unfold State.startResets
  try dsimp only
  repeat' first
    | with_reducible assumption
    | with_reducible apply State.startReset_frame
    | (with_reducible refine Frame.foldl ?_ ?_; rotate_left; (intro _ _ _; try dsimp only))
    | split

theorem State.commandBoundary_frame {o : State} {s : State} (hF : Frame o s) :
    Frame o (State.commandBoundary s) := by
  unfold State.commandBoundary
  try dsimp only
  repeat' first
    | with_reducible assumption
    | with_reducible apply State.boundarySteps_frame
    | with_reducible apply State.startResets_frame
    | (with_reducible refine Frame.ite ?_ ?_ <;> intro _)

theorem execCommandDispatch_frame {o : State} {s : State} (hF : Frame o s) :
    FrameOut o (execCommandDispatch s) := by
  unfold execCommandDispatch
  try dsimp only
  repeat' first
    | with_reducible assumption
    | with_reducible apply State.takePacket_frame
    | with_reducible apply State.runPacket_frame
    | with_reducible apply State.commandBoundary_frame
    | with_reducible apply FrameOut.next
    | (with_reducible refine FrameOut.ite ?_ ?_ <;> intro _)
    | split

end Sys2Proof.Machine
end

