-- ==== Sys2Proof/Laws/FrameCounters.lean ====
section
/-! SUPPORT. Frame through Machine/Counters.lean: one lemma for each operation. -/

namespace Sys2Proof.Machine

theorem execWindowClose_frame {o : State} {bank : Fin 65} {s : State} (hF : Frame o s) :
    FrameOut o (execWindowClose bank s) := by
  unfold execWindowClose
  try dsimp only
  repeat' first
    | with_reducible assumption
    | with_reducible apply State.endWindow_frame
    | with_reducible apply FrameOut.next
    | (with_reducible refine FrameOut.ite ?_ ?_ <;> intro _)

theorem execCtrSelectApply_frame {o : State} {counter : Fin 1280} {s : State} (hF : Frame o s) :
    FrameOut o (execCtrSelectApply counter s) := by
  unfold execCtrSelectApply
  try dsimp only
  repeat' first
    | with_reducible assumption
    | with_reducible apply State.applySelect_frame
    | with_reducible apply FrameOut.next
    | (with_reducible refine FrameOut.ite ?_ ?_ <;> intro _)

theorem execWindowSetApply_frame {o : State} {bank : Fin 65} {s : State} (hF : Frame o s) :
    FrameOut o (execWindowSetApply bank s) := by
  unfold execWindowSetApply
  try dsimp only
  repeat' first
    | with_reducible assumption
    | with_reducible apply State.applyWindow_frame
    | with_reducible apply FrameOut.next
    | (with_reducible refine FrameOut.ite ?_ ?_ <;> intro _)

theorem execSampleCapture_frame {o : State} {bank : Byte} {index : Byte} {s : State} (hF : Frame o s) :
    FrameOut o (execSampleCapture bank index s) := by
  unfold execSampleCapture
  try dsimp only
  repeat' first
    | with_reducible assumption
    | with_reducible apply State.setCounter_frame
    | with_reducible apply State.pushSample_frame
    | with_reducible apply FrameOut.next
    | (with_reducible refine FrameOut.ite ?_ ?_ <;> intro _)
    | split

end Sys2Proof.Machine
end

