-- ==== Sys2Proof/Laws/FrameLinks.lean ====
section
/-! SUPPORT. Frame through Machine/Links.lean: one lemma for each operation. -/

namespace Sys2Proof.Machine

theorem execRxClockLock_frame {o : State} {port : Port} {s : State} (hF : Frame o s) :
    FrameOut o (execRxClockLock port s) := by
  unfold execRxClockLock
  try dsimp only
  repeat' first
    | with_reducible assumption
    | with_reducible apply State.setPort_frame
    | with_reducible apply State.updPort_frame
    | with_reducible apply State.updStripe_frame
    | (with_reducible refine Frame.foldl ?_ ?_; rotate_left; (intro _ _ _; try dsimp only))
    | with_reducible apply FrameOut.next
    | (with_reducible refine FrameOut.ite ?_ ?_ <;> intro _)
    | split

theorem execCkOnSpTimeout_frame {o : State} {port : Port} {s : State} (hF : Frame o s) :
    FrameOut o (execCkOnSpTimeout port s) := by
  unfold execCkOnSpTimeout
  try dsimp only
  repeat' first
    | with_reducible assumption
    | with_reducible apply State.updPort_frame
    | with_reducible apply State.setRxSp_frame
    | with_reducible apply State.updStripe_frame
    | (with_reducible refine Frame.foldl ?_ ?_; rotate_left; (intro _ _ _; try dsimp only))
    | with_reducible apply FrameOut.next
    | (with_reducible refine FrameOut.ite ?_ ?_ <;> intro _)

theorem State.tryAlign_frame {o : State} {s : State} {port : Nat} {sd : Side} (hF : Frame o s) :
    Frame o (State.tryAlign s port sd) := by
  unfold State.tryAlign
  try dsimp only
  repeat' first
    | with_reducible assumption
    | with_reducible apply State.setStripeSt_frame
    | with_reducible apply State.sendTraining_frame
    | with_reducible apply State.updStripe_frame
    | (with_reducible refine Frame.ite ?_ ?_ <;> intro _)

theorem execLaneHeaderLock_frame {o : State} {port : Port} {side : Side} {lane : Fin 9} {laneId : BitVec 4} {s : State} (hF : Frame o s) :
    FrameOut o (execLaneHeaderLock port side lane laneId s) := by
  unfold execLaneHeaderLock
  try dsimp only
  repeat' first
    | with_reducible assumption
    | with_reducible apply State.setPort_frame
    | with_reducible apply State.updPort_frame
    | with_reducible apply State.sendTraining_frame
    | with_reducible apply State.updStripe_frame
    | with_reducible apply State.tryAlign_frame
    | with_reducible apply FrameOut.next
    | (with_reducible refine FrameOut.ite ?_ ?_ <;> intro _)
    | split

theorem State.settleLanes_frame {o : State} {s : State} {port : Nat} {side : Side} {lanes bad : List Nat} (hF : Frame o s) :
    Frame o (State.settleLanes s port side lanes bad) := by
  unfold State.settleLanes
  try dsimp only
  repeat' first
    | with_reducible assumption
    | with_reducible apply State.updPort_frame
    | with_reducible apply State.sendTraining_frame
    | with_reducible apply State.setRxSp_frame
    | with_reducible apply State.updStripe_frame
    | split

theorem execTLaneWaitExpiry_frame {o : State} {port : Port} {side : Side} {s : State} (hF : Frame o s) :
    FrameOut o (execTLaneWaitExpiry port side s) := by
  unfold execTLaneWaitExpiry
  try dsimp only
  repeat' first
    | with_reducible assumption
    | with_reducible apply State.tryAlign_frame
    | with_reducible apply State.settleLanes_frame
    | with_reducible apply FrameOut.next
    | (with_reducible refine FrameOut.ite ?_ ?_ <;> intro _)

theorem State.followSpare_frame {o : State} {s : State} {port : Nat} {sd : Side} {r : TrainRec} (hF : Frame o s) :
    Frame o (State.followSpare s port sd r) := by
  unfold State.followSpare
  try dsimp only
  repeat' first
    | with_reducible assumption
    | with_reducible apply State.updPort_frame
    | with_reducible apply State.setTxSp_frame
    | (with_reducible refine Frame.ite ?_ ?_ <;> intro _)

theorem State.noteArrival_frame {o : State} {s : State} {port : Nat} {sd : Side} {lane : Nat} {r : TrainRec} {arrival : BitVec 32} (hF : Frame o s) :
    Frame o (State.noteArrival s port sd lane r arrival) := by
  unfold State.noteArrival
  try dsimp only
  repeat' first
    | with_reducible assumption
    | with_reducible apply State.updStripe_frame
    | with_reducible apply State.settleLanes_frame
    | (with_reducible refine Frame.ite ?_ ?_ <;> intro _)

theorem execTrainingRecord_frame {o : State} {port : Port} {side : Side} {lane : Fin 9} {record : TrainRec} {arrival : BitVec 32} {s : State} (hF : Frame o s) :
    FrameOut o (execTrainingRecord port side lane record arrival s) := by
  unfold execTrainingRecord
  try dsimp only
  repeat' first
    | with_reducible assumption
    | with_reducible apply State.sendTraining_frame
    | with_reducible apply State.failAttempt_frame
    | with_reducible apply State.codeErrors_frame
    | with_reducible apply State.updStripe_frame
    | with_reducible apply State.followSpare_frame
    | with_reducible apply State.noteArrival_frame
    | with_reducible apply FrameOut.next
    | (with_reducible refine FrameOut.ite ?_ ?_ <;> intro _)
    | (with_reducible refine Frame.ite ?_ ?_ <;> intro _)

theorem execAlignConfirmed_frame {o : State} {port : Port} {side : Side} {s : State} (hF : Frame o s) :
    FrameOut o (execAlignConfirmed port side s) := by
  unfold execAlignConfirmed
  try dsimp only
  repeat' first
    | with_reducible assumption
    | with_reducible apply State.setPort_frame
    | with_reducible apply State.setStripeSt_frame
    | with_reducible apply State.sendTraining_frame
    | with_reducible apply State.updStripe_frame
    | with_reducible apply State.sendLane_frame
    | with_reducible apply FrameOut.next
    | (with_reducible refine FrameOut.ite ?_ ?_ <;> intro _)
    | split

theorem State.stripeUp_frame {o : State} {s : State} {port : Nat} {sd : Side} (hF : Frame o s) :
    Frame o (State.stripeUp s port sd) := by
  unfold State.stripeUp
  try dsimp only
  repeat' first
    | with_reducible assumption
    | with_reducible apply State.updPort_frame
    | with_reducible apply State.putSync_frame
    | with_reducible apply State.setStripeSt_frame
    | with_reducible apply State.dropReplay_frame
    | with_reducible apply State.initCredits_frame
    | with_reducible apply State.updStripe_frame
    | with_reducible apply State.resend_frame
    | (with_reducible refine Frame.ite ?_ ?_ <;> intro _)

theorem execStripeUp_frame {o : State} {port : Port} {side : Side} {s : State} (hF : Frame o s) :
    FrameOut o (execStripeUp port side s) := by
  unfold execStripeUp
  try dsimp only
  repeat' first
    | with_reducible assumption
    | with_reducible apply State.stripeUp_frame
    | with_reducible apply FrameOut.next
    | (with_reducible refine FrameOut.ite ?_ ?_ <;> intro _)

theorem execTHuntExpiry_frame {o : State} {port : Port} {side : Side} {s : State} (hF : Frame o s) :
    FrameOut o (execTHuntExpiry port side s) := by
  unfold execTHuntExpiry
  try dsimp only
  repeat' first
    | with_reducible assumption
    | with_reducible apply State.failAttempt_frame
    | with_reducible apply FrameOut.next
    | (with_reducible refine FrameOut.ite ?_ ?_ <;> intro _)

theorem execTAlignExpiry_frame {o : State} {port : Port} {side : Side} {s : State} (hF : Frame o s) :
    FrameOut o (execTAlignExpiry port side s) := by
  unfold execTAlignExpiry
  try dsimp only
  repeat' first
    | with_reducible assumption
    | with_reducible apply State.failAttempt_frame
    | with_reducible apply FrameOut.next
    | (with_reducible refine FrameOut.ite ?_ ?_ <;> intro _)

theorem execTExchangeExpiry_frame {o : State} {port : Port} {side : Side} {s : State} (hF : Frame o s) :
    FrameOut o (execTExchangeExpiry port side s) := by
  unfold execTExchangeExpiry
  try dsimp only
  repeat' first
    | with_reducible assumption
    | with_reducible apply State.failAttempt_frame
    | with_reducible apply FrameOut.next
    | (with_reducible refine FrameOut.ite ?_ ?_ <;> intro _)

theorem execBackoffEnd_frame {o : State} {port : Port} {side : Side} {s : State} (hF : Frame o s) :
    FrameOut o (execBackoffEnd port side s) := by
  unfold execBackoffEnd
  try dsimp only
  repeat' first
    | with_reducible assumption
    | with_reducible apply State.enterSend_frame
    | with_reducible apply FrameOut.next
    | (with_reducible refine FrameOut.ite ?_ ?_ <;> intro _)

theorem execEnergyDetected_frame {o : State} {port : Port} {s : State} (hF : Frame o s) :
    FrameOut o (execEnergyDetected port s) := by
  unfold execEnergyDetected
  try dsimp only
  repeat' first
    | with_reducible assumption
    | with_reducible apply State.setPort_frame
    | with_reducible apply State.updPort_frame
    | with_reducible apply State.emit_frame
    | with_reducible apply State.enterSend_frame
    | with_reducible apply State.stopTest_frame
    | with_reducible apply State.updStripe_frame
    | (with_reducible refine Frame.foldl ?_ ?_; rotate_left; (intro _ _ _; try dsimp only))
    | with_reducible apply FrameOut.next
    | (with_reducible refine FrameOut.ite ?_ ?_ <;> intro _)
    | (with_reducible refine Frame.ite ?_ ?_ <;> intro _)

theorem execPresenceSettled_frame {o : State} {port : Port} {s : State} (hF : Frame o s) :
    FrameOut o (execPresenceSettled port s) := by
  unfold execPresenceSettled
  try dsimp only
  repeat' first
    | with_reducible assumption
    | with_reducible apply State.setPort_frame
    | with_reducible apply State.enterSend_frame
    | (with_reducible refine Frame.foldl ?_ ?_; rotate_left; (intro _ _ _; try dsimp only))
    | with_reducible apply FrameOut.next
    | (with_reducible refine FrameOut.ite ?_ ?_ <;> intro _)

theorem State.trainingLoss_frame {o : State} {s : State} {port : Nat} {sd : Side} {lane : Nat} (hF : Frame o s) :
    Frame o (State.trainingLoss s port sd lane) := by
  unfold State.trainingLoss
  try dsimp only
  repeat' first
    | with_reducible assumption
    | with_reducible apply State.enterSend_frame
    | with_reducible apply State.updStripe_frame
    | (with_reducible refine Frame.ite ?_ ?_ <;> intro _)
    | split

theorem execLaneLockLoss_frame {o : State} {port : Port} {lane : Lane} {s : State} (hF : Frame o s) :
    FrameOut o (execLaneLockLoss port lane s) := by
  unfold execLaneLockLoss
  try dsimp only
  repeat' first
    | with_reducible assumption
    | with_reducible apply State.setPort_frame
    | with_reducible apply State.loseLane_frame
    | with_reducible apply State.trainingLoss_frame
    | (with_reducible refine Frame.foldl ?_ ?_; rotate_left; (intro _ _ _; try dsimp only))
    | with_reducible apply FrameOut.next
    | (with_reducible refine FrameOut.ite ?_ ?_ <;> intro _)

theorem State.noteLanes_frame {o : State} {s : State} {port : Nat} {lanes : List (Nat × Option Bool × Bool × Nat)} (hF : Frame o s) :
    Frame o (State.noteLanes s port lanes).1 := by
  unfold State.noteLanes
  try dsimp only
  repeat' first
    | with_reducible assumption
    | with_reducible apply State.updPort_frame
    | with_reducible apply State.codeErrors_frame
    | (with_reducible refine Frame.foldl_fst ?_ ?_; rotate_left; (intro _ _ _; try dsimp only))

theorem State.noteLanes_frame_pair {o : State} {s : State} {port : Nat} {lanes : List (Nat × Option Bool × Bool × Nat)} (hF : Frame o s)
    {pa : State} {pb : List Nat} (eF : (State.noteLanes s port lanes) = (pa, pb)) : Frame o pa := by
  have this : Frame o (State.noteLanes s port lanes).1 := State.noteLanes_frame (hF := hF)
  rw [eF] at this
  exact this

theorem State.laneBlockIn_frame {o : State} {s : State} {port lane : Nat} {symbols : List Level} (hF : Frame o s) :
    Frame o (State.laneBlockIn s port lane symbols) := by
  unfold State.laneBlockIn
  try dsimp only
  repeat' first
    | with_reducible assumption
    | with_reducible apply State.updPort_frame
    | with_reducible apply State.codeErrors_frame

theorem State.trainingBlockIn_frame {o : State} {s : State} {port : Nat} {sd : Side} {lanes : List (List Level)} {clock : List Level} (hF : Frame o s) :
    Frame o (State.trainingBlockIn s port sd lanes clock) := by
  unfold State.trainingBlockIn
  try dsimp only
  repeat' first
    | with_reducible assumption
    | with_reducible apply State.decodeClock_frame
    | with_reducible apply State.laneBlockIn_frame
    | with_reducible refine State.decodeClock_frame_pair ?_ (by with_reducible assumption)
    | (with_reducible refine Frame.foldl ?_ ?_; rotate_left; (intro _ _ _; try dsimp only))
    | (with_reducible refine Frame.ite ?_ ?_ <;> intro _)

theorem execRxBlock_frame {o : State} {port : Port} {side : Side} {lanes : List (List Level)} {clock : List Level} {s : State} (hF : Frame o s) :
    FrameOut o (execRxBlock port side lanes clock s) := by
  unfold execRxBlock
  try dsimp only
  repeat' first
    | with_reducible assumption
    | with_reducible apply State.updPort_frame
    | with_reducible apply State.stripeDown_frame
    | with_reducible apply State.decodeClock_frame
    | with_reducible apply State.updStripe_frame
    | with_reducible apply State.takeFaults_frame
    | with_reducible apply State.sleepCheck_frame
    | with_reducible apply State.rxSleep_frame
    | with_reducible apply State.loseLane_frame
    | with_reducible apply State.noteLanes_frame
    | with_reducible apply State.laneBlockIn_frame
    | with_reducible apply State.trainingBlockIn_frame
    | with_reducible refine State.decodeClock_frame_pair ?_ (by with_reducible assumption)
    | with_reducible refine State.noteLanes_frame_pair ?_ (by with_reducible assumption)
    | (with_reducible refine Frame.foldl ?_ ?_; rotate_left; (intro _ _ _; try dsimp only))
    | with_reducible apply FrameOut.next
    | (with_reducible refine FrameOut.ite ?_ ?_ <;> intro _)
    | (with_reducible refine Frame.ite ?_ ?_ <;> intro _)

end Sys2Proof.Machine
end

