-- ==== Sys2Proof/Laws/FrameMemory.lean ====
section
/-! SUPPORT. Frame through Machine/Memory.lean: one lemma for each operation. -/

namespace Sys2Proof.Machine

theorem State.memArrive_frame {o : State} {s : State} {op : Nat} {lp : Nat} {foreign : Bool} {f : InFrame} (hF : Frame o s) :
    Frame o (State.memArrive s op lp foreign f) := by
  unfold State.memArrive
  try dsimp only
  repeat' first
    | with_reducible assumption
    | with_reducible apply State.claim_frame
    | with_reducible apply State.freeFrame_frame
    | with_reducible apply State.updMem_frame
    | with_reducible apply State.answerMem_frame
    | with_reducible refine State.claim_frame_pair ?_ (by with_reducible assumption)
    | (with_reducible refine Frame.ite ?_ ?_ <;> intro _)
    | split
    | fail_if_no_progress (with_reducible refine Frame.rebuild ?_ rfl rfl rfl rfl)
    | exact rfl

theorem execMemReqRead_frame {o : State} {lp : Lp} {foreign : Bool} {frame : InFrame} {s : State} (hF : Frame o s) :
    FrameOut o (execMemReqRead lp foreign frame s) := by
  unfold execMemReqRead
  try dsimp only
  repeat' first
    | with_reducible assumption
    | with_reducible apply State.memArrive_frame
    | with_reducible apply FrameOut.next

theorem execMemReqWrite_frame {o : State} {lp : Lp} {foreign : Bool} {frame : InFrame} {s : State} (hF : Frame o s) :
    FrameOut o (execMemReqWrite lp foreign frame s) := by
  unfold execMemReqWrite
  try dsimp only
  repeat' first
    | with_reducible assumption
    | with_reducible apply State.memArrive_frame
    | with_reducible apply FrameOut.next

theorem execMemReqMcastRead_frame {o : State} {lp : Lp} {foreign : Bool} {frame : InFrame} {s : State} (hF : Frame o s) :
    FrameOut o (execMemReqMcastRead lp foreign frame s) := by
  unfold execMemReqMcastRead
  try dsimp only
  repeat' first
    | with_reducible assumption
    | with_reducible apply State.memArrive_frame
    | with_reducible apply FrameOut.next

theorem execMemReqFadd_frame {o : State} {lp : Lp} {foreign : Bool} {frame : InFrame} {s : State} (hF : Frame o s) :
    FrameOut o (execMemReqFadd lp foreign frame s) := by
  unfold execMemReqFadd
  try dsimp only
  repeat' first
    | with_reducible assumption
    | with_reducible apply State.memArrive_frame
    | with_reducible apply FrameOut.next

theorem execMemReqAdd_frame {o : State} {lp : Lp} {foreign : Bool} {frame : InFrame} {s : State} (hF : Frame o s) :
    FrameOut o (execMemReqAdd lp foreign frame s) := by
  unfold execMemReqAdd
  try dsimp only
  repeat' first
    | with_reducible assumption
    | with_reducible apply State.memArrive_frame
    | with_reducible apply FrameOut.next

theorem execMemReqCswap_frame {o : State} {lp : Lp} {foreign : Bool} {frame : InFrame} {s : State} (hF : Frame o s) :
    FrameOut o (execMemReqCswap lp foreign frame s) := by
  unfold execMemReqCswap
  try dsimp only
  repeat' first
    | with_reducible assumption
    | with_reducible apply State.memArrive_frame
    | with_reducible apply FrameOut.next

theorem execMemRequestEntry_frame {o : State} {lp : Lp} {ecc : EccReport} {s : State} (hF : Frame o s) :
    FrameOut o (execMemRequestEntry lp ecc s) := by
  unfold execMemRequestEntry
  try dsimp only
  repeat' first
    | with_reducible assumption
    | with_reducible apply State.ctxUnit_frame
    | with_reducible apply State.freeCells_frame
    | with_reducible apply State.updMem_frame
    | (refine State.enterMem_frame ?_ _ (by with_reducible assumption))
    | with_reducible apply State.enterMem_frame
    | with_reducible apply FrameOut.next
    | (with_reducible refine FrameOut.ite ?_ ?_ <;> intro _)
    | split
    | fail_if_no_progress (with_reducible refine Frame.rebuild ?_ rfl rfl rfl rfl)
    | exact rfl

theorem execMemFragmentRead_frame {o : State} {lp : Lp} {tag : BitVec 16} {ecc : EccReport} {s : State} (hF : Frame o s) :
    FrameOut o (execMemFragmentRead lp tag ecc s) := by
  unfold execMemFragmentRead
  try dsimp only
  repeat' first
    | with_reducible assumption
    | with_reducible apply State.updMem_frame
    | with_reducible apply State.sendMem_frame
    | with_reducible apply State.sendFragment_frame
    | with_reducible refine State.sendFragment_frame_pair ?_ (by with_reducible assumption)
    | with_reducible apply FrameOut.next
    | (with_reducible refine FrameOut.ite ?_ ?_ <;> intro _)
    | split
    | fail_if_no_progress (with_reducible refine Frame.rebuild ?_ rfl rfl rfl rfl)
    | exact rfl

theorem execStackPoll_frame {o : State} {stack : Fin 13} {temp : Byte} {corrected : BitVec 32} {uncorrected : Byte} {s : State} (hF : Frame o s) :
    FrameOut o (execStackPoll stack temp corrected uncorrected s) := by
  unfold execStackPoll
  try dsimp only
  repeat' first
    | with_reducible assumption
    | with_reducible apply State.setStack_frame
    | with_reducible apply State.addErrors_frame
    | with_reducible apply State.uncorrected_frame
    | with_reducible apply FrameOut.next
    | (with_reducible refine FrameOut.ite ?_ ?_ <;> intro _)

theorem execCeWindowEnd_frame {o : State} {s : State} (hF : Frame o s) :
    FrameOut o (execCeWindowEnd s) := by
  unfold execCeWindowEnd
  try dsimp only
  repeat' first
    | with_reducible assumption
    | with_reducible apply State.setStack_frame
    | (with_reducible refine Frame.foldl ?_ ?_; rotate_left; (intro _ _ _; try dsimp only))
    | with_reducible apply FrameOut.next
    | (with_reducible refine FrameOut.ite ?_ ?_ <;> intro _)

theorem execStackUnresponsive_frame {o : State} {stack : Fin 13} {s : State} (hF : Frame o s) :
    FrameOut o (execStackUnresponsive stack s) := by
  unfold execStackUnresponsive
  try dsimp only
  repeat' first
    | with_reducible assumption
    | with_reducible apply State.setStack_frame
    | with_reducible apply FrameOut.next
    | (with_reducible refine FrameOut.ite ?_ ?_ <;> intro _)

theorem execRefreshManagementRequest_frame {o : State} {stack : Fin 13} {s : State} (hF : Frame o s) :
    FrameOut o (execRefreshManagementRequest stack s) := by
  unfold execRefreshManagementRequest
  try dsimp only
  repeat' first
    | with_reducible assumption
    | with_reducible apply FrameOut.next

theorem execMigrationAutoStart_frame {o : State} {s : State} (hF : Frame o s) :
    FrameOut o (execMigrationAutoStart s) := by
  unfold execMigrationAutoStart
  try dsimp only
  repeat' first
    | with_reducible assumption
    | with_reducible apply State.startMigration_frame
    | with_reducible apply FrameOut.next
    | (with_reducible refine FrameOut.ite ?_ ?_ <;> intro _)
    | split

theorem execMigrationGranuleCopied_frame {o : State} {uncorrected : List (Fin 64)} {s : State} (hF : Frame o s) :
    FrameOut o (execMigrationGranuleCopied uncorrected s) := by
  unfold execMigrationGranuleCopied
  try dsimp only
  repeat' first
    | with_reducible assumption
    | with_reducible apply State.countGlobal_frame
    | with_reducible apply State.updMem_frame
    | with_reducible apply State.poison_frame
    | with_reducible apply State.uncorrected_frame
    | with_reducible refine State.poison_frame_pair ?_ (by with_reducible assumption)
    | (with_reducible refine Frame.foldl ?_ ?_; rotate_left; (intro _ _ _; try dsimp only))
    | with_reducible apply FrameOut.next
    | (with_reducible refine FrameOut.ite ?_ ?_ <;> intro _)
    | (with_reducible refine Frame.ite ?_ ?_ <;> intro _)
    | split
    | fail_if_no_progress (with_reducible refine Frame.rebuild ?_ rfl rfl rfl rfl)
    | dsimp only

theorem execMigrationComplete_frame {o : State} {s : State} (hF : Frame o s) :
    FrameOut o (execMigrationComplete s) := by
  unfold execMigrationComplete
  try dsimp only
  repeat' first
    | with_reducible assumption
    | with_reducible apply State.finishMigration_frame
    | with_reducible apply FrameOut.next
    | (with_reducible refine FrameOut.ite ?_ ?_ <;> intro _)

theorem execMemCmdComplete_frame {o : State} {ecc : EccReport} {s : State} (hF : Frame o s) :
    FrameOut o (execMemCmdComplete ecc s) := by
  unfold execMemCmdComplete
  try dsimp only
  repeat' first
    | with_reducible assumption
    | with_reducible apply State.finishWork_frame
    | with_reducible apply State.doMemWork_frame
    | with_reducible refine State.doMemWork_frame_pair ?_ (by with_reducible assumption)
    | with_reducible apply FrameOut.next
    | (with_reducible refine FrameOut.ite ?_ ?_ <;> intro _)
    | split

end Sys2Proof.Machine
end

