-- ==== Sys2Proof/Laws/FrameRecovery.lean ====
section
/-! SUPPORT. Frame through Machine/Recovery.lean: one lemma for each operation. -/

namespace Sys2Proof.Machine

theorem execPortDown_frame {o : State} {port : Port} {cause : Fin 16} {s : State} (hF : Frame o s) :
    FrameOut o (execPortDown port cause s) := by
  unfold execPortDown
  try dsimp only
  repeat' first
    | with_reducible assumption
    | with_reducible apply State.stripeDown_frame
    | with_reducible apply State.portDownAll_frame
    | (with_reducible refine Frame.foldl ?_ ?_; rotate_left; (intro _ _ _; try dsimp only))
    | with_reducible apply FrameOut.next
    | (with_reducible refine FrameOut.ite ?_ ?_ <;> intro _)
    | (with_reducible refine Frame.ite ?_ ?_ <;> intro _)

theorem execHoldExpiry_frame {o : State} {port : Port} {s : State} (hF : Frame o s) :
    FrameOut o (execHoldExpiry port s) := by
  unfold execHoldExpiry
  try dsimp only
  repeat' first
    | with_reducible assumption
    | with_reducible apply State.endHold_frame
    | with_reducible refine State.endHold_frame_pair ?_ (by with_reducible assumption)
    | (with_reducible refine Frame.foldl ?_ ?_; rotate_left; (intro _ _ _; try dsimp only))
    | with_reducible apply FrameOut.next
    | (with_reducible refine FrameOut.ite ?_ ?_ <;> intro _)
    | (with_reducible refine Frame.ite ?_ ?_ <;> intro _)

theorem execFenceNoticeRepeat_frame {o : State} {fence : Fin 4096} {s : State} (hF : Frame o s) :
    FrameOut o (execFenceNoticeRepeat fence s) := by
  unfold execFenceNoticeRepeat
  try dsimp only
  repeat' first
    | with_reducible assumption
    | with_reducible apply State.sendFenceNotice_frame
    | with_reducible apply FrameOut.next
    | (with_reducible refine FrameOut.ite ?_ ?_ <;> intro _)

theorem State.ackFence_frame {o : State} {s : State} {n : Nat} (hF : Frame o s) :
    Frame o (State.ackFence s n) := by
  unfold State.ackFence
  try dsimp only
  repeat' first
    | with_reducible assumption
    | with_reducible apply State.setFence_frame

theorem execFenceAckReceived_frame {o : State} {lp : Lp} {frame : InFrame} {s : State} (hF : Frame o s) :
    FrameOut o (execFenceAckReceived lp frame s) := by
  unfold execFenceAckReceived
  try dsimp only
  repeat' first
    | with_reducible assumption
    | with_reducible apply State.claim_frame
    | with_reducible apply State.freeFrame_frame
    | with_reducible apply State.ackFence_frame
    | with_reducible refine State.claim_frame_pair ?_ (by with_reducible assumption)
    | with_reducible apply FrameOut.next
    | (with_reducible refine FrameOut.ite ?_ ?_ <;> intro _)
    | split
    | fail_if_no_progress (with_reducible refine Frame.rebuild ?_ rfl rfl rfl rfl)

theorem execFenceDrained_frame {o : State} {fence : Fin 4096} {s : State} (hF : Frame o s) :
    FrameOut o (execFenceDrained fence s) := by
  unfold execFenceDrained
  try dsimp only
  repeat' first
    | with_reducible assumption
    | with_reducible apply State.setFence_frame
    | with_reducible apply FrameOut.next
    | (with_reducible refine FrameOut.ite ?_ ?_ <;> intro _)

theorem execFenceRelease_frame {o : State} {fence : Fin 4096} {s : State} (hF : Frame o s) :
    FrameOut o (execFenceRelease fence s) := by
  unfold execFenceRelease
  try dsimp only
  repeat' first
    | with_reducible assumption
    | with_reducible apply State.ackFence_frame
    | with_reducible apply FrameOut.next
    | (with_reducible refine FrameOut.ite ?_ ?_ <;> intro _)

end Sys2Proof.Machine
end

