-- ==== Sys2Proof/Laws/FrameIdle.lean ====
section
/-! SUPPORT. Frame through Machine/Idle.lean: one lemma for each operation. -/

namespace Sys2Proof.Machine

theorem State.idleSlots_frame {o : State} {s : State} {i : Nat} (hF : Frame o s) :
    Frame o (State.idleSlots s i) := by
  unfold State.idleSlots
  try dsimp only
  repeat' first
    | with_reducible assumption
    | with_reducible apply State.countSlots_frame
    | (with_reducible refine Frame.foldl ?_ ?_; rotate_left; (intro _ _ _; try dsimp only))
    | split

theorem State.portCycle_frame {o : State} {s : State} {lp : Nat} (hF : Frame o s) :
    Frame o (State.portCycle s lp) := by
  unfold State.portCycle
  try dsimp only
  repeat' first
    | with_reducible assumption
    | with_reducible apply State.countLp_frame
    | (with_reducible refine Frame.foldl ?_ ?_; rotate_left; (intro _ _ _; try dsimp only))
    | (with_reducible refine Frame.ite ?_ ?_ <;> intro _)

theorem State.memCycle_frame {o : State} {s : State} (hF : Frame o s) :
    Frame o (State.memCycle s) := by
  unfold State.memCycle
  try dsimp only
  repeat' first
    | with_reducible assumption
    | with_reducible apply State.countGlobal_frame
    | (with_reducible refine Frame.foldl ?_ ?_; rotate_left; (intro _ _ _; try dsimp only))
    | (with_reducible refine Frame.ite ?_ ?_ <;> intro _)

theorem State.engineCycle_frame {o : State} {s : State} (hF : Frame o s) :
    Frame o (State.engineCycle s) := by
  unfold State.engineCycle
  try dsimp only
  repeat' first
    | with_reducible assumption
    | with_reducible apply State.countGlobal_frame
    | (with_reducible refine Frame.foldl ?_ ?_; rotate_left; (intro _ _ _; try dsimp only))
    | (with_reducible refine Frame.ite ?_ ?_ <;> intro _)

theorem State.coreCycle_frame {o : State} {s : State} (hF : Frame o s) :
    Frame o (State.coreCycle s) := by
  unfold State.coreCycle
  try dsimp only
  repeat' first
    | with_reducible assumption
    | with_reducible apply State.portCycle_frame
    | with_reducible apply State.memCycle_frame
    | with_reducible apply State.engineCycle_frame
    | (with_reducible refine Frame.foldl ?_ ?_; rotate_left; (intro _ _ _; try dsimp only))
    | (with_reducible refine Frame.ite ?_ ?_ <;> intro _)

theorem State.idleCycle_frame {o : State} {s : State} (hF : Frame o s) :
    Frame o (State.idleCycle s) := by
  unfold State.idleCycle
  try dsimp only
  repeat' first
    | with_reducible assumption
    | with_reducible apply State.countGlobal_frame
    | with_reducible apply State.updPower_frame
    | with_reducible apply State.portBlock_frame
    | with_reducible apply State.serveCart_frame
    | with_reducible apply State.idleSlots_frame
    | with_reducible apply State.coreCycle_frame
    | (with_reducible refine Frame.foldl ?_ ?_; rotate_left; (intro _ _ _; try dsimp only))
    | (with_reducible refine Frame.ite ?_ ?_ <;> intro _)

end Sys2Proof.Machine
end

