-- ==== Sys2Proof/Laws/Opcodes.lean ====
section
/-! SUPPORT. What the frame of an opcode can do (R63): nothing while the controller is closed, BAD_PARAM, a gate's answer, or the
effect. -/

namespace Sys2Proof.Machine

theorem State.opcode_runs {s b : State} {i : Instr} {c : Cmd} {op : BitVec 16} (ho : s.live = true) (hm : s.mgmtInReset = false)
    (hp : s.paramError i = none) : s.opcode i c op b = .next b := by
  unfold State.opcode
  rw [if_pos ⟨ho, hm⟩, hp]

theorem State.opcode_bad {s b : State} {i : Instr} {c : Cmd} {op : BitVec 16} {off : Nat} (ho : s.live = true)
    (hm : s.mgmtInReset = false) (hp : s.paramError i = some off) : s.opcode i c op b = .next (s.deny c op stBadParam off) := by
  unfold State.opcode
  rw [if_pos ⟨ho, hm⟩, hp]

theorem State.opcode_closed {s b : State} {i : Instr} {c : Cmd} {op : BitVec 16} (h : ¬(s.live = true ∧ s.mgmtInReset = false)) :
    s.opcode i c op b = .next s := by
  unfold State.opcode
  rw [if_neg h]

@[simp] theorem State.gate_none (s b : State) (c : Cmd) (op : BitVec 16) : s.gate c op none b = b := rfl

@[simp] theorem State.gate_some (s b : State) (c : Cmd) (op : BitVec 16) (st : BitVec 8) (d : Nat) :
    s.gate c op (some (st, d)) b = s.deny c op st d := rfl

@[simp] theorem firstGate_nil : firstGate [] = none := rfl
@[simp] theorem firstGate_none (l : List (Option (BitVec 8 × Nat))) : firstGate (none :: l) = firstGate l := rfl
@[simp] theorem firstGate_some (x : BitVec 8 × Nat) (l : List (Option (BitVec 8 × Nat))) : firstGate (some x :: l) = some x := rfl
@[simp] theorem stateGate_false : stateGate false = none := rfl
@[simp] theorem roomGate_false : roomGate false = none := rfl
@[simp] theorem unitGate_false : unitGate false false = none := rfl
@[simp] theorem fixedGate_false : stateGate false = none := rfl

@[simp] theorem leBytes_length (n v : Nat) : (leBytes n v).length = n := by
  induction n generalizing v with
  | zero => rfl
  | succ k ih => simp [leBytes, ih]

@[simp] theorem zeros_length (n : Nat) : (zeros n).length = n := by simp [zeros]

/-- The length of records of one size. -/
theorem flatten_length {α : Type} (l : List α) (f : α → Bytes) (n : Nat) (h : ∀ x, (f x).length = n) :
    ((l.map f).flatten).length = n * l.length := by
  induction l with
  | nil => simp
  | cons a r ih => simp [h, ih, Nat.mul_succ, Nat.add_comm]

end Sys2Proof.Machine
end

