-- ==== Sys2Proof/WellFormed.lean ====
section
/-! DEFINITION. The well-formed commands: lists in an operand have the lengths the manual gives them. -/

namespace Sys2Proof

/-- A frame as far as it has arrived: 1 to 18 flits and at most 240 bytes for each, in cells of the 132 banks (R120, R122, R133). -/
def frameWf (f : InFrame) : Bool :=
  1 ≤ f.arrived && f.arrived ≤ 18 && f.content.length ≤ 240 * f.arrived && f.cells.all fun e => e.flit < 18 && e.bank < 132

/-- A Sideband Chain frame with its start byte, header and CRC: LEN from 0 to 512 (R421, R422). -/
def sbWf (x : SbWire) : Bool := x.bytes.length ≤ 529

/-- A sector report names each sector at most once and no sector twice (R211). -/
def eccWf (e : EccReport) : Bool := e.uncorrected.all fun k => !e.corrected.contains k

/-- The results of partitions 0 to 95 (R376). -/
def endsWf (l : List (Nat × TestEnd)) : Bool := l.all fun e => e.1 < 96

/-- Whether the operands of a command have the lengths the manual gives them. -/
def Instr.wf (i : Instr) : Bool :=
  match i with
  | .pcieCmdFetch b => b.length == 256 || b.length == 1024 || b.length == 4096
  | .i3cCommand _ b => b.length ≤ 4096
  | .tc7CmdFrame _ _ f => frameWf f
  | .sbEnumSurvey x => sbWf x
  | .sbEnumAssign x => sbWf x
  | .sbEnumCommit x => sbWf x
  | .sbEnumClear x => sbWf x
  | .sbCmd x => sbWf x
  | .sbRead x => sbWf x
  | .sbSelect x => sbWf x
  | .sbSeqQuery x => sbWf x
  | .sbPoll x => sbWf x
  | .sbFrameForward x => sbWf x
  | .retimerPoll _ l => l.length ≤ 2
  | .cartIdentityRead _ p q l =>
    (match p with | some b => b.length == 32 | none => true)
      && (match q with | some b => b.length == 32 | none => true) && l.length ≤ 2
  | .markerReceived _ _ _ l => l.length == 13
  | .rxBlock _ _ l k => l.length ≤ 9 && (l.all fun x => x.length == 320) && k.length % 10 == 0
  | .creditFlitReceived _ _ l => l.length == 8
  | .frameHeadIngress _ f => frameWf f
  | .fenceAckReceived _ f => frameWf f
  | .memReqRead _ _ f => frameWf f
  | .memReqWrite _ _ f => frameWf f
  | .memReqMcastRead _ _ f => frameWf f
  | .memReqFadd _ _ f => frameWf f
  | .memReqAdd _ _ f => frameWf f
  | .memReqCswap _ _ f => frameWf f
  | .memRequestEntry _ e => eccWf e
  | .memFragmentRead _ _ e => eccWf e
  | .memCmdComplete e => eccWf e
  | .collDescReceived _ _ f => frameWf f
  | .collDataReceived _ _ f => frameWf f
  | .abortAckReceived _ _ f => frameWf f
  | .powerOnSelfTestDone l => endsWf l
  | .bistSlotDeadline l => endsWf l
  | .stackTrainingDone l => l.all fun n => n < 13
  | .cwWrite _ _ n _ v => v.length == n.toNat
  | .tableImageWrite _ _ _ b => 4 ≤ b.length && b.length % 4 == 0
  | .cartWrite _ _ _ _ _ n b => b.length == n.toNat
  | .memWrite _ _ n b => b.length == n.toNat
  | _ => true

end Sys2Proof
end

