-- ==== Sys2Proof/Tests/Slice0.lean ====
section
/-! SUPPORT. Own tests: ill-formed terms refused, witnesses of the statements' hypotheses, and single commands against figures of the
manual. -/

namespace Sys2Proof.Tests

open Sys2Proof.Machine Sys2Proof.Claims

set_option maxRecDepth 20000

/-- A command from a source, without authentication. -/
def cmdOf (src : Src) : Cmd := { src := src, origin := 0, seq := 1, auth := false, keySlot := 0, echo := 0, correl := 0, index := 0 }
/-- The next beat, with the given LATEPOL and NOTIFY off. -/
def nextSpec : TargetSpec := { next := true, latePol := false, notify := false, target := 0 }
/-- State.reset, as a short name. -/
def s0 : State := State.reset
/-- A deferred command of the board controller that waits for this work. -/
def waits (w : Work) : Deferred := { cmd := cmdOf .i3c, opcode := 0, keyKept := true, work := w }
/-- The machine with this work deferred. -/
def deferring (s : State) (w : Work) : State := { s with mgmt := { s.mgmt with deferred := [waits w] } }

/-! ## Witnesses: states and operands that meet the hypotheses of each statement -/

theorem witness_OnlyShortPorPulseStops :
    (∀ k ∈ [false], ({ s0 with pkg := { s0.pkg with porLow := true } } : State).pkg.porLow = true ∧ k = false)
    ∧ (s0.pkg.porLow = true → false = true) := by decide

theorem witness_BadParameterChangesNothing :
    packetOf (.cwRead (cmdOf .i3c) 4 1) = some (cmdOf .i3c, 1) ∧ Open s0 ∧ s0.paramError (.cwRead (cmdOf .i3c) 4 1) = some 32
    ∧ s0.paramError (.cwRead (cmdOf .i3c) 0 0) = some 36 := by
  unfold Open; decide

theorem witness_ClosedControllerTakesNothing :
    packetOf (.identityRead (cmdOf .i3c)) = some (cmdOf .i3c, 0)
    ∧ ¬ Open { s0 with pkg := { s0.pkg with tripped := true } }
    ∧ ¬ Open { s0 with mgmt := { s0.mgmt with running := [{ scope := 5, unit := 0, setter := 0, start := 0, waits := false, since := 1 }] } } := by
  unfold Open; decide

theorem witness_ReadingOpcodesOnlyRead :
    reads (.tableRead (cmdOf .sb) 3 1020 4) = some (cmdOf .sb, 0x0105, 40) ∧ Open s0 ∧ SharedFree s0
    ∧ s0.paramError (.tableRead (cmdOf .sb) 3 1020 4) = none := by
  unfold Open SharedFree; decide

theorem witness_ControlWordOpcodes :
    Open s0 ∧ s0.paramError (.cwRead (cmdOf .i3c) 0x010000 3) = none
    ∧ s0.paramError (.cwWrite (cmdOf .i3c) 0x010010 1 nextSpec [5]) = none ∧ agdItems (cwWrites 0x010010 [5]) = []
    ∧ s0.writeCheck (cmdOf .i3c) (cwWrites 0x010010 [5]) = none
    ∧ s0.paramError (.cwModify (cmdOf .i3c) 0x010010 1 1) = none
    ∧ s0.writeCheck (cmdOf .i3c) [{ addr := 0x010010, mask := 1, value := s0.merged 0x010010 1 1, off := 48 }] = none := by
  unfold Open; decide

theorem witness_LogReadsRemoveWhatTheyAnswer :
    Open s0 ∧ SharedFree s0 ∧ s0.paramError (.noticeRead (cmdOf .sb) 16) = none ∧ s0.paramError (.sampleRead (cmdOf .i3c) 64) = none
    ∧ s0.paramError (.eccLogRead (cmdOf .i3c) 64) = none ∧ s0.paramError (.tableImageList (cmdOf .i3c) 63 64) = none := by
  unfold Open SharedFree; decide

/-- An image of one entry of the stagger table. -/
def img (st : ImageSt) : Image := { handle := 7, table := 8, length := 76, bytes := [], st := st }
def withImage (s : State) (im : Image) : State := { s with mgmt := { s.mgmt with images := [im] } }

theorem witness_TableImageLife_open :
    Open s0 ∧ s0.paramError (.tableImageOpen (cmdOf .sb) 8 72) = none ∧ mayChange (s0.tableHolder 8) .sb 0 = true
    ∧ s0.mgmt.images.length < 64 ∧ s0.storeBytes + 72 ≤ 4194304 := by
  unfold Open; decide

theorem witness_TableImageLife_write :
    let s := withImage s0 (img .opened)
    Open s ∧ s.paramError (.tableImageWrite (cmdOf .sb) 7 72 [1, 2, 3, 4]) = none
    ∧ mayChange (s.tableHolder (s.imageTable 7)) .sb 0 = true ∧ s.imageIs 7 .opened = true
    ∧ s.paramError (.tableImageSeal (cmdOf .sb) 7) = none ∧ s.paramError (.tableImageDiscard (cmdOf .sb) 7) = none
    ∧ s.imageIs 7 .staged = false := by
  unfold Open; decide

theorem witness_HoldsAreTakenAndReleased :
    Open s0 ∧ s0.paramError (.hold (cmdOf .sb) 0 9) = none ∧ mayChange (s0.holderOf 0 9) .sb 0 = true
    ∧ (let s : State := { s0 with mgmt := { s0.mgmt with tableHolds := [(9, some (.sb, 0))] } }
      mayChange (s.holderOf 0 9) .i3c 0 = false ∧ s.paramError (.release (cmdOf .sb) 0 9) = none
      ∧ mayChange (s.holderOf 0 9) .sb 0 = true ∧ (s.holderOf 0 9).isSome = true) := by
  unfold Open; decide

theorem witness_StagingMakesOnePendingEntry :
    Open s0
    ∧ (let s : State := { s0 with beat := { s0.beat with st := .root } }
      s.paramError (.beatRootSet (cmdOf .sb) 3 nextSpec) = none ∧ s.stageCheck (cmdOf .sb) nextSpec [⟨6, 3, 0, 0⟩] true = none
      ∧ s.paramError (.beatPeriodSet (cmdOf .sb) 4 nextSpec) = none ∧ s.stageCheck (cmdOf .sb) nextSpec [⟨7, 4, 0, 0⟩] true = none
      ∧ s.paramError (.agendaStageMark (cmdOf .i3c) nextSpec 5 0) = none
      ∧ s.stageCheck (cmdOf .i3c) nextSpec [⟨8, 5, 0, 0⟩] true = none
      ∧ s.paramError (.agendaStageCwWrite (cmdOf .i3c) nextSpec 0x010018 5) = none
      ∧ s.stageCheck (cmdOf .i3c) nextSpec [⟨2, 0x010018, 5, 0⟩] true = none
      ∧ s.paramError (.agendaStagePowerStep (cmdOf .i3c) nextSpec 15 0) = none
      ∧ s.stageCheck (cmdOf .i3c) nextSpec [⟨3, 15, 0, 0⟩] true = none
      ∧ s.paramError (.agendaStageBistStart (cmdOf .i3c) nextSpec 63 0) = none
      ∧ s.stageCheck (cmdOf .i3c) nextSpec [⟨5, 63, 0, 0⟩] true = none
      ∧ s.paramError (.agendaStageBistStop (cmdOf .i3c) nextSpec 63 0) = none
      ∧ s.stageCheck (cmdOf .i3c) nextSpec [⟨4, 63, 0, 0⟩] true = none) := by
  unfold Open; decide

theorem witness_StagingMakesOnePendingEntry_table :
    let s := withImage s0 (img .sealed)
    Open s ∧ s.image 7 = some (img .sealed) ∧ s.paramError (.tableStage (cmdOf .sb) 7 nextSpec) = none
    ∧ s.imageMayStage (img .sealed) (s.specTarget nextSpec) = true := by
  unfold Open; decide

/-- The machine with agenda entry 255 in this state. -/
def withEntry (s : State) (x : AgEntry) : State := { s with agenda := { entries := [(255, x)], nextOrder := 9 } }
def entryFor (action : Nat) (a : Word) : AgEntry :=
  { st := .pending, action := action, latePol := false, notify := true, src := .i3c, origin := 0, target := 1, order := 8, doneBeat := 0
    paramA := a, paramB := 3, next := false, due := true }

theorem witness_CancelEndsOnePendingEntry :
    let s := withEntry s0 (entryFor 8 5)
    Open s ∧ (s.agEntry 255).st = .pending ∧ (s.agEntry 255).order % 65536 = 8
    ∧ mayChange (some ((s.agEntry 255).src, (s.agEntry 255).origin)) .i3c 0 = true ∧ (s.agEntry 0).st = .free
    ∧ (s.agEntry 255).order % 65536 ≠ 7 := by
  unfold Open; decide

/-- The machine with port 63 in this state. -/
def withPort (s : State) (p : PortSt) : State := { s with ports := [(63, p)] }
def onBeat (s : State) (f : BeatUnit → BeatUnit) : State := { s with beat := f s.beat }

theorem witness_BoundaryCountsOneBeat :
    let s := onBeat s0 fun b => { b with followed := true }
    s.live = true ∧ s.beat.stepsDue = false ∧ s.beat.followed = true ∧ s.beat.rootNext = false := by decide

theorem witness_BeatUnitFollowsTheRoot_marker :
    let s := withPort (onBeat s0 fun b => { b with rootAddr := 31 }) { defaultPort with
      clockLocked := true, a := { defaultStripe with st := .up, linkDelay := 100, delayKnown := true } }
    s.live = true ∧ PortFree s 63 ∧ (s.port 63).clockLocked = true ∧ (s.port 63).rxAsleep = false ∧ (s.port 63).delay = some 100
    ∧ 1900 + 100 ≤ 2000 ∧ s.beat.rootAddr ≠ 0xFF ∧ s.beat.st ≠ .root
    ∧ markerOf (s.decodeClock 63 (s.encodeLane false (markerEntries (markerWord 5 1900 31 2 2))).1).1 = some (markerWord 5 1900 31 2 2)
    ∧ markerOf (s.decodeClock 63 []).1 = none := by
  unfold PortFree; decide +kernel

theorem witness_BeatUnitFollowsTheRoot_states :
    (s0.beat.followed = false ∧ s0.beat.st ≠ .root ∧ s0.beat.markers = [])
    ∧ (let m : Marker := { port := 0, est := 8, count := 5, period := 2 }
      (onBeat s0 fun b => { b with markers := [m] }).beat.markers = [m])
    ∧ (let s := onBeat s0 fun b => { b with lockRun := 8 }
      s.live = true ∧ s.beat.st = .seek ∧ 8 ≤ s.beat.lockRun)
    ∧ (let s := onBeat s0 fun b => { b with st := .freerun, lockRun := 1, holdBeats := 0x801 }
      s.live = true ∧ s.beat.st = .freerun ∧ 1 ≤ s.beat.lockRun ∧ s.beat.driftThresh < s.beat.holdBeats)
    ∧ (let s := onBeat s0 fun b => { b with st := .locked, missed := 3 }
      s.beat.st = .locked ∧ 3 ≤ s.beat.missed)
    ∧ (let s := onBeat s0 fun b => { b with st := .holdover, holdBeats := 65536 }
      s.beat.st = .holdover ∧ 65536 ≤ s.beat.holdBeats) := by decide

def dueState (action : Nat) (a : Word) : State :=
  withEntry (onBeat s0 fun b => { b with count := 1, stepsDue := true, st := .root }) (entryFor action a)

theorem witness_DueEntriesApply :
    (∀ x ∈ [(8, 5), (7, 4), (6, 127), (3, 8), (2, 0x010018), (4, 63)], let s := dueState x.1 x.2
      s.live = true ∧ s.beat.stepsDue = true ∧ s.nextStep5 = some (.entry 255) ∧ (s.agEntry 255).action = x.1
      ∧ mayChange (s.entryHolder x.1 x.2) .i3c 0 = true ∧ s.entryInReset (s.agEntry 255) = false)
    ∧ (dueState 3 8).curveValid 8 = true
    ∧ (let s : State := { dueState 3 8 with mgmt := { s0.mgmt with tableHolds := [(7, some (.sb, 0))] } }
      mayChange (s.entryHolder 3 8) .i3c 0 = false) := by decide

/-- A run of partitions 0 and 63 whose slot 0 is under way. -/
def runOn : Run := { newRun [(0, s0.entry 8 0), (63, s0.entry 8 63)] with begun := true, slotOn := true, startBeat := 0, nextDue := 1 }
def testing (r : Run) (count : Beat) : State :=
  { s0 with
    bist := { s0.bist with run := some r, active := [0] }
    beat := { s0.beat with count := count, localBeats := 9, stepsDue := true } }

theorem witness_DueEntriesApply_start :
    let s : State := { dueState 5 7 with bist := { s0.bist with run := some (newRun [(63, s0.entry 8 63)]) } }
    s.nextStep5 = some (.entry 255) ∧ s.bist.run = some (newRun [(63, s0.entry 8 63)])
    ∧ (∃ y ∈ (newRun [(63, s0.entry 8 63)]).parts, entrySlot y.2 = paramLow 7 7) := by decide

theorem witness_BoundaryStepsRunOnce :
    let s : State := { (onBeat s0 fun b => { b with stepsDue := true }) with ctr := { s0.ctr with
      windows := [(64, { pending := some 65536, window := 256, lastClose := 0, spoiled := false, late := false, due := true })]
      counters := [(1279, { s0.counter 1279 with select := some 0x1001 })] } }
    s.live = true ∧ s.beat.stepsDue = true ∧ (s.window 64).due = true ∧ s.underTest 94 = false
    ∧ (s.window 64).pending = some 65536 ∧ (s.counter 1279).select = some 0x1001 ∧ s0.beat.stepsDue = false := by decide

theorem witness_PowerUnitActs :
    s0.live = true ∧ s0.power.droopEn = true
    ∧ (let s : State := { s0 with power := { s0.power with droopBeat := true, vreqFault := true } }
      s.power.droopBeat = true ∧ s.power.vreqFault = true)
    ∧ (∀ code ∈ [49, 50, 51], let s : State := { s0 with power := { s0.power with railMoving := true, code := code } }
      s.power.railMoving = true ∧ s.power.vreqFault = false
      ∧ (code = 49 → s.power.code < s.railCode) ∧ (code = 50 → s.power.code = s.railCode) ∧ (code = 51 → s.railCode < s.power.code)) := by
  decide

theorem witness_CapsAreSetAndHeld :
    Open s0 ∧ mayChange s0.mgmt.ceilingHold .pcie 0 = true ∧ mayChange s0.mgmt.hostHold .pcie 0 = true ∧ s0.power.ceiling = 0
    ∧ (withCeiling s0 (cmdOf .pcie) 250).effCap ≤ s0.effCap ∧ s0.power.telem.length = 4
    ∧ (let s := withCeiling s0 (cmdOf .sb) 1499
      mayChange s.mgmt.ceilingHold .pcie 0 = false ∧ mayChange s.mgmt.hostHold .pcie 0 = true ∧ s.power.ceiling ≠ 0
      ∧ s.power.ceiling < 1500)
    ∧ (let s : State := withCeiling { s0 with side := { s0.side with bmcAbsent := true } } (cmdOf .sb) 250
      mayChange s.mgmt.ceilingHold .sb 0 = true ∧ s.side.bmcAbsent = true ∧ s.effCap < (withCeiling s (cmdOf .sb) 0).effCap) := by
  unfold Open; decide

theorem witness_SelfTestRuns_start :
    Open s0 ∧ s0.paramError (.bistRun (cmdOf .sb) 3 nextSpec) = none ∧ s0.runGate (partList 3) = none
    ∧ s0.stageCheck (cmdOf .sb) nextSpec [startOf (runOf s0 3)] true = none
    ∧ (testing runOn 5).underTest 0 = true ∧ Open (testing runOn 5) := by
  unfold Open; decide

theorem witness_SelfTestRuns_slots :
    (testing runOn 5).live = true ∧ (testing runOn 5).bist.active.contains 0 = true
    ∧ (let s : State := { s0 with bist := { s0.bist with restoring := [63] } }
      s.bist.restoring.contains 63 = true ∧ s.bist.retrain.contains 63 = false)
    ∧ (let r := { runOn with ended := [0] }
      (testing r 5).bist.run = some r ∧ (testing r 5).nextStep5 = some .slotStop ∧ r.members r.slot = []
      ∧ r.endedAt < (testing r 5).beat.localBeats)
    ∧ ((testing runOn 1152).nextStep5 = some .slotStop ∧ runOn.members runOn.slot ≠ [])
    ∧ (let r := { runOn with slotOn := false, waiting := true, waitFrom := 0 }
      (testing r 255).nextStep5 = some .slotStart ∧ r.waiting = true ∧ (testing r 256).slotFits r r.slot = true
      ∧ ((testing r 255).beat.count - r.waitFrom).toNat < (testing r 255).bist.slotWait.toNat
      ∧ (let s : State := { testing r 256 with power := { s0.power with now := 1500 } }
        s.nextStep5 = some .slotStart ∧ s.slotFits r r.slot = false
        ∧ s.bist.slotWait.toNat ≤ (s.beat.count - r.waitFrom).toNat))
    ∧ (let r := { runOn with slotOn := false, slot := 7 }
      (testing r 1).nextStep5 = some .slotStart ∧ r.waiting = false) := by decide

/-- A memory half whose march has no bank left, and what its last words were to be. -/
theorem witness_SelfTestRuns_half :
    let q : TestSeq := { misr := 0, count := 5, bank := none, copying := false, left := [], found := 0 }
    let s : State := { s0 with bist := { s0.bist with active := [93], seqs := [(93, q)] } }
    s.live = true ∧ s.bist.active.contains 93 = true ∧ s.testSeq 93 = q ∧ q.bank = none ∧ q.left = [] := by decide

theorem witness_SparesTakeOver_commands :
    Open s0 ∧ (∀ x ∈ [(2, 23, 24), (3, 127, 128), (4, 95, 96)],
      s0.paramError (.spareBringIn (cmdOf .sb) (BitVec.ofNat 8 x.1) (BitVec.ofNat 16 x.2.1)) = none
      ∧ s0.partInReset (unitPart (kindOf (BitVec.ofNat 8 x.1)) x.2.1) = false
      ∧ s0.underTest (unitPart (kindOf (BitVec.ofNat 8 x.1)) x.2.1) = false
      ∧ s0.bankRole (kindOf (BitVec.ofNat 8 x.1)) x.2.1 = .inService
      ∧ s0.nextSpare (kindOf (BitVec.ofNat 8 x.1)) x.2.1 = some x.2.2)
    ∧ s0.memInReset = false ∧ (s0.stack 11).role = .inService ∧ s0.migrating = false ∧ s0.spareStack = some 12 := by
  unfold Open; decide

theorem witness_SparesTakeOver_events :
    s0.live = true
    ∧ (let s : State := { s0 with bist := { s0.bist with copies := [(.drey, 95, 98, true)], toBlow := [(4, 95)] } }
      s.bist.copies.find? (fun c => c.1 == .drey && c.2.1 == 95) = some (.drey, 95, 98, true) ∧ s.bist.toBlow ≠ [])
    ∧ (let s : State := { s0 with bist := { s0.bist with copies := [(.buffer, 127, 131, false)] } }
      s.bist.copies.find? (fun c => c.1 == .buffer && c.2.1 == 127) = some (.buffer, 127, 131, false) ∧ 127 ≠ 131)
    ∧ s0.bist.autoSpare = true
    ∧ (let s : State := { s0 with bist := { s0.bist with bufUe := [(127, 4)], dreyUe := [(95, 4)] } }
      127 < kindUnits .buffer ∧ s.triggered .buffer 127 = true ∧ s.triggered .buffer 126 = false ∧ s.bankRole .buffer 127 = .inService
      ∧ s.nextSpare .buffer 127 = some 128 ∧ s.triggered .drey 95 = true ∧ s.nextSpare .drey 95 = some 96)
    ∧ (let s : State := { s0 with bist := { s0.bist with rc := [(24, .unusable), (25, .unusable)] }, coll := { s0.coll with residueBad := [0] } }
      s.triggered .cluster 0 = true ∧ s.nextSpare .cluster 0 = none ∧ s.bankRole .cluster 0 = .inService)
    ∧ (let s : State := { s0 with bist := { s0.bist with dreyUe := [(95, 255)], drey := [(95, .out)], copies := [(.drey, 95, 98, false)] } }
      s.triggered .drey 95 = true ∧ s.bankRole .drey 95 ≠ .inService ∧ (.drey, 95, 98, false) ∈ s.bist.copies)
    ∧ (let s := deferring s0 (.bringIn .cluster 0 (some 3))
      s.mgmt.deferred = [] ++ waits (.bringIn .cluster 0 (some 3)) :: [] ∧ broughtIn (waits (.bringIn .cluster 0 (some 3))).work = some 3) := by
  decide

theorem witness_CountersAreReadAndArmed :
    Open s0 ∧ s0.underTest 94 = false ∧ s0.paramError (.ctrRead (cmdOf .i3c) 0xFF 1 255) = none
    ∧ s0.paramError (.ctrSelect (cmdOf .i3c) 63 15 0x0101) = none ∧ mayChange (sget s0.mgmt.tableHolds 9 none) .i3c 0 = true
    ∧ s0.paramError (.ctrWindowSet (cmdOf .i3c) 0xFF 65536) = none ∧ s0.paramError (.sampleConfig (cmdOf .i3c) 63 15 256 1) = none
    ∧ (let s : State := { s0 with ctr := { s0.ctr with counters := [(1279, { s0.counter 1279 with due := [none] })] } }
      (s.counter 1279).due = none :: [] ∧ s.ctr.samples.length < 256)
    ∧ bankBad (0xFF : Byte).toNat = false ∧ (0xFF : Byte).toNat < bankSize (0xFF : Byte).toNat ∧ counterOf 0xFF 0xFF = 1279
    ∧ bankBad (63 : Byte).toNat = false ∧ (15 : Byte).toNat < bankSize (63 : Byte).toNat ∧ counterOf 63 15 = 1023
    ∧ (let r : Sample := ⟨0, 0, 0, 0, 0, 0, 0, 0, none⟩
      256 ≤ ({ s0 with ctr := { s0.ctr with samples := List.replicate 256 r } } : State).ctr.samples.length)
    ∧ s0.pending = [] ∧ s0.live = true
    ∧ ({ s0 with pkg := { s0.pkg with rstLow := true } } : State).live = false := by
  unfold Open; decide

/-- After one core cycle at reset ESLOTS_TOTAL is 24, all of them Unfed, and MSLOTS_TOTAL is 192 (R408, R409 and the example of an
engine-limited reduction, 14). -/
theorem test_idle_cycle_counts_slots :
    (match step s0 with
      | .next t => [1024, 1028, 1029, 1030, 1033, 1034].map fun k => (t.counter k).run.toNat
      | _ => []) = [24, 24, 0, 192, 192, 0] := by decide +kernel

/-- At k = 8 every other source cycle is swallowed (R360). -/
theorem test_clock_step : (List.range 16).map (coreEdge · 8)
      = [false, true, false, true, false, true, false, true, false, true, false, true, false, true, false, true]
    ∧ ∀ i, i < 16 → coreEdge i 16 = true := by decide

theorem witness_KeysAndAccess :
    Open s0 ∧ s0.paramError (.keyLoad (cmdOf .sb) 7 15 1 1 5) = none ∧ s0.keyAdmin (cmdOf .sb) = true
    ∧ s0.keyAdmin (cmdOf .tc7) = false ∧ s0.paramError (.keyClear (cmdOf .sb) 7) = none
    ∧ (lowSource .sb && authChangeBad .sb s0.mgmt.authReq 15) = false := by
  unfold Open; decide

def stripeIn (st : StripeSt) : Stripe := { defaultStripe with st := st }
/-- A port in x8 mode whose stripe is in this state. -/
def portIn (st : StripeSt) : PortSt := { defaultPort with enabled := true, a := stripeIn st }

theorem witness_TrainingAdvances_clock :
    let s := withPort s0 (portIn .send)
    s.lineOk 63 = true ∧ s.rxLaneBad 63 9 = false ∧ ((s.port 63).sides.any fun x => ((s.port 63).stripe x).hunting) = true
    ∧ (s.port 63).clockLocked = false ∧ s.rxSpareIdle 63 = true := by decide

theorem witness_TrainingAdvances_lanes :
    let p := { portIn .send with clockLocked := true, a := { stripeIn .send with locked := 0x7F } }
    let s := withPort s0 p
    s.lineOk 63 = true ∧ s.rxLaneBad 63 7 = false ∧ 7 ∈ stripeLanes (s.port 63).split .a ∧ ((s.port 63).stripe .a).hunting = true ∧ (s.port 63).clockLocked = true
    ∧ ((s.port 63).stripe .a).locked ≠ 0 ∧ ((s.port 63).stripe .a).rxw = 0
    ∧ resolveLanes (s.rxSpareIdle 63) (stripeLanes (s.port 63).split .a)
        ((stripeLanes (s.port 63).split .a).filter fun k => !bitAt ((s.port 63).stripe .a).locked.toNat k) = some (some 7, none) := by
  decide

theorem witness_TrainingAdvances_states :
    (∀ st ∈ [StripeSt.align, .send, .exchange, .backoff], (withPort s0 (portIn st)).lineOk 63 = true
      ∧ (((withPort s0 (portIn st)).port 63).stripe .a).st = st)
    ∧ (let x := { stripeIn .align with locked := 0xFF }
      (huntSet false .a x).all (fun k => bitAt x.locked.toNat k) = true) := by decide

theorem witness_EnergyAndPresenceStartTraining :
    let s : State := { withPort s0 (portIn .absent) with side := { s0.side with mmb := [(7, { s0.mmb 7 with seated := true, cables := 0x80 })] } }
    s.lineOk 63 = true ∧ (s.port 63).enabled = true ∧ s.present 63 = true
    ∧ ((s.port 63).sides.any fun sd => decide (((s.port 63).stripe sd).st = .absent)) = true
    ∧ (((withPort s0 (portIn .backoff)).port 63).stripe .a).energySeen = false := by decide

/-- A training record whose CRC is good. -/
def goodRec : TrainRec :=
  { version := 1, phase := 5, laneId := 0, split := false, rxAligned := true, replayValid := false, ckOnSp := false, tSyms := false,
    background := false, reservedZero := true, blockCount := 0, localEpoch := 1, peerEpoch := 0xFFFF, rxNext := 0, rxLanes := 0xFF,
    spWant := 15, rxWidth := 8, rxFirst := 0, stamp := 0, echoStamp := 0, turn := 0, crcGood := true }

theorem witness_RecordsAreExchanged :
    (∀ st ∈ [StripeSt.send, .align, .exchange], (withPort s0 (portIn st)).lineOk 63 = true ∧ (stripeIn st).training = true)
    ∧ ({ goodRec with crcGood := false }).crcGood = false ∧ goodRec.version = 1 ∧ goodRec.split = (portIn .exchange).split
    ∧ ({ goodRec with version := 2 }).version ≠ 1 ∧ ({ goodRec with split := true }).split ≠ (portIn .exchange).split := by decide

theorem witness_RecordsAreExchanged_up :
    let s := withPort s0 { portIn .exchange with a := { stripeIn .exchange with
      peerAligned := true, peerWidth := 2, rtts := List.replicate 64 9, readySeen := 64 } }
    s.lineOk 63 = true ∧ s.phaseOf ((s.port 63).stripe .a) = 5 ∧ s.timing 7 ≤ ((s.port 63).stripe .a).readySeen
    ∧ ((withPort s0 (portIn .exchange)).phaseOf (stripeIn .exchange)) ≠ 5 := by decide

/-- A port in x8 mode that is UP, with flits to acknowledge. -/
def upStripe : Stripe := { stripeIn .up with txw := 8, rxw := 8, txNext := 2, acked := 0, ackOwed := true }
def upPort : PortSt := { portIn .up with a := upStripe, clockLocked := true }

/-- A LANE message that names this lane and width. -/
def laneMsg (lane width : BitVec 8) : LaneMsg :=
  { lane := lane, hitless := true, restore := false, stripeB := false, width := width, first := 0, next := 0 }
/-- A lane change of lane 7. -/
def job (sent : Nat) (hitless doubled : Bool) : LaneJob :=
  { side := .a, lane := 7, hitless := hitless, restore := false, sent := sent, body := laneMsg 7 0, locked := false, doubled := doubled }

theorem witness_AcknowledgementsAndReplay :
    let s := withPort s0 upPort
    s.rxOk 126 = true ∧ (s.port 63).txAwake = true ∧ (s.port 63).txSleeping = false ∧ (s.port 63).rxJob = none
    ∧ (s.lpStripe 126).txNext ≠ (s.lpStripe 126).acked ∧ (s.lpStripe 126).ackOwed = true
    ∧ NothingWaits s 126 ∧ (s.port 63).halted .a = false
    ∧ (let u := withPort s0 { upPort with txJob := some (job 0 false false) }
      u.rxOk 126 = true ∧ (u.port 63).halted .a = true)
    ∧ (let u := s.ackIn 126 0
      seqDist (u.lpStripe 126).acked (u.lpStripe 126).txNext < seqDist (u.lpStripe 126).acked 3
      ∧ seqDist (u.lpStripe 126).acked 2 ≤ seqDist (u.lpStripe 126).acked (u.lpStripe 126).txNext
      ∧ (u.lpStripe 126).noProgress + 1 ≤ s.timing 14)
    ∧ s.replayDepth 126 < seqDist 1 (s.lpStripe 126).rxNext ∧ seqDist 0 (s.lpStripe 126).rxNext ≤ s.replayDepth 126 := by
  unfold NothingWaits; decide

theorem witness_NoSpareWork : NoSpareWork (withPort s0 upPort) 63 := fun _ h => (List.not_mem_nil h).elim

theorem witness_FlitsAreTakenInOrder :
    let s := withPort s0 upPort
    s.rxOk 126 = true ∧ (s.port 63).txAwake = true ∧ (s.port 63).txSleeping = false ∧ (s.port 63).requestOpen .a = false
    ∧ (s.lpStripe 126).discarding = false ∧ (s.lpStripe 126).skip = 0 ∧ s.holdOf 126 ≠ .up ∧ (withPort s0 upPort).holdOf 126 ≠ .up ∧ (s.lpStripe 126).flits = []
    ∧ NothingWaits s 126
    ∧ (let t := withPort s0 { upPort with a := { upStripe with discarding := true, skip := 1, flits := [.flit 3] } }
      t.rxOk 126 = true ∧ (t.lpStripe 126).discarding = true ∧ (t.lpStripe 126).skip ≠ 0 ∧ (t.lpStripe 126).flits.head? ≠ some (.flit 4)
      ∧ (t.lpStripe 126).flits.head? = some (.flit 3)) := by
  unfold NothingWaits; decide

/-- A data flit as it stands on the wire is good, and no other word of the same header is (R122, R125). -/
theorem witness_FlitsAreTakenInOrder_checks :
    let h : Hdr := { ctrlHdr with ftype := 1, flits := 1, lastBytes := 240, pos := 3 }
    checkFlit 1 = .bad ∧ checkFlit (wireFlit h (zeros 240) false) = .good ∧ (flitHdr (wireFlit h (zeros 240) false)).ftype = 1
    ∧ checkFlit (wireFlit { h with stomp := 12 } (zeros 240) true) = .stomped := by decide +kernel

theorem witness_BlocksBecomeFlits_lock :
    (∀ ck ∈ [false, true], let s := withPort s0 { portIn .send with ckOnSp := ck }
      s.lineOk 63 = true ∧ (s.port 63).split = false ∧ (s.port 63).a.st = .send) := by decide

theorem witness_LaneMessagesActOnTheirJobs :
    (∀ j ∈ [job 0 true false, job 0 false false, job 0 true true, job 4 true false],
      let s := withPort s0 { upPort with txJob := some j, rxJob := some (job 5 true false) }
      s.laneRxOk 63 (laneMsg 7 0) = true ∧ (s.port 63).txSleeping = false ∧ (s.port 63).txJob = some j ∧ j.lane = (laneMsg 7 0).lane.toNat
      ∧ (s.port 63).rxJob = some (job 5 true false))
    ∧ (withPort s0 upPort).laneRxOk 63 (laneMsg 9 0) = true
    ∧ (4 < ((withPort s0 upPort).port 63).a.txw ∧ ((withPort s0 upPort).port 63).a.txFirst ≤ 0)
    ∧ (withPort s0 upPort).rxSwapOk 63 7 false = true ∧ (withPort s0 { upPort with rxSp := 3 }).rxSwapOk 63 7 false = false := by decide

theorem witness_LaneChangesEnd :
    (∀ j ∈ [job 1 true false, job 2 true false, job 1 false false, { job 1 false false with locked := true }],
      let s := withPort s0 { upPort with rxJob := some j }
      s.lineOk 63 = true ∧ (s.port 63).txSleeping = false ∧ (s.port 63).rxJob = some j ∧ (s.port 63).txJob = none ∧ 1 ≤ j.sent
      ∧ (s.port 63).txAwake = true)
    ∧ (∀ j ∈ [job 4 true false, job 0 false false], ((withPort s0 { upPort with txJob := some j }).port 63).txJob = some j) := by decide

theorem witness_DirectionsSleepAndWake_tx :
    let s := withPort s0 { upPort with txSleeping := true, a := { upStripe with ackOwed := false } }
    s.lineOk 63 = true ∧ (s.port 63).txSleeping = true ∧ (s.port 63).txAwake = true ∧ (s.port 63).sleepOut = []
    ∧ (∀ lp ∈ s.lpsOf 63, s.flitReady lp = false ∧ s.currentOf lp = none ∧ (s.lpStripe lp).replay = []
      ∧ (s.lpStripe lp).txLine = [] ∧ (s.lpStripe lp).txPart = []) ∧ s.mgmt.deferred = []
    ∧ (s.port 63).laneOut = [] ∧ (∀ sd ∈ (s.port 63).sides, ((s.port 63).stripe sd).initOwed = false)
    ∧ (let t := withPort s0 { upPort with txAsleep := true }
      (t.port 63).anyUp = true ∧ (t.port 63).txAsleep = true ∧ (t.port 63).txWaking = 0 ∧ t.needsTx 63 = true)
    ∧ (∀ w ∈ [1, 2], ((withPort s0 { upPort with txAsleep := true, txWaking := w, rxAsleep := true, rxWaking := w }).port 63).txWaking = w
      ∧ ((withPort s0 { upPort with txAsleep := true, txWaking := w, rxAsleep := true, rxWaking := w }).port 63).rxWaking = w) := by decide

theorem witness_DirectionsSleepAndWake_peer :
    let s := withPort s0 { upPort with a := { upStripe with ackOwed := false } }
    s.rxOk (2 * 63) = true ∧ (s.lpStripe (2 * 63)).discarding = false ∧ (s.lpStripe (2 * 63)).skip = 0 ∧ (s.port 63).txSleeping = false
    ∧ (s.port 63).txAsleep = false ∧ (s.port 63).allUp = true ∧ s.hasFlit 63 = false
    ∧ (let t := deferring { s with beat := { s.beat with count := 16 } } (.sleep 63 2 false 0)
      (t.mgmt.deferred.any fun d => match d.work with | .sleep q d _ _ => q == 63 && bitAt d 1 | _ => false) = true
      ∧ (t.mgmt.deferred.any fun d => match d.work with
        | .sleep q d wake since => q == 63 && bitAt d 1 && (t.port 63).rxAsleep == wake && decide (16 ≤ (t.beat.count - since).toNat)
        | _ => false) = true) := by decide

theorem witness_PortsAreAdministered :
    Open s0 ∧ PortFree s0 63 ∧ (s0.port 63).enabled = false ∧ (s0.port 63).modeChange 0 = false ∧ (s0.port 63).modeChange 0xFF = false
    ∧ bitAt s0.bist.portUnusable.toNat 63 = false
    ∧ (let s := withPort s0 upPort
      (s.port 63).enabled = true ∧ (s.port 63).modeChange 1 = true ∧ (s.port 63).modeChange 0 = false
      ∧ s.paramError (.eyeScan (cmdOf .i3c) 63 7 64 31 40) = none ∧ (s.port 63).lanePowered false 7 = true ∧ (s.port 63).rxAsleep = false
      ∧ 7 ∉ (s.port 63).scans ∧ s.scansRun < 16) := by
  unfold Open PortFree; decide

theorem witness_SparesAndSleepAreCommanded :
    let s := withPort s0 { upPort with a := { upStripe with ackOwed := false } }
    Open s ∧ PortFree s 63 ∧ (s.port 63).txSleeping = false ∧ s.spareBad 63 .rx 7 false = false ∧ s.spareBad 63 .tx 7 false = false
    ∧ s.spareBad 63 .rx 7 true = true ∧ (s.port 63).txAwake = true
    ∧ (s.port 63).rxJob = none ∧ (s.port 63).txJob = none ∧ (s.port 63).allUp = true ∧ s.mgmt.deferred = [] ∧ (s.port 63).txAsleep = false
    ∧ s.voqHolds 63 = false
    ∧ (let t := withPort s0 { upPort with rxSp := 7, txSp := 7, txAsleep := true }
      t.spareBad 63 .rx 7 true = false ∧ (t.port 63).txAsleep = true ∧ (t.port 63).txWaking = 0)
    ∧ (let t := withPort s0 { upPort with rxSp := 7, txSp := 7, rxJob := some (job 1 true false), txJob := some (job 4 true false) }
      t.spareBad 63 .rx 7 true = false ∧ (t.port 63).jobRuns .rx = true ∧ t.spareBad 63 .tx 7 true = false
      ∧ (t.port 63).jobRuns .tx = true) := by
  unfold Open PortFree; decide

def seated (s : State) (b : Nat) : State := { s with side := { s.side with mmb := [(b, { s.mmb b with seated := true })] } }

theorem witness_CartridgeTransfersAreServedInTurn :
    Open s0 ∧ s0.paramError (.cartRead (cmdOf .i3c) 7 127 0xFF 255 256) = none ∧ (s0.mmb 7).seated = false
    ∧ ((seated s0 7).mmb 7).seated = true ∧ (seated s0 7).paramError (.cartWrite (cmdOf .sb) 7 127 0 255 128 []) = none
    ∧ (∀ k, k < 8 → (seated s0 7).underTest (8 * 7 + k) = false)
    ∧ (seated s0 7).identityWaits 7 = false ∧ ((seated s0 7).mgmt.deferred.find? fun d => d.work.onBus 7) = none
    ∧ (let d : Deferred := { waits (.cart 7 80 0 0 2 false []) with served := true }
      let s : State := { seated s0 7 with mgmt := { s0.mgmt with deferred := [d] } }
      s.mgmt.deferred = [d] ∧ d.served = true ∧ ((s.mgmt.deferred.find? fun d => d.work.onBus 7).any fun d => d.served) = true)
    ∧ (let s := withPort (seated s0 7) { portIn .send with a := { stripeIn .send with readOwed := true } }
      s.identityWaits 7 = true ∧ (s.mgmt.deferred.find? fun d => d.work.onBus 7) = none) := by
  unfold Open; decide

/-- Granule 0 is allocated. -/
def allocated0 (s : State) : State := { s with mem := { s.mem with allocs := [{ first := 0, count := 1, owner := 0 }] } }

theorem witness_MemoryCommandsActOnAllocations :
    Open s0 ∧ SharedFree s0 ∧ s0.firstFit (granulesOf 1) = some 0 ∧ s0.firstFit (granulesOf (2 ^ 63)) = none
    ∧ s0.paramError (.memFill (cmdOf .sb) 0 64 5) = none ∧ s0.paramError (.memRead (cmdOf .sb) 0 64) = none
    ∧ s0.paramError (.memWrite (cmdOf .sb) 0 64 []) = none
    ∧ (let s := allocated0 (deferring s0 (.memWrite 0 (zeros 64)))
      s.memRuns = true ∧ s.mgmt.deferred = [waits (.memWrite 0 (zeros 64))] ∧ s.allocated 0 64 = true
      ∧ { first := 0, count := 1, owner := 0 } ∈ s.mem.allocs)
    ∧ (∀ k ∈ sectorsOf 0 64, k ∉ s0.mem.poison ∧ s0.isLost (k / 64) = false ∧ (s0.stack (s0.stackOf (k / 64))).dead = false) := by
  unfold Open SharedFree; decide

/-- Group 5 lists LP 0 and 127. -/
def grouped (s : State) : State :=
  { s with tables := { s.tables with mcast := [(5, mkEntry ((1 <<< 191) + (1 <<< 127) + 1 + (0xFF <<< 176)))] } }
/-- Session 4095 in this state. -/
def inSession (st : SessSt) : State :=
  { s0 with coll := { s0.coll with sessions := [(4095, { defaultSession with st := st, members := 3, mg := 5, openerSrc := .sb })] } }

theorem witness_SessionsOpenAndClose :
    let s := grouped s0
    Open s ∧ SharedFree s ∧ s.paramError (.sessionOpen (cmdOf .sb) 4095 5 3 (2 ^ 127 + 1) 4) = none
    ∧ s.groupInUse 5 = false ∧ s.beat.st ≠ .freerun ∧ s.quotaSum + 4 + s.coll.stageKib ≤ s.dreyCap ∧ (s.session 4095).st = .free
    ∧ (∀ st ∈ [SessSt.idle, .aborted, .closing, .running], ((inSession st).session 4095).st = st
      ∧ mayChange (some (((inSession st).session 4095).openerSrc, 0)) .sb 0 = true
      ∧ mayChange (some (((inSession st).session 4095).openerSrc, 0)) .i3c 0 = false) := by
  unfold Open SharedFree; decide

/-- LP 126 holds. -/
def holding (s : State) (e : Beat) : State :=
  { s with recov := { s.recov with ports := [(63, { s.recovOf 63 with stA := .holding, endA := e })] } }

theorem witness_DrainsAndHeldFrames :
    Open s0 ∧ SharedFree s0 ∧ s0.holdOf 127 ≠ .holding ∧ s0.holdOf 126 ≠ .holding ∧ (holding s0 1).holdOf 126 = .holding
    ∧ (holding s0 1).holdOf 127 ≠ .holding ∧ (holding s0 1).currentOf 126 = none ∧ (holding s0 1).sw.frames = [] := by
  unfold Open SharedFree; decide

/-- A data block of a lane that carries nothing but /I/ (R295, R302). -/
def idleBlock : List (BitVec 10) := 0x0FA :: List.replicate 63 0x30B
def halfUp : PortSt := { upPort with a := { upStripe with rxw := 2, txw := 2 } }
/-- The symbols of that block, and those of the clock lane meanwhile: 32 groups of /CI/ (R290, R305). -/
def idleSymbols : List Level := idleBlock.flatMap groupSymbols
def clockIdle : List Level := (s0.encodeLane false (List.replicate 32 261)).1.flatMap clockSymbols
def decoded (s : State) : List (Nat × List (Option Nat) × Option Bool) :=
  ((((s.port 63).stripe .a).rxLanes.map (s.port 63).physLane).zip [idleSymbols, idleSymbols]).map
    fun y => (y.1, s.decodeLane false ((s.port 63).lane y.1).rd (dataGroups y.2))

theorem witness_BlocksBecomeFlits :
    let s := withPort s0 halfUp
    s.lineOk 63 = true ∧ ((s.port 63).stripe .a).st = .up ∧ ((s.port 63).stripe .a).rxw ≠ 0 ∧ (s.port 63).rxAsleep = false
    ∧ [idleSymbols, idleSymbols].length = ((s.port 63).stripe .a).rxw ∧ ((s.port 63).stripe .a).flits.head? ≠ some .fault ∧ 0 < s.timing 13
    ∧ ((s.port 63).rxClock :: ((s.port 63).stripe .a).rxLanes.map (s.port 63).physLane).Nodup
    ∧ (∀ k ∈ (s.port 63).rxClock :: ((s.port 63).stripe .a).rxLanes.map (s.port 63).physLane,
        (((0 : Nat) :: ((s.port 63).lane k).recent).take (s.timing 12)).sum < s.timing 11) := by decide

theorem witness_BlocksBecomeFlits_block :
    let b := blockDone [] ((decoded (withPort s0 halfUp)).map fun y => y.2.1)
    b.head = 256 ∧ b.slip = false ∧ b.read.errs = [] ∧ (∀ e ∈ b.headErrs, e = false) ∧ (∀ e ∈ b.errs, e = 0) := by decide +kernel

theorem witness_BlocksBecomeFlits_clock :
    (s0.decodeLane true none (clockGroups clockIdle)).1.length = 32
    ∧ ∀ e ∈ (s0.decodeLane true none (clockGroups clockIdle)).1, e ≠ none ∧ e ≠ some 264 := by decide +kernel

/-! ## Frames -/

/-- A header of one flit. -/
def hdr1 (ftype : BitVec 4) (tc : BitVec 3) (dest : BitVec 16) (thl : BitVec 4) (lastBytes : BitVec 8) : Hdr :=
  { pos := 0, tc := tc, ftype := ftype, flits := 0, thl := thl, stomp := 0, rsvd := 0, lastBytes := lastBytes, dest := dest, src := 9
    fseq := 3, link := 0 }
/-- A whole frame of one flit. -/
def frame1 (h : Hdr) (content : Bytes) : InFrame :=
  { hdr := h, content := content, arrived := 1, stomp := none, badFormat := false, cells := [] }
/-- Endpoint data for route table entry or group DEST. -/
def epFrame (dest : BitVec 16) : InFrame := frame1 (hdr1 0 0 dest 0 8) (zeros 8)
/-- Route table entry 8191 forwards every class to LP 0. -/
def routed (s : State) : State :=
  { s with tables := { (grouped s).tables with route := [(8191, mkEntry ((1 <<< 63) + (1 <<< 60) + (0xFF <<< 52)))] } }

theorem witness_HeadsAreAdmittedHeldOrDiscarded :
    let s := routed s0
    s.live = true ∧ s.portInReset 63 = false ∧ s.switchInReset = false ∧ s.sw.heads = [] ∧ s.sw.lookupHold = []
    ∧ s.ingressCheck 126 (epFrame 0x2000) = .inl 2 ∧ s.ingressCheck 126 (epFrame 0) = .inl 3
    ∧ s.ingressCheck 126 (epFrame 8191) = .inr (1, 0) ∧ s.recov.fences = [] ∧ s.holdOf 0 ≠ .ended
    ∧ ({ s with sw := { s.sw with lookupHold := [1], heads := [(127, true, epFrame 8191)] } } : State).sw.lookupHold ≠ [] := by decide

theorem witness_DestinationsAreDecoded :
    let s := routed s0
    (epFrame 8191).hdr.ftype.toNat < 9 ∧ bitAt (s.entry 1 8191) 63 = true ∧ bitAt (s.entry 1 0) 63 = false
    ∧ bitsAt (s.entry 1 8191) 62 60 = 1 ∧ bitsAt (s.entry 1 8191) 6 0 = 0 ∧ bitAt (s.entry 1 8191) 52 = true ∧ s.lpExists 0 = true
    ∧ bitAt (s.entry 2 (0x8005 - 0x8000)) 191 = true ∧ bitAt (s.entry 2 (0x8005 - 0x8000)) 176 = true
    ∧ bitAt (s.entry 2 (0x8FFF - 0x8000)) 191 = false ∧ (epFrame 8191).badFormat = false ∧ (epFrame 8191).stomp = none := by decide

theorem witness_CreditsArePaidOut :
    let s := withPort s0 upPort
    s.lpUp 126 = true ∧ s.canSend 126 = true ∧ (s.port 63).txSleeping = false ∧ s.issueClass 126 = some 0
    ∧ (∀ c, c < 8 → sget s.sw.pendingCredit (lpTc 126 c) 0 = 0)
    ∧ (let t : State := { s with sw := { s.sw with pendingCredit := [(lpTc 126 7, 1)] } }
      sget t.sw.pendingCredit (lpTc 126 7) 0 ≠ 0)
    ∧ (let t : State := { s with sw := { s.sw with granted := (List.range 8).map fun c => (lpTc 126 c, 65535) } }
      t.issueClass 126 = none)
    ∧ (s.lpStripe 126).initOwed = false
    ∧ (let t := withPort s0 { upPort with a := { upStripe with initOwed := true } }
      t.canSend 126 = true ∧ (t.lpStripe 126).initOwed = true) := by decide

/-- The last flit of a frame in progress. -/
def lastFlit (flits : List Bytes) (sent : Nat) : Current :=
  { source := 0, st := { id := 1, inLp := 0, outLp := 126, hdr := { hdr1 0 0 8191 0 8 with flits := 1, pos := 1 }, flits := flits, fault := none, last := [] }
    sent := sent, bytes := zeros 240, agent := none }

theorem witness_FramesLeaveThroughTheMerge :
    let s : State := { withPort s0 upPort with sw := { s0.sw with
      current := [(126, some (lastFlit [zeros 8] 1))], initSeen := [(126, true)], credits := [(lpTc 126 0, 1)] } }
    s.switchInReset = false ∧ s.underTest 94 = false ∧ s.sw.frames = [] ∧ s.sw.locks = [] ∧ Machine.rising s.sw.pace = true
    ∧ s.canSend 126 = true ∧ sget s.sw.initSeen 126 false = true ∧ s.currentOf 126 = some (lastFlit [zeros 8] 1)
    ∧ (lastFlit [zeros 8] 1).sent + 1 = hdrCount (lastFlit [zeros 8] 1).st.hdr ∧ sget s.sw.credits (lpTc 126 0) 0 ≠ 0
    ∧ 0 < (lastFlit [] 1).sent ∧ (lastFlit [] 1).sent < hdrCount (lastFlit [] 1).st.hdr ∧ (lastFlit [] 0).sent = 0
    ∧ s.currentOf 0 = none := by decide

/-- A group frame that is whole, and LP 0 and LP 127 as its targets. -/
def groupFrame : QFrame :=
  { id := 0, inLp := 126, outLp := 126, tc := 0, hdr := hdr1 0 0 0x8005 0 8, content := zeros 8, arrived := 1, crossed := 0, saf := true }
theorem witness_FramesLeaveThroughTheMerge_group :
    let s : State := { grouped s0 with sw := { s0.sw with frames := [groupFrame] } }
    let t : State := { s with ports := [(0, upPort)], sw := { s.sw with credits := [(0, 18)], initSeen := [(0, true)] } }
    groupFrame.inLp = groupFrame.outLp ∧ s.releasable { groupFrame with arrived := 0 } = false ∧ t.releasable groupFrame = true := by
  decide

theorem witness_HoldsBeginAndEnd :
    let s := withPort s0 upPort
    s.live = true ∧ (s.port 63).split = false ∧ (s.port 63).a.st = .up ∧ s.mgmt.deferred = [] ∧ s.arrivingOf (2 * 63) = .none
    ∧ s.sw.frames = [] ∧ s.coll.sessions = [] ∧ (s0.port 63).a.st ≠ .up
    ∧ s0.holdOf (2 * 63 + 1) ≠ .holding ∧ (holding s0 0).holdOf (2 * 63) = .holding
    ∧ beatReached (holding s0 0).beat.count ((holding s0 0).holdEndOf (2 * 63)) = true
    ∧ beatReached (holding s0 1).beat.count ((holding s0 1).holdEndOf (2 * 63)) = false
    ∧ s0.lpUp (2 * 63) = false ∧ (holding s 0).lpUp (2 * 63) = true ∧ (holding s 0).holdOf (2 * 63) = .holding := by decide

/-- Fence entry 4095 in this state, for LP 126 and class 7. -/
def fenced (st : FenceSt) (count : Beat) : State :=
  { withPort s0 upPort with
    beat := { s0.beat with count := count }
    recov := { s0.recov with ports := [(63, { s0.recovOf 63 with stA := .up })], fences := [(4095, { defaultFence with st := st, tc := 0, source := 126, dest := 1, firstLost := 5 })] } }

/-- The acknowledgement of that fence (R178). -/
def ackFrame (entry : Nat) : InFrame :=
  frame1 (hdr1 8 0 0 0 32) ([2, 0, 0, 0, 1, 0, 5, 0, 126, 0] ++ leBytes 2 entry ++ zeros 20)

/-- A frame that waits for a local agent, admitted as number 7 on LP 126. -/
def awaiting (s : State) (foreign : Bool) (f : InFrame) : State :=
  { s with sw := { s.sw with diverted := [{ lp := 126, foreign := foreign, frame := f, id := 7 }] } }

/-- A cell whose ECC reports an uncorrectable error, in a frame of the replicator and in one for an agent. -/
def badCell : CellErr := { flit := 0, bank := 131, uncorrected := true }
theorem witness_FramesLeaveThroughTheMerge_cell :
    let f : InFrame := { ackFrame 4095 with cells := [badCell] }
    f.hdr.ftype = 8 ∧ frameGiven f = true ∧ cellsBad f.cells = true ∧ s0.coll.entry = []
    ∧ (awaiting s0 false f).sw.diverted.find? (sameFlow 126 f.hdr) = some { lp := 126, foreign := false, frame := f, id := 7 }
    ∧ cellsBad ({ groupFrame with cells := [badCell] } : QFrame).cells = true := by decide

theorem witness_FencesAreAcknowledged :
    ((fenced .active 0).fence 4095).st = .active ∧ ((fenced .active 0).fence 4095).waits = false
    ∧ ((fenced .active 0xFF).beat.count - ((fenced .active 0xFF).fence 4095).noticed).toNat < (fenced .active 0xFF).recov.fenceRetry.toNat
    ∧ (fenced .active 0x100).recov.fenceRetry.toNat
        ≤ ((fenced .active 0x100).beat.count - ((fenced .active 0x100).fence 4095).noticed).toNat
    ∧ (fenced .active 0x100).lpUp 126 = true ∧ (fenced .active 0x100).holdOf 126 = .up ∧ (holding (fenced .active 0x100) 0).holdOf 126 ≠ .up
    ∧ ((fenced .draining 0).fence 4095).st = .draining ∧ (fenced .draining 0).fenceBusy ((fenced .draining 0).fence 4095) = false
    ∧ (s0.fence 0).st ≠ .active ∧ (ackFrame 4095).hdr.ftype = 8 ∧ frameGiven (ackFrame 4095) = true
    ∧ byteField (frameData (ackFrame 4095)) 10 2 = 4095 ∧ ackMatches ((fenced .active 0).fence 4095) 126 (ackFrame 4095) = true
    ∧ 4096 ≤ byteField (frameData (ackFrame 4096)) 10 2
    ∧ (∀ n ∈ [4095, 4096], HeadsFlow (awaiting (fenced .active 0) false (ackFrame n)) 126 false (ackFrame n) 7)
    ∧ (fenced .active 0).sw.diverted.any (sameFlow 126 (ackFrame 4095).hdr) = false
    ∧ (let x : Fence := { defaultFence with st := .draining, source := 126, dest := 1, ackAt := 8 }
      let s : State := awaiting { s0 with recov := { s0.recov with fences := [(4095, x)] } } false (epFrame 1)
      s.fence 4095 = x ∧ s.fenceBusy x = true) := by
  unfold HeadsFlow; decide

/-- A memory request of 64 bytes at offset 0 to FABRIC_ID 1 (R195). -/
def memFrame (op fabric : Nat) (length : Nat) : InFrame :=
  frame1 (hdr1 1 0 1 2 (BitVec.ofNat 8 (32 + (if op = 2 then length else 0))))
    (leBytes 1 op ++ [0, 7, 0] ++ leBytes 2 fabric ++ zeros 10 ++ leBytes 4 length ++ zeros 12 ++ (if op = 2 then zeros length else []))
def fabric1 (s : State) : State := { s with side := { s.side with fabricId := 1 } }

theorem witness_MemoryRequestsAreAnsweredOrWait :
    let s := fabric1 s0
    s.live = true ∧ s.switchInReset = false ∧ s.underTest 94 = false ∧ s.sw.diverted = [] ∧ (memFrame 1 1 64).hdr.ftype = 1
    ∧ byteField (memFrame 1 1 64).content 0 1 = 1 ∧ 6 < byteField (memFrame 255 1 64).content 0 1 ∧ frameGiven (memFrame 1 1 64) = true
    ∧ frameGiven (memFrame 255 1 64) = true ∧ s.side.fabricId ≠ 0xFFFF
    ∧ byteField (memFrame 1 1 64).content 4 2 = s.side.fabricId.toNat ∧ byteField (memFrame 1 2 64).content 4 2 ≠ s.side.fabricId.toNat
    ∧ memReqOk (memFrame 1 1 64) (memReqOf 126 (memFrame 1 1 64) 7) = true
    ∧ memReqOk (memFrame 2 1 64) (memReqOf 126 (memFrame 2 1 64) 7) = true
    ∧ memReqOk (memFrame 1 1 62) (memReqOf 126 (memFrame 1 1 62) 7) = false
    ∧ (∀ f ∈ [memFrame 1 1 64, memFrame 1 1 62, memFrame 1 2 64], ∀ foreign ∈ [false, true],
      HeadsFlow (awaiting s foreign f) 126 foreign f 7) := by
  unfold HeadsFlow; decide

theorem witness_RequestsChangeTheirBytesOnly :
    let r := memReqOf 126 (memFrame 2 1 64) 7
    let q := memReqOf 126 (memFrame 1 1 64) 7
    let s : State := allocated0 { withPort s0 upPort with mem := { s0.mem with waiting := [r] } }
    s.memRuns = true ∧ r.lp = 126 ∧ s.allocated r.offset r.span = true ∧ r.op = 2 ∧ r.ack = false ∧ r.length = r.data.length
    ∧ r.offset % 64 = 0 ∧ r.data.length % 64 = 0 ∧ s0.allocated r.offset r.span = false
    ∧ s.allocated q.offset q.length = true ∧ q.op = 1 ∧ 0 < q.length ∧ q.length ≤ 4096 ∧ s.stageRoom [q.lp] q.length = true
    ∧ s.holdOf q.lp ≠ .ended
    ∧ (∀ k ∈ sectorsOf q.offset q.length, k ∉ s.mem.poison ∧ s.isLost (k / 64) = false ∧ (s.stack (s.stackOf (k / 64))).dead = false) := by
  decide

theorem witness_RequestsChangeTheirBytesOnly_fragments :
    let x : MemRead := { req := { memReqOf 126 (memFrame 1 1 64) 7 with length := 8192 }, next := 1, skipped := [], bad := false }
    let s : State := allocated0 { withPort s0 upPort with mem := { s0.mem with reads := [x] } }
    s.memRuns = true ∧ x.req.lp = 126 ∧ x.req.op = 1 ∧ x.next < x.req.fragments ∧ x.next + 1 = x.req.fragments
    ∧ s.fragmentFits x = true ∧ ({ x with next := 0 } : MemRead).next + 1 < x.req.fragments := by decide

/-- A whole fragment that waits toward LP 126. -/
def waitingFragment : AgentFrame :=
  { agent := 0, lp := 126, hdr := hdr1 2 0 9 2 240, content := zeros 4128, sid := 0, epoch := 0, chunk := 0, fails := 0, result := false }
theorem witness_RequestsChangeTheirBytesOnly_full :
    let x : MemRead := { req := { memReqOf 126 (memFrame 1 1 64) 7 with length := 8192 }, next := 0, skipped := [], bad := false }
    let s : State := allocated0 { withPort s0 upPort with mem := { s0.mem with reads := [x] }, sw := { s0.sw with
      agentOut := List.replicate 128 waitingFragment } }
    s.memRuns = true ∧ s.fragmentFits x = false := by decide +kernel

/-- A migration from stack 0 to 12 under way. -/
def migrating (noCopy : Bool) (progress : Nat) : State :=
  { s0 with mem := { s0.mem with migSt := .copying, migNoCopy := noCopy, migFrom := 0, migTo := 12, progress := progress } }
theorem witness_StacksAreWatchedAndMigrated :
    s0.live = true ∧ s0.memInReset = false ∧ s0.mem.autoMigrate = true ∧ s0.mem.migSt ≠ .copying ∧ s0.spareStack = some 12
    ∧ (∀ j, j < 13 → s0.stackDue j = false)
    ∧ firstBelow 13 (s0.setStack 11 { s0.stack 11 with dead := true }).stackDue = some 11
    ∧ (migrating false 0).mem.migSt = .copying ∧ (migrating false 0).mem.progress < slotGranules
    ∧ (migrating false slotGranules).mem.progress = slotGranules ∧ (migrating true 0).mem.migNoCopy = true
    ∧ (migrating true 0).mem.migFrom ≠ (migrating true 0).mem.migTo := by decide

/-! ## Collectives -/

/-- The descriptor of an ALL_REDUCE of 1,024 FP32 elements, without its hash (R230). -/
def descBody (epoch : Nat) : Bytes :=
  [1, 1, 1, 0, 0, 0, 1, 10, 0, 0, 1, 0] ++ leBytes 4 epoch ++ zeros 8 ++ leBytes 5 1024 ++ zeros 35 ++ leBytes 8 1024
def descBytes (epoch : Nat) : Bytes := patch (descBody epoch) 32 (leBytes 8 (crc64 (descBody epoch)))
/-- A collective frame to session 4095 of FABRIC_ID 1. -/
def collFrame (ftype : BitVec 4) (thl : Bytes) (data : Bytes) : InFrame :=
  frame1 (hdr1 ftype 0 1 2 (BitVec.ofNat 8 (32 + data.length))) (thl ++ data)
def descFrame (epoch : Nat) : InFrame := collFrame 3 ([1, 0] ++ leBytes 2 4095 ++ leBytes 2 1 ++ zeros 26) (descBytes epoch)
/-- A member that has been accepted and expects the start of chunk 0. -/
def member (lp : Nat) : Member :=
  { lp := lp, known := true, src := 9, dest := 1, tc := 0, accepted := true, nextChunk := 0, nextContrib := 0, nextOffset := 0
    finished := false, acked := false, got := [] }
/-- Session 4095 of two members in this state, at epoch 1. -/
def collSession (st : SessSt) : Session :=
  { defaultSession with st := st, members := 1 + 2 ^ 126, mg := 5, quota := 100, epoch := 1, roster := [member 0, member 126]
                        desc := some (parseDesc (descBytes 1)), depth := 1, need := 44 }
def withSession (x : Session) : State := { fabric1 s0 with coll := { s0.coll with sessions := [(4095, x)] } }

theorem witness_CollectiveFramesAreTaken_desc :
    let s := withSession (collSession .idle)
    s.collRuns = true ∧ frameGiven (descFrame 2) = true ∧ s.sw.diverted = [] ∧ s.coll.entry = [] ∧ s.side.fabricId ≠ 0xFFFF
    ∧ frameFabric (descFrame 2) = s.side.fabricId.toNat ∧ frameSid (descFrame 2) = 4095 ∧ (s.session 0).st = .free
    ∧ (descFrame 2).hdr.ftype = 3 ∧ descHdrOk (descFrame 2) = true ∧ bitAt (collSession .idle).members.toNat 126 = true
    ∧ HeadsFlow (awaiting s false (descFrame 2)) 126 false (descFrame 2) 7 := by
  unfold HeadsFlow; decide

theorem witness_CollectiveFramesAreTaken_descriptor :
    let x := collSession .idle
    descMalformed x.members.toNat (frameData (descFrame 2)) = false
    ∧ BitVec.ofNat 32 (byteField (frameData (descFrame 2)) 12 4) = x.epoch + 1 ∧ x.roster.length ≠ 1
    ∧ (parseDesc (frameData (descFrame 2))).op ≠ 6 ∧ (dreyPlan true x.quota x.roster.length (parseDesc (frameData (descFrame 2)))).2.2 ≠ 0
    ∧ descMalformed x.members.toNat (frameData (collFrame 3 ((descFrame 2).content.take 32) (zeros 64))) = true
    ∧ BitVec.ofNat 32 (byteField (frameData (descFrame 1)) 12 4) = x.epoch ∧ descHash (frameData (descFrame 1)) ≠ x.refHash := by
  decide +kernel

/-- The first 16 bytes of contribution 0 to chunk 0 of epoch 1; a portion has 4,096. -/
def dataThl (offset : Nat) : Bytes :=
  [2, 0] ++ leBytes 2 4095 ++ leBytes 2 1 ++ [0, 0] ++ leBytes 4 1 ++ leBytes 4 0 ++ leBytes 4 offset ++ zeros 12

theorem witness_CollectiveFramesAreTaken_data :
    let s := withSession (collSession .running)
    let m := member 126
    let d := parseDesc (descBytes 1)
    let h : Hdr := { hdr1 4 0 1 2 48 with pos := 1, flits := 17 }
    let f : InFrame := { frame1 h (patch (dataThl 0) 1 [1] ++ zeros 4096) with arrived := 18 }
    f.hdr.ftype = 4 ∧ dataHdrOk f = true ∧ frameGiven f = true ∧ HeadsFlow (awaiting s false f) 126 false f 7
    ∧ m.dest = f.hdr.dest ∧ m.tc = f.hdr.tc.toNat ∧ (s.session 4095).st = .running ∧ BitVec.ofNat 32 (byteField f.content 8 4) = (collSession .running).epoch
    ∧ (collSession .running).roster.find? (fun m => m.lp == 126) = some m ∧ m.accepted = true ∧ m.finished = false
    ∧ byteField f.content 12 4 = m.nextChunk ∧ byteField f.content 6 1 = m.nextContrib ∧ byteField f.content 16 4 = m.nextOffset
    ∧ portionBytes d.inFmt ((inChunk d 0 (contribRange d 2 1 126)).2 - (inChunk d 0 (contribRange d 2 1 126)).1) = 4096
    ∧ (frameData f).length = min 4096 (4096 - m.nextOffset)
    ∧ byteField f.content 1 1 = b2n (decide (m.nextOffset + min 4096 (4096 - m.nextOffset) = 4096))
    ∧ m.nextChunk < (collSession .running).low + (collSession .running).depth ∧ 4 ≤ s.stageLeft ∧ s.clusters ≠ []
    ∧ byteField (dataThl 4) 16 4 ≠ m.nextOffset := by
  unfold HeadsFlow; decide +kernel

theorem witness_CollectiveFramesAreTaken_ack :
    let x := { collSession .aborted with roster := [{ member 0 with acked := true }, { member 126 with known := false }] }
    let f := collFrame 6 ([0x20, 0] ++ leBytes 2 4095 ++ leBytes 2 1 ++ zeros 2 ++ leBytes 4 1 ++ zeros 20) []
    f.hdr.ftype = 6 ∧ byteField f.content 0 1 = 0x20 ∧ frameGiven f = true ∧ x.st = .aborted ∧ hdrThl f.hdr = 32 ∧ hdrLength f.hdr = 32
    ∧ 32 ≤ f.content.length ∧ byteField f.content 1 1 < 2 ∧ byteField f.content 3 1 < 16 ∧ byteField f.content 7 1 = 0
    ∧ byteField f.content 30 2 = 0
    ∧ byteField f.content 8 4 = x.epoch.toNat ∧ (∃ m ∈ x.roster, m.lp = 126 ∧ m.acked = false ∧ m.known = false)
    ∧ (∀ m ∈ x.roster, m.lp ≠ 126 → m.acked = true)
    ∧ HeadsFlow (awaiting (withSession x) false f) 126 false f 7 := by
  unfold HeadsFlow; decide

/-- Chunk 0, complete and released. -/
def chunk0 (finished : Bool) : Chunk := { newChunk 0 false with complete := true, finished := finished }
theorem witness_ChunksFinishCommitOrAbort_chunks :
    (∀ fin ∈ [false, true], let x := { collSession .running with chunks := [chunk0 fin], descSeen := 2 }
      (withSession x).collRuns = true ∧ ((withSession x).session 4095).st = .running
      ∧ ((withSession x).session 4095).chunks.find? (fun c => c.num == 0) = some (chunk0 fin)
      ∧ (chunk0 fin).complete = true ∧ (chunk0 fin).released = true ∧ (chunk0 fin).finished = fin ∧ x.low = 0 ∧ x.descSeen = x.roster.length ∧ (chunk0 fin).toPass = 0)
    ∧ (newChunk 0 false).complete = false ∧ (collSession .running).descSeen ≠ (collSession .running).roster.length
    ∧ (collSession .running).retain = false ∧ ({ collSession .running with retain := true } : Session).retain = true
    ∧ 3 < (chunkHi (parseDesc (descBytes 1)) 0 - chunkLo (parseDesc (descBytes 1)) 0 + 255) / 256 := by decide +kernel

theorem witness_ChunksFinishCommitOrAbort_more :
    0 + 1 ≠ chunkCount { parseDesc (descBytes 1) with total := 2048 }
    ∧ (let s : State := { withSession (collSession .running) with
        coll := { (withSession (collSession .running)).coll with stallBeats := 1 }, beat := { s0.beat with localBeats := 2 } }
      0 < s.coll.stallBeats.toNat ∧ (s.session 4095).lastAccept + s.coll.stallBeats.toNat + 1 ≤ s.beat.localBeats)
    ∧ (∀ fails ∈ [2, 3], let a : AgentFrame := { waitingFragment with agent := 1, sid := 4095, epoch := 1, fails := fails, result := true }
      let s : State := { withSession (collSession .running) with sw := { s0.sw with checking := [a] } }
      s.sw.checking = [a] ∧ a.lp = 126 ∧ a.sid = 4095 ∧ a.epoch = (s.session 4095).epoch ∧ a.chunk = 0 ∧ a.fails = fails)
    ∧ (let x := { collSession .running with beatSync := true, chunks := [chunk0 false] }
      (withSession x).coll.sessions = [(4095, x)] ∧ x.st = .running ∧ x.beatSync = true ∧ x.barrierWaits = false
      ∧ (withSession x).beat.count.toNat % 2 ^ (withSession x).coll.syncLog2.toNat = 0
      ∧ (onBeat (withSession x) fun b => { b with stepsDue := true }).nextStep5 = none ∧ (withSession x).beat.stepsDue = false
      ∧ (dueState 8 5).nextStep5 ≠ none) := by decide +kernel

/-! ## Lands and resets -/

def atPhase (p : Phase) : State := { s0 with pkg := { s0.pkg with phase := p, sbFwd := false } }

theorem witness_LandsHoldAndRelease :
    s0.pkg.porLow = false ∧ s0.pkg.rstLow = false ∧ s0.pkg.tripped = false ∧ tapHolds s0.pkg.tap = false
    ∧ (let s : State := { s0 with pkg := { s0.pkg with porLow := true } }
      s.pkg.porLow = true ∧ s.pkg.rstLow = false ∧ tapHolds s.pkg.tap = false)
    ∧ (let s : State := { s0 with pkg := { s0.pkg with rstLow := true, tripped := true } }
      s.pkg.rstLow = true ∧ s.pkg.porLow = false ∧ s.pkg.tripped = true) := by decide

theorem witness_PowerOnSequenceRuns :
    (∀ p ∈ [Phase.fuses, .testing false true, .testing true false, .testing true true],
      (atPhase p).pkg.tripped = false ∧ (atPhase p).heldInReset = false ∧ (atPhase p).pkg.phase = p ∧ (atPhase p).bist.fuses = []
      ∧ (atPhase p).mem.migFrom ≠ (atPhase p).mem.migTo)
    ∧ s0.pkg.phase ≠ .testing true true ∧ tapHolds s0.pkg.tap = false ∧ (0xFF : TapCode) ∉ [(0x00 : TapCode), 0x01, 0x02, 0x03, 0x04, 0x40]
    ∧ (let s : State := { s0 with pkg := { s0.pkg with tap := 0x40 } }
      tapHolds s.pkg.tap = true ∧ tapHolds 0x02 = false ∧ s.pkg.rstLow = false ∧ s.pkg.porLow = false) := by decide

def staged (scope : Nat) (start : Beat) : ResetReq := { scope := scope, unit := 0, setter := 0, start := start, waits := false, since := 0 }

theorem witness_ResetsAreStagedRunAndEnd :
    Open s0 ∧ (∀ x ∈ [(1, 63), (2, 0), (3, 0), (4, 0), (5, 0), (6, 0)], ∀ k ∈ busyParts x.1 x.2, s0.underTest k = false)
    ∧ s0.mgmt.running = [] ∧ s0.mgmt.resets = []
    ∧ (∃ k ∈ busyParts 4 0, ({ s0 with bist := { s0.bist with active := [93] } } : State).underTest k = true)
    ∧ (let s : State := { s0 with mgmt := { s0.mgmt with running := [staged 3 1] } }
      s.mgmt.running = [staged 3 1] ∧ (staged 3 1).scope ≠ 4 ∧ resetWithin 6 0 3 0 = false ∧ s.mgmt.resets = [])
    ∧ (∃ k ∈ busyParts 6 0, ({ s0 with bist := { s0.bist with active := [94] } } : State).underTest k = true)
    ∧ resetWithin 1 63 6 0 = true
    ∧ (let s : State := { s0 with mgmt := { s0.mgmt with resets := [staged 3 1] }, beat := { s0.beat with localBeats := 1, count := 1 } }
      s.live = true ∧ s.beat.stepsDue = false ∧ s.mgmt.resets = [staged 3 1] ∧ (staged 3 1).waits = false
      ∧ (staged 3 1).since < s.beat.localBeats ∧ s.mgmt.deferred = [] ∧ s.bist.active = [] ∧ s.bist.restoring = [] ∧ s.bist.run = none)
    ∧ (let s : State := { s0 with mgmt := { s0.mgmt with resets := [staged 3 1] } }
      ∀ r ∈ s.mgmt.resets, s.beat.localBeats ≤ r.since)
    ∧ (let s : State := { s0 with mgmt := { s0.mgmt with running := [staged 4 1], markerWait := true }, beat := { s0.beat with count := 17 } }
      s.live = true ∧ s.mgmt.running = [staged 4 1] ∧ s.mgmt.markerWait = true ∧ 16 ≤ (s.beat.count - (staged 4 1).start).toNat
      ∧ s.coll.entry = []) := by
  unfold Open; decide

theorem witness_ResetsAreStagedRunAndEnd_markers :
    let a : AgentFrame := { waitingFragment with agent := 1, hdr := hdr1 6 0 1 2 32, content := [0x10] ++ zeros 31 }
    let s : State := { s0 with mgmt := { s0.mgmt with running := [staged 4 1], markerWait := true }, sw := { s0.sw with agentOut := [a] } }
    s.markersWait = true ∧ s.live = true := by decide

/-! ## The command path -/

/-- IDENTITY_READ from the board controller (R59). -/
def idPacket (version : Byte) : Bytes := [version, 0, 0, 0] ++ leBytes 4 7 ++ [2, 0] ++ leBytes 2 32 ++ zeros 20
def idArrival (b : Bytes) : Packet := { pair := 1, index := 0, tooLong := false, bytes := b }
def arrived (p : Packet) : State := { s0 with mgmt := { s0.mgmt with arrivals := [p], authReq := 0 } }

theorem witness_CommandsReachTheController :
    let s : State := { s0 with ring := { s0.ring with enable := true, tail := 1, gapRuns := true, irqWaits := true, irqEn := true } }
    Open s ∧ s.mayFetch = true ∧ (zeros 1024).length = slotBytes s.ring.cmdSlot ∧ s.ring.gapRuns = true ∧ s.ring.irqWaits = true ∧ s.ring.irqEn = true
    ∧ s0.mayFetch = false ∧ s0.ring.enable = false ∧ s0.ring.cfgErr = false ∧ s0.ring.gapRuns = false
    ∧ (frame1 (hdr1 7 7 1 0 32) (idPacket 1)).hdr.ftype = 7 ∧ (frame1 (hdr1 7 7 1 0 32) (idPacket 1)).hdr.tc = 7
    ∧ frameGiven (frame1 (hdr1 7 7 1 0 32) (idPacket 1)) = true
    ∧ HeadsFlow (awaiting s false (frame1 (hdr1 7 7 1 0 32) (idPacket 1))) 126 false (frame1 (hdr1 7 7 1 0 32) (idPacket 1)) 7 ∧ s0.tc7Allowed 127 = false
    ∧ ({ s0 with mgmt := { s0.mgmt with tc7Allow := 1 <<< 127 } } : State).tc7Allowed 127 = true := by
  unfold Open HeadsFlow; decide

theorem witness_DispatchChecksInOrder :
    let p := idArrival (idPacket 1)
    let s := arrived p
    let u := s.takePacket (.i3c, 0)
    let c := parseCmd .i3c 0 0 p.bytes
    OneArrival s .i3c 0 p ∧ u.lengthBad .i3c p = false ∧ byteField p.bytes 0 1 = 1 ∧ senderBad .i3c 0 p.bytes = false
    ∧ u.authBad c p.bytes = false ∧ u.inWindow 1 c.seq = true ∧ sourceMay 0 .i3c [] = true ∧ lengthOk 0 [] = true
    ∧ parseParams c 0 [] = some (.row (.identityRead c)) ∧ hdrReserved p.bytes = none ∧ paramReserved 0 [] = none
    ∧ packetOf (.identityRead c) ≠ none ∧ u.paramError (.identityRead c) = none := by
  unfold OneArrival Open; decide

theorem witness_DispatchChecksInOrder_failures :
    (arrived (idArrival [])).lengthBad .i3c (idArrival []) = true
    ∧ (arrived (idArrival (idPacket 2))).lengthBad .i3c (idArrival (idPacket 2)) = false ∧ byteField (idPacket 2) 0 1 ≠ 1
    ∧ senderBad .sb 0 (idPacket 1) = true
    ∧ ({ s0 with mgmt := { s0.mgmt with lastSeq := [(1, some 7)] } } : State).inWindow 1 7 = false
    ∧ sourceMay 0x00FF .tc7 [] = false ∧ lengthOk 0 (zeros 4) = false
    ∧ sourceMay 0x0001 .i3c (leBytes 4 4 ++ leBytes 2 1 ++ zeros 2) = true
    ∧ s0.paramError (.cwRead (cmdOf .i3c) 4 1) = some 32 := by decide

/-! ## Buses -/

/-- A place of the I3C or Sideband Chain store. -/
def place (pair : Nat) (status : Byte) (read : Bool) : Stored :=
  { pair := pair, reply := { opcode := 0, cmd := cmdOf .i3c, status := status, replayed := false, detail := 0, doneBeat := 0, data := [], tag := [] }
    read := read, dup := false }
def storing (l : List Stored) : State := { s0 with mgmt := { s0.mgmt with stores := l } }

theorem witness_I3cTransfersAreAnswered :
    Open s0 ∧ s0.unread 1 < 8 ∧ 8 ≤ (storing (List.replicate 8 (place 1 0 false))).unread 1 ∧ s0.mgmt.i3cQuery = false
    ∧ s0.mgmt.i3cSelect = none ∧ s0.oldestUnread 1 = none
    ∧ (storing [place 1 0 false]).oldestUnread 1 = some (place 1 0 false) ∧ (place 1 0 false).reply.status ≠ stPending
    ∧ (storing [place 1 0 true]).selected 1 1 = some (place 1 0 true) ∧ s0.side.ibiDue = false
    ∧ (let s : State := { s0 with side := { s0.side with ibiDue := true, sinceIbi := 16, wdogCount := 0x3D091 } }
      s.side.ibiDue = true ∧ 16 ≤ s.side.sinceIbi ∧ s.side.ibiOn = true ∧ s.side.wdogBeats ≠ 0 ∧ s.side.wdogBeats < s.side.wdogCount
      ∧ s.side.bmcAbsent = false)
    ∧ s0.side.wdogCount ≤ s0.side.wdogBeats := by
  unfold Open; decide

/-- A chain frame to chain address 31. -/
def chainFrame (ftype : BitVec 8) (addr : BitVec 8) (payload : Bytes) : SbFrame :=
  { ftype := ftype, addr := addr, flags := 0, hops := 31, attnMap := 0, payload := payload }
def at31 (s : State) : State := { s with side := { s.side with chainAddr := 31 } }

theorem witness_ChainFramesAreTakenAndSentOn :
    let s := at31 s0
    Open s ∧ (chainFrame 2 31 []).hops.toNat < 32 ∧ 32 ≤ ({ chainFrame 2 31 [] with hops := 32 } : SbFrame).hops.toNat
    ∧ s.cmdMine (chainFrame 2 31 []) = true ∧ s.cmdMine (chainFrame 2 0xFE []) = true ∧ s.cmdMine (chainFrame 2 0 []) = false
    ∧ s.deferredOf 2 < 16 ∧ s.unread 2 < 4 ∧ 4 ≤ (storing (List.replicate 4 (place 2 0 false))).unread 2
    ∧ s.addressed (chainFrame 4 31 []) = true ∧ s.addressed (chainFrame 4 0 []) = false ∧ s.sbNext = none
    ∧ (at31 (storing [place 2 0 false])).sbNext = some (place 2 0 false, false) := by
  unfold Open; decide

/-- A frame on the wire. -/
def onWire (f : SbFrame) : SbWire := { idle := 16, bytes := sbWire f }

/-- The bytes of a frame are one after 16 idle bits, not after 15, and not with another CRC (R421). -/
theorem witness_ChainFramesAreTakenAndSentOn_wire :
    sbFrame (onWire (chainFrame 2 31 [1])) = some (chainFrame 2 31 [1])
    ∧ sbFrame { onWire (chainFrame 2 31 [1]) with idle := 15 } = none
    ∧ sbFrame { idle := 16, bytes := patch (sbWire (chainFrame 2 31 [1])) 15 [0] } = none
    ∧ sbFrame (onWire { chainFrame 2 31 [] with hops := 32 }) = some { chainFrame 2 31 [] with hops := 32 } := by decide +kernel

theorem witness_ChainFramesAreTakenAndSentOn_enum :
    let f (mode : Nat) := chainFrame 1 0xFE (enumBytes mode { count := 3, base := 0xFFDF, used := 2 ^ 31 - 1, new := 0, refused := 0 })
    (∀ mode ∈ [0, 1, 2, 3], (f mode).ftype = 1 ∧ (f mode).payload.length = 16 ∧ enumMode (f mode) = mode)
    ∧ s0.side.chainAddr = 0xFF ∧ assignAddr (enumFields (f 1).payload) = some 31 ∧ s0.beat.rootAddr = 0xFF
    ∧ firstBelow 32 (fun a => bitAt (enumFields (f 2).payload).used a) = some 0 ∧ s0.allDisabled = true
    ∧ (withPort s0 upPort).allDisabled = false := by decide

/-- Page 0 of an identity memory, and a cable page of a passive cable (R434). -/
def page0 : Bytes := [0x43, 0x4B, 1, 0x80] ++ zeros 26 ++ leBytes 2 (crc16 ([0x43, 0x4B, 1] ++ zeros 26))
def cablePage (media timers : Byte) : Bytes := [media, 0, 5, timers] ++ zeros 26 ++ leBytes 2 (crc16 ([media, 0, 5, timers] ++ zeros 26))

theorem witness_CartridgesAreFollowed :
    s0.live = true ∧ (∀ k, k < 8 → (s0.port (8 * 7 + k)).enabled = false) ∧ ((seated s0 7).mmb 7).seated = true
    ∧ ((seated s0 7).mmb 7).busFault = false
    ∧ (({ s0 with side := { s0.side with mmb := [(7, { s0.mmb 7 with seated := true, busFault := true, timeouts := 2 })] } } : State).mmb 7).busFault
      = true
    ∧ s0.mgmt.deferred = [] ∧ ((withPort s0 upPort).port 63).anyUp = true ∧ ((withPort s0 upPort).port 63).retimers = none
    ∧ (let s := withPort s0 { upPort with cable := some (cablePage 2 1), cartMedia := 2 }
      (s.port 63).anyUp = true ∧ (s.port 63).retimers = some (cablePage 2 1, 1))
    ∧ (s0.port 63).a.readOwed = false ∧ (s0.port 63).a.rtOwed = false
    ∧ (s0.port 63).enabled = false ∧ (s0.port 63).split = false ∧ (s0.port 63).a.st = .disabled
    ∧ byteField (cablePage 1 0) 3 1 = 0 ∧ identityValid page0 (cablePage 1 0) = true ∧ identityValid page0 (cablePage 0 0) = false := by
  decide +kernel

theorem witness_ArrivalOrderDoesNotMatter :
    [(0x4E800000, 0), (0x3F800000, 0), (0xCE800000, 0)].Perm [(0x4E800000, 0), (0xCE800000, 0), ((0x3F800000 : Nat), (0 : Nat))]
    ∧ (∀ x ∈ [((0x4E800000 : Nat), (0 : Nat)), (0x3F800000, 0), (0xCE800000, 0)],
        x.1 < 2 ^ elemBits 0 ∧ x.2 < 256 ∧ specialOf (elemAcc 0 x.1 x.2) = none) := by decide

/-! ## Worked examples of the manual, and single commands -/

/-- The value of a field after a command, or a default where it stops. -/
def after {α : Type} (o : Out) (f : State → α) (d : α) : α := match o with | .next t => f t | _ => d
/-- The status and data of the last reply sent or stored. -/
def lastReply (s : State) : Option (Byte × Nat × Bytes) := s.mgmt.stores.getLast?.map fun e => (e.reply.status, e.reply.detail.toNat, e.reply.data)

/-- R244, example: FP8-E4M3 0x5A is 20, FP32 1.0 is bit 149, FP4 0b0111 under X = 0x7A is 3 times 2^-4. -/
theorem test_conversions : elemAcc 3 0x5A 0 = 5 <<< 151 ∧ elemAcc 0 0x3F800000 0 = 1 <<< 149 ∧ elemAcc 7 7 0x7A = 3 <<< 145 := by decide

/-- R246, example: 2^30, 1.0 and -2^30 sum to 1.0. -/
theorem test_arrival_order :
    (writeElem 1 0 0 0 0 ([0x4E800000, 0x3F800000, 0xCE800000].foldl (fun a x => accAdd 1 0 a x 0) (accInit 1 0))).1 = 0x3F800000 := by
  decide +kernel

/-- R250, example: 1 + 3 times 2^-10 in BF16 rounds up exactly from r = 0xA000_0000. -/
theorem test_stochastic_rounding :
    (writeElem 1 0 1 2 0xA0000000 ((1024 + 3) <<< 139)).1 = 0x3F81 ∧ (writeElem 1 0 1 2 0x9FFFFFFF ((1024 + 3) <<< 139)).1 = 0x3F80 := by
  decide +kernel

/-- R252, example: an FP4 block of 13, -7, 2 and 0.75 has X = 0x81 and the codes 0101, 1100, 0001 and 0000. -/
theorem test_fp4_block :
    let b := writeBlock 0 [(13 <<< 149, 0), (-(7 <<< 149), 0), (2 <<< 149, 0), (3 <<< 147, 0)]
    b.1 = 0x81 ∧ b.2 = [(5, flagInexact), (12, flagInexact), (1, 0), (0, flagInexact ||| flagUnderflow)] := by decide +kernel

/-- R269, example: 64 members, CE_LOG2 = 18, 6 chunks of FP8. -/
theorem test_drey_plan :
    let d := { parseDesc (zeros 64) with op := 1, red := 1, inFmt := 3, outFmt := 1, cpm := 1, ceLog2 := 18, total := 1572864 }
    dreyPlan true 40960 64 d = (9216, false, 4) ∧ dreyPlan true 51200 64 d = (25600, true, 2) := by decide

/-- R295, example: /H/ as an entry, and data byte 0x00. -/
theorem test_linecode : linecodeReset 256 = 0x8003EB05 ∧ linecodeReset 0 = 0x8009D18B := by decide

/-- R289 and R290: code group 0x274 of data byte 0x00 goes out as 10, 01, 11, 01, 00. -/
theorem test_symbols : groupSymbols 0x274 = [.l3, .l1, .l2, .l1, .l0] ∧ dataGroups (groupSymbols 0x274 ++ groupSymbols 0x18B) = [0x274, 0x18B] := by
  decide

/-- R84, example: the IV of a command and of its reply. -/
theorem test_iv :
    gcmIv { cmdOf .i3c with seq := 0x00010000, keySlot := 2 } false 7 = [0, 0, 1, 0, 2, 0, 7, 0, 0, 0, 0, 0]
    ∧ byteAt (gcmIv { cmdOf .i3c with seq := 0x00010000 } true 7) 4 = 6 := by decide

/-- The check values that the named CRCs have in general use. -/
theorem test_crcs : crc32c [0x31, 0x32, 0x33, 0x34, 0x35, 0x36, 0x37, 0x38, 0x39] = 0xE3069283
    ∧ crc64 [0x31, 0x32, 0x33, 0x34, 0x35, 0x36, 0x37, 0x38, 0x39] = 0x995DC9BBDF1939FA := by decide +kernel

/-- GCM with an all-zero 256-bit key and IV over no data (the published test case 13). -/
theorem test_gcm : gcmTag (zeros 32) (zeros 12) []
    = [0x53, 0x0F, 0x8A, 0xFB, 0xC7, 0x45, 0x36, 0xB9, 0xA9, 0x63, 0xB4, 0xF1, 0xC4, 0xCB, 0x73, 0x8B] := by decide +kernel

/-- R16 and R61, example: REPLAYED with OK reads 0x0200, and with BAD_PARAM 0x0211. -/
theorem test_status_word :
    let r := (place 0 0 false).reply
    byteField (replyBytes false { r with replayed := true }) 12 2 = 0x0200
    ∧ byteField (replyBytes false { r with status := stBadParam, replayed := true }) 12 2 = 0x0211 := by decide

/-- R43, example: four ports of which one lies far out. -/
theorem test_follow :
    let m (p : Nat) (e : Int) : Marker := { port := p, est := e, count := 0, period := 2 }
    let s := onBeat s0 fun b => { b with st := .locked, markers := [m 40 (-2), m 41 5, m 42 (-7), m 43 176] }
    let t := after (exec .beatFollowUpdate s) (fun t => t) s0
    t.beat.phaseErr = -2 ∧ t.beat.length = 16382 ∧ t.beat.outlier = true ∧ t.beat.count = 0 := by decide

/-- R40 and R43, example: a marker that arrived 976 units after the boundary with ACC_DELAY 871 over a link of 107. -/
theorem test_marker :
    let s := withPort (onBeat s0 fun b => { b with rootAddr := 3 }) { upPort with a := { upStripe with linkDelay := 107, delayKnown := true } }
    after (exec (.markerReceived 63 976 ((s.encodeLane false (markerEntries (markerWord 5 871 3 2 2))).1.headD 0)
        ((s.encodeLane false (markerEntries (markerWord 5 871 3 2 2))).1.drop 1)) s) (fun t => t.beat.markers) []
      = [{ port := 63, est := -2, count := 5, period := 2 }] := by decide +kernel

/-- R339, example: RTT 214 units. -/
theorem test_round_trip :
    ((stripeIn .exchange).exchange 16 { goodRec with echoStamp := 0x1000, turn := 1800 } 0x17DE).rtts = [214] := by decide

/-- R101, example: a route image of 12 indexed entries is 208 bytes; a length that is no multiple of 4 is refused at LENGTH. -/
theorem test_image_open :
    after (exec (.tableImageOpen (cmdOf .sb) 1 208) s0) (fun t => t.mgmt.images.map Image.length) [] = [208]
    ∧ after (exec (.tableImageOpen (cmdOf .sb) 1 209) s0) lastReply none = some (stBadParam, 36, []) := by decide

/-- R94, example: 0x2000_0000_0001_3000 is NOTIFY with target 0x0001_3000. -/
theorem test_target_spec : parseSpec 0x2000000000013000 = { next := false, latePol := false, notify := true, target := 0x13000 } := by decide

/-- R112, example: a ceiling of 1,200 W from I3C cuts the clock and answers the cap; a host request above it is denied and names I3C. -/
theorem test_cap_contest :
    let s := after (exec (.ceilingSet (cmdOf .i3c) 1200) s0) (fun t => t) s0
    lastReply s = some (stOk, 0, [0xB0, 0x04, 0x06, 0]) ∧ s.effCap = 1200
    ∧ after (exec (.hostRequestSet (cmdOf .pcie) 1350) s) (fun t => (t.power.hostReq, t.effCap)) (1, 1) = (0, 1200)
    ∧ after (exec (.hostRequestSet (cmdOf .pcie) 1000) s) (fun t => (t.effCap, t.power.cap.2)) (1, 1) = (1000, 0) := by decide

/-- R368, example: a ceiling of 1,100 W takes K_CAP from 16 to 11, and samples above it to 10 and to 9. -/
theorem test_cap_falls :
    let s := after (exec (.ceilingSet (cmdOf .i3c) 1100) s0) (fun t => t) s0
    let t := after (exec (.powerSample 1175) s) (fun t => t) s0
    s.power.kCap = 11 ∧ t.power.kCap = 10 ∧ after (exec (.powerSample 1110) t) (fun t => t.power.kCap) 0 = 9 := by decide

/-- R361: a light trip lowers the clock by DECAF_STEP, and a heavy one to 8. -/
theorem test_droop :
    after (exec .droopLightTrip s0) (fun t => t.power.kDroop) 0 = 14 ∧ after (exec .droopHeavyTrip s0) (fun t => t.power.kDroop) 0 = 8 := by
  decide

/-- R382, example: INCOMPLETE by DEADLINE with DETAIL 0xFF reads 0x43FF. -/
theorem test_bist_result : ({ defaultBistRes with outcome := 4, stop := 3, detail := 0xFF } : BistRes).code = 0x43FF := by decide

/-- R426, example: on the second ASSIGN a new module takes address 6 and FABRIC_ID 0x0106. -/
theorem test_assign :
    let f := chainFrame 1 0xFE (enumBytes 1 { count := 6, base := 0x100, used := 0x3FF3F, new := 0, refused := 0 })
    after (exec (.sbEnumAssign (onWire f)) s0) (fun t => (t.side.chainAddr, t.side.fabricId, t.out)) (0, 0, [])
      = (6, 0x106, [chainOut { f with hops := 32, payload := enumBytes 1 { count := 7, base := 0x100, used := 0x3FF7F, new := 0x40, refused := 0 } }]) := by
  decide +kernel

/-- R428: GETMWL and GETMRL answer 4,097 and 4,096. -/
theorem test_max_lengths :
    after (exec .getmwl s0) (fun t => t.out) [] = [.i3cBytes [0x10, 0x01]] ∧ after (exec .getmrl s0) (fun t => t.out) [] = [.i3cBytes [0x10, 0x00]] := by
  decide

/-- R100: HOLD answers no holder first and then the holder, and a lower source is denied. -/
theorem test_hold :
    let s := after (exec (.hold (cmdOf .i3c) 0 1) s0) (fun t => t) s0
    lastReply s = some (stOk, 0, [0x00, 0x80]) ∧ s.tableHolder 1 = some (.i3c, 0)
    ∧ after (exec (.tableImageOpen (cmdOf .pcie) 1 208) s) (fun t => t.mgmt.images.length) 1 = 0 := by decide

/-- R190 and R107: the first allocation starts at offset 0 and the next behind it; freeing the first leaves the second. -/
theorem test_allocations :
    let s := after (exec (.memAlloc (cmdOf .sb) (2 ^ 21 + 1) 7) s0) (fun t => t) s0
    let t := after (exec (.memAlloc (cmdOf .sb) 1 8) s) (fun t => t) s0
    t.mem.allocs.map (fun a => (a.first, a.count)) = [(0, 2), (2, 1)]
    ∧ after (exec (.memFree (cmdOf .sb) 0) t) (fun t => t.mem.allocs.map fun a => (a.first, a.count)) [] = [(2, 1)] := by decide

/-- R126 and R131: a reserved DEST is discarded; a routed frame joins the queue of its output. -/
theorem test_ingress :
    after (exec (.frameHeadIngress 126 (epFrame 0x2000)) (routed s0)) (fun t => t.sw.frames.length) 9 = 0
    ∧ after (exec (.frameHeadIngress 126 (epFrame 8191)) (routed s0)) (fun t => t.sw.frames.map fun q => (q.inLp, q.outLp)) [] = [(126, 0)] := by
  decide

/-- R33: the beat count wraps from its top to 0. -/
theorem test_beat_wraps :
    after (exec (.beatBoundary false) (onBeat s0 fun b => { b with count := 0xFFFFFFFFFFFF, followed := true })) (fun t => t.beat.count) 5 = 0 := by
  decide

/-- R445 and R456: a reset land keeps fabric memory and drops allocations; a power-on drops both. -/
theorem test_lands :
    let s := allocated0 { s0 with mem := { s0.mem with cells := [⟨5, 9⟩] } }
    after (exec .rstNAssert s) (fun t => (t.mem.cells.length, t.mem.allocs.length)) (9, 9) = (1, 0)
    ∧ after (exec .porNFall s) (fun t => (t.mem.cells.length, t.mem.allocs.length)) (9, 9) = (0, 0) := by decide

/-- A step carries out the front command and leaves the rest of the queue. -/
theorem test_step :
    after (step { s0 with pending := [.droopLightTrip, .ibiRaise] }) (fun t => (t.power.kDroop, t.pending)) (0, [])
      = (14, [.ibiRaise]) := by decide

/-- No row of the opcode table has bits. -/
theorem test_no_words : Sys2Proof.decodeTableWord 32 5 = none ∧ s0.withFetchWord 32 5 = s0 := by decide

/-! ## Ill-formed commands are refused -/

def ecc2 : EccReport := { uncorrected := [1], corrected := [1] }
def badFrame : InFrame := { epFrame 0 with arrived := 0 }
def longSb : SbWire := { idle := 16, bytes := zeros 530 }
def badEnd : List (Nat × TestEnd) := [(96, { words := [], patterns := 0, txFail := 0, rxFail := 0, banks := 0, badBanks := [] })]

theorem wf_frames :
    (∀ i ∈ [Instr.tc7CmdFrame 0 false badFrame, .frameHeadIngress 0 badFrame, .fenceAckReceived 0 badFrame, .memReqRead 0 false badFrame,
      .memReqWrite 0 false badFrame, .memReqMcastRead 0 false badFrame, .memReqFadd 0 false badFrame, .memReqAdd 0 false badFrame,
      .memReqCswap 0 false badFrame, .collDescReceived 0 false badFrame, .collDataReceived 0 false badFrame,
      .abortAckReceived 0 false badFrame], i.wf = false)
    ∧ (Instr.frameHeadIngress 0 (epFrame 0)).wf = true ∧ (Instr.frameHeadIngress 0 { epFrame 0 with content := zeros 241 }).wf = false
    ∧ (Instr.frameHeadIngress 0 { epFrame 0 with arrived := 19 }).wf = false
    ∧ (Instr.frameHeadIngress 0 { epFrame 0 with cells := [{ flit := 0, bank := 132, uncorrected := true }] }).wf = false := by decide
theorem wf_chain_frames :
    (∀ i ∈ [Instr.sbEnumSurvey longSb, .sbEnumAssign longSb, .sbEnumCommit longSb, .sbEnumClear longSb, .sbCmd longSb, .sbRead longSb,
      .sbSelect longSb, .sbSeqQuery longSb, .sbPoll longSb, .sbFrameForward longSb], i.wf = false)
    ∧ (Instr.sbCmd (onWire (chainFrame 2 0 (zeros 512)))).wf = true := by decide
theorem wf_reports :
    (Instr.memRequestEntry 0 ecc2).wf = false ∧ (Instr.memFragmentRead 0 0 ecc2).wf = false ∧ (Instr.memCmdComplete ecc2).wf = false
    ∧ (Instr.powerOnSelfTestDone badEnd).wf = false ∧ (Instr.bistSlotDeadline badEnd).wf = false ∧ (Instr.stackTrainingDone [13]).wf = false
    ∧ (Instr.stackTrainingDone [12]).wf = true := by decide
theorem wf_lengths :
    (Instr.pcieCmdFetch (zeros 255)).wf = false ∧ (Instr.i3cCommand 1 (zeros 4097)).wf = false
    ∧ (Instr.retimerPoll 0 [none, none, none]).wf = false ∧ (Instr.cartIdentityRead 0 (some (zeros 31)) none []).wf = false
    ∧ (Instr.cartIdentityRead 0 none (some (zeros 33)) []).wf = false
    ∧ (Instr.cartIdentityRead 0 none none [true, true, true]).wf = false ∧ (Instr.rxBlock 0 .a [[]] []).wf = false ∧ (Instr.markerReceived 0 0 0 []).wf = false
    ∧ (Instr.creditFlitReceived 0 false []).wf = false ∧ (Instr.cwWrite (cmdOf .sb) 0 1 nextSpec []).wf = false
    ∧ (Instr.tableImageWrite (cmdOf .sb) 0 0 (zeros 6)).wf = false ∧ (Instr.cartWrite (cmdOf .sb) 0 0 0 0 1 []).wf = false
    ∧ (Instr.memWrite (cmdOf .sb) 0 4 (zeros 3)).wf = false := by decide

end Sys2Proof.Tests
end

section
/-! PROOFS. The ingress (R126, R131): what it reads of a head's DEST, and what a head that is discarded or admitted leaves behind. -/

namespace Sys2Proof.Machine

/-! ## Counting does not look at the switch -/

/-- The state with another switch core. -/
def State.withSw (s : State) (x : Switch) : State := { s with sw := x }

theorem State.countAt_withSw (s : State) (x : Switch) (l : List Nat) (code : Nat) (h k a : Option Nat) (n : Nat) :
    (s.withSw x).countAt l code h k a n = (s.countAt l code h k a n).withSw x := by
  unfold State.countAt
  change (if s.ctr.freeze || n == 0 then s.withSw x else _) = _
  split
  · rfl
  · refine List.foldl_hom (State.withSw · x) (init := s) fun u e => ?_
    change (if entryCounts (u.eventEntry e) code h k a then _ else _) = _
    split <;> rfl

theorem State.countLp_withSw (s : State) (x : Switch) (lp code : Nat) (k a : Option Nat) (n : Nat) :
    (s.withSw x).countLp lp code k a n = (s.countLp lp code k a n).withSw x := by
  unfold State.countLp
  change (if s.underTest (lpPort lp) then s.withSw x else _) = _
  split
  · rfl
  · exact State.countAt_withSw _ _ _ _ _ _ _ _

theorem State.countRx_withSw (s : State) (x : Switch) (lp : Nat) (h : Hdr) :
    (s.withSw x).countRx lp h = (s.countRx lp h).withSw x := by
  simp only [State.countRx, State.countLp_withSw]

theorem State.noteCtx_withSw (s : State) (x : Switch) (unit : Nat → Bool) (c : SampleCtx) :
    (s.withSw x).noteCtx unit c = (s.noteCtx unit c).withSw x :=
  List.foldl_hom (State.withSw · x) (init := s) fun _ _ => rfl

theorem State.ctxFlit_withSw (s : State) (x : Switch) (lp : Nat) (rx : Bool) (h : Hdr) :
    (s.withSw x).ctxFlit lp rx h = (s.ctxFlit lp rx h).withSw x :=
  State.noteCtx_withSw _ _ _ _

/-- Noting a context writes the counters only. -/
theorem State.noteCtx_only (s : State) (unit : Nat → Bool) (c : SampleCtx) :
    ∃ m, s.noteCtx unit c = { s with ctr := { s.ctr with counters := m } } := by
  unfold State.noteCtx
  generalize s.ctr.counters.filter _ = l
  induction l generalizing s with
  | nil => exact ⟨s.ctr.counters, rfl⟩
  | cons e r ih =>
    obtain ⟨m, hm⟩ := ih (s.setCounter e.1 { s.counter e.1 with due := (s.counter e.1).due.map fun y => some (y.getD c) })
    exact ⟨m, hm⟩

/-! ## A frame received whole is counted -/

/-- The counts of a frame that has come whole and sound (R406, R415). -/
def State.rxCounted (s : State) (lp : Nat) (f : InFrame) : State :=
  if frameGiven f then (s.countRx lp f.hdr).ctxFlit lp true f.hdr else s

theorem State.rxCounted_withSw (s : State) (x : Switch) (lp : Nat) (f : InFrame) :
    (s.withSw x).rxCounted lp f = (s.rxCounted lp f).withSw x := by
  unfold State.rxCounted
  split
  · rw [State.countRx_withSw, State.ctxFlit_withSw]
  · rfl

theorem State.countRx_only (s : State) (lp : Nat) (h : Hdr) :
    ∃ m, s.countRx lp h = { s with ctr := { s.ctr with counters := m } } := by
  obtain ⟨_, frames⟩ := State.countLp_only s lp 0x0103 (some h.tc.toNat) none 1
  obtain ⟨m, bytes⟩ := State.countLp_only (s.countLp lp 0x0103 (some h.tc.toNat) none 1) lp 0x0105 (some h.tc.toNat) none (hdrLength h)
  exact ⟨m, by rw [State.countRx, bytes, frames]⟩

theorem State.rxCounted_only (s : State) (lp : Nat) (f : InFrame) :
    ∃ m, s.rxCounted lp f = { s with ctr := { s.ctr with counters := m } } := by
  unfold State.rxCounted
  split
  · obtain ⟨_, counts⟩ := State.countRx_only s lp f.hdr
    obtain ⟨m, context⟩ : ∃ m, (s.countRx lp f.hdr).ctxFlit lp true f.hdr =
        { s.countRx lp f.hdr with ctr := { (s.countRx lp f.hdr).ctr with counters := m } } := State.noteCtx_only _ _ _
    exact ⟨m, by rw [context, counts]⟩
  · exact ⟨s.ctr.counters, rfl⟩

/-! ## Cells and arrivals leave the frames alone -/

/-- From s to t only the switch core has moved, and there neither the queues nor what waits for the ingress or an agent. -/
structure KeepsQueues (s t : State) : Prop where
  rest : t = s.withSw t.sw
  frames : t.sw.frames = s.sw.frames
  heads : t.sw.heads = s.sw.heads
  diverted : t.sw.diverted = s.sw.diverted
  lookupHold : t.sw.lookupHold = s.sw.lookupHold

theorem KeepsQueues.refl (s : State) : KeepsQueues s s := ⟨rfl, rfl, rfl, rfl, rfl⟩

theorem KeepsQueues.trans {s t u : State} (h : KeepsQueues s t) (g : KeepsQueues t u) : KeepsQueues s u :=
  ⟨by rw [g.rest, h.rest]; rfl, g.frames.trans h.frames, g.heads.trans h.heads, g.diverted.trans h.diverted,
    g.lookupHold.trans h.lookupHold⟩

theorem State.setCells_keepsQueues (s : State) (k held granted : Nat) : KeepsQueues s (s.setCells k held granted) :=
  ⟨rfl, rfl, rfl, rfl, rfl⟩

theorem payOwed_keepsQueues (n : Nat) (s : State) : KeepsQueues s (payOwed n s) := by
  induction n generalizing s with
  | zero => exact .refl s
  | succ n ih =>
    unfold payOwed
    split
    · exact .refl s
    · split
      · exact .refl s
      · refine .trans ?_ (ih _)
        exact ⟨rfl, rfl, rfl, rfl, rfl⟩

theorem State.takeCells_keepsQueues (s : State) (lp tc n : Nat) : KeepsQueues s (s.takeCells lp tc n) :=
  s.setCells_keepsQueues _ _ _

theorem State.freeCells_keepsQueues (s : State) (lp tc n : Nat) : KeepsQueues s (s.freeCells lp tc n) :=
  (s.setCells_keepsQueues _ _ _).trans (payOwed_keepsQueues _ _)

theorem State.setArriving_keepsQueues (s : State) (lp : Nat) (a : Arriving) : KeepsQueues s (s.setArriving lp a) :=
  ⟨rfl, rfl, rfl, rfl, rfl⟩

/-- An operation that does not look at the switch core carries the relation on, when it leaves the switch core alone. -/
theorem KeepsQueues.map {s t : State} (h : KeepsQueues s t) {op : State → State}
    (blind : ∀ u x, op (u.withSw x) = (op u).withSw x) (same : (op s).sw = s.sw) : KeepsQueues (op s) (op t) := by
  have moved : op t = (op s).withSw t.sw := by rw [← blind, ← h.rest]
  rw [moved]
  exact ⟨rfl, h.frames.trans (congrArg _ same.symm), h.heads.trans (congrArg _ same.symm),
    h.diverted.trans (congrArg _ same.symm), h.lookupHold.trans (congrArg _ same.symm)⟩

theorem State.countLp_sw (s : State) (lp code : Nat) (k a : Option Nat) (n : Nat) : (s.countLp lp code k a n).sw = s.sw := by
  obtain ⟨m, hm⟩ := State.countLp_only s lp code k a n
  rw [hm]

theorem State.ite_countLp_sw (p : Prop) [Decidable p] (s : State) (lp code : Nat) (k a : Option Nat) (n : Nat) :
    (if p then s.countLp lp code k a n else s).sw = s.sw := by
  split
  · exact s.countLp_sw lp code k a n
  · rfl

theorem State.rxCounted_sw (s : State) (lp : Nat) (f : InFrame) : (s.rxCounted lp f).sw = s.sw := by
  obtain ⟨m, hm⟩ := State.rxCounted_only s lp f
  rw [hm]

theorem KeepsQueues.countLp {s t : State} (h : KeepsQueues s t) (lp code : Nat) (k a : Option Nat) (n : Nat) :
    KeepsQueues (s.countLp lp code k a n) (t.countLp lp code k a n) :=
  h.map (op := (State.countLp · lp code k a n)) (fun u x => u.countLp_withSw x lp code k a n) (s.countLp_sw lp code k a n)

theorem KeepsQueues.rxCounted {s t : State} (h : KeepsQueues s t) (lp : Nat) (f : InFrame) :
    KeepsQueues (s.rxCounted lp f) (t.rxCounted lp f) :=
  h.map (op := (State.rxCounted · lp f)) (fun u x => u.rxCounted_withSw x lp f) (s.rxCounted_sw lp f)

/-- Discarding a head for a reason that raises no fence counts it, beside the cells that it frees (R131). -/
theorem State.discardHead_keepsQueues (s : State) (lp : Nat) (f : InFrame) {r : Nat} (low : r < 7) :
    KeepsQueues (s.countLp lp 0x0107 (some f.hdr.tc.toNat) (some r) 1) (s.discardHead lp f r) := by
  unfold State.discardHead
  rw [if_neg (by omega)]
  exact ((s.freeCells_keepsQueues lp f.hdr.tc.toNat f.arrived).countLp _ _ _ _ _).trans (State.setArriving_keepsQueues _ _ _)

/-! ## A head with nothing before it -/

/-- The state at the ingress of a frame that has just arrived: its cells are taken and it is counted (R134, R406). -/
def State.received (s : State) (lp : Nat) (f : InFrame) : State :=
  (s.takeCells lp f.hdr.tc.toNat f.arrived).rxCounted lp f

theorem State.received_keepsQueues (s : State) (lp : Nat) (f : InFrame) :
    KeepsQueues (s.rxCounted lp f) (s.received lp f) :=
  (s.takeCells_keepsQueues lp f.hdr.tc.toNat f.arrived).rxCounted lp f

/-- A received frame has moved the buffer's cells and the counters only, and no frame. -/
theorem State.received_only (s : State) (lp : Nat) (f : InFrame) :
    ∃ x m, s.received lp f = { s with sw := x, ctr := { s.ctr with counters := m } }
      ∧ x.frames = s.sw.frames ∧ x.heads = s.sw.heads ∧ x.lookupHold = s.sw.lookupHold := by
  have keeps := s.received_keepsQueues lp f
  obtain ⟨m, counted⟩ := s.rxCounted_only lp f
  rw [counted] at keeps
  exact ⟨_, m, keeps.rest, keeps.frames, keeps.heads, keeps.lookupHold⟩

/-- Without a lookup hold and with no earlier head of its LP, a frame that arrives goes through the ingress (R54, R131). -/
theorem State.arriveFrame_eq_ingress {s : State} {lp : Nat} {f : InFrame} (noHead : ∀ x ∈ s.sw.heads, x.1 ≠ lp)
    (free : s.sw.lookupHold = []) : s.arriveFrame lp f = (s.received lp f).ingress lp f := by
  obtain ⟨x, m, arrived, -, heads, hold⟩ := s.received_only lp f
  have passes : ((!(s.received lp f).sw.lookupHold.isEmpty) || (s.received lp f).sw.heads.any fun x => x.1 == lp) = false := by
    rw [arrived]
    simpa [hold, heads, free] using noHead
  change (if (!(s.received lp f).sw.lookupHold.isEmpty) || (s.received lp f).sw.heads.any fun x => x.1 == lp then _
    else (s.received lp f).ingress lp f) = _
  rw [passes]
  rfl

theorem exec_frameHeadIngress (lp : Lp) (f : InFrame) (s : State) :
    exec (.frameHeadIngress lp f) s = execFrameHeadIngress lp f s := rfl

theorem exec_frameHeadIngress_eq_ingress {lp : Lp} {f : InFrame} {s : State} (live : s.live = true)
    (port : s.portInReset (lpPort lp.val) = false) (switch : s.switchInReset = false)
    (noHead : ∀ x ∈ s.sw.heads, x.1 ≠ lp.val) (free : s.sw.lookupHold = []) :
    exec (.frameHeadIngress lp f) s = .next ((s.received lp.val f).ingress lp.val f) := by
  have none_waits : s.sw.heads.find? (fun x => x.1 == lp.val) = none := by simpa using noHead
  rw [exec_frameHeadIngress, execFrameHeadIngress]
  simp [live, port, switch, none_waits, State.arriveFrame_eq_ingress noHead free]

/-- The checks of R131 read the tables and the ports, which an arrival does not move. -/
theorem State.ingressCheck_received (s : State) (lp : Nat) (f : InFrame) :
    (s.received lp f).ingressCheck lp f = s.ingressCheck lp f := by
  obtain ⟨x, m, arrived, -⟩ := s.received_only lp f
  rw [arrived]
  rfl

/-! ## What becomes of a head -/

open Claims in
/-- A head that fails a check with a reason that raises no fence is discarded with that reason (R131). -/
theorem State.ingress_discards {s : State} {lp : Nat} {f : InFrame} {r : Nat} (check : s.ingressCheck lp f = .inl r)
    (low : r < 7) : Discarded s ((s.received lp f).ingress lp f) lp f r := by
  have gone : (s.received lp f).ingress lp f = (s.received lp f).discardHead lp f r := by
    simp only [State.ingress, State.ingressCheck_received, check, if_neg (show r ≠ 9 by omega)]
  have keeps : KeepsQueues ((s.rxCounted lp f).countLp lp 0x0107 (some f.hdr.tc.toNat) (some r) 1)
      ((s.received lp f).ingress lp f) := gone ▸
    ((s.received_keepsQueues lp f).countLp _ _ _ _ _).trans ((s.received lp f).discardHead_keepsQueues lp f low)
  obtain ⟨m, counted⟩ : ∃ m, (s.rxCounted lp f).countLp lp 0x0107 (some f.hdr.tc.toNat) (some r) 1 =
      { s with ctr := { s.ctr with counters := m } } := by
    obtain ⟨_, rx⟩ := s.rxCounted_only lp f
    obtain ⟨m, discard⟩ := (s.rxCounted lp f).countLp_only lp 0x0107 (some f.hdr.tc.toNat) (some r) 1
    exact ⟨m, by rw [discard, rx]⟩
  rw [counted] at keeps
  have counters : ((s.received lp f).ingress lp f).ctr.counters = m := congrArg (·.ctr.counters) keeps.rest
  refine ⟨?_, keeps.frames, keeps.heads, keeps.diverted, counters.trans (congrArg (·.ctr.counters) counted).symm⟩
  rw [counters]
  exact keeps.rest

/-- With no fence a head whose frame is forwarded, to an output that has not ENDED, or belongs to a group joins one queue at its
end (R138, R169, R175). -/
theorem State.ingress_queues {s : State} {lp action out : Nat} {f : InFrame} (check : s.ingressCheck lp f = .inr (action, out))
    (kind : action = 1 ∧ s.holdOf out ≠ .ended ∨ action = 4) (unfenced : s.recov.fences = []) :
    ∃ q : QFrame, (s.ingress lp f).sw.frames = s.sw.frames ++ [q] ∧ q.inLp = lp ∧ q.outLp = (if action = 4 then lp else out)
      ∧ q.hdr = f.hdr ∧ q.tc = f.hdr.tc.toNat := by
  have no_fences : s.fences = [] := by simp [State.fences, unfenced]
  obtain ⟨rfl, up⟩ | rfl := kind
  · simp [State.ingress, check, no_fences, up, State.ite_countLp_sw, State.setArriving]
  · simp [State.ingress, check, no_fences, State.setArriving]

open Claims in
/-- A head that passes the checks joins a queue of its input: toward OUT_LP when it is forwarded, the multicast queue when it
names a group (R126, R138). -/
theorem State.ingress_admits {s : State} {lp action out : Nat} {f : InFrame} (check : s.ingressCheck lp f = .inr (action, out))
    (kind : action = 1 ∧ s.holdOf out ≠ .ended ∨ action = 4) (unfenced : s.recov.fences = []) :
    Admitted s ((s.received lp f).ingress lp f) lp (if action = 4 then lp else out) f := by
  have passes := s.ingressCheck_received lp f |>.trans check
  obtain ⟨x, m, arrived, frames, -⟩ := s.received_only lp f
  rw [arrived] at passes ⊢
  rw [Admitted, ← frames]
  exact State.ingress_queues passes kind unfenced

/-! ## The decoding of DEST (R126) -/

theorem destIsGroup_iff (d : BitVec 16) : destIsGroup d = true ↔ 0x8000 ≤ d.toNat ∧ d.toNat < 0x9000 := by
  have := d.isLt
  simp only [destIsGroup, bitsAt, Nat.shiftRight_eq_div_pow, beq_iff_eq]
  omega

theorem destIsUnicast_iff (d : BitVec 16) : destIsUnicast d = true ↔ d.toNat < 0x2000 := by
  have := d.isLt
  simp only [destIsUnicast, bitsAt, Nat.shiftRight_eq_div_pow, beq_iff_eq]
  omega

theorem destIsGroup_of_unicast {d : BitVec 16} (h : d.toNat < 0x2000) : destIsGroup d = false := by
  rw [Bool.eq_false_iff, ne_eq, destIsGroup_iff]
  omega

theorem destGroup_of_group {d : BitVec 16} (lo : 0x8000 ≤ d.toNat) (hi : d.toNat < 0x9000) : destGroup d = d.toNat - 0x8000 := by
  unfold destGroup
  omega

section
variable {s : State} {lp : Nat} {f : InFrame} (defined : f.hdr.ftype.toNat < 9)
include defined

theorem State.ingressCheck_reserved (notGroup : destIsGroup f.hdr.dest = false) (notUnicast : destIsUnicast f.hdr.dest = false) :
    s.ingressCheck lp f = .inl 2 := by
  simp [State.ingressCheck, Nat.not_le.mpr defined, notGroup, notUnicast]

theorem State.ingressCheck_routeMiss (unicast : f.hdr.dest.toNat < 0x2000)
    (invalid : bitAt (s.entry 1 f.hdr.dest.toNat) 63 = false) : s.ingressCheck lp f = .inl 3 := by
  simp [State.ingressCheck, Nat.not_le.mpr defined, destIsGroup_of_unicast unicast, (destIsUnicast_iff _).mpr unicast,
    Nat.mod_eq_of_lt unicast, invalid]

theorem State.ingressCheck_groupMiss (group : destIsGroup f.hdr.dest = true)
    (invalid : s.mgValid (destGroup f.hdr.dest) = false) : s.ingressCheck lp f = .inl 3 := by
  simp [State.ingressCheck, Nat.not_le.mpr defined, group, invalid]

end

/-- A frame of endpoint data, of a class other than TC7, in which the ingress finds no fault (R122, R123, R131). -/
structure SoundData (f : InFrame) : Prop where
  data : f.hdr.ftype = 0
  cls : f.hdr.tc ≠ 7
  format : f.badFormat = false
  stomp : f.stomp = none
  cell : cellsBad (cellsRead f.cells 0 1) = false

theorem SoundData.tc_ne_seven {f : InFrame} (h : SoundData f) : f.hdr.tc.toNat ≠ 7 := fun e => h.cls (BitVec.eq_of_toNat_eq e)

/-- The route entry of a frame's unicast DEST forwards its class to an LP that exists and is not its own (R127). -/
structure ForwardsTo (s : State) (lp out : Nat) (f : InFrame) : Prop where
  unicast : f.hdr.dest.toNat < 0x2000
  valid : bitAt (s.entry 1 f.hdr.dest.toNat) 63 = true
  action : bitsAt (s.entry 1 f.hdr.dest.toNat) 62 60 = 1
  outLp : bitsAt (s.entry 1 f.hdr.dest.toNat) 6 0 = out
  allowed : bitAt (s.entry 1 f.hdr.dest.toNat) (52 + f.hdr.tc.toNat) = true
  present : s.lpExists out = true
  other : out ≠ lp

theorem State.ingressCheck_forward {s : State} {lp out : Nat} {f : InFrame} (sound : SoundData f) (route : ForwardsTo s lp out f) :
    s.ingressCheck lp f = .inr (1, out) := by
  simp [State.ingressCheck, toModule, destIsGroup_of_unicast route.unicast, (destIsUnicast_iff _).mpr route.unicast,
    Nat.mod_eq_of_lt route.unicast, route.valid, route.action, route.outLp, route.allowed, route.present, route.other,
    sound.data, sound.tc_ne_seven, sound.format, sound.stomp, sound.cell]

theorem State.ingressCheck_group {s : State} {lp : Nat} {f : InFrame} (sound : SoundData f) (group : destIsGroup f.hdr.dest = true)
    (valid : s.mgValid (destGroup f.hdr.dest) = true) (allowed : s.mgAllow (destGroup f.hdr.dest) f.hdr.tc.toNat = true) :
    ∃ out, s.ingressCheck lp f = .inr (4, out) := by
  simp [State.ingressCheck, toModule, group, valid, allowed, sound.data, sound.tc_ne_seven, sound.format, sound.stomp, sound.cell]

end Sys2Proof.Machine

namespace Sys2Proof.Claims

open Sys2Proof.Machine

/-- Settles O46: the checks of R131 answer as the three ranges of DEST say, and the ingress follows their answer. -/
theorem destinationsAreDecoded : Obligations.DestinationsAreDecoded := by
  intro lp f s live port switch noHead free defined
  rw [exec_frameHeadIngress_eq_ingress live port switch noHead free]
  have discards : ∀ {r}, s.ingressCheck lp.val f = .inl r → r < 7 →
      ∃ t, (.next ((s.received lp.val f).ingress lp.val f) : Out) = .next t ∧ Discarded s t lp.val f r :=
    fun check low => ⟨_, rfl, State.ingress_discards check low⟩
  refine ⟨fun unicast => ⟨fun invalid => ?_, ?_⟩, fun lo hi => ?_, fun reserved => ?_⟩
  · exact discards (State.ingressCheck_routeMiss defined unicast invalid) (by decide)
  · intro out valid action outLp allowed data cls present other format stomp cell unfenced up
    have check := State.ingressCheck_forward ⟨data, cls, format, stomp, cell⟩
      (⟨unicast, valid, action, outLp, allowed, present, other⟩ : ForwardsTo s lp.val out f)
    exact ⟨_, rfl, State.ingress_admits check (.inl ⟨rfl, up⟩) unfenced⟩
  · have group := (destIsGroup_iff f.hdr.dest).mpr ⟨lo, hi⟩
    rw [← destGroup_of_group lo hi]
    refine ⟨fun invalid => discards (State.ingressCheck_groupMiss defined group invalid) (by decide), ?_⟩
    intro valid allowed data cls format stomp cell unfenced
    obtain ⟨out, check⟩ := State.ingressCheck_group (lp := lp.val) ⟨data, cls, format, stomp, cell⟩ group valid allowed
    exact ⟨_, rfl, State.ingress_admits check (.inr rfl) unfenced⟩
  · have notGroup : destIsGroup f.hdr.dest = false := by
      rw [Bool.eq_false_iff, ne_eq, destIsGroup_iff]
      omega
    have notUnicast : destIsUnicast f.hdr.dest = false := by
      rw [Bool.eq_false_iff, ne_eq, destIsUnicast_iff]
      omega
    exact discards (State.ingressCheck_reserved defined notGroup notUnicast) (by decide)

end Sys2Proof.Claims
end

section
/-! PROOFS. The counter event table (R403, R405): the EVENT field of each entry at reset. -/

namespace Sys2Proof.Machine

theorem getD_zero_lt {l : List Nat} {b : Nat} (h : ∀ x ∈ l, x < b) (pos : 0 < b) (n : Nat) : l.getD n 0 < b := by
  rw [List.getD_eq_getElem?_getD]
  cases e : l[n]? with
  | none => exact pos
  | some x => exact h x (List.mem_of_getElem? e)

/-- Every reset event fits the 16 bits of EVENT (R403). -/
theorem eventReset_lt (n : Nat) : eventReset n < 2 ^ 16 := by
  unfold eventReset
  split
  · exact getD_zero_lt (by decide) (by decide) _
  · exact getD_zero_lt (by decide) (by decide) _

/-- EVENT reads back from the packed entry: the fields below it stay below bit 48, and the entry has room above bit 63. -/
theorem bitsAt_eventEntryReset (n : Nat) : bitsAt (eventEntryReset n).toNat 63 48 = eventReset n := by
  have fits := eventReset_lt n
  simp only [bitsAt, eventEntryReset, BitVec.toNat_ofNat, Nat.shiftLeft_eq, Nat.shiftRight_eq_div_pow]
  omega

/-- No entry of the counter event table has been written at reset, so each reads as its reset entry. -/
theorem entry_reset_events (n : Nat) : State.reset.entry 9 n = (eventEntryReset n).toNat := rfl

theorem event_reset (n : Nat) : bitsAt (State.reset.entry 9 n) 63 48 = eventReset n := by
  rw [entry_reset_events, bitsAt_eventEntryReset]

/-- All port banks select the events of the first. -/
theorem eventReset_port {bank i : Nat} (hb : bank < 64) (hi : i < 16) : eventReset (16 * bank + i) = eventReset i := by
  have inPorts : 16 * bank + i < 1024 := by omega
  have sameIndex : (16 * bank + i) % 16 = i % 16 := Nat.mul_add_mod ..
  simp only [eventReset, inPorts, if_true, sameIndex, show i < 1024 by omega]

theorem eventReset_global_none {i : Nat} (hi : 16 ≤ i) : eventReset (1024 + i) = 0 := by
  have inGlobal : ¬1024 + i < 1024 := by omega
  rw [eventReset, if_neg inGlobal, Nat.add_sub_cancel_left]
  exact List.getD_eq_default _ _ hi

end Sys2Proof.Machine

namespace Sys2Proof.Claims

open Sys2Proof.Machine

/-- Settles O19: each entry holds the event of R405 for its index, the same in all port banks. -/
theorem countersSelectTheirResetEvents : Obligations.CountersSelectTheirResetEvents := by
  refine ⟨fun bank i => ?_, fun i => ?_, fun i unused => ?_⟩
  · rw [event_reset, eventReset_port bank.isLt i.isLt]
    decide +revert
  · rw [event_reset]
    decide +revert
  · rw [event_reset, eventReset_global_none unused]

end Sys2Proof.Claims
end

section
/-! PROOFS. The frame of a whole command and of a step. -/

namespace Sys2Proof.Machine

/-- What every command keeps, row by row. -/
theorem exec_frame (i : Instr) (s : State) : FrameOut s (exec i s) :=
  match i with
  | .porNRise _ _ _ => execPorNRise_frame (.refl s)
  | .rstNRelease _ _ => execRstNRelease_frame (.refl s)
  | .powerOnSelfTestDone _ => execPowerOnSelfTestDone_frame (.refl s)
  | .stackTrainingDone _ => execStackTrainingDone_frame (.refl s)
  | .tapBypass _ => execTapBypass_frame (.refl s)
  | .tapInstructionRelease _ => execTapInstructionRelease_frame (.refl s)
  | .beatBoundary _ => execBeatBoundary_frame (.refl s)
  | .markerReceived _ _ _ _ => execMarkerReceived_frame (.refl s)
  | .tableApply _ => execTableApply_frame (.refl s)
  | .agendaCwWrite _ => execAgendaCwWrite_frame (.refl s)
  | .powerStep _ => execPowerStep_frame (.refl s)
  | .bistStop _ => execBistStop_frame (.refl s)
  | .bistStart _ => execBistStart_frame (.refl s)
  | .beatRoot _ => execBeatRoot_frame (.refl s)
  | .beatPeriod _ => execBeatPeriod_frame (.refl s)
  | .mark _ => execMark_frame (.refl s)
  | .pcieCmdFetch _ => execPcieCmdFetch_frame (.refl s)
  | .cmdTailWrite _ => execCmdTailWrite_frame (.refl s)
  | .replyDoneWrite _ => execReplyDoneWrite_frame (.refl s)
  | .ringCfgWrite _ => execRingCfgWrite_frame (.refl s)
  | .ringBaseWrite _ _ => execRingBaseWrite_frame (.refl s)
  | .bar0Write _ _ => execBar0Write_frame (.refl s)
  | .tc7CmdFrame _ _ _ => execTc7CmdFrame_frame (.refl s)
  | .i3cCommand _ _ => execI3cCommand_frame (.refl s)
  | .i3cSelect _ => execI3cSelect_frame (.refl s)
  | .i3cPrivateRead _ => execI3cPrivateRead_frame (.refl s)
  | .entdaa _ => execEntdaa_frame (.refl s)
  | .setdasa _ _ => execSetdasa_frame (.refl s)
  | .setmwl n => execSetmwl_frame (length := n) (.refl s)
  | .setmrl n => execSetmrl_frame (length := n) (.refl s)
  | .rstact _ => execRstact_frame (.refl s)
  | .sbEnumSurvey _ => execSbEnumSurvey_frame (.refl s)
  | .sbEnumAssign _ => execSbEnumAssign_frame (.refl s)
  | .sbEnumCommit _ => execSbEnumCommit_frame (.refl s)
  | .sbEnumClear _ => execSbEnumClear_frame (.refl s)
  | .sbCmd _ => execSbCmd_frame (.refl s)
  | .sbRead _ => execSbRead_frame (.refl s)
  | .sbSelect _ => execSbSelect_frame (.refl s)
  | .sbSeqQuery _ => execSbSeqQuery_frame (.refl s)
  | .sbPoll _ => execSbPoll_frame (.refl s)
  | .sbFrameForward _ => execSbFrameForward_frame (.refl s)
  | .cartPresChange _ _ => execCartPresChange_frame (.refl s)
  | .mmbInt _ _ => execMmbInt_frame (.refl s)
  | .presencePoll _ _ => execPresencePoll_frame (.refl s)
  | .mmbTransferTimeout _ => execMmbTransferTimeout_frame (.refl s)
  | .mmbRetry _ _ => execMmbRetry_frame (.refl s)
  | .retimerPoll _ _ => execRetimerPoll_frame (.refl s)
  | .cartIdentityRead _ _ _ _ => execCartIdentityRead_frame (.refl s)
  | .rxClockLock _ => execRxClockLock_frame (.refl s)
  | .ckOnSpTimeout _ => execCkOnSpTimeout_frame (.refl s)
  | .laneHeaderLock _ _ _ _ => execLaneHeaderLock_frame (.refl s)
  | .tLaneWaitExpiry _ _ => execTLaneWaitExpiry_frame (.refl s)
  | .trainingRecord _ _ _ _ _ => execTrainingRecord_frame (.refl s)
  | .alignConfirmed _ _ => execAlignConfirmed_frame (.refl s)
  | .stripeUp _ _ => execStripeUp_frame (.refl s)
  | .tHuntExpiry _ _ => execTHuntExpiry_frame (.refl s)
  | .tAlignExpiry _ _ => execTAlignExpiry_frame (.refl s)
  | .tExchangeExpiry _ _ => execTExchangeExpiry_frame (.refl s)
  | .backoffEnd _ _ => execBackoffEnd_frame (.refl s)
  | .energyDetected _ => execEnergyDetected_frame (.refl s)
  | .presenceSettled _ => execPresenceSettled_frame (.refl s)
  | .laneLockLoss _ _ => execLaneLockLoss_frame (.refl s)
  | .rxBlock _ _ _ _ => execRxBlock_frame (.refl s)
  | .laneReqSpare _ _ => execLaneReqSpare_frame (.refl s)
  | .laneReady _ _ => execLaneReady_frame (.refl s)
  | .laneReqWidth _ _ => execLaneReqWidth_frame (.refl s)
  | .laneAsk _ _ => execLaneAsk_frame (.refl s)
  | .laneSwitched _ _ => execLaneSwitched_frame (.refl s)
  | .laneDone _ _ => execLaneDone_frame (.refl s)
  | .laneRefuse _ _ => execLaneRefuse_frame (.refl s)
  | .laneMsgRepeat _ _ => execLaneMsgRepeat_frame (.refl s)
  | .swapTimeout _ _ => execSwapTimeout_frame (.refl s)
  | .hitlessSwitch _ => execHitlessSwitch_frame (.refl s)
  | .hitlessAbandon _ _ => execHitlessAbandon_frame (.refl s)
  | .flitReceived _ _ => execFlitReceived_frame (.refl s)
  | .flitCrcError _ => execFlitCrcError_frame (.refl s)
  | .nakRepeat _ => execNakRepeat_frame (.refl s)
  | .nakReceived _ _ _ => execNakReceived_frame (.refl s)
  | .replayStartReceived _ _ _ => execReplayStartReceived_frame (.refl s)
  | .ackReceived _ _ => execAckReceived_frame (.refl s)
  | .ackTimeout _ => execAckTimeout_frame (.refl s)
  | .ackDue _ => execAckDue_frame (.refl s)
  | .creditFlitReceived _ _ _ => execCreditFlitReceived_frame (.refl s)
  | .sleepFlitWake _ => execSleepFlitWake_frame (.refl s)
  | .sleepFlitSleep _ => execSleepFlitSleep_frame (.refl s)
  | .sleepFlitRefuse _ => execSleepFlitRefuse_frame (.refl s)
  | .txSleepEnter _ => execTxSleepEnter_frame (.refl s)
  | .txAutoWake _ => execTxAutoWake_frame (.refl s)
  | .txWakeSettled _ => execTxWakeSettled_frame (.refl s)
  | .wakePreambleEnd _ => execWakePreambleEnd_frame (.refl s)
  | .rxWakeAlignTimeout _ => execRxWakeAlignTimeout_frame (.refl s)
  | .rxWakeSyncTimeout _ => execRxWakeSyncTimeout_frame (.refl s)
  | .sleepReqTimeout _ => execSleepReqTimeout_frame (.refl s)
  | .frameHeadIngress _ _ => execFrameHeadIngress_frame (.refl s)
  | .creditIssue _ => execCreditIssue_frame (.refl s)
  | .creditFlush _ => execCreditFlush_frame (.refl s)
  | .egressMergeSelect _ => execEgressMergeSelect_frame (.refl s)
  | .underrun _ => execUnderrun_frame (.refl s)
  | .portDown _ _ => execPortDown_frame (.refl s)
  | .holdExpiry _ => execHoldExpiry_frame (.refl s)
  | .fenceNoticeRepeat _ => execFenceNoticeRepeat_frame (.refl s)
  | .fenceAckReceived _ _ => execFenceAckReceived_frame (.refl s)
  | .fenceDrained _ => execFenceDrained_frame (.refl s)
  | .fenceRelease _ => execFenceRelease_frame (.refl s)
  | .memReqRead _ _ _ => execMemReqRead_frame (.refl s)
  | .memReqWrite _ _ _ => execMemReqWrite_frame (.refl s)
  | .memReqMcastRead _ _ _ => execMemReqMcastRead_frame (.refl s)
  | .memReqFadd _ _ _ => execMemReqFadd_frame (.refl s)
  | .memReqAdd _ _ _ => execMemReqAdd_frame (.refl s)
  | .memReqCswap _ _ _ => execMemReqCswap_frame (.refl s)
  | .memRequestEntry _ _ => execMemRequestEntry_frame (.refl s)
  | .memFragmentRead _ _ _ => execMemFragmentRead_frame (.refl s)
  | .stackPoll _ _ _ _ => execStackPoll_frame (.refl s)
  | .stackUnresponsive _ => execStackUnresponsive_frame (.refl s)
  | .refreshManagementRequest n => execRefreshManagementRequest_frame (stack := n) (.refl s)
  | .migrationGranuleCopied _ => execMigrationGranuleCopied_frame (.refl s)
  | .collDescReceived _ _ _ => execCollDescReceived_frame (.refl s)
  | .collDataReceived _ _ _ => execCollDataReceived_frame (.refl s)
  | .abortAckReceived _ _ _ => execAbortAckReceived_frame (.refl s)
  | .nextEpochDescTakeUp _ => execNextEpochDescTakeUp_frame (.refl s)
  | .collEntryAdmit _ => execCollEntryAdmit_frame (.refl s)
  | .chunkFinish _ _ => execChunkFinish_frame (.refl s)
  | .resultFramePassed _ => execResultFramePassed_frame (.refl s)
  | .resultResend _ => execResultResend_frame (.refl s)
  | .chunkCommit _ _ => execChunkCommit_frame (.refl s)
  | .slotGroupDamaged _ _ _ _ => execSlotGroupDamaged_frame (.refl s)
  | .stallTimeout _ => execStallTimeout_frame (.refl s)
  | .powerSample _ => execPowerSample_frame (.refl s)
  | .bistPartitionDone _ _ => execBistPartitionDone_frame (.refl s)
  | .bistSlotDeadline _ => execBistSlotDeadline_frame (.refl s)
  | .bistRestore _ => execBistRestore_frame (.refl s)
  | .bankCopyDone _ _ => execBankCopyDone_frame (.refl s)
  | .spareAutoBringIn _ _ => execSpareAutoBringIn_frame (.refl s)
  | .windowClose _ => execWindowClose_frame (.refl s)
  | .ctrSelectApply _ => execCtrSelectApply_frame (.refl s)
  | .windowSetApply _ => execWindowSetApply_frame (.refl s)
  | .sampleCapture _ _ => execSampleCapture_frame (.refl s)
  | .sealComplete _ => execSealComplete_frame (.refl s)
  | .eyeScanComplete _ _ _ => execEyeScanComplete_frame (.refl s)
  | .cartTransferDone _ _ _ => execCartTransferDone_frame (.refl s)
  | .memCmdComplete _ => execMemCmdComplete_frame (.refl s)
  | .identityRead _ => execIdentityRead_frame (.refl s)
  | .cwRead _ _ _ => execCwRead_frame (.refl s)
  | .cwWrite _ _ _ _ _ => execCwWrite_frame (.refl s)
  | .cwModify _ _ _ _ => execCwModify_frame (.refl s)
  | .noticeRead _ _ => execNoticeRead_frame (.refl s)
  | .tableImageOpen _ _ _ => execTableImageOpen_frame (.refl s)
  | .tableImageWrite _ _ _ _ => execTableImageWrite_frame (.refl s)
  | .tableImageSeal _ _ => execTableImageSeal_frame (.refl s)
  | .tableStage _ _ _ => execTableStage_frame (.refl s)
  | .tableImageDiscard _ _ => execTableImageDiscard_frame (.refl s)
  | .tableRead _ _ _ _ => execTableRead_frame (.refl s)
  | .tableStatus _ _ => execTableStatus_frame (.refl s)
  | .tableImageList _ _ _ => execTableImageList_frame (.refl s)
  | .hold _ _ _ => execHold_frame (.refl s)
  | .release _ _ _ => execRelease_frame (.refl s)
  | .beatStatusRead _ => execBeatStatusRead_frame (.refl s)
  | .beatRootSet _ _ _ => execBeatRootSet_frame (.refl s)
  | .beatPeriodSet _ _ _ => execBeatPeriodSet_frame (.refl s)
  | .agendaStageCwWrite _ _ _ _ => execAgendaStageCwWrite_frame (.refl s)
  | .agendaStagePowerStep _ _ _ _ => execAgendaStagePowerStep_frame (.refl s)
  | .agendaStageBistStop _ _ _ _ => execAgendaStageBistStop_frame (.refl s)
  | .agendaStageBistStart _ _ _ _ => execAgendaStageBistStart_frame (.refl s)
  | .agendaStageMark _ _ _ _ => execAgendaStageMark_frame (.refl s)
  | .agendaCancel _ _ _ => execAgendaCancel_frame (.refl s)
  | .agendaRead _ _ _ => execAgendaRead_frame (.refl s)
  | .portStatus _ _ => execPortStatus_frame (.refl s)
  | .portAdminDisable _ _ _ => execPortAdminDisable_frame (.refl s)
  | .portAdminEnable _ _ _ => execPortAdminEnable_frame (.refl s)
  | .portAdminRetrain _ _ _ => execPortAdminRetrain_frame (.refl s)
  | .portSleep _ _ _ => execPortSleep_frame (.refl s)
  | .portWake _ _ _ => execPortWake_frame (.refl s)
  | .laneStatus _ _ => execLaneStatus_frame (.refl s)
  | .eyeScan _ _ _ _ _ _ => execEyeScan_frame (.refl s)
  | .eqOverride _ _ _ _ => execEqOverride_frame (.refl s)
  | .spareSwap _ _ _ _ => execSpareSwap_frame (.refl s)
  | .spareRestore _ _ _ _ => execSpareRestore_frame (.refl s)
  | .cartRead _ _ _ _ _ _ => execCartRead_frame (.refl s)
  | .cartWrite _ _ _ _ _ _ _ => execCartWrite_frame (.refl s)
  | .switchStatus _ => execSwitchStatus_frame (.refl s)
  | .voqRead _ _ _ _ => execVoqRead_frame (.refl s)
  | .creditRead _ _ => execCreditRead_frame (.refl s)
  | .portDrain _ _ _ _ => execPortDrain_frame (.refl s)
  | .heldDiscard _ _ => execHeldDiscard_frame (.refl s)
  | .memStatus _ => execMemStatus_frame (.refl s)
  | .memAlloc _ _ _ => execMemAlloc_frame (.refl s)
  | .memFree _ _ => execMemFree_frame (.refl s)
  | .memFill _ _ _ _ => execMemFill_frame (.refl s)
  | .memRead _ _ _ => execMemRead_frame (.refl s)
  | .memWrite _ _ _ _ => execMemWrite_frame (.refl s)
  | .eccLogRead _ _ => execEccLogRead_frame (.refl s)
  | .sessionOpen _ _ _ _ _ _ => execSessionOpen_frame (.refl s)
  | .sessionClose _ _ => execSessionClose_frame (.refl s)
  | .sessionCloseForce _ _ => execSessionCloseForce_frame (.refl s)
  | .sessionStatus _ _ => execSessionStatus_frame (.refl s)
  | .sessionList _ _ => execSessionList_frame (.refl s)
  | .engineStatus _ => execEngineStatus_frame (.refl s)
  | .powerStatus _ => execPowerStatus_frame (.refl s)
  | .ceilingSet _ _ => execCeilingSet_frame (.refl s)
  | .hostRequestSet _ _ => execHostRequestSet_frame (.refl s)
  | .telemetryRead _ _ => execTelemetryRead_frame (.refl s)
  | .bistRun _ _ _ => execBistRun_frame (.refl s)
  | .bistResult _ _ => execBistResult_frame (.refl s)
  | .bistAbort _ _ => execBistAbort_frame (.refl s)
  | .spareStatus _ => execSpareStatus_frame (.refl s)
  | .spareBringInStack _ _ => execSpareBringInStack_frame (.refl s)
  | .spareBringIn _ _ _ => execSpareBringIn_frame (.refl s)
  | .ctrRead _ _ _ _ => execCtrRead_frame (.refl s)
  | .ctrSelect _ _ _ _ => execCtrSelect_frame (.refl s)
  | .ctrWindowSet _ _ _ => execCtrWindowSet_frame (.refl s)
  | .sampleConfig _ _ _ _ _ => execSampleConfig_frame (.refl s)
  | .sampleRead _ _ => execSampleRead_frame (.refl s)
  | .keyLoad _ _ _ _ _ _ => execKeyLoad_frame (.refl s)
  | .keyClear _ _ => execKeyClear_frame (.refl s)
  | .keyStatus _ => execKeyStatus_frame (.refl s)
  | .authReqSet _ _ => execAuthReqSet_frame (.refl s)
  | .tc7AllowSet _ _ => execTc7AllowSet_frame (.refl s)
  | .authFailRead _ => execAuthFailRead_frame (.refl s)
  | .resetPort _ _ => execResetPort_frame (.refl s)
  | .resetSwitch _ _ => execResetSwitch_frame (.refl s)
  | .resetMemory _ _ => execResetMemory_frame (.refl s)
  | .resetCollective _ _ => execResetCollective_frame (.refl s)
  | .resetManagement _ _ => execResetManagement_frame (.refl s)
  | .resetModule _ _ => execResetModule_frame (.refl s)
  | .resetStatus _ => execResetStatus_frame (.refl s)
  | .rxWakeBlockAlignment _ => execRxWakeBlockAlignment_frame (.refl s)
  | .railLeavesRegulation _ _ => execRailLeavesRegulation_frame (.refl s)
  | .porNFall => execPorNFall_frame (.refl s)
  | .rstNAssert => execRstNAssert_frame (.refl s)
  | .fuseReadDone => execFuseReadDone_frame (.refl s)
  | .managementReady => execManagementReady_frame (.refl s)
  | .trstNAssert => execTrstNAssert_frame (.refl s)
  | .tapExtest => execTapExtest_frame (.refl s)
  | .tapIdcode => execTapIdcode_frame (.refl s)
  | .tapSamplePreload => execTapSamplePreload_frame (.refl s)
  | .tapClamp => execTapClamp_frame (.refl s)
  | .tapHighz => execTapHighz_frame (.refl s)
  | .tapScanAccess => execTapScanAccess_frame (.refl s)
  | .thermtrip => execThermtrip_frame (.refl s)
  | .perstNAssert => execPerstNAssert_frame (.refl s)
  | .vreqFrame => execVreqFrame_frame (.refl s)
  | .vreqFault => execVreqFault_frame (.refl s)
  | .vreqFaultClear => execVreqFaultClear_frame (.refl s)
  | .railSettled => execRailSettled_frame (.refl s)
  | .boundarySteps => execBoundarySteps_frame (.refl s)
  | .beatFollowUpdate => execBeatFollowUpdate_frame (.refl s)
  | .lockAcquired => execLockAcquired_frame (.refl s)
  | .holdoverEntry => execHoldoverEntry_frame (.refl s)
  | .drift => execDrift_frame (.refl s)
  | .freerunEntry => execFreerunEntry_frame (.refl s)
  | .commandDispatch => execCommandDispatch_frame (.refl s)
  | .i3cSeqQuery => execI3cSeqQuery_frame (.refl s)
  | .enec => execEnec_frame (.refl s)
  | .disec => execDisec_frame (.refl s)
  | .rstdaa => execRstdaa_frame (.refl s)
  | .getmwl => execGetmwl_frame (.refl s)
  | .getmrl => execGetmrl_frame (.refl s)
  | .getpid => execGetpid_frame (.refl s)
  | .getbcr => execGetbcr_frame (.refl s)
  | .getdcr => execGetdcr_frame (.refl s)
  | .getstatus => execGetstatus_frame (.refl s)
  | .ibiRaise => execIbiRaise_frame (.refl s)
  | .bmcAbsent => execBmcAbsent_frame (.refl s)
  | .sbFrameDiscard => execSbFrameDiscard_frame (.refl s)
  | .chainLost => execChainLost_frame (.refl s)
  | .ingressHoldRelease => execIngressHoldRelease_frame (.refl s)
  | .superCellTime => execSuperCellTime_frame (.refl s)
  | .multicastRelease => execMulticastRelease_frame (.refl s)
  | .ceWindowEnd => execCeWindowEnd_frame (.refl s)
  | .migrationAutoStart => execMigrationAutoStart_frame (.refl s)
  | .migrationComplete => execMigrationComplete_frame (.refl s)
  | .beatSyncRelease => execBeatSyncRelease_frame (.refl s)
  | .droopLightTrip => execDroopLightTrip_frame (.refl s)
  | .droopHeavyTrip => execDroopHeavyTrip_frame (.refl s)
  | .droopFurtherStep => execDroopFurtherStep_frame (.refl s)
  | .bistSlotRetry => execBistSlotRetry_frame (.refl s)
  | .slotWaitExpiry => execSlotWaitExpiry_frame (.refl s)
  | .bistSlotEnd => execBistSlotEnd_frame (.refl s)
  | .bistNextSlot => execBistNextSlot_frame (.refl s)
  | .fuseBlow => execFuseBlow_frame (.refl s)
  | .resetStart => execResetStart_frame (.refl s)
  | .resetMarkerWaitExpiry => execResetMarkerWaitExpiry_frame (.refl s)
  | .resetEnd => execResetEnd_frame (.refl s)
  | .portDrainTest => execPortDrainTest_frame (.refl s)
  | .spareBringInComplete => execSpareBringInComplete_frame (.refl s)
  | .replyIrqHoldoffEnd => execReplyIrqHoldoffEnd_frame (.refl s)

/-- Taking a command from the queue leaves the fields of the invariant alone. -/
theorem Inv.setPending {s : State} (h : Inv s) (l : List Instr) : Inv { s with pending := l } := h

theorem Frame.inv {s t : State} (h : Frame s t) (hs : Inv s) : Inv t := by
  obtain ⟨cells, ring, strap⟩ := hs
  exact ⟨h.cells cells, h.ring ring, h.strap strap⟩

theorem step_nil {s : State} (h : s.pending = []) : step s = .next s.idleCycle := by
  rw [step, h]

theorem step_cons {s : State} {c : Instr} {rest : List Instr} (h : s.pending = c :: rest) :
    step s = exec c { s with pending := rest } := by
  rw [step, h]

end Sys2Proof.Machine

namespace Sys2Proof.Claims

open Sys2Proof.Machine

/-- Settles O1: the two cases of the queue are the two equations of step. -/
theorem stepTakesTheFrontCommand : Obligations.StepTakesTheFrontCommand :=
  ⟨fun _ _ => step_cons rfl, fun _ => step_nil⟩

/-- Settles O2: the invariant reads three fields that the frame of every command, and of an idle cycle, keeps. -/
theorem stepKeepsInvariant : Obligations.StepKeepsInvariant := by
  intro s t hs ht
  cases hq : s.pending with
  | nil =>
    rw [step_nil hq] at ht
    cases ht
    exact (State.idleCycle_frame (.refl s)).inv hs
  | cons c rest =>
    rw [step_cons hq] at ht
    exact (exec_frame c _ t ht).inv (hs.setPending rest)

/-- Settles O3: no byte of memory is written at reset, the ring has its smallest sizes, and the strap is sampled as 0. -/
theorem resetHasInvariant : Obligations.ResetHasInvariant := by
  refine ⟨reset_mem_wf, ?_, ?_⟩
  · unfold RingOk; decide
  · unfold StrapOk; decide

/-- Settles O4: the frame of the command says it. -/
theorem commandsKeepQueueAndPast : Obligations.CommandsKeepQueueAndPast := by
  intro c s t ht
  have h := exec_frame c s t ht
  exact ⟨h.queue, h.sent, h.draws⟩

end Sys2Proof.Claims
end

section
/-! PROOFS. Every command runs (R444), and what an opcode row does before its effect (R63). -/

namespace Sys2Proof.Claims

open Sys2Proof.Machine

/-- An opcode row is the frame of R63 around the effect of its opcode. -/
theorem exec_of_packet {i : Instr} {c : Cmd} {op : BitVec 16} (h : packetOf i = some (c, op)) (s : State) :
    ∃ body, exec i s = s.opcode i c op body := by
  cases i <;> cases h <;> exact ⟨_, rfl⟩

/-- The row that a packet spells has the meaning of exec (log entry 9). -/
theorem runOpcode_of_packet {i : Instr} {c : Cmd} {op : BitVec 16} (h : packetOf i = some (c, op)) (s : State) :
    runOpcode i s = exec i s := by
  cases i <;> cases h <;> rfl

/-- The command neither stops with a fault nor is refused. -/
def Answers (x : Out) : Prop := ∃ t, x = .next t

theorem Answers.next {t : State} : Answers (.next t) := ⟨t, rfl⟩

theorem Answers.ite {p : Prop} [Decidable p] {x y : Out} (hx : Answers x) (hy : Answers y) : Answers (if p then x else y) := by
  split
  · exact hx
  · exact hy

theorem opcode_answers {s body : State} {i : Instr} {c : Cmd} {op : BitVec 16} : Answers (s.opcode i c op body) := by
  unfold State.opcode
  repeat' split
  all_goals exact .next

theorem packet_answers {i : Instr} {c : Cmd} {op : BitVec 16} (h : packetOf i = some (c, op)) (s : State) :
    Answers (exec i s) := by
  obtain ⟨body, e⟩ := exec_of_packet h s
  rw [e]
  exact opcode_answers

theorem receiveSb_answers {s : State} {w : SbWire} {act : SbFrame → Out} (h : ∀ f, Answers (act f)) :
    Answers (s.receiveSb w act) := by
  unfold State.receiveSb
  split
  · exact h _
  · exact .next

theorem enumerate_answers {s : State} {mode : Nat} {f : SbFrame} {act : EnumFields → EnumFields × State} :
    Answers (s.enumerate mode f act) := .ite .next .next

/-- Only a row that carries out an opcode is spelled by a packet; any other leaves the state alone. -/
theorem runOpcode_answers (i : Instr) (s : State) : Answers (runOpcode i s) := by
  cases h : packetOf i with
  | some p => exact runOpcode_of_packet (c := p.1) (op := p.2) h s ▸ packet_answers (c := p.1) (op := p.2) h s
  | none => cases i <;> cases h <;> exact .next

theorem runParams_answers (s : State) (c : Cmd) (op : BitVec 16) (b p : Bytes) : Answers (s.runParams c op b p) := by
  unfold State.runParams
  dsimp only
  split
  · exact .next
  · exact .next
  · split
    · exact .next
    · exact runOpcode_answers _ _

theorem runPacket_answers (s : State) (src : Src) (origin : Nat) (p : Packet) : Answers (s.runPacket src origin p) :=
  .ite .next <| .ite .next <| .ite .next <| .ite .next <| .ite .next <| .ite .next <| runParams_answers ..

theorem commandDispatch_answers (s : State) : Answers (execCommandDispatch s) := by
  unfold execCommandDispatch
  refine .ite .next (.ite .next ?_)
  split
  · exact .next
  · exact runPacket_answers ..

theorem exec_answers (i : Instr) (s : State) (h : ∀ n b k, i ≠ .porNRise n b k) : Answers (exec i s) :=
  match i with
  | .porNRise n b k => absurd rfl (h n b k)
  | .rstNRelease .. | .tapBypass .. | .tapInstructionRelease .. | .beatBoundary .. | .pcieCmdFetch .. | .cmdTailWrite
    .. | .replyDoneWrite .. | .ringCfgWrite .. | .ringBaseWrite .. | .bar0Write .. | .i3cSelect .. | .entdaa .. |
    .setdasa .. | .setmwl .. | .setmrl .. | .rstact .. | .cartPresChange .. | .mmbInt .. | .presencePoll .. |
    .mmbTransferTimeout .. | .mmbRetry .. | .cartIdentityRead .. | .ckOnSpTimeout .. | .tLaneWaitExpiry .. | .stripeUp
    .. | .tHuntExpiry .. | .tAlignExpiry .. | .tExchangeExpiry .. | .backoffEnd .. | .laneReqSpare .. | .laneReady ..
  | .laneReqWidth .. | .laneAsk .. | .laneSwitched .. | .laneDone .. | .laneRefuse .. | .laneMsgRepeat .. |
    .flitCrcError .. | .nakRepeat .. | .nakReceived .. | .replayStartReceived .. | .ackReceived .. | .ackTimeout .. |
    .ackDue .. | .creditFlitReceived .. | .txWakeSettled .. | .wakePreambleEnd .. | .rxWakeAlignTimeout .. |
    .rxWakeSyncTimeout .. | .sleepReqTimeout .. | .holdExpiry .. | .fenceNoticeRepeat .. | .fenceDrained .. |
    .fenceRelease .. | .stackPoll .. | .stackUnresponsive .. | .migrationGranuleCopied .. | .collDescReceived .. |
    .collDataReceived .. | .abortAckReceived .. | .nextEpochDescTakeUp .. | .collEntryAdmit .. | .slotGroupDamaged ..
  | .powerSample .. | .bistPartitionDone .. | .bistRestore .. | .windowClose .. | .ctrSelectApply .. |
    .windowSetApply .. | .eyeScanComplete .. | .rxWakeBlockAlignment .. | .porNFall | .rstNAssert | .fuseReadDone |
    .managementReady | .thermtrip | .vreqFrame | .vreqFault | .vreqFaultClear | .railSettled | .boundarySteps |
    .beatFollowUpdate | .lockAcquired | .holdoverEntry | .drift | .freerunEntry | .i3cSeqQuery | .enec | .disec |
    .rstdaa | .getmwl | .getmrl | .getpid | .getbcr | .getdcr | .getstatus | .ibiRaise | .bmcAbsent | .chainLost |
    .ingressHoldRelease | .superCellTime | .ceWindowEnd | .migrationComplete | .beatSyncRelease | .droopLightTrip |
    .droopHeavyTrip | .droopFurtherStep | .fuseBlow | .resetMarkerWaitExpiry | .resetEnd | .portDrainTest |
    .replyIrqHoldoffEnd => .ite .next .next
  | .powerOnSelfTestDone .. | .stackTrainingDone .. | .markerReceived .. | .tc7CmdFrame .. | .i3cPrivateRead .. |
    .retimerPoll .. | .rxClockLock .. | .laneHeaderLock .. | .trainingRecord .. | .alignConfirmed .. | .laneLockLoss
    ..  | .swapTimeout .. | .hitlessSwitch .. | .hitlessAbandon .. | .frameHeadIngress .. | .creditIssue
    .. | .egressMergeSelect .. | .underrun .. | .fenceAckReceived .. | .memRequestEntry .. | .memFragmentRead .. |
    .chunkFinish .. | .resultFramePassed .. | .resultResend .. | .chunkCommit .. | .bistSlotDeadline .. |
    .bankCopyDone .. | .spareAutoBringIn .. | .sampleCapture .. | .sealComplete .. | .cartTransferDone .. |
    .memCmdComplete .. | .multicastRelease | .migrationAutoStart | .bistSlotRetry | .slotWaitExpiry | .bistSlotEnd |
    .bistNextSlot | .resetStart | .spareBringInComplete => by
    simp only [exec, execPowerOnSelfTestDone, execStackTrainingDone, execMarkerReceived, execTc7CmdFrame, execI3cPrivateRead,
        execRetimerPoll, execRxClockLock, execLaneHeaderLock, execTrainingRecord, execAlignConfirmed,
        execLaneLockLoss, execSwapTimeout, execHitlessSwitch, execHitlessAbandon,
        execFrameHeadIngress, execCreditIssue, execEgressMergeSelect, execUnderrun, execFenceAckReceived,
        execMemRequestEntry, execMemFragmentRead, execChunkFinish, execResultFramePassed, execResultResend,
        execChunkCommit, execBistSlotDeadline, execBankCopyDone, execSpareAutoBringIn, execSampleCapture,
        execSealComplete, execCartTransferDone, execMemCmdComplete, execMulticastRelease,
        execMigrationAutoStart, execBistSlotRetry, execSlotWaitExpiry, execBistSlotEnd, execBistNextSlot,
        execResetStart, execSpareBringInComplete]
    repeat' split
    all_goals exact .next
  | .tableApply .. | .agendaCwWrite .. | .powerStep .. | .bistStop .. | .bistStart .. | .beatRoot .. | .beatPeriod ..
  | .mark .. | .sleepFlitWake .. | .sleepFlitSleep .. | .sleepFlitRefuse .. | .memReqRead .. | .memReqWrite .. |
    .memReqMcastRead .. | .memReqFadd .. | .memReqAdd .. | .memReqCswap .. | .refreshManagementRequest .. |
    .trstNAssert | .tapExtest | .tapIdcode | .tapSamplePreload | .tapClamp | .tapHighz | .tapScanAccess |
    .perstNAssert | .sbFrameDiscard => .next
  | .i3cCommand .. | .energyDetected .. | .presenceSettled .. | .flitReceived .. | .txAutoWake .. | .portDown .. |
    .stallTimeout .. | .railLeavesRegulation .. => .ite .next (.ite .next .next)
  | .sbEnumSurvey .. | .sbEnumAssign .. | .sbEnumCommit .. | .sbEnumClear .. =>
    receiveSb_answers fun _ => enumerate_answers
  | .sbCmd .. | .sbRead .. | .sbSelect .. | .sbSeqQuery .. | .sbPoll .. | .sbFrameForward .. =>
    receiveSb_answers fun _ => by
      repeat' split
      all_goals exact .next
  | .txSleepEnter .. => .ite .next (.ite .next (.ite .next (.ite .next .next)))
  | .creditFlush .. => .ite .next (.ite .next (.ite .next .next))
  | .identityRead .. | .cwRead .. | .cwWrite .. | .cwModify .. | .noticeRead .. | .tableImageOpen .. |
    .tableImageWrite .. | .tableImageSeal .. | .tableStage .. | .tableImageDiscard .. | .tableRead .. | .tableStatus
    .. | .tableImageList .. | .hold .. | .release .. | .beatStatusRead .. | .beatRootSet .. | .beatPeriodSet .. |
    .agendaStageCwWrite .. | .agendaStagePowerStep .. | .agendaStageBistStop .. | .agendaStageBistStart .. |
    .agendaStageMark .. | .agendaCancel .. | .agendaRead .. | .portStatus .. | .portAdminDisable .. | .portAdminEnable
    .. | .portAdminRetrain .. | .portSleep .. | .portWake .. | .laneStatus .. | .eyeScan .. | .eqOverride .. |
    .spareSwap .. | .spareRestore .. | .cartRead .. | .cartWrite .. | .switchStatus .. | .voqRead .. | .creditRead ..
  | .portDrain .. | .heldDiscard .. | .memStatus .. | .memAlloc .. | .memFree .. | .memFill .. | .memRead .. |
    .memWrite .. | .eccLogRead .. | .sessionOpen .. | .sessionClose .. | .sessionCloseForce .. | .sessionStatus .. |
    .sessionList .. | .engineStatus .. | .powerStatus .. | .ceilingSet .. | .hostRequestSet .. | .telemetryRead .. |
    .bistRun .. | .bistResult .. | .bistAbort .. | .spareStatus .. | .spareBringInStack .. | .spareBringIn .. |
    .ctrRead .. | .ctrSelect .. | .ctrWindowSet .. | .sampleConfig .. | .sampleRead .. | .keyLoad .. | .keyClear .. |
    .keyStatus .. | .authReqSet .. | .tc7AllowSet .. | .authFailRead .. | .resetPort .. | .resetSwitch .. |
    .resetMemory .. | .resetCollective .. | .resetManagement .. | .resetModule .. | .resetStatus .. => packet_answers rfl s
  | .rxBlock .. => .ite .next <| .ite .next <| .ite .next <| .ite .next <| .ite .next <| .ite .next .next
  | .commandDispatch => commandDispatch_answers s

theorem opcode_runs {i : Instr} {c : Cmd} {op : BitVec 16} {s b : State} (ho : Open s) (hp : s.paramError i = none) :
    s.opcode i c op b = .next b :=
  State.opcode_runs ho.1 ho.2 hp

/-- Completing a command moves the reply path alone. -/
theorem onlyReplied_complete (s : State) (c : Cmd) (op : BitVec 16) (k : Bool) (st : BitVec 8) (d : Nat) (b : Bytes) :
    OnlyReplied s (s.complete c op k st d b) := by
  refine ⟨?_, (State.complete_frame (.refl s)).sent⟩
  obtain ⟨_, _, _, _, _, _, _, e⟩ := s.complete_only c op k st d b
  rw [e]

theorem onlyReplied_ok (s : State) (c : Cmd) (op : BitVec 16) (b : Bytes) : OnlyReplied s (s.ok c op b) :=
  onlyReplied_complete s c op true stOk 0 b

theorem onlyReplied_deny (s : State) (c : Cmd) (op : BitVec 16) (st : BitVec 8) (d : Nat) : OnlyReplied s (s.deny c op st d) :=
  onlyReplied_complete s c op true st d []

/-- Settles O5: the only fault of the model is that of POR_N_RISE. -/
theorem onlyShortPorPulseStops : Obligations.OnlyShortPorPulseStops := by
  refine ⟨fun c s h => exec_answers c s h, fun n b k s low short => ?_, fun n b k s h => ?_⟩
  · simp [exec, execPorNRise, low, short]
  · cases low : s.pkg.porLow with
    | false => exact ⟨s, by simp [exec, execPorNRise, low]⟩
    | true => exact ⟨_, by simp only [exec, execPorNRise, low, h low]; rfl⟩

/-- Settles O6: a parameter in error is the first thing an opcode row looks at once the controller is open. -/
theorem badParameterChangesNothing : Obligations.BadParameterChangesNothing := by
  intro i c op s off hi ⟨live, running⟩ bad
  obtain ⟨body, e⟩ := exec_of_packet hi s
  exact ⟨e.trans (State.opcode_bad live running bad), onlyReplied_deny ..⟩

/-- Settles O7: an opcode row does nothing while the controller is closed. -/
theorem closedControllerTakesNothing : Obligations.ClosedControllerTakesNothing := by
  intro i c op s hi closed
  obtain ⟨body, e⟩ := exec_of_packet hi s
  exact e.trans (State.opcode_closed closed)

end Sys2Proof.Claims
end

section
/-! PROOFS. Reading opcodes and logs (R98 to R118): what they answer, and that they change nothing. -/

namespace Sys2Proof.Claims

open Sys2Proof.Machine

/-! ## Units that are free answer no gate -/

theorem unitGate_free {r t : Bool} (hr : r = false) (ht : t = false) : unitGate r t = none := by
  subst hr ht
  rfl

theorem SharedFree.switchGate {s : State} (h : SharedFree s) : s.switchGate = none :=
  unitGate_free h.1 h.2.2.2

theorem SharedFree.memGate {s : State} (h : SharedFree s) : s.memGate = none :=
  unitGate_free h.2.1 h.2.2.2

theorem SharedFree.collGate {s : State} (h : SharedFree s) : s.collGate = none :=
  unitGate_free h.2.2.1 h.2.2.2

theorem SharedFree.ctrGate {s : State} (h : SharedFree s) : s.ctrGate = none :=
  unitGate_free rfl h.2.2.2

theorem SharedFree.centralGate {s : State} (h : SharedFree s) (t : Nat) :
    unitGate false (centralTable t && s.underTest 94) = none :=
  unitGate_free rfl (by rw [h.2.2.2, Bool.and_false])

/-! ## Lengths of reply data -/

/-- The length of a run of numbered records of one size. -/
theorem rangeRecords_length {f : Nat → Bytes} {m n : Nat} (h : ∀ k, (f k).length = m) :
    (((List.range n).map f).flatten).length = m * n := by
  rw [flatten_length _ _ _ h, List.length_range]

theorem spareBytes_length (s : State) (k : SpareKind) (n : Nat) : (s.spareBytes k n).length = n := by
  simp [State.spareBytes]

theorem laneRecord_length (p : PortSt) (tx : Bool) (lane : Nat) : (p.laneRecord tx lane).length = 4 := by
  simp [PortSt.laneRecord]

theorem voqRecord_length (s : State) (i o tc : Nat) : (s.voqRecord i o tc).length = 8 := by
  simp [State.voqRecord]

/-- The answer of a reading opcode whose unit is free. -/
theorem answers_ok {i : Instr} {c : Cmd} {op : BitVec 16} {s : State} {g : Option (BitVec 8 × Nat)} {data : Bytes}
    (e : exec i s = s.opcode i c op (s.gate c op g (s.ok c op data))) (ho : Open s) (hp : s.paramError i = none) (hg : g = none) :
    exec i s = .next (s.ok c op data) := by
  rw [e, opcode_runs ho hp, hg, State.gate_none]

/-- Settles O8: each row answers the bytes of its record, whose lengths add up to the table's. -/
theorem readingOpcodesOnlyRead : Obligations.ReadingOpcodesOnlyRead := by
  intro i c op n s hr ho hs hp
  suffices h : ∃ data : Bytes, data.length = n ∧ exec i s = .next (s.ok c op data) by
    obtain ⟨data, len, e⟩ := h
    exact ⟨data, len, e, onlyReplied_ok ..⟩
  have runs {g : Option (BitVec 8 × Nat)} {data : Bytes} (len : data.length = n) (hg : g = none)
      (e : exec i s = s.opcode i c op (s.gate c op g (s.ok c op data))) :
      ∃ data : Bytes, data.length = n ∧ exec i s = .next (s.ok c op data) := ⟨data, len, answers_ok e ho hp hg⟩
  cases i <;> cases hr
  case identityRead => exact runs (by simp [State.identityData]) rfl rfl
  case tableRead =>
    refine runs ?_ (hs.centralGate _) rfl
    rw [List.length_append, rangeRecords_length fun k => leBytes_length _ _]
    simp
  case tableStatus => exact runs (by simp) rfl rfl
  case beatStatusRead => exact runs (by simp) rfl rfl
  case agendaRead => exact runs (rangeRecords_length fun k => rangeRecords_length fun w => leBytes_length 8 _) rfl rfl
  case portStatus => exact runs (by simp) rfl rfl
  case laneStatus =>
    refine runs ?_ rfl rfl
    rw [List.length_append, rangeRecords_length fun k => laneRecord_length _ _ k,
      rangeRecords_length fun k => laneRecord_length _ _ k]
  case switchStatus => exact runs (by simp) hs.switchGate rfl
  case voqRead =>
    refine runs (rangeRecords_length (m := 8) fun tc => ?_) hs.switchGate rfl
    split
    · exact voqRecord_length ..
    · exact zeros_length 8
  case creditRead => exact runs (rangeRecords_length fun tc => leBytes_length 4 _) hs.switchGate rfl
  case memStatus => exact runs (by simp) hs.memGate rfl
  case sessionStatus => exact runs (by simp) hs.collGate rfl
  case sessionList => exact runs (by simp) hs.collGate rfl
  case engineStatus => exact runs (by simp) hs.collGate rfl
  case powerStatus => exact runs (by simp) rfl rfl
  case bistResult => exact runs (by simp) rfl rfl
  case spareStatus => exact runs (by simp [State.wearRecord, spareBytes_length]) rfl rfl
  case keyStatus => exact runs (rangeRecords_length fun n => leBytes_length 8 _) rfl rfl
  case authFailRead => exact runs (rangeRecords_length fun k => leBytes_length 4 _) rfl rfl
  case resetStatus => exact runs (by simp [beatBytes]) rfl rfl

/-! ## Logs -/

theorem eccBytes_length (r : EccRecord) : (eccBytes r).length = 16 := by
  simp [eccBytes]

theorem noticeRecord_length (n : Notice) : (noticeRecord n).length = 24 := by
  simp [noticeRecord]

/-- Byte 0 of a reply that begins with a count of at most 255. -/
theorem byteAt_count {n : Nat} (rest : Bytes) (h : n < 256) : (byteAt (leBytes 1 n ++ rest) 0).toNat = n := by
  simp [byteAt, leBytes, Nat.mod_eq_of_lt h]

theorem Byte.min_toNat_lt (b : Byte) (n : Nat) : min b.toNat n < 256 :=
  Nat.lt_of_le_of_lt (Nat.min_le_left ..) b.isLt

/-- The data of a log read: a count in byte 0, the rest of a header of k bytes, and records of one size. -/
theorem logData {α : Type} {l : List α} {f : α → Bytes} {n m k t : Nat} {header : Bytes} (hl : l.length = min m t) (hm : m < 256)
    (hh : header.length = k) (hf : ∀ x, (f x).length = n) :
    (byteAt (leBytes 1 l.length ++ (header ++ (l.map f).flatten)) 0).toNat = min m t
    ∧ (leBytes 1 l.length ++ (header ++ (l.map f).flatten)).length
        = 1 + k + n * (byteAt (leBytes 1 l.length ++ (header ++ (l.map f).flatten)) 0).toNat := by
  have count := byteAt_count (header ++ (l.map f).flatten) (hl ▸ Nat.lt_of_le_of_lt (Nat.min_le_left ..) hm)
  rw [count]
  refine ⟨hl, ?_⟩
  rw [List.length_append, List.length_append, flatten_length _ _ _ hf, hh, leBytes_length, Nat.add_assoc]

/-- The oldest notices of a pair have been read (R99). -/
def noticesRead (s : State) (pair max : Nat) : State :=
  { s with mgmt := { s.mgmt with
      notices := sput s.mgmt.notices pair { records := (s.queue pair).records.drop max, lost := 0 } defaultQueue } }

/-- Settles O10: each log reads its oldest records, or its latest, and counts them in byte 0. -/
theorem logReadsRemoveWhatTheyAnswer : Obligations.LogReadsRemoveWhatTheyAnswer := by
  refine ⟨fun c max s ho hp => ?_, fun c max s ho hs hp => ?_, fun c max s ho hs hp => ?_, fun c first max s ho hp => ?_⟩
  · obtain ⟨count, len⟩ := logData (List.length_take (l := (s.queue (pairOf c.src c.origin)).records) (i := max.toNat)) max.isLt
      (header := leBytes 1 (s.queue (pairOf c.src c.origin)).lost ++ zeros 6) (k := 7) (by simp) noticeRecord_length
    refine ⟨noticesRead s (pairOf c.src c.origin) max.toNat, _, ?_, sget_sput_same .., rfl, count, len⟩
    rw [List.append_assoc, ← List.append_assoc, ← List.append_assoc]
    exact opcode_runs ho hp
  · have count := byteAt_count (n := (s.ctr.samples.take max.toNat).length)
      (zeros 7 ++ ((s.ctr.samples.take max.toNat).map sampleBytes).flatten) (by have := max.isLt; simp; omega)
    refine ⟨_, ?_, count.trans List.length_take⟩
    rw [← List.append_assoc]
    exact (opcode_runs ho hp).trans (by rw [hs.ctrGate]; rfl)
  · have size : (s.mem.eccLog.drop (s.mem.eccLog.length - max.toNat)).length = min max.toNat s.mem.eccLog.length := by
      rw [List.length_drop]
      omega
    obtain ⟨count, len⟩ := logData size max.isLt (header := zeros 7) (zeros_length 7) eccBytes_length
    refine ⟨_, ?_, onlyReplied_ok .., count, len⟩
    rw [← List.append_assoc]
    exact answers_ok rfl ho hp hs.memGate
  · have size : ((s.mgmt.images.drop first.toNat).take max.toNat).length
        = min max.toNat (s.mgmt.images.length - first.toNat) := by
      rw [List.length_take, List.length_drop]
    obtain ⟨count, len⟩ := logData size max.isLt (header := zeros 3 ++ leBytes 4 s.storeBytes)
      (f := fun im => leBytes 4 im.handle.toNat ++ leBytes 1 im.table ++ leBytes 1 (imageCode im.st) ++ zeros 2 ++ leBytes 4 im.length)
      (k := 7) (by simp) (n := 12) (fun im => by simp)
    refine ⟨_, ?_, onlyReplied_ok .., count, len⟩
    rw [← List.append_assoc, ← List.append_assoc]
    exact opcode_runs ho hp

end Sys2Proof.Claims
end

section
/-! PROOFS. Control words, table images and holds (R79, R88, R99, R100). -/

namespace Sys2Proof.Claims

open Sys2Proof.Machine

/-- The effect of an opcode that no gate refuses. -/
theorem gate_passes {i : Instr} {c : Cmd} {op : BitVec 16} {s b : State} {g : Option (BitVec 8 × Nat)} (ho : Open s)
    (hp : s.paramError i = none) (hg : g = none) : s.opcode i c op (s.gate c op g b) = .next b := by
  rw [opcode_runs ho hp, hg, State.gate_none]

/-- The answer of the gate that refuses an opcode. -/
theorem gate_refuses {i : Instr} {c : Cmd} {op : BitVec 16} {s b : State} {g : Option (BitVec 8 × Nat)} {st : BitVec 8} {d : Nat}
    (ho : Open s) (hp : s.paramError i = none) (hg : g = some (st, d)) :
    s.opcode i c op (s.gate c op g b) = .next (s.deny c op st d) := by
  rw [opcode_runs ho hp, hg, State.gate_some]

theorem holdGate_allowed {h : Option (Src × Nat)} {c : Cmd} (may : mayChange h c.src c.origin = true) : holdGate h c = none :=
  if_pos may

theorem holdGate_denied {h : Option (Src × Nat)} {c : Cmd} (may : mayChange h c.src c.origin = false) :
    holdGate h c = some (stDeniedPrecedence, holderCode h) := by
  rw [holdGate, may]
  rfl

/-! ## Control words (R99) -/

/-- Settles O9: each opcode is its checks and then one pass over its words. -/
theorem controlWordOpcodes : Obligations.ControlWordOpcodes := by
  refine ⟨fun c addr count s ho hp => opcode_runs ho hp, fun c addr count spec values s ho hp noItems allowed => ?_,
    fun c addr mask value s ho hp allowed => gate_passes ho hp allowed⟩
  show execCwWrite c addr count spec values s = _
  unfold execCwWrite
  dsimp only
  rw [noItems, allowed]
  exact gate_passes ho hp rfl

/-! ## Table images (R88, R89) -/

/-- A search for a free handle that ends on a used one has met n + 1 used handles. -/
theorem freeHandle_used {s : State} {n : Nat} {h : BitVec 32} (used : (s.image (s.freeHandle n h)).isSome = true) :
    ∀ k ≤ n, (s.image (h + BitVec.ofNat 32 k)).isSome = true := by
  induction n generalizing h with
  | zero =>
    intro k hk
    obtain rfl := Nat.le_zero.mp hk
    rw [State.freeHandle] at used
    simpa using used
  | succ n ih =>
    rw [State.freeHandle] at used
    split at used
    case isTrue free =>
      rw [Option.isNone_iff_eq_none] at free
      rw [free] at used
      cases used
    case isFalse taken =>
      intro k hk
      cases k with
      | zero => simpa [Option.isSome_iff_ne_none] using taken
      | succ k =>
        have := ih used k (by omega)
        rwa [BitVec.add_assoc, show (1 : BitVec 32) + BitVec.ofNat 32 k = BitVec.ofNat 32 (k + 1) by
          rw [Nat.add_comm, BitVec.ofNat_add]; rfl] at this

theorem image_isSome {s : State} {h : BitVec 32} (used : (s.image h).isSome = true) : h ∈ s.mgmt.images.map (·.handle) := by
  obtain ⟨im, found⟩ := Option.isSome_iff_exists.mp used
  have names : im.handle = h := by simpa using List.find?_some found
  exact List.mem_map.mpr ⟨im, List.mem_of_find?_eq_some found, names⟩

/-- With fewer images than the search has steps, it finds a handle that no image has. -/
theorem freeHandle_free {s : State} {n : Nat} (h : BitVec 32) (few : s.mgmt.images.length ≤ n) (small : n < 2 ^ 32) :
    s.image (s.freeHandle n h) = none := by
  by_contra found
  have used := freeHandle_used (Option.isSome_iff_ne_none.mpr found)
  have inj : Set.InjOn (fun k => h + BitVec.ofNat 32 k) (Finset.range (n + 1)) := by
    intro a ha b hb e
    have e := congrArg BitVec.toNat (add_left_cancel e)
    simp only [Finset.coe_range, Set.mem_Iio] at ha hb
    rwa [BitVec.toNat_ofNat, BitVec.toNat_ofNat, Nat.mod_eq_of_lt (by omega), Nat.mod_eq_of_lt (by omega)] at e
  have sub : (Finset.range (n + 1)).image (fun k => h + BitVec.ofNat 32 k) ⊆ (s.mgmt.images.map (·.handle)).toFinset := by
    intro x hx
    obtain ⟨k, hk, rfl⟩ := Finset.mem_image.mp hx
    exact List.mem_toFinset.mpr (image_isSome (used k (by simpa [Nat.lt_succ_iff] using hk)))
  have card := (Finset.card_le_card sub).trans (List.toFinset_card_le _)
  rw [Finset.card_image_of_injOn inj, Finset.card_range, List.length_map] at card
  omega

/-- Settles O11: each opcode passes its gates; the handle that OPEN finds is free because fewer than 64 are used. -/
theorem tableImageLife : Obligations.TableImageLife := by
  refine ⟨fun c table len s ho hp may few room => ?_, fun c h off data s ho hp may opened => ?_, fun c h s ho hp opened => ?_,
    fun h im s ho found ⟨d, deferred, work⟩ => ?_, fun c h s ho hp unstaged => ?_⟩
  · refine ⟨_, freeHandle_free (n := 64) (Config.imageHandle s.mgmt.imagesOpened) few.le (by decide), ?_⟩
    refine gate_passes ho hp ?_
    have roomy : (64 ≤ s.mgmt.images.length || storeSize < s.storeBytes + len.toNat) = false := by
      rw [Bool.or_eq_false_iff, decide_eq_false_iff_not, decide_eq_false_iff_not]
      exact ⟨by omega, by unfold storeSize; omega⟩
    simp only [holdGate_allowed may, roomy, firstGate_none, roomGate_false, firstGate_nil]
  · exact gate_passes ho hp (by simp [holdGate_allowed may, opened])
  · exact gate_passes ho hp (by simp [opened])
  · have mine : s.mgmt.deferred.any (fun d => d.work == .seal h) = true := List.any_eq_true.mpr ⟨d, deferred, by simp [work]⟩
    refine ⟨fun check => ?_, fun check => ?_⟩
    · simp only [exec, execSealComplete, if_pos (And.intro ho.1 (And.intro ho.2 mine)), found, check]
      rfl
    · simp only [exec, execSealComplete, if_pos (And.intro ho.1 (And.intro ho.2 mine)), found, check]
  · exact gate_passes ho hp (by simp [unstaged])

/-! ## Holds (R79, R100) -/

/-- HOLD and RELEASE write the holder of one object. -/
theorem setHolder_effect (s : State) (kind id : Nat) (h : Option (Src × Nat)) :
    (s.setHolder kind id h).holderOf kind id = h
    ∧ (∀ k n, (k = 0 ↔ kind = 0) → n ≠ id → (s.setHolder kind id h).holderOf k n = s.holderOf k n)
    ∧ (∀ k n, ¬(k = 0 ↔ kind = 0) → (s.setHolder kind id h).holderOf k n = s.holderOf k n)
    ∧ s.setHolder kind id h = { s with mgmt := { s.mgmt with
        tableHolds := (s.setHolder kind id h).mgmt.tableHolds, blockHolds := (s.setHolder kind id h).mgmt.blockHolds } } := by
  by_cases e : kind = 0
  · subst e
    refine ⟨sget_sput_same .., fun k n hk hn => ?_, fun k n hk => ?_, rfl⟩
    · obtain rfl := hk.mpr rfl
      exact sget_sput_other _ _ _ _ hn
    · have other : k ≠ 0 := by tauto
      simp only [State.holderOf, if_neg other]
      rfl
  · simp only [State.setHolder, State.holderOf, if_neg e]
    refine ⟨sget_sput_same .., fun k n hk hn => ?_, fun k n hk => ?_, trivial⟩
    · have other : k ≠ 0 := by tauto
      rw [if_neg other, if_neg other]
      exact sget_sput_other _ _ _ _ hn
    · have table : k = 0 := by tauto
      rw [if_pos table, if_pos table]
      rfl

/-- Settles O12: precedence decides, and the effect is that of setHolder. -/
theorem holdsAreTakenAndReleased : Obligations.HoldsAreTakenAndReleased := by
  refine ⟨fun c kind id s ho hp => ⟨fun may => ?_, fun may => gate_refuses ho hp (holdGate_denied may)⟩,
    fun c kind id s ho hp => ⟨fun may held => ?_, fun may => gate_refuses ho hp (by rw [holdGate_denied may]; rfl)⟩⟩
  · exact ⟨_, gate_passes ho hp (holdGate_allowed may), setHolder_effect ..⟩
  · exact ⟨_, gate_passes ho hp (by simp [holdGate_allowed may, Option.isNone_eq_false_iff.mpr held]), setHolder_effect ..⟩

end Sys2Proof.Claims
end

section
/-! PROOFS. The agenda: staging and cancelling (R48 to R55, R102, R103). -/

namespace Sys2Proof.Claims

open Sys2Proof.Machine

/-! ## Staging (R48, R52, R94) -/

/-- Only the agenda has moved, and what the end of a superseded entry moves (R52, R55). -/
def OnlyStaged (s t : State) : Prop :=
  t = { s with agenda := t.agenda, mgmt := { s.mgmt with notices := t.mgmt.notices, images := t.mgmt.images }
               side := { s.side with attn := t.side.attn, ibiDue := t.side.ibiDue }, out := t.out }

theorem OnlyStaged.trans {s t u : State} (h : OnlyStaged s t) (g : OnlyStaged t u) : OnlyStaged s u := by
  unfold OnlyStaged at h g
  unfold OnlyStaged
  rw [g, h]

/-- An entry that ends without being applied counts nothing. -/
theorem finishEntry_ctr {s : State} {e : Nat} {st : EntrySt} {w : BitVec 8} {d : Nat} (h : st ≠ .applied) :
    (s.finishEntry e st w d).ctr = s.ctr := by
  have unstage (u : State) (x : AgEntry) : (u.unstage x).ctr = u.ctr := by
    unfold State.unstage
    split <;> rfl
  unfold State.finishEntry
  dsimp only
  rw [if_neg h]
  split
  · obtain ⟨_, _, _, _, e⟩ := State.notice_only ((s.setAgEntry e
      { s.agEntry e with st := st, doneBeat := s.beat.count, next := false, due := false }).unstage (s.agEntry e)) _ _
    rw [e]
    exact unstage _ _
  · exact unstage _ _

theorem finishEntry_onlyStaged {s : State} {e : Nat} {st : EntrySt} {w : BitVec 8} {d : Nat} (h : st ≠ .applied) :
    OnlyStaged s (s.finishEntry e st w d) ∧ (s.finishEntry e st w d).agenda.nextOrder = s.agenda.nextOrder := by
  have ctr := finishEntry_ctr (s := s) (e := e) (w := w) (d := d) h
  obtain ⟨q, im, a, i, o, m, only⟩ := s.finishEntry_only e st w d
  rw [only] at ctr ⊢
  refine ⟨?_, rfl⟩
  have counters : m = s.ctr.counters := congrArg Counters.counters ctr
  rw [counters]
  rfl

/-- The entries that a request supersedes end one by one. -/
theorem superseding_onlyStaged (l : List (Nat × AgEntry)) (s : State) :
    OnlyStaged s (l.foldl (fun s e => s.finishEntry e.1 .superseded stSuperseded 0) s)
    ∧ (l.foldl (fun s e => s.finishEntry e.1 .superseded stSuperseded 0) s).agenda.nextOrder = s.agenda.nextOrder := by
  induction l generalizing s with
  | nil => exact ⟨rfl, rfl⟩
  | cons x r ih =>
    obtain ⟨only, order⟩ := finishEntry_onlyStaged (s := s) (e := x.1) (w := stSuperseded) (d := 0)
      (show EntrySt.superseded ≠ .applied by decide)
    obtain ⟨only', order'⟩ := ih (s.finishEntry x.1 .superseded stSuperseded 0)
    exact ⟨only.trans only', order'.trans order⟩

/-- The entry that a request makes (R48, R94). -/
def stagedEntry (s : State) (c : Cmd) (spec : TargetSpec) (i : StageItem) : AgEntry :=
  { st := .pending, action := i.action, latePol := spec.latePol, notify := spec.notify, src := c.src, origin := c.origin
    target := s.specTarget spec, order := s.agenda.nextOrder, doneBeat := 0, paramA := i.a, paramB := i.b
    next := spec.next || s.specPassed spec, due := false }

/-- A request put into entry e. -/
def withEntry (s : State) (e : Nat) (x : AgEntry) : State :=
  { s.setAgEntry e x with agenda := { (s.setAgEntry e x).agenda with nextOrder := s.agenda.nextOrder + 1 } }

theorem agEntry_withEntry (s : State) (e : Nat) (x : AgEntry) : (withEntry s e x).agEntry e = x :=
  State.agEntry_setAgEntry s e x

/-- The state once the entries that a request supersedes have ended (R52). -/
def superseded (s : State) (spec : TargetSpec) (i : StageItem) : State :=
  (s.supersedes (s.specTarget spec) i).foldl (fun s e => s.finishEntry e.1 .superseded stSuperseded 0) s

theorem stageOne_eq (s : State) (c : Cmd) (spec : TargetSpec) (i : StageItem) :
    ∃ u e, OnlyStaged s u ∧ s.stageOne c spec i = (withEntry u e (stagedEntry s c spec i), e, s.agenda.nextOrder % 65536)
      ∧ u.agenda.nextOrder = s.agenda.nextOrder := by
  obtain ⟨only, order⟩ := superseding_onlyStaged (s.supersedes (s.specTarget spec) i) s
  have beat := congrArg State.beat only
  refine ⟨superseded s spec i, (superseded s spec i).entrySlots.headD 0, only, ?_, order⟩
  simp only [State.stageOne, stagedEntry, withEntry, State.specPassed, superseded, order, beat]

/-- One request makes one entry PENDING under the next ORDER, and answers both. -/
theorem stageAll_one (s : State) (c : Cmd) (spec : TargetSpec) (i : StageItem) :
    ∃ e t, s.stageAll c spec [i] = (t, leBytes 2 e ++ leBytes 2 (s.agenda.nextOrder % 65536))
      ∧ t.agEntry e = stagedEntry s c spec i ∧ t.agenda.nextOrder = s.agenda.nextOrder + 1 ∧ OnlyStaged s t := by
  obtain ⟨u, e, only, one, order⟩ := stageOne_eq s c spec i
  refine ⟨e, withEntry u e (stagedEntry s c spec i), ?_, agEntry_withEntry .., congrArg (· + 1) order, only.trans rfl⟩
  simp only [State.stageAll, List.foldl_cons, List.foldl_nil, one, List.nil_append]

/-- Settles O13: each row stages one request, and TABLE_STAGE marks its image besides. -/
theorem stagingMakesOnePendingEntry : Obligations.StagingMakesOnePendingEntry := by
  intro c spec s ho stages
  have replies {i : Instr} {op : BitVec 16} {item : StageItem} (e : exec i s = s.opcode i c op (s.stageReply c op spec item)) :
      stages i op item true := by
    intro hp check
    obtain ⟨n, t, all, entry, order, only⟩ := stageAll_one s c spec item
    refine ⟨n, t, ?_, entry, order, only⟩
    rw [e, State.stageReply, all]
    exact gate_passes ho hp check
  refine ⟨fun _ => replies rfl, fun _ => replies rfl, fun _ _ => replies rfl, fun _ _ => replies rfl, fun _ _ => replies rfl,
    fun _ _ => replies rfl, fun _ _ => replies rfl, fun h im found hp check => ?_⟩
  obtain ⟨n, t, all, entry, order, only⟩ := stageAll_one s c spec ⟨1, fld 63 56 im.table ||| fld 31 0 h.toNat, 0, im.count⟩
  refine ⟨n, t.setImageSt h .staged, ?_, entry, order, only.trans rfl⟩
  show execTableStage c h spec s = _
  unfold execTableStage
  dsimp only
  rw [found, Option.getD_some, all]
  exact gate_passes ho hp check

/-! ## Cancelling (R102, R103) -/

theorem agendaCancel_paramError {c : Cmd} {entry order : BitVec 16} (s : State) (h : entry.toNat < 256) :
    s.paramError (.agendaCancel c entry order) = none := by
  have inRange : ¬256 ≤ entry.toNat := Nat.not_le.mpr h
  simp [State.paramError, State.rangeLow, firstBad, inRange, State.rangeMid, State.rangeHigh]

/-- Settles O14: the entry ends by finishEntry, which leaves the others alone. -/
theorem cancelEndsOnePendingEntry : Obligations.CancelEndsOnePendingEntry := by
  intro c entry order s ho small
  have hp := agendaCancel_paramError (c := c) (order := order) s small
  refine ⟨fun pending ours may => ?_, fun other => gate_refuses ho hp (if_pos other)⟩
  have gate : (if (s.agEntry entry.toNat).st = .free ∨ (s.agEntry entry.toNat).order % 65536 ≠ order.toNat then
      some (stDeniedState, 0) else firstGate [holdGate (some ((s.agEntry entry.toNat).src, (s.agEntry entry.toNat).origin)) c,
        stateGate ((s.agEntry entry.toNat).st != .pending)]) = none := by
    simp [pending, ours, holdGate_allowed may]
  refine ⟨_, gate_passes ho hp gate, ?_, ?_, fun n ne => State.finishEntry_other _ _ _ _ ne⟩
  · rw [State.finishEntry_self]
  · rw [State.finishEntry_self]

end Sys2Proof.Claims
end

section
/-! PROOFS. The beat unit (R33 to R47): markers, the follow update, and its states. -/

namespace Sys2Proof.Claims

open Sys2Proof.Machine

/-! ## The marker word (R39) -/

theorem crc16Bits_lt (n : Nat) {r : Nat} (h : r < 2 ^ 16) : crc16Bits n r < 2 ^ 16 := by
  induction n generalizing r with
  | zero => exact h
  | succ n ih =>
    have shifted : (r <<< 1) % 65536 < 2 ^ 16 := Nat.mod_lt _ (by decide)
    rw [crc16Bits]
    split
    · exact ih (Nat.xor_lt_two_pow shifted (by decide))
    · exact ih shifted

theorem crc16_lt (b : Bytes) : crc16 b < 2 ^ 16 := by
  unfold crc16
  generalize hr : 0xFFFF = r
  have start : r < 2 ^ 16 := by omega
  clear hr
  induction b generalizing r with
  | nil => exact start
  | cons x b ih =>
    have byte : x.toNat <<< 8 < 2 ^ 16 := by
      rw [Nat.shiftLeft_eq]
      omega
    exact ih _ (crc16Bits_lt 8 (Nat.xor_lt_two_pow start byte))

/-- What the fields of a marker word read, once its parts fit them. -/
theorem markerWord_fields (count : Beat) {acc period src : Nat} (root : BitVec 8) (ha : acc < 65536) (hp : period < 8) (hs : src < 4) :
    let w := (markerWord count acc root period src).toNat
    crc16 (leBytes 10 (w >>> 16)) = w % 65536 ∧ bitsAt w 23 21 = period ∧ bitsAt w 18 16 = 0 ∧ bitsAt w 20 19 = src
      ∧ bitsAt w 31 24 = root.toNat ∧ bitsAt w 47 32 = acc ∧ w >>> 48 = count.toNat := by
  have c := count.isLt
  have r := root.isLt
  generalize hh : count.toNat * 2 ^ 32 + acc * 2 ^ 16 + root.toNat * 2 ^ 8 + period * 2 ^ 5 + src * 2 ^ 3 = high
  have k := crc16_lt (leBytes 10 high)
  have value : (markerWord count acc root period src).toNat = high * 2 ^ 16 + crc16 (leBytes 10 high) := by
    simp only [markerWord, Nat.shiftLeft_eq, BitVec.toNat_ofNat, Nat.mod_eq_of_lt ha, hh]
    exact Nat.mod_eq_of_lt (by omega)
  have top : (high * 2 ^ 16 + crc16 (leBytes 10 high)) >>> 16 = high := by
    rw [Nat.shiftRight_eq_div_pow]
    omega
  simp only [value, top]
  generalize crc16 (leBytes 10 high) = x at k
  simp only [bitsAt, Nat.shiftRight_eq_div_pow]
  refine ⟨?_, ?_, ?_, ?_, ?_, ?_, ?_⟩ <;> omega

/-! ## What happens on one port -/

/-- Port n and the counters have moved, and nothing else. -/
def PortMoved (s t : State) (n : Nat) : Prop :=
  t = { s with ports := t.ports, ctr := { s.ctr with counters := t.ctr.counters } } ∧ ∀ k, k ≠ n → t.port k = s.port k

theorem PortMoved.refl (s : State) (n : Nat) : PortMoved s s n := ⟨rfl, fun _ _ => rfl⟩

theorem PortMoved.trans {s t u : State} {n : Nat} (h : PortMoved s t n) (g : PortMoved t u n) : PortMoved s u n := by
  obtain ⟨h, hk⟩ := h
  obtain ⟨g, gk⟩ := g
  refine ⟨?_, fun k ne => (gk k ne).trans (hk k ne)⟩
  rw [g, h]

theorem PortMoved.beat {s t : State} {n : Nat} (h : PortMoved s t n) : t.beat = s.beat := by rw [h.1]

theorem portMoved_updPort (s : State) (n : Nat) (f : PortSt → PortSt) : PortMoved s (s.updPort n f) n :=
  ⟨rfl, fun _ ne => State.port_setPort_other s _ ne⟩

theorem portMoved_countPort (s : State) (n code : Nat) (a : Option Nat) (k m : Nat) : PortMoved s (s.countPort k code a m) n := by
  obtain ⟨c, e⟩ := State.countPort_only s k code a m
  rw [e]
  exact ⟨rfl, fun _ _ => rfl⟩

theorem portMoved_codeErrors (s : State) (n lane k : Nat) : PortMoved s (s.codeErrors n lane k) n := by
  unfold State.codeErrors
  split
  · exact .refl s n
  · exact (portMoved_updPort ..).trans (portMoved_countPort ..)

theorem portMoved_decodeClock (s : State) (n : Nat) (l : List (BitVec 10)) : PortMoved s (s.decodeClock n l).2 n :=
  (portMoved_updPort s n _).trans (portMoved_codeErrors ..)

theorem countPort_port (s : State) (code : Nat) (a : Option Nat) (k m n : Nat) : (s.countPort k code a m).port n = s.port n := by
  obtain ⟨c, e⟩ := State.countPort_only s k code a m
  rw [e]
  rfl

theorem codeErrors_markerErrs (s : State) (n lane k : Nat) : ((s.codeErrors n lane k).port n).markerErrs = (s.port n).markerErrs := by
  unfold State.codeErrors
  split
  · rfl
  · rw [countPort_port, State.updPort, State.port_setPort]
    rfl

theorem decodeClock_markerErrs (s : State) (n : Nat) (l : List (BitVec 10)) :
    ((s.decodeClock n l).2.port n).markerErrs = (s.port n).markerErrs := by
  refine (codeErrors_markerErrs ..).trans ?_
  rw [State.updPort, State.port_setPort]
  rfl

/-- A marker that stands for nothing is counted in MARKER_ERRS (R306). -/
theorem markerReject_zero (s : State) (n : Nat) :
    PortMoved s (s.markerReject n 0) n ∧ ((s.markerReject n 0).port n).markerErrs = satAdd 255 (s.port n).markerErrs 1 := by
  unfold State.markerReject
  simp only [if_pos]
  refine ⟨(portMoved_updPort s n _).trans (portMoved_countPort ..), ?_⟩
  rw [countPort_port, State.updPort, State.port_setPort]

/-! ## MARKER_RECEIVED (R42, R306) -/

theorem exec_markerReceived (port : Port) (arrival : Int) (start : BitVec 10) (groups : List (BitVec 10)) (s : State) :
    exec (.markerReceived port arrival start groups) s = execMarkerReceived port arrival start groups s := rfl

/-- A port whose clock lane decodes. -/
theorem clockRuns {s : State} {n : Nat} (live : s.live = true) (free : PortFree s n) (locked : (s.port n).clockLocked = true)
    (awake : (s.port n).rxAsleep = false) :
    (!s.live || s.portInReset n || s.underTest n || !(s.port n).clockLocked || (s.port n).rxAsleep) = false := by
  obtain ⟨reset, test⟩ := free
  simp [live, reset, test, locked, awake]

theorem markerReceived_kept {port : Port} {arrival : Int} {start : BitVec 10} {groups : List (BitVec 10)} {count : Beat}
    {acc period d : Nat} {s : State} (live : s.live = true) (free : PortFree s port.val)
    (locked : (s.port port.val).clockLocked = true) (awake : (s.port port.val).rxAsleep = false)
    (delay : (s.port port.val).delay = some d) (accSmall : acc < 65536) (near : acc + d ≤ 2000) (periodOk : period ≤ 4)
    (rooted : s.beat.rootAddr ≠ 0xFF) (follower : s.beat.st ≠ .root)
    (word : markerOf (s.decodeClock port.val (start :: groups)).1 = some (markerWord count acc s.beat.rootAddr period 2)) :
    exec (.markerReceived port arrival start groups) s
      = .next { (s.decodeClock port.val (start :: groups)).2 with beat := { s.beat with
          markers := (s.beat.markers.filter fun x => x.port != port.val)
            ++ [{ port := port.val, est := arrival - acc - d, count := count, period := period }] } } := by
  have beat := (portMoved_decodeClock s port.val (start :: groups)).beat
  obtain ⟨crc, hPeriod, hZero, hSrc, hRoot, hAcc, hCount⟩ :=
    markerWord_fields count s.beat.rootAddr accSmall (show period < 8 by omega) (show 2 < 4 by decide)
  rw [exec_markerReceived]
  unfold execMarkerReceived
  have even : decide (4 < period) = false := decide_eq_false (by omega)
  have close : decide (2000 < acc + d) = false := decide_eq_false (by omega)
  simp only [clockRuns live free locked awake, word, crc, hPeriod, hZero, hSrc, hRoot, hAcc, hCount, delay, beat, even, close]
  have known : (s.beat.rootAddr == 255#8) = false := beq_eq_false_iff_ne.mpr rooted
  have notRoot : (s.beat.st == BeatSt.root) = false := beq_eq_false_iff_ne.mpr follower
  simp [-BitVec.reduceEq, known, notRoot, State.updBeat, beat]

/-- Settles O16: the two outcomes of a marker, the two of the follow update, and the guards of the four states. -/
theorem beatUnitFollowsTheRoot : Obligations.BeatUnitFollowsTheRoot := by
  refine ⟨fun port arrival start groups count acc period s d live free locked awake delay accSmall near periodOk rooted follower word => ?_,
    fun port arrival start groups s live free locked awake none => ?_, fun s live fresh follower empty => ?_,
    fun s m live fresh follower one => ?_, fun s live near => ?_, fun s live locked missed => ?_, fun s live held long => ?_,
    fun s live held long => ?_⟩
  · obtain ⟨only, others⟩ := portMoved_decodeClock s port.val (start :: groups)
    refine ⟨_, markerReceived_kept live free locked awake delay accSmall near periodOk rooted follower word, rfl, others, ?_⟩
    rw [only]
  · have moved := portMoved_decodeClock s port.val (start :: groups)
    obtain ⟨rejected, errs⟩ := markerReject_zero (s.decodeClock port.val (start :: groups)).2 port.val
    have both := moved.trans rejected
    refine ⟨_, ?_, both.beat, errs.trans (by rw [decodeClock_markerErrs]), both.2, both.1⟩
    rw [exec_markerReceived]
    unfold execMarkerReceived
    simp [clockRuns live free locked awake, none]
  · refine ⟨_, by simp [exec, execBeatFollowUpdate, live, fresh, follower]; rfl, ?_⟩
    simp [State.follow, follower, empty, sortBy, State.updBeat]
  · refine ⟨_, by simp [exec, execBeatFollowUpdate, live, fresh, follower]; rfl, ?_⟩
    have near : [m].filter (fun x => !within (x.est - m.est) 160) = [] := by simp [within]
    simp [State.follow, follower, one, sortBy, insertBy, State.updBeat, near]
  · simp [exec, execLockAcquired, live, State.updBeat, near]
  · simp [exec, execHoldoverEntry, live, locked, missed, State.updBeat]
  · simp [exec, execFreerunEntry, live, held, long, State.updBeat]
  · simp [exec, execDrift, live, held, long, State.updBeat]

end Sys2Proof.Claims
end

section
/-! PROOFS. The boundary (R33, R53): the new beat, and the steps that run once. -/

namespace Sys2Proof.Claims

open Sys2Proof.Machine

/-! ## The state after a fold of updates -/

/-- A relation that is reflexive and carried on by every step of a fold holds from its start to its end. -/
theorem foldl_rel {α σ : Type} {R : σ → σ → Prop} (f : σ → α → σ) (refl : ∀ s, R s s) (trans : ∀ {s t u}, R s t → R t u → R s u)
    (step : ∀ s x, R s (f s x)) (l : List α) (s : σ) : R s (l.foldl f s) := by
  induction l generalizing s with
  | nil => exact refl s
  | cons x r ih => exact trans (step s x) (ih _)

/-! ## What a new beat moves beside its count (R40, R53 step 1) -/

/-- Agenda entries, window marks and what waits for the TX clock lanes have moved. -/
def BeatMarks (s t : State) : Prop :=
  t = { s with agenda := t.agenda, ctr := { s.ctr with windows := t.ctr.windows }, ports := t.ports, out := t.out }
  ∧ ∀ n, t.port n = { s.port n with ckOut := (t.port n).ckOut }

theorem BeatMarks.refl (s : State) : BeatMarks s s := ⟨rfl, fun _ => rfl⟩

theorem BeatMarks.trans {s t u : State} (h : BeatMarks s t) (g : BeatMarks t u) : BeatMarks s u := by
  obtain ⟨h, hp⟩ := h
  obtain ⟨g, gp⟩ := g
  refine ⟨by rw [g, h], fun n => ?_⟩
  rw [gp n, hp n]

theorem beatMarks_marker (s : State) (n : Nat) (w : BitVec 96) :
    BeatMarks s ((s.updPort n fun p => p.sendMarker w).emit (.marker n w)) := by
  refine ⟨rfl, fun k => ?_⟩
  by_cases e : k = n
  · subst e
    have same : ((s.updPort k fun p => p.sendMarker w).emit (.marker k w)).port k = (s.port k).sendMarker w :=
      State.port_setPort s k _
    rw [same]
    rfl
  · have other : ((s.updPort n fun p => p.sendMarker w).emit (.marker n w)).port k = s.port k := State.port_setPort_other s _ e
    rw [other]

theorem beatMarks_foldl {α : Type} (f : State → α → State) (step : ∀ s x, BeatMarks s (f s x)) (l : List α) (s : State) :
    BeatMarks s (l.foldl f s) :=
  foldl_rel f BeatMarks.refl BeatMarks.trans step l s

theorem beatMarks_sendMarkers (s : State) : BeatMarks s s.sendMarkers := by
  refine beatMarks_foldl _ (fun t n => ?_) _ _
  dsimp only
  split
  · exact beatMarks_marker ..
  · exact .refl t

theorem beatMarks_markEntries (s : State) : BeatMarks s s.markEntries := by
  refine beatMarks_foldl _ (fun t e => ?_) _ _
  split
  · exact ⟨rfl, fun _ => rfl⟩
  · exact .refl t

theorem beatMarks_setWindow (s : State) (b : Nat) (w : Window) : BeatMarks s (s.setWindow b w) := ⟨rfl, fun _ => rfl⟩

theorem beatMarks_markWindows (s : State) (old : Beat) : BeatMarks s (s.markWindows old) := by
  refine beatMarks_foldl _ (fun t b => ?_) _ _
  split
  · exact beatMarks_setWindow ..
  · exact .refl t

theorem beatMarks_spoilWindows (s : State) : BeatMarks s s.spoilWindows := by
  refine beatMarks_foldl _ (fun t b => ?_) _ _
  exact beatMarks_setWindow ..

/-- The beat unit when a new beat begins (R33, R43). -/
def newBeat (b : BeatUnit) : BeatUnit :=
  { b with count := b.stepTo.getD (b.count + 1), stepTo := none, markers := [], followed := false
           localBeats := b.localBeats + 1, stepsDue := true }

theorem countBeat_marks {s : State} (h : s.beat.rootNext = false) : BeatMarks { s with beat := newBeat s.beat } s.countBeat := by
  have first : s.updBeat (fun b => { b with
      count := s.beat.stepTo.getD (s.beat.count + 1), stepTo := none, markers := [], followed := false,
      localBeats := b.localBeats + 1, stepsDue := true }) = { s with beat := newBeat s.beat } := rfl
  have noRoot : (newBeat s.beat).rootNext = false := h
  unfold State.countBeat
  simp only [first, noRoot]
  generalize ({ s with beat := newBeat s.beat } : State) = t
  refine .trans ?_ ((beatMarks_markWindows _ _).trans ((beatMarks_markEntries _).trans (beatMarks_sendMarkers _)))
  split
  · exact beatMarks_spoilWindows t
  · exact .refl t

/-! ## BEAT_BOUNDARY -/

theorem beatFuture_iff (now t : Beat) : beatFuture now t = true ↔
    1 ≤ (t.toNat + 2 ^ 48 - now.toNat) % 2 ^ 48 ∧ (t.toNat + 2 ^ 48 - now.toNat) % 2 ^ 48 ≤ 2 ^ 47 - 1 := by
  have distance : (t - now).toNat = (t.toNat + 2 ^ 48 - now.toNat) % 2 ^ 48 := by bv_omega
  simp only [beatFuture, distance, Bool.and_eq_true, decide_eq_true_eq]

/-- What a boundary does after the new beat has begun: the power unit's beat ends, and the timers of the sideband count. -/
def boundaryEnd (low : Bool) (u : State) : State :=
  let t := u.endPowerBeat.droopBoundary low
  { t with side := { t.side with sinceIbi := satAdd 16 t.side.sinceIbi 1, wdogCount := satAdd (2 ^ 32) t.side.wdogCount 1 } }

theorem exec_beatBoundary {low : Bool} {s : State} (live : s.live = true) (done : s.beat.stepsDue = false)
    (followed : s.beat.followed = true) : exec (.beatBoundary low) s = .next (boundaryEnd low s.countBeat) := by
  show execBeatBoundary low s = _
  simp only [execBeatBoundary, live, done, followed, Bool.not_true, Bool.false_eq_true, if_false, if_true, boundaryEnd]

/-- Settles O15: a boundary begins the new beat, marks what it makes due, and ends the beat of the power unit. -/
theorem boundaryCountsOneBeat : Obligations.BoundaryCountsOneBeat := by
  refine ⟨fun low s live done followed noCommit => ?_, beatFuture_iff⟩
  have marks := countBeat_marks noCommit
  refine ⟨_, exec_beatBoundary live done followed, ?_⟩
  generalize s.countBeat = u at marks
  obtain ⟨only, ports⟩ := marks
  have beat : (boundaryEnd low u).beat = newBeat s.beat := congrArg State.beat only
  rw [beat]
  refine ⟨?_, rfl, rfl, rfl, rfl, rfl, rfl, rfl, ports, ?_⟩
  · show s.beat.stepTo.getD (s.beat.count + 1) = _
    cases s.beat.stepTo <;> rfl
  · rw [only]
    rfl

/-! ## The steps of a boundary (R53, R106, R412, R413) -/

/-- Counters have moved, and nothing else: no window, no table. -/
def OnlyCounted (s t : State) : Prop := t = { s with ctr := { s.ctr with counters := t.ctr.counters } }

theorem OnlyCounted.trans {s t u : State} (h : OnlyCounted s t) (g : OnlyCounted t u) : OnlyCounted s u := by
  unfold OnlyCounted at *
  rw [g, h]

theorem onlyCounted_foldl {α : Type} (f : State → α → State) (step : ∀ s x, OnlyCounted s (f s x)) (l : List α) (s : State) :
    OnlyCounted s (l.foldl f s) :=
  foldl_rel (R := OnlyCounted) f (fun _ => rfl) OnlyCounted.trans step l s

theorem onlyCounted_setCounter (s : State) (n : Nat) (c : Counter) : OnlyCounted s (s.setCounter n c) := rfl

/-- A window that closes reads the beat count, and is due no more (R413). -/
theorem closeWindow_effect (s : State) (b : Nat) :
    ((s.closeWindow b).window b).lastClose = s.beat.count ∧ ((s.closeWindow b).window b).due = false
    ∧ s.closeWindow b = { s with ctr := (s.closeWindow b).ctr } := by
  unfold State.closeWindow
  dsimp only
  generalize hf : List.foldl _ s (bankCounters b) = t
  have only : OnlyCounted s t := by
    rw [← hf]
    refine onlyCounted_foldl _ (fun u n => ?_) _ _
    split
    · exact onlyCounted_setCounter ..
    · exact rfl
  rw [State.window_setWindow]
  have beat : t.beat = s.beat := by rw [only]
  refine ⟨by rw [beat], rfl, ?_⟩
  unfold State.setWindow
  generalize t.ctr.windows = w
  rw [only]

/-- A pending length comes into force (R413). -/
theorem applyWindow_effect {s : State} {b n : Nat} (pending : (s.window b).pending = some n) :
    ((s.applyWindow b).window b).window = n ∧ ((s.applyWindow b).window b).pending = none
    ∧ s.applyWindow b = { s with ctr := (s.applyWindow b).ctr } := by
  unfold State.applyWindow
  rw [pending]
  dsimp only
  generalize ht : s.setWindow b { s.window b with window := n, pending := none } = t
  have only := onlyCounted_foldl (fun s n => s.setCounter n { s.counter n with startedLate := true })
    (fun _ _ => onlyCounted_setCounter ..) (bankCounters b) t
  generalize List.foldl _ t (bankCounters b) = u at only
  have window : u.window b = t.window b := by rw [only]; rfl
  rw [window, ← ht, State.window_setWindow]
  refine ⟨rfl, rfl, ?_⟩
  rw [only, ← ht]
  rfl

theorem eventEntry_setCounter (s : State) (n k : Nat) (c : Counter) : (s.setCounter n c).eventEntry k = s.eventEntry k := rfl

theorem eventEntry_setEntry (s : State) (n : Nat) (e : Entry) : (s.setEntry 9 n e).eventEntry n = e.toNat :=
  congrArg BitVec.toNat (sget_sput_same s.tables.events n e _)

/-- A pending EVENT comes into force, and its counter begins anew (R412). -/
theorem applySelect_effect {s : State} {k : Nat} {ev : BitVec 16} (selected : (s.counter k).select = some ev) :
    bitsAt ((s.applySelect k).eventEntry k) 63 48 = ev.toNat ∧ ((s.applySelect k).counter k).select = none
    ∧ ((s.applySelect k).counter k).run = 0 ∧ ((s.applySelect k).counter k).reprog = true
    ∧ s.applySelect k = { s with ctr := (s.applySelect k).ctr, tables := (s.applySelect k).tables } := by
  unfold State.applySelect
  rw [selected]
  dsimp only [State.reprogram]
  simp only [State.counter_setCounter, eventEntry_setCounter, eventEntry_setEntry]
  refine ⟨?_, trivial, trivial, trivial, ?_⟩
  case refine_2 =>
    generalize mkEntry _ = x
    rfl
  have fits := ev.isLt
  simp only [bitsAt, mkEntry, BitVec.toNat_ofNat, Nat.shiftLeft_eq, Nat.shiftRight_eq_div_pow]
  omega

/-- Settles O18: each row is its guard around an operation of the counter unit or of the drains. -/
theorem boundaryStepsRunOnce : Obligations.BoundaryStepsRunOnce := by
  refine ⟨fun s live due => ⟨⟨?_, rfl⟩, fun b ends free => ?_, fun b n pending => ?_, fun k ev selected => ?_, ?_⟩,
    fun s live idle => ⟨?_, fun b => ⟨?_, ?_⟩, fun k => ?_, ?_⟩⟩
  · simp [exec, execBoundarySteps, live, due]
  · refine ⟨?_, closeWindow_effect s b.val⟩
    simp [exec, execWindowClose, live, due, State.endWindow, ends, free]
  · have runs : exec (.windowSetApply b) s = .next (s.applyWindow b.val) := by simp [exec, execWindowSetApply, live, due]
    exact ⟨_, runs, applyWindow_effect pending⟩
  · have runs : exec (.ctrSelectApply k) s = .next (s.applySelect k.val) := by simp [exec, execCtrSelectApply, live, due]
    exact ⟨_, runs, applySelect_effect selected⟩
  · simp [exec, execPortDrainTest, live, due]
  · simp [exec, execBoundarySteps, idle]
  · simp [exec, execWindowClose, idle]
  · simp [exec, execWindowSetApply, idle]
  · simp [exec, execCtrSelectApply, idle]
  · simp [exec, execPortDrainTest, idle]

end Sys2Proof.Claims
end

section
/-! PROOFS. The power unit (R358 to R373, R476 to R478) and its caps. -/

namespace Sys2Proof.Claims

open Sys2Proof.Machine

/-! ## Attention of the power unit (R431) -/

/-- Attention may come to the sideband, and nothing else moves. -/
theorem powerAttn_eq (s : State) (b : Bool) : s.powerAttn b =
    { s with side := { s.side with attn := (s.powerAttn b).side.attn, ibiDue := (s.powerAttn b).side.ibiDue } } := by
  cases b <;> rfl

theorem powerAttn_power (s : State) (b : Bool) : (s.powerAttn b).power = s.power := by
  cases b <;> rfl

/-! ## POWER_SAMPLE (R368, R371) -/

theorem lowerCap_power (s : State) (k : Nat) :
    (s.lowerCap k).power.kCap = min s.power.kCap k ∧ (s.lowerCap k).power.now = s.power.now
    ∧ (s.lowerCap k).power.overrun = s.power.overrun ∧ s.lowerCap k = { s with power := (s.lowerCap k).power } := by
  unfold State.lowerCap
  split
  case isTrue low => exact ⟨(Nat.min_eq_right low.le).symm, rfl, rfl, rfl⟩
  case isFalse high => exact ⟨(Nat.min_eq_left (Nat.not_lt.mp high)).symm, rfl, rfl, rfl⟩

/-- A sample lowers K_CAP exactly when it, or the mean, is too high. -/
theorem sample_effect (s : State) (w : Nat) :
    (s.sample w).power.now = min 0xFFFF w ∧ (s.sample w).power.overrun = s.power.overrun + (w - s.effCap) * 1024
    ∧ (s.sample w).power.kCap = (if s.effCap < w ∨ 1650 < w
          ∨ (((w :: s.power.samples).take 16384).length = 16384 ∧ 1500 * 16384 < ((w :: s.power.samples).take 16384).sum)
        then min s.power.kCap (max 8 (s.power.kCap - 1)) else s.power.kCap)
    ∧ s.sample w = { s with power := (s.sample w).power
                            side := { s.side with attn := (s.sample w).side.attn, ibiDue := (s.sample w).side.ibiDue } } := by
  unfold State.sample
  dsimp only
  generalize (w :: s.power.samples).take 16384 = l
  generalize hd : (decide (1650 < w) || (l.length == 16384 && decide (1500 * 16384 < l.sum))) = design
  have high : (design || decide (s.effCap < w)) = true ↔
      s.effCap < w ∨ 1650 < w ∨ (l.length = 16384 ∧ 1500 * 16384 < l.sum) := by
    rw [← hd]
    simp
    tauto
  generalize hu : State.powerAttn _ design = u
  have power := hu ▸ powerAttn_power _ _
  have only := hu ▸ powerAttn_eq _ _
  split
  case isTrue too =>
    obtain ⟨cap, now, overrun, rest⟩ := lowerCap_power u (max 8 (u.power.kCap - 1))
    refine ⟨now.trans (by rw [power]), overrun.trans (by rw [power]), ?_, ?_⟩
    · rw [if_pos (high.mp too), cap, power]
    · rw [rest, only]
  case isFalse fine =>
    rw [if_neg (mt high.mpr fine), power]
    exact ⟨rfl, rfl, rfl, by rw [only]⟩

/-! ## Droop and voltage requests (R361, R364, R477, R478) -/

/-- The rail's start leaves the code and the frames sent, and moves the power unit alone. -/
theorem startMove_effect (s : State) : s.startMove.power.code = s.power.code ∧ s.startMove.power.vreqFault = s.power.vreqFault
    ∧ s.startMove = { s with power := s.startMove.power } := by
  unfold State.startMove
  dsimp only
  repeat' split
  all_goals exact ⟨rfl, rfl, rfl⟩

/-- Settles O20: each row is its guard around one update of the power unit. -/
theorem powerUnitActs : Obligations.PowerUnitActs := by
  refine ⟨fun w s live => ⟨s.sample w, by simp [exec, execPowerSample, live], sample_effect s w⟩,
    fun s live en => ⟨?_, ?_, fun again => ?_⟩, fun s live moving sound => ⟨fun up => ?_, fun down => ?_, fun there => ?_⟩,
    fun s live => ?_, fun s live fault => ?_⟩
  · have runs : exec .droopLightTrip s = .next (s.decaf.updPower fun p =>
        { p with lightSeen := true, droopTrips := satAdd 0xFFFF p.droopTrips 1 }) := by
      simp [exec, execDroopLightTrip, live, en]
    exact ⟨_, runs, rfl, rfl, rfl, rfl⟩
  · have runs : exec .droopHeavyTrip s = .next (s.updPower fun p =>
        { p with kDroop := 8, heavySeen := true, droopBeat := true, droopTrips := satAdd 0xFFFF p.droopTrips 1 }).droopStops := by
      simp [exec, execDroopHeavyTrip, live, en]
    exact ⟨_, runs, rfl, rfl, rfl, rfl⟩
  · have same : s.decaf = { s with power := { s.power with kDroop := max 8 (s.power.kDroop - s.power.decafStep) } } := by
      unfold State.decaf State.updPower
      rw [← again]
    simp only [exec, execDroopFurtherStep, live, en, again, same]
    rfl
  · have runs : exec .vreqFrame s = .next ((s.updPower fun p => { p with code := s.power.code + 1, railMoving := true }).emit
        (.vreq (Machine.vreqFrame (s.power.code + 1)))) := by
      have ne : (s.power.code == s.railCode) = false := beq_eq_false_iff_ne.mpr up.ne
      simp [exec, execVreqFrame, live, moving, sound, ne, Nat.lt_asymm up]
    exact ⟨_, runs, rfl, rfl, rfl, rfl⟩
  · have runs : exec .vreqFrame s = .next ((s.updPower fun p => { p with
        code := s.power.code - 1, railMoving := decide (s.railCode + 1 < s.power.code) }).emit
        (.vreq (Machine.vreqFrame (s.power.code - 1)))) := by
      have ne : (s.power.code == s.railCode) = false := beq_eq_false_iff_ne.mpr down.ne'
      have last : (!(s.power.code - 1 == s.railCode)) = decide (s.railCode + 1 < s.power.code) := by
        rw [Bool.eq_iff_iff]
        simp
        omega
      simp [exec, execVreqFrame, live, moving, sound, ne, down, ← last]
    exact ⟨_, runs, rfl, rfl, rfl, rfl⟩
  · simp [exec, execRailSettled, live, moving, sound, there, State.updPower]
  · have runs : exec .vreqFault s = .next ((s.updPower fun p =>
        { p with kRail := 8, vreqFault := true, capUnmet := true }).powerAttn true) := by
      simp [exec, execVreqFault, live]
    exact ⟨_, runs, rfl, rfl, rfl, rfl, rfl⟩
  · generalize hu : (s.updPower fun p => { p with vreqFault := false, railMoving := true }).emit
      (.vreq (Machine.vreqFrame s.power.code)) = u
    have runs : exec .vreqFaultClear s = .next (if u.railCode < u.power.code then u.startMove else u) := by
      simp only [exec, execVreqFaultClear, live, fault, ← hu]
      rfl
    obtain ⟨code, sound, only⟩ := startMove_effect u
    refine ⟨_, runs, ?_⟩
    split
    · rw [code, sound]
      rw [only, ← hu]
      exact ⟨rfl, rfl, rfl, rfl⟩
    · rw [← hu]
      exact ⟨rfl, rfl, rfl, rfl⟩

/-! ## Caps (R111, R112, R366, R368) -/

theorem powerCap_ok {cap : BitVec 16} (h : cap = 0 ∨ 250 ≤ cap.toNat ∧ cap.toNat ≤ 1500) : powerCapBad cap.toNat = false := by
  rcases h with rfl | ⟨low, high⟩
  · rfl
  · simp [powerCapBad, Nat.not_lt.mpr low, Nat.not_lt.mpr high]

theorem ceilingSet_paramError {c : Cmd} {cap : BitVec 16} (s : State) (h : powerCapBad cap.toNat = false) :
    s.paramError (.ceilingSet c cap) = none := by
  simp [State.paramError, State.rangeLow, State.rangeMid, State.rangeHigh, firstBad, h]

theorem hostRequestSet_paramError {c : Cmd} {cap : BitVec 16} (s : State) (h : powerCapBad cap.toNat = false) :
    s.paramError (.hostRequestSet c cap) = none := by
  simp [State.paramError, State.rangeLow, State.rangeMid, State.rangeHigh, firstBad, h]

/-- A cap that does not raise the effective one under an absent board controller comes into force. -/
theorem capReply_applies {s t : State} {c : Cmd} (op : BitVec 16)
    (h : c.src ≠ .i3c → s.side.bmcAbsent = true → t.effCap ≤ s.effCap) :
    s.capReply c op t = (t.capChanged s.effCap).ok c op (t.capChanged s.effCap).capData := by
  unfold State.capReply
  rw [if_neg fun ⟨src, absent, raises⟩ => Nat.not_lt.mpr (h src absent) raises]

theorem effCap_eq (s : State) : s.effCap = (if s.power.ceiling = 0 ∧ s.power.hostReq = 0 then 1500
    else if s.power.ceiling = 0 then s.power.hostReq else if s.power.hostReq = 0 then s.power.ceiling
    else min s.power.ceiling s.power.hostReq) := by
  unfold State.effCap Power.cap
  by_cases hc : s.power.ceiling = 0
  · by_cases hh : s.power.hostReq = 0 <;> simp [hc, hh]
  · by_cases hh : s.power.hostReq = 0
    · simp [hc, hh]
    · by_cases le : s.power.ceiling ≤ s.power.hostReq
      · simp [hc, hh, le]
      · simp [hc, hh, le, Nat.min_eq_right (Nat.le_of_not_le le)]

theorem telemetryRead_paramError {c : Cmd} {flags : Byte} {s : State} : s.paramError (.telemetryRead c flags) = none := rfl

/-- Only the Sideband Chain and I3C clear peaks (R373). -/
theorem permits_srcSI (src : Src) : permits srcSI src = true ↔ src = .sb ∨ src = .i3c := by
  cases src <;> decide

/-- Settles O21: precedence, then the absent board controller, then the cap. -/
theorem capsAreSetAndHeld : Obligations.CapsAreSetAndHeld := by
  refine ⟨fun c cap s ho inRange => ?_, effCap_eq, fun c flags s ho four => ?_⟩
  · have good := powerCap_ok inRange
    have ceiling : exec (.ceilingSet c cap) s = .next (if mayChange s.mgmt.ceilingHold c.src c.origin then
        s.capReply c 0x0701 (withCeiling s c cap.toNat)
        else s.reply c 0x0701 stDeniedPrecedence (holderCode s.mgmt.ceilingHold) s.capData) :=
      opcode_runs ho (ceilingSet_paramError s good)
    have host : exec (.hostRequestSet c cap) s = .next (if mayChange s.mgmt.hostHold c.src c.origin = false then
        s.reply c 0x0702 stDeniedPrecedence (holderCode s.mgmt.hostHold) s.capData
        else if s.power.ceiling != 0 && decide (s.power.ceiling < cap.toNat) then
          s.reply c 0x0702 stDeniedPrecedence (holderCode s.mgmt.ceilingHold) s.capData
        else s.capReply c 0x0702 (withHostRequest s c cap.toNat)) :=
      opcode_runs ho (hostRequestSet_paramError s good)
    refine ⟨fun may allowed => ?_, fun may => ⟨onlyReplied_complete s c 0x0701 true _ _ _, ?_⟩, fun may below allowed => ?_,
      fun may set above => ?_, fun may src absent raises => ?_⟩
    · rw [ceiling, if_pos may, capReply_applies _ allowed]
    · rw [ceiling, if_neg (by simp [may])]
    · have fits : (s.power.ceiling != 0 && decide (s.power.ceiling < cap.toNat)) = false := by
        rcases below with none | low
        · simp [none]
        · simp [Nat.not_lt.mpr low]
      rw [host, if_neg (by simp [may]), if_neg (by simp [fits]), capReply_applies _ allowed]
    · rw [host, if_neg (by simp [may]), if_pos (by simp [set, above])]
    · refine ⟨s.refuseRaise, ?_, rfl, rfl⟩
      rw [ceiling, if_pos may, State.capReply, if_pos ⟨src, absent, raises⟩]
  · have runs : exec (.telemetryRead c flags) s = .next ((if bitAt flags.toNat 0 && permits srcSI c.src then
        s.updPower fun p => { p with telem := p.telem.map fun w => { w with peak := 0 } } else s).ok c 0x0703
        ((s.power.telem.map fun t => leBytes 2 t.avg ++ leBytes 2 t.peak).flatten)) :=
      opcode_runs (i := .telemetryRead c flags) (c := c) (op := 0x0703) ho telemetryRead_paramError
    refine ⟨_, _, runs, ?_, ?_, ?_⟩
    · rw [flatten_length _ _ 4 fun t => by simp, four]
    · split <;> rfl
    · by_cases clear : bitAt flags.toNat 0 = true ∧ (c.src = .sb ∨ c.src = .i3c)
      · rw [if_pos clear, if_pos (by rw [Bool.and_eq_true, permits_srcSI]; exact clear)]
        rfl
      · rw [if_neg clear, if_neg (by rw [Bool.and_eq_true, permits_srcSI]; exact clear)]

end Sys2Proof.Claims
end

section
/-! PROOFS. Self-test (R378 to R392): runs, slots, and what the end of a test records. -/

namespace Sys2Proof.Claims

open Sys2Proof.Machine

/-! ## Results (R381, R382) -/

theorem changeRole_results (s : State) (k : SpareKind) (n : Nat) (r : Role) : (s.changeRole k n r).bist.results = s.bist.results := by
  unfold State.changeRole
  split
  · rfl
  · cases k <;> cases r <;> rfl

theorem markUnusable_results (s : State) (k : SpareKind) (n : Nat) : (s.markUnusable k n).bist.results = s.bist.results :=
  changeRole_results ..

theorem endClusterTest_results (s : State) (c outcome : Nat) : (s.endClusterTest c outcome).bist.results = s.bist.results := by
  unfold State.endClusterTest
  dsimp only
  repeat' split
  · rfl
  · exact markUnusable_results ..
  · exact changeRole_results ..
  · exact changeRole_results ..

theorem scanCounters_only (s : State) (n : Nat) : OnlyCounted s (s.scanCounters n) :=
  onlyCounted_foldl _ (fun _ _ => onlyCounted_setCounter ..) _ _

/-- A port that does not fail its test only has its lane marks written. -/
theorem endPortTest_results {s : State} {n : Nat} {te : TestEnd} {outcome : Nat} (h : outcome ≠ 2) :
    (s.endPortTest n te outcome).bist.results = s.bist.results := by
  unfold State.endPortTest
  dsimp only
  rw [if_neg h]
  rfl

theorem result_of_results {s t : State} (h : t.bist.results = s.bist.results) (n : Nat) : t.result n = s.result n := by
  unfold State.result
  rw [h]

/-- A port that does not fail keeps the result that its test has written. -/
theorem closePort_result {w : State} {n : Nat} {te : TestEnd} {outcome : Nat} (h : outcome ≠ 2) :
    (((w.scanCounters n).endPortTest n te outcome).updBist fun b => { b with restoring := addSorted b.restoring n }).result n
      = w.result n := by
  have kept : ((w.scanCounters n).endPortTest n te outcome).bist.results = w.bist.results :=
    (endPortTest_results h).trans (by rw [scanCounters_only])
  generalize (w.scanCounters n).endPortTest n te outcome = x at kept
  exact congrArg (fun m => sget m n defaultBistRes) kept

/-- The outcome that a test of a partition reaches at DONE. -/
def doneOutcome (s : State) (tp : Nat) (te : TestEnd) : Nat :=
  outcomeOf tp (s.testSeq tp).misr (s.testSeq tp).count (decide (tp < 64) && (te.txFail != 0 || te.rxFail != 0)) true

/-- The result that a test of a partition writes at DONE. -/
def doneResult (s : State) (tp : Nat) (te : TestEnd) (detail : Nat) : BistRes :=
  { misr := (s.testSeq tp).misr
    patterns := (s.testSeq tp).count
    token := tokenOf (s.testSeq tp).misr (s.testSeq tp).count tp
    outcome := doneOutcome s tp te
    stop := 0
    detail := detail
    beat := s.beat.count }

/-- The result of a test that has reached DONE, but that of a port that fails, whose stripes go down besides. -/
theorem closeTest_result {s : State} {tp : Nat} {te : TestEnd} (h : 64 ≤ tp ∨ doneOutcome s tp te ≠ 2) :
    ∃ d, (s.closeTest tp te true 0).result tp = doneResult s tp te d := by
  have written (u : State) (q : TestSeq) (o d : Nat) : (u.writeResult tp q true o 0 d).result tp =
      ⟨q.misr, q.count, tokenOf q.misr q.count tp, o, 0, d, u.beat.count⟩ := State.result_setResult ..
  unfold State.closeTest
  dsimp only
  split
  case isTrue port =>
    have passes : doneOutcome s tp te ≠ 2 := h.resolve_left (by omega)
    refine ⟨firstLane te.txFail + 16 * firstLane te.rxFail, ?_⟩
    exact (closePort_result passes).trans (written ..)
  case isFalse =>
    split
    · refine ⟨0, (result_of_results (endClusterTest_results ..) tp).trans (written ..)⟩
    · split
      · exact ⟨_, written ..⟩
      · split
        · exact ⟨0, written ..⟩
        · exact ⟨0, written ..⟩

/-- The sequencer once its report has come (R378, R380). -/
def reported (s : State) (tp : Nat) (te : TestEnd) : TestSeq :=
  { s.testSeq tp with misr := te.words.foldl misrNext (s.testSeq tp).misr, count := (s.testSeq tp).count + te.patterns }

theorem testSeq_runSeq (s : State) (tp : Nat) (te : TestEnd) : (s.runSeq tp te).testSeq tp = reported s tp te :=
  sget_sput_same ..

/-- A half with no bank at hand has no march to end. -/
theorem marchOn_idle {s : State} {tp : Nat} {te : TestEnd} (h : (s.testSeq tp).bank = none) (n : Nat) : s.marchOn tp te n = s := by
  cases n with
  | zero => rfl
  | succ n => rw [State.marchOn, h]

/-- A test reaches DONE, in a memory half once no bank is left to march (R382). -/
theorem endTest_done {s : State} {tp : Nat} {te : TestEnd} (active : s.bist.active.contains tp = true)
    (whole : tp < 90 ∨ 94 ≤ tp ∨ (s.testSeq tp).bank = none ∧ (s.testSeq tp).left = []) :
    s.endTest tp te true 0 = (s.runSeq tp te).closeTest tp te true 0 := by
  have still : (s.runSeq tp te).bist.active.contains tp = true := active
  unfold State.endTest
  rw [if_neg (by simpa using active)]
  dsimp only
  split
  case isTrue half =>
    obtain ⟨bank, left⟩ := (whole.resolve_left (by omega)).resolve_left (by omega)
    have idle : ((s.runSeq tp te).testSeq tp).bank = none := by rw [testSeq_runSeq]; exact bank
    have last : ((s.runSeq tp te).testSeq tp).left = [] := by rw [testSeq_runSeq]; exact left
    rw [marchOn_idle idle, if_neg (by simpa using still)]
    simp [idle, last]
  case isFalse => rfl

/-! ## BIST_RUN and BIST_ABORT (R388, R389, R392) -/

/-- A request that passes every check of R50 passes the one of precedence. -/
theorem stageGate_of_stageCheck {s : State} {c : Cmd} {spec : TargetSpec} {items : List StageItem} {whole : Bool}
    (h : s.stageCheck c spec items whole = none) : s.stageGate c (s.specTarget spec) items = none := by
  unfold State.stageCheck at h
  dsimp only at h
  repeat' split at h
  all_goals simp_all

theorem bistAbort_paramError {c : Cmd} {part : Byte} (s : State) (h : part.toNat < 96) : s.paramError (.bistAbort c part) = none := by
  simp [State.paramError, State.rangeLow, State.rangeMid, State.rangeHigh, firstBad, Nat.not_le.mpr h]

/-! ## The slots of a run (R388) -/

theorem atStep5_of {s : State} {x : Step5} (live : s.live = true) (due : s.beat.stepsDue = true) (next : s.nextStep5 = some x) :
    s.atStep5 x = true := by
  simp [State.atStep5, live, due, next]

theorem slotStopDue_of_next {s : State} (h : s.nextStep5 = some .slotStop) : s.slotStopDue = true := by
  unfold State.nextStep5 at h
  split at h
  · by_contra no
    rw [if_neg no] at h
    split at h <;> cases h
  · dsimp only at h
    split at h
    case isTrue both => exact both.1
    case isFalse => split at h <;> cases h

theorem slotDone_iff (s : State) (r : Run) : s.slotDone r = true ↔ r.members r.slot = [] ∧ r.endedAt < s.beat.localBeats := by
  simp [State.slotDone]

/-- Settles O22: a run is staged and stopped by its gates; what a test records is written where it leaves the test. -/
theorem selfTestRuns : Obligations.SelfTestRuns := by
  refine ⟨fun c parts spec s ho hp gate check => ?_, fun c part s ho small tested => ?_, fun part te s live active => ?_,
    fun part s live restoring settled => ?_, fun s r live due run => ?_⟩
  · exact gate_passes ho hp (by
      rw [show newRun _ = runOf s parts from rfl]
      simp only [show ({ action := 5, a := BitVec.ofNat 64 (runOf s parts).slot, b := 0, entries := 0 } : StageItem)
        = startOf (runOf s parts) from rfl, stageGate_of_stageCheck check, gate, check]
      rfl)
  · have one : ((if part = 0xFF then List.range 96 else [part.toNat]).filter s.underTest) = [part.toNat] := by
      have named : part ≠ 0xFF := by rintro rfl; exact absurd small (by decide)
      rw [if_neg named, List.filter_singleton, tested]
      rfl
    show execBistAbort c part s = _
    unfold execBistAbort
    simp only [one]
    exact gate_passes ho (bistAbort_paramError s small) rfl
  · refine ⟨by simp [exec, execBistPartitionDone, live], fun signature count tx rx whole => ?_, fun logic whole => ?_⟩
    · rw [endTest_done active whole]
      have outcome : doneOutcome (s.runSeq part.val te) part.val te = 1 := by
        rw [doneOutcome, testSeq_runSeq]
        simp [outcomeOf, reported, signature, count, tx, rx]
      obtain ⟨d, result⟩ := closeTest_result (s := s.runSeq part.val te) (te := te) (.inr (by rw [outcome]; decide))
      rw [result]
      exact outcome
    · rw [endTest_done active whole]
      obtain ⟨d, result⟩ := closeTest_result (s := s.runSeq part.val te) (te := te) (.inl logic)
      rw [result]
      simp only [doneResult, testSeq_runSeq]
      refine ⟨rfl, rfl, rfl, fun differs => ?_⟩
      rw [doneOutcome, testSeq_runSeq]
      have wrong : (!(te.words.foldl misrNext (s.testSeq part.val).misr == Config.bistMisr part.val)
          || ((s.testSeq part.val).count + te.patterns != expectPatterns part.val)) = true := by
        simpa using differs
      simp [outcomeOf, reported, wrong]
  · refine ⟨s.updBist fun b => { b with
      restoring := b.restoring.filter (· != part.val), retrain := b.retrain.filter (· != part.val) }, ?_, rfl⟩
    simp only [exec, execBistRestore, live, State.endRestore, restoring, settled]
    rfl
  · have at5 {x : Step5} (next : s.nextStep5 = some x) := atStep5_of live due next
    refine ⟨fun stop => ?_, fun stop finished => ?_, fun start waiting fits => ?_, fun start waiting full long => ?_,
      fun start idle => ?_, fun l stop unfinished => ?_⟩
    · have stopDue := slotStopDue_of_next stop
      simpa [State.slotStopDue, run, slotDone_iff, State.slotLate] using stopDue
    · simp [exec, execBistSlotEnd, run, at5 stop, (slotDone_iff s r).mpr finished]
    · have tries : (s.slotFits r r.slot || !s.slotWaited r) = true := by
        simpa [State.slotWaited] using fits
      simp [exec, execBistSlotRetry, run, at5 start, waiting, tries]
    · have waited : s.slotWaited r = true := decide_eq_true long
      simp [exec, execSlotWaitExpiry, run, at5 start, waiting, full, waited, State.expireSlot]
    · simp [exec, execBistNextSlot, run, at5 start, idle]
    · have runs : s.slotDone r = false := by
        rw [← Bool.not_eq_true, slotDone_iff]
        exact unfinished
      simp only [exec, execBistSlotDeadline, run, at5 stop, runs, State.deadlineSlot]
      rfl

end Sys2Proof.Claims
end

section
/-! PROOFS. Counters and samples (R402 to R418), the idle cycle of the core clock's source, and the key store (R83, R97, R117). -/

namespace Sys2Proof.Claims

open Sys2Proof.Machine

/-! ## What the TX lanes send in a block time (R300 to R305) -/

/-- What a stripe's data lanes carry has gone on. -/
def StripeSent (x y : Stripe) : Prop := y = { x with blocks := y.blocks, txLine := y.txLine, txPart := y.txPart }

theorem StripeSent.trans {x y z : Stripe} (h : StripeSent x y) (g : StripeSent y z) : StripeSent x z := by
  unfold StripeSent at *
  rw [g, h]

theorem blockHead_sent (x : Stripe) : StripeSent x x.blockHead.2 := by
  unfold Stripe.blockHead
  repeat' split
  all_goals rfl

theorem nextSym_sent (x : Stripe) : StripeSent x x.nextSym.2 := by
  unfold Stripe.nextSym
  repeat' split
  all_goals rfl

theorem payload_sent (n : Nat) (x : Stripe) : StripeSent x (Stripe.payload n x).2 := by
  induction n generalizing x with
  | zero => rfl
  | succ n ih => exact (nextSym_sent x).trans (ih _)

theorem stripeBlock_sent (s : State) (port : Nat) (sd : Side) : StripeSent ((s.port port).stripe sd) (s.stripeBlock port sd).2 := by
  unfold State.stripeBlock
  dsimp only
  generalize (s.port port).stripe sd = x
  have counted : StripeSent x { x with blocks := x.blocks + 1 } := rfl
  split
  · exact counted
  split
  · rfl
  split
  · exact counted
  split
  · rfl
  · exact (counted.trans (blockHead_sent _)).trans (payload_sent ..)

/-- What a port's TX lanes carry has gone on. -/
def LanesSent (p q : PortSt) : Prop :=
  q = { p with
    a := { p.a with blocks := q.a.blocks, txLine := q.a.txLine, txPart := q.a.txPart }
    b := { p.b with blocks := q.b.blocks, txLine := q.b.txLine, txPart := q.b.txPart }
    txRd := q.txRd, ckOut := q.ckOut }

theorem LanesSent.trans {p q r : PortSt} (h : LanesSent p q) (g : LanesSent q r) : LanesSent p r := by
  unfold LanesSent at *
  rw [g, h]

theorem lanesSent_setStripe {p : PortSt} {sd : Side} {x : Stripe} (h : StripeSent (p.stripe sd) x) : LanesSent p (p.setStripe sd x) := by
  cases sd
  · exact congrArg (fun x => { p with a := x }) h
  · exact congrArg (fun x => { p with b := x }) h

theorem lanesSent_txRd (p : PortSt) (v : BitVec 10) : LanesSent p { p with txRd := v } := rfl

theorem lanesSent_ckOut (p : PortSt) (l : List Nat) : LanesSent p { p with ckOut := l } := rfl

/-! ## One cycle without a command -/

/-- What a cycle of the source may move, besides its own position: counters, what the TX lanes send, and cartridge transfers that
begin. -/
def CyclePassed (s t : State) : Prop :=
  t = { s with ctr := { s.ctr with counters := t.ctr.counters }, ports := t.ports, out := t.out
               mgmt := { s.mgmt with deferred := t.mgmt.deferred } }
  ∧ s.out <+: t.out
  ∧ t.mgmt.deferred.map (fun d => { d with served := false }) = s.mgmt.deferred.map (fun d => { d with served := false })
  ∧ ∀ n, LanesSent (s.port n) (t.port n)

theorem CyclePassed.refl (s : State) : CyclePassed s s := ⟨rfl, List.prefix_refl _, rfl, fun _ => rfl⟩

theorem CyclePassed.trans {s t u : State} (h : CyclePassed s t) (g : CyclePassed t u) : CyclePassed s u := by
  obtain ⟨h, ho, hd, hp⟩ := h
  obtain ⟨g, go, gd, gp⟩ := g
  exact ⟨by rw [g, h], ho.trans go, gd.trans hd, fun n => (hp n).trans (gp n)⟩

theorem cyclePassed_foldl {α : Type} (f : State → α → State) (step : ∀ s x, CyclePassed s (f s x)) (l : List α) (s : State) :
    CyclePassed s (l.foldl f s) :=
  foldl_rel f CyclePassed.refl CyclePassed.trans step l s

theorem OnlyCounted.cyclePassed {s t : State} (h : OnlyCounted s t) : CyclePassed s t := by
  rw [h]
  exact ⟨rfl, List.prefix_refl _, rfl, fun _ => rfl⟩

theorem cyclePassed_setPort (s : State) (n : Nat) {q : PortSt} (h : LanesSent (s.port n) q) : CyclePassed s (s.setPort n q) := by
  refine ⟨rfl, List.prefix_refl _, rfl, fun k => ?_⟩
  by_cases e : k = n
  · subst e
    rw [State.port_setPort]
    exact h
  · rw [State.port_setPort_other s _ e]
    rfl

theorem cyclePassed_emit (s : State) (e : Emission) : CyclePassed s (s.emit e) := ⟨rfl, List.prefix_append .., rfl, fun _ => rfl⟩

theorem sendRows_passed (s : State) (port : Nat) (clock : Bool) (rows : List (Nat × List Nat)) :
    CyclePassed s (s.sendRows port clock rows).2 :=
  foldl_rel (R := fun x y : _ × State => CyclePassed x.2 y.2) _ (fun _ => .refl _) .trans
    (fun _ _ => cyclePassed_setPort _ _ (lanesSent_txRd ..)) rows ([], s)

theorem sendClock_passed (s : State) (port n : Nat) : CyclePassed s (s.sendClock port n).2 :=
  (sendRows_passed s port true _).trans (cyclePassed_setPort _ _ (lanesSent_ckOut ..))

theorem portBlock_passed (s : State) (port : Nat) : CyclePassed s (s.portBlock port) := by
  unfold State.portBlock
  dsimp only
  split
  · exact .refl s
  · refine .trans (.trans (.trans ?_ (sendRows_passed ..)) (sendClock_passed ..)) (cyclePassed_emit ..)
    exact foldl_rel (R := fun x y : _ × State => CyclePassed x.2 y.2) _ (fun _ => .refl _) .trans
      (fun acc sd => cyclePassed_setPort _ _ (lanesSent_setStripe (stripeBlock_sent ..))) _ ([], s)

theorem busAccess_passed (s : State) (w : Work) : CyclePassed s (s.busAccess w) := by
  unfold State.busAccess
  split
  · dsimp only
    have page (b : Prop) [Decidable b] (e : Emission) : CyclePassed s (if b then s else s.emit e) := by
      split
      · exact .refl s
      · exact cyclePassed_emit ..
    split
    · exact (page ..).trans (cyclePassed_foldl _ (fun _ _ => cyclePassed_emit ..) _ _)
    · exact (page ..).trans (cyclePassed_emit ..)
  · exact .refl s

theorem markServed_unserved (bus : Nat) (l : List Deferred) :
    (markServed bus l).map (fun d => { d with served := false }) = l.map fun d => { d with served := false } := by
  induction l with
  | nil => rfl
  | cons d r ih =>
    rw [markServed]
    split
    · rfl
    · rw [List.map_cons, ih, List.map_cons]

theorem serveCart_passed (s : State) (bus : Nat) : CyclePassed s (s.serveCart bus) := by
  unfold State.serveCart
  split
  · split
    · exact .refl s
    · refine .trans ?_ (busAccess_passed ..)
      exact ⟨rfl, List.prefix_refl _, markServed_unserved .., fun _ => rfl⟩
  · exact .refl s

/-! ### What counts in a cycle (R406 to R409) -/

theorem onlyCounted_countGlobal (s : State) (code : Nat) (k a : Option Nat) (n : Nat) : OnlyCounted s (s.countGlobal code k a n) := by
  obtain ⟨m, e⟩ := s.countGlobal_only code k a n
  rw [e]
  rfl

theorem onlyCounted_countLp (s : State) (lp code : Nat) (k a : Option Nat) (n : Nat) : OnlyCounted s (s.countLp lp code k a n) := by
  obtain ⟨m, e⟩ := s.countLp_only lp code k a n
  rw [e]
  rfl

theorem idleSlots_counted (s : State) (i : Nat) : OnlyCounted s (s.idleSlots i) := by
  refine onlyCounted_foldl _ (fun u lp => ?_) _ _
  split
  · exact (onlyCounted_countLp ..).trans (onlyCounted_countLp ..)
  · rfl

theorem portCycle_counted (s : State) (lp : Nat) : OnlyCounted s (s.portCycle lp) := by
  unfold State.portCycle
  split
  · rfl
  · exact (onlyCounted_foldl _ (fun _ _ => onlyCounted_countLp ..) _ _).trans
      (onlyCounted_foldl _ (fun _ _ => onlyCounted_countLp ..) _ _)

theorem memCycle_counted (s : State) : OnlyCounted s s.memCycle := by
  unfold State.memCycle
  split
  · rfl
  · have used := onlyCounted_foldl (fun (s : State) k =>
      (s.countGlobal (if s.stackHeld k then 0x2104 else 0x2103) none (some k) 16).countGlobal 0x2100 none (some k) 16)
      (fun _ _ => (onlyCounted_countGlobal ..).trans (onlyCounted_countGlobal ..))
      (s.mem.slotMap.filter fun k => (s.stack k).role == .inService || (s.stack k).role == .source) s
    dsimp only
    split
    · exact used.trans (onlyCounted_countGlobal ..)
    · exact used

theorem engineCycle_counted (s : State) : OnlyCounted s s.engineCycle := by
  unfold State.engineCycle
  split
  · rfl
  · dsimp only
    split
    · exact .trans (onlyCounted_foldl _ (fun _ _ => (onlyCounted_countGlobal ..).trans (onlyCounted_countGlobal ..)) _ _)
        (onlyCounted_countGlobal ..)
    · exact onlyCounted_foldl _ (fun _ _ => (onlyCounted_countGlobal ..).trans (onlyCounted_countGlobal ..)) _ _

theorem coreCycle_counted (s : State) : OnlyCounted s s.coreCycle := by
  unfold State.coreCycle
  dsimp only
  refine .trans (.trans ?_ (memCycle_counted _)) (engineCycle_counted _)
  split
  · rfl
  · exact onlyCounted_foldl _ (fun _ _ => portCycle_counted ..) _ _

/-- A cycle of the source moves its position, and what may pass in it. -/
theorem idleCycle_passed {s : State} (live : s.live = true) :
    CyclePassed { s with power := { s.power with cycle := (s.power.cycle + 1) % 1280, time := s.power.time + 2 } } s.idleCycle := by
  unfold State.idleCycle
  simp only [live, Bool.not_true, Bool.false_eq_true, if_false]
  generalize hx : s.updPower _ = x
  have start : ({ s with power := { s.power with cycle := (s.power.cycle + 1) % 1280, time := s.power.time + 2 } } : State) = x := hx
  rw [start]
  have served := cyclePassed_foldl (fun (s : State) b => s.serveCart b) (fun _ _ => serveCart_passed ..) (List.range 8) x
  generalize List.foldl (fun (s : State) b => s.serveCart b) x (List.range 8) = y at served
  have sent : CyclePassed y (if s.power.cycle % 5 = 0 then (List.range 64).foldl (fun (s : State) n => s.portBlock n) y else y) := by
    split
    · exact cyclePassed_foldl _ (fun _ _ => portBlock_passed ..) _ _
    · exact .refl y
  generalize (if s.power.cycle % 5 = 0 then (List.range 64).foldl (fun (s : State) n => s.portBlock n) y else y) = z at sent
  have slots : CyclePassed z (if z.switchInReset = true then z else z.idleSlots s.power.cycle) := by
    split
    · exact .refl z
    · exact (idleSlots_counted ..).cyclePassed
  generalize (if z.switchInReset = true then z else z.idleSlots s.power.cycle) = w at slots
  refine ((served.trans sent).trans slots).trans ?_
  split
  · exact (coreCycle_counted w).cyclePassed
  · exact (onlyCounted_countGlobal ..).cyclePassed

/-! ## Snapshots (R411) -/

/-- A counter after a snapshot. -/
def cleared (c : Counter) : Counter := { c with wrap := false, reprog := false }

theorem snapshots_counter (l : List Nat) (s : State) (n : Nat) :
    (l.foldl (fun (s : State) k => s.snapshot k) s).counter n = if n ∈ l then cleared (s.counter n) else s.counter n := by
  induction l generalizing s with
  | nil => simp
  | cons k r ih =>
    rw [List.foldl_cons, ih]
    by_cases e : n = k
    · subst e
      have here : (s.snapshot n).counter n = cleared (s.counter n) := State.counter_setCounter ..
      rw [here]
      simp [cleared]
    · have there : (s.snapshot k).counter n = s.counter n := State.counter_setCounter_other s _ e
      simp [there, e]

/-! ## Samples (R415 to R417) -/

theorem ctxBytes_length (x : Option SampleCtx) : (ctxBytes x).length = 8 := by
  cases x with
  | none => rfl
  | some x => cases x <;> simp [ctxBytes]

theorem sampleBytes_length (r : Sample) : (sampleBytes r).length = 32 := by
  simp [sampleBytes, ctxBytes_length]

/-- A record joins the buffer while it has room and is counted as lost otherwise. -/
theorem pushSample_effect (s : State) (r : Sample) :
    (s.pushSample r).ctr = if 256 ≤ s.ctr.samples.length then { s.ctr with lost := satAdd 0xFFFF s.ctr.lost 1 }
      else { s.ctr with samples := s.ctr.samples ++ [r] } := by
  have attend (t : State) (n : Nat) : ((t.msix 2).attend n).ctr = t.ctr := by
    unfold State.attend State.msix
    split <;> rfl
  unfold State.pushSample
  split
  · rfl
  · dsimp only
    split
    · exact attend ..
    · rfl

/-- The record of an expiry of a counter with its context (R416). -/
def sampleOf (s : State) (n : Nat) (x : Option SampleCtx) : Sample :=
  let event := bitsAt (s.eventEntry n) 63 48
  let (kind, unit, most) := skidOf event
  { bank := if n < 1024 then n / 16 else 0xFF, kind := if x.isSome then kind else 0
    index := if n < 1024 then n % 16 else n - 1024, event := BitVec.ofNat 16 event, skidUnit := unit, skidMax := most
    beat := s.beat.count, value := s.counterWord n, context := x }

/-- Settles O24: each opcode of the counters writes the counters it names, and the idle cycle is `idleCycle_passed`. -/
theorem countersAreReadAndArmed : Obligations.CountersAreReadAndArmed := by
  refine ⟨fun c bank first count s ho free hp => ?_, fun c bank index event s ho free hp may => ?_,
    fun c bank n s ho free hp => ?_, fun c bank index period en s ho free hp => ?_, fun s idle live => ?_, fun s idle closed => ?_,
    fun bank index k x rest s live bankOk indexOk hk due => ?_⟩
  · have gate : s.ctrGate = none := unitGate_free rfl free
    refine ⟨_, _, gate_passes ho hp gate, ?_, ?_, fun k hk => ?_, fun n hn => ?_⟩
    · rw [flatten_length _ (fun n => leBytes 8 (s.counterWord n).toNat) 8 fun _ => leBytes_length ..]
      simp
    · exact onlyCounted_foldl _ (fun _ _ => onlyCounted_setCounter ..) _ _
    · rw [snapshots_counter, if_pos]
      · rfl
      · exact List.mem_map.mpr ⟨k, List.mem_range.mpr hk, rfl⟩
    · rw [snapshots_counter, if_neg]
      simpa [List.mem_map, eq_comm] using hn
  · exact gate_passes ho hp (by rw [holdGate_allowed may, State.ctrGate, unitGate_free rfl free]; rfl)
  · exact gate_passes ho hp (unitGate_free rfl free)
  · have fits : period.toNat < 2 ^ 48 := by
      simp [State.paramError, State.rangeLow, State.rangeMid, State.rangeHigh, firstBad] at hp
      omega
    refine ⟨_, gate_passes ho hp (unitGate_free rfl free), ?_⟩
    rw [State.counter_setCounter]
    refine ⟨rfl, ?_, rfl, fun n ne => State.counter_setCounter_other s _ ne, rfl⟩
    exact BitVec.toNat_setWidth 48 period ▸ Nat.mod_eq_of_lt fits
  · rw [step_nil idle]
    obtain ⟨only, sent, served, ports⟩ := idleCycle_passed live
    refine ⟨_, rfl, ?_, sent, served, ports⟩
    rw [only]
  · rw [step_nil idle, State.idleCycle, closed]
    rfl
  · have runs : exec (.sampleCapture bank index) s = .next ((s.setCounter k { s.counter k with due := rest }).pushSample (sampleOf s k x)) := by
      subst hk
      show execSampleCapture bank index s = _
      have inside : ¬ bankSize bank.toNat ≤ index.toNat := by omega
      simp only [execSampleCapture, bankOk, inside, due, live]
      rfl
    have ctr := pushSample_effect (s.setCounter k { s.counter k with due := rest }) (sampleOf s k x)
    refine ⟨_, runs, ?_, fun room => ?_, fun full => ?_⟩
    · rw [State.counter, ctr]
      split <;> exact congrArg Counter.due (State.counter_setCounter ..)
    · rw [ctr, if_neg (by exact Nat.not_le.mpr room)]
      exact ⟨_, rfl, rfl, rfl, rfl, sampleBytes_length _, rfl⟩
    · rw [ctr, if_pos (by exact full)]
      exact ⟨rfl, rfl⟩

/-! ## The key store (R83, R97, R117) -/

theorem fixedGate_none {bad : Bool} (h : bad = false) : fixedGate bad = none := by
  rw [fixedGate, h]
  rfl

theorem fixedGate_some {bad : Bool} (h : bad = true) : fixedGate bad = some (stDeniedPrecedence, 0x8000) := by
  rw [fixedGate, h]
  rfl

theorem keyAdmin_refused {s : State} {c : Cmd} (h : s.keyAdmin c = false) :
    fixedGate (!s.keyAdmin c) = some (stDeniedPrecedence, 0x8000) := fixedGate_some (by rw [h]; rfl)

theorem keyAdmin_passes {s : State} {c : Cmd} (h : s.keyAdmin c = true) : fixedGate (!s.keyAdmin c) = none :=
  fixedGate_none (by rw [h]; rfl)

/-- Putting a key writes its slot, and deferred commands authenticated under it lose their tags. -/
theorem putKey_key (s : State) (n : Nat) (k : KeySlot) : (s.putKey n k).key n = k := State.key_setKey s n k

theorem putKey_key_other (s : State) (k : KeySlot) {n m : Nat} (ne : m ≠ n) : (s.putKey n k).key m = s.key m :=
  State.key_setKey_other s k ne

/-- Settles O25: keys and access settings are written by one opcode each, behind the gate of its fixed rule. -/
theorem keysAndAccess : Obligations.KeysAndAccess := by
  refine ⟨fun c slot mask flags epoch key s ho hp => ⟨fun may => ?_, fun no => gate_refuses ho hp (keyAdmin_refused no)⟩,
    fun c slot s ho hp => ⟨fun may => ?_, fun no => gate_refuses ho hp (keyAdmin_refused no)⟩,
    fun c bits s ho small may => ?_, fun c allow s ho => opcode_runs (i := .tc7AllowSet c allow) (c := c) (op := 0x0A04) ho rfl⟩
  · let k : KeySlot := { loaded := true, mask := mask.truncate 4, admin := bitAt flags.toNat 0, epoch := epoch, key := key }
    exact ⟨_, gate_passes ho hp (keyAdmin_passes may), putKey_key s slot.toNat k, sget_sput_same ..,
      fun n ne => putKey_key_other s k ne, rfl⟩
  · refine ⟨_, gate_passes ho hp (keyAdmin_passes may), ?_, fun n ne => putKey_key_other _ _ ne, rfl⟩
    rw [putKey_key]
    rfl
  · have inRange : s.paramError (.authReqSet c bits) = none := by
      simp [State.paramError, State.rangeLow, State.rangeMid, State.rangeHigh, firstBad, small]
    exact gate_passes ho inRange (fixedGate_none may)

end Sys2Proof.Claims
end

section
/-! PROOFS. Operations on a port in training (R330 to R356): what each moves, and the rows that carry them out. -/

namespace Sys2Proof.Claims

open Sys2Proof.Machine

/-! ## Only one port moves -/

theorem OnlyPort.refl (s : State) (n : Nat) : OnlyPort s s n := ⟨⟨rfl, List.prefix_refl _⟩, fun _ _ => rfl⟩

theorem OnlyPort.trans {s t u : State} {n : Nat} (h : OnlyPort s t n) (g : OnlyPort t u n) : OnlyPort s u n := by
  obtain ⟨⟨h, ho⟩, hk⟩ := h
  obtain ⟨⟨g, go⟩, gk⟩ := g
  exact ⟨⟨by rw [g, h], ho.trans go⟩, fun k ne => (gk k ne).trans (hk k ne)⟩

theorem onlyPort_foldl {α : Type} {n : Nat} (f : State → α → State) (step : ∀ s x, OnlyPort s (f s x) n) (l : List α) (s : State) :
    OnlyPort s (l.foldl f s) n :=
  foldl_rel (R := fun s t => OnlyPort s t n) f (fun s => .refl s n) .trans step l s

theorem OnlyPort.ite {p : Prop} [Decidable p] {s t u : State} {n : Nat} (h : OnlyPort s t n) (g : OnlyPort s u n) :
    OnlyPort s (if p then t else u) n := by
  split
  · exact h
  · exact g

theorem onlyPort_setPort (s : State) (n : Nat) (p : PortSt) : OnlyPort s (s.setPort n p) n :=
  ⟨⟨rfl, List.prefix_refl _⟩, fun _ ne => State.port_setPort_other s _ ne⟩

theorem onlyPort_updPort (s : State) (n : Nat) (f : PortSt → PortSt) : OnlyPort s (s.updPort n f) n := onlyPort_setPort ..

theorem onlyPort_updStripe (s : State) (n : Nat) (sd : Side) (f : Stripe → Stripe) : OnlyPort s (s.updStripe n sd f) n :=
  onlyPort_updPort ..

theorem onlyPort_emit (s : State) (n : Nat) (e : Emission) : OnlyPort s (s.emit e) n :=
  ⟨⟨rfl, List.prefix_append ..⟩, fun _ _ => rfl⟩

theorem onlyPort_linkChanged (s : State) (k n : Nat) : OnlyPort s (s.linkChanged k) n := ⟨⟨rfl, List.prefix_refl _⟩, fun _ _ => rfl⟩

theorem onlyPort_countPort (s : State) (k code : Nat) (a : Option Nat) (m n : Nat) : OnlyPort s (s.countPort k code a m) n := by
  obtain ⟨c, e⟩ := State.countPort_only s k code a m
  rw [e]
  exact ⟨⟨rfl, List.prefix_refl _⟩, fun _ _ => rfl⟩

theorem onlyPort_countLp (s : State) (lp code : Nat) (k a : Option Nat) (m n : Nat) : OnlyPort s (s.countLp lp code k a m) n := by
  obtain ⟨c, e⟩ := State.countLp_only s lp code k a m
  rw [e]
  exact ⟨⟨rfl, List.prefix_refl _⟩, fun _ _ => rfl⟩

theorem onlyPort_countGlobal (s : State) (code : Nat) (k a : Option Nat) (m n : Nat) : OnlyPort s (s.countGlobal code k a m) n := by
  obtain ⟨c, e⟩ := State.countGlobal_only s code k a m
  rw [e]
  exact ⟨⟨rfl, List.prefix_refl _⟩, fun _ _ => rfl⟩

theorem onlyPort_setTxSp (s : State) (n role : Nat) : OnlyPort s (s.setTxSp n role) n :=
  .ite (.refl ..) ((onlyPort_updPort ..).trans (onlyPort_linkChanged ..))

theorem onlyPort_setRxSp (s : State) (n role : Nat) : OnlyPort s (s.setRxSp n role) n :=
  .ite (.refl ..) ((onlyPort_updPort ..).trans (onlyPort_linkChanged ..))

theorem onlyPort_sendTraining (s : State) (n : Nat) (sd : Side) : OnlyPort s (s.sendTraining n sd) n :=
  .ite (.refl ..) (onlyPort_emit ..)

theorem onlyPort_setStripeSt (s : State) (n : Nat) (sd : Side) (st : StripeSt) : OnlyPort s (s.setStripeSt n sd st) n :=
  .ite (.refl ..) (.ite ((onlyPort_setPort ..).trans (onlyPort_linkChanged ..)) (onlyPort_setPort ..))

theorem onlyPort_latchPreset (s : State) (n : Nat) : OnlyPort s (s.latchPreset n) n := onlyPort_setPort ..

theorem onlyPort_enterSend (s : State) (n : Nat) (sd : Side) : OnlyPort s (s.enterSend n sd) n :=
  (onlyPort_setStripeSt s n sd .send).trans <| (onlyPort_latchPreset ..).trans <| (onlyPort_setPort ..).trans <|
    (onlyPort_setTxSp ..).trans <| (onlyPort_setRxSp ..).trans (onlyPort_sendTraining ..)

theorem onlyPort_failAttempt (s : State) (n : Nat) (sd : Side) (code : Nat) : OnlyPort s (s.failAttempt n sd code) n :=
  (onlyPort_updPort ..).trans (onlyPort_setStripeSt ..)

theorem onlyPort_tryAlign (s : State) (n : Nat) (sd : Side) : OnlyPort s (s.tryAlign n sd) n :=
  .ite ((onlyPort_updStripe ..).trans <| (onlyPort_setStripeSt ..).trans (onlyPort_sendTraining ..)) (.refl ..)

theorem onlyPort_settleLanes (s : State) (n : Nat) (sd : Side) (lanes bad : List Nat) : OnlyPort s (s.settleLanes n sd lanes bad) n := by
  unfold State.settleLanes
  split
  · exact .refl ..
  · dsimp only
    generalize hu : s.updStripe n sd _ = u
    have first : OnlyPort s u n := hu ▸ onlyPort_updStripe ..
    refine first.trans ?_
    split
    · exact ((onlyPort_setRxSp ..).trans (onlyPort_updPort ..)).trans (onlyPort_sendTraining ..)
    · exact onlyPort_sendTraining ..

end Sys2Proof.Claims

namespace Sys2Proof.Machine

/-! ## The port after an operation -/

@[simp] theorem State.port_updPort (s : State) (n : Nat) (f : PortSt → PortSt) : (s.updPort n f).port n = f (s.port n) :=
  State.port_setPort ..

@[simp] theorem State.port_emit (s : State) (e : Emission) (n : Nat) : (s.emit e).port n = s.port n := rfl

@[simp] theorem State.port_linkChanged (s : State) (k n : Nat) : (s.linkChanged k).port n = s.port n := rfl

@[simp] theorem State.port_updStripe (s : State) (n : Nat) (sd : Side) (f : Stripe → Stripe) :
    (s.updStripe n sd f).port n = (s.port n).setStripe sd (f ((s.port n).stripe sd)) := State.port_updPort ..

@[simp] theorem PortSt.stripe_setStripe (p : PortSt) (sd : Side) (x : Stripe) : (p.setStripe sd x).stripe sd = x := by
  cases sd <;> rfl

theorem PortSt.stripe_setStripe_other (p : PortSt) {sd sd' : Side} (x : Stripe) (ne : sd' ≠ sd) :
    (p.setStripe sd x).stripe sd' = p.stripe sd' := by
  cases sd <;> cases sd' <;> first | rfl | exact absurd rfl ne

/-- Writing a stripe writes nothing else of the port. -/
theorem PortSt.setStripe_only (p : PortSt) (sd : Side) (x : Stripe) :
    p.setStripe sd x = { p with a := (p.setStripe sd x).a, b := (p.setStripe sd x).b } := by
  cases sd <;> rfl

@[simp] theorem State.port_setTxSp (s : State) (n role : Nat) : (s.setTxSp n role).port n = { s.port n with txSp := role } := by
  unfold State.setTxSp
  split
  case isTrue same => rw [← same]
  case isFalse => exact (State.port_linkChanged ..).trans (State.port_updPort ..)

@[simp] theorem State.port_setRxSp (s : State) (n role : Nat) : (s.setRxSp n role).port n = { s.port n with rxSp := role } := by
  unfold State.setRxSp
  split
  case isTrue same => rw [← same]
  case isFalse => exact (State.port_linkChanged ..).trans (State.port_updPort ..)

@[simp] theorem State.port_sendTraining (s : State) (n k : Nat) (sd : Side) : (s.sendTraining n sd).port k = s.port k := by
  unfold State.sendTraining
  dsimp only
  split <;> rfl

/-- A stripe in the state that it enters. -/
def Stripe.into (x : Stripe) (st : StripeSt) : Stripe :=
  if x.st = st then x else { x with st := st, txLine := [], txPart := [], readOwed := false, rtOwed := false }

@[simp] theorem Stripe.into_st (x : Stripe) (st : StripeSt) : (x.into st).st = st := by
  unfold Stripe.into
  split
  · assumption
  · rfl

/-- A change of state writes the stripe, what its lanes start with, and STATE_BEAT. -/
theorem State.port_setStripeSt (s : State) (n : Nat) (sd : Side) (st : StripeSt) :
    (s.setStripeSt n sd st).port n = { (s.port n).setStripe sd (((s.port n).stripe sd).into st) with
      txRd := ((s.setStripeSt n sd st).port n).txRd, spOff := ((s.setStripeSt n sd st).port n).spOff
      stateBeat := ((s.setStripeSt n sd st).port n).stateBeat } := by
  unfold State.setStripeSt Stripe.into
  dsimp only
  split
  · cases sd <;> rfl
  · have linked (u : State) : (if ((s.port n).stripe sd).st = .up ∨ st = .up then u.linkChanged n else u).port n = u.port n := by
      split <;> rfl
    rw [linked, State.port_setPort]
    cases sd <;> split <;> rfl

theorem State.stripe_setStripeSt (s : State) (n : Nat) (sd : Side) (st : StripeSt) :
    ((s.setStripeSt n sd st).port n).stripe sd = ((s.port n).stripe sd).into st := by
  rw [port_setStripeSt]
  cases sd <;> rfl

theorem State.stripe_setStripeSt_other (s : State) (n : Nat) {sd sd' : Side} (st : StripeSt) (ne : sd' ≠ sd) :
    ((s.setStripeSt n sd st).port n).stripe sd' = (s.port n).stripe sd' := by
  rw [port_setStripeSt]
  cases sd <;> cases sd' <;> first | rfl | exact absurd rfl ne

end Sys2Proof.Machine

namespace Sys2Proof.Claims

open Sys2Proof.Machine

/-- A failed attempt is counted, and its stripe backs off (R340, R355). -/
theorem failAttempt_backsOff (s : State) (n : Nat) (sd : Side) (code : Nat) : BacksOff s (s.failAttempt n sd code) n sd code := by
  refine ⟨onlyPort_failAttempt .., ?_⟩
  unfold State.failAttempt
  dsimp only
  rw [State.stripe_setStripeSt, State.port_setStripeSt, State.port_updPort]
  refine ⟨Stripe.into_st .., ?_⟩
  cases sd <;> exact ⟨rfl, rfl, rfl⟩

/-! ### A new attempt (R340, R352) -/

/-- Lanes aligned anew move only what is kept of receive lanes. -/
theorem freshLanes_only (l : List Nat) (p : PortSt) :
    l.foldl (fun (p : PortSt) k => p.setLane k { p.lane k with rd := none }) p
      = { p with rxLanes := (l.foldl (fun (p : PortSt) k => p.setLane k { p.lane k with rd := none }) p).rxLanes } := by
  refine foldl_rel (R := fun p q : PortSt => q = { p with rxLanes := q.rxLanes }) _ (fun _ => rfl) (fun h g => ?_) (fun _ _ => rfl) l p
  rw [g, h]

/-- What a new attempt of a stripe may move of its port. -/
def Attempted (p q : PortSt) : Prop :=
  q = { p with
    a := q.a, b := q.b, attempts := q.attempts, clockLocked := q.clockLocked, ckOnSp := q.ckOnSp, txDropped := q.txDropped
    rxDropped := q.rxDropped, txJob := q.txJob, rxJob := q.rxJob, spOff := q.spOff, rxLanes := q.rxLanes, txSp := q.txSp
    rxSp := q.rxSp, txRd := q.txRd, stateBeat := q.stateBeat, presetUsed := q.presetUsed, preset := q.preset }

theorem Attempted.trans {p q r : PortSt} (h : Attempted p q) (g : Attempted q r) : Attempted p r := by
  unfold Attempted at *
  rw [g, h]

theorem attempted_setStripe (p : PortSt) (sd : Side) (x : Stripe) : Attempted p (p.setStripe sd x) := by cases sd <;> rfl

theorem attempted_prepare (p : PortSt) (sd : Side) (x : Stripe) : Attempted p (p.prepare sd x) := attempted_setStripe ..

theorem attempted_preset (p : PortSt) (k : Nat) (e : Entry) : Attempted p { p with presetUsed := k, preset := e } := rfl

theorem attempted_setStripeSt (s : State) (n : Nat) (sd : Side) (st : StripeSt) :
    Attempted (s.port n) ((s.setStripeSt n sd st).port n) := by
  rw [State.port_setStripeSt]
  exact (attempted_setStripe ..).trans rfl

/-- The port as a new attempt of a stripe leaves it, from the port in SEND with its preset latched. -/
def newAttempt (p : PortSt) (sd : Side) (before : Stripe) : PortSt :=
  let lanes := stripeLanes p.split sd
  let p := (p.setStripe sd ((p.stripe sd).hunt (lanes.headD 0))).prepare sd before
  let other := p.anyUp
  let freed (sp : Nat) := if other && !lanes.contains sp then sp else 15
  let gone := if other then lanes else 8 :: 9 :: lanes
  let p' := { p with
    attempts := satAdd (2 ^ 32 - 1) p.attempts 1
    clockLocked := other && p.clockLocked, ckOnSp := other && p.ckOnSp
    txDropped := clearLanes p.txDropped gone, rxDropped := clearLanes p.rxDropped gone
    txJob := dropJob sd p.txJob, rxJob := dropJob sd p.rxJob, spOff := other && p.spOff }
  { gone.foldl (fun (p : PortSt) k => p.setLane k { p.lane k with rd := none }) p' with txSp := freed p.txSp, rxSp := freed p.rxSp }

theorem port_enterSend (s : State) (n : Nat) (sd : Side) : (s.enterSend n sd).port n =
    newAttempt (((s.setStripeSt n sd .send).latchPreset n).port n) sd ((s.port n).stripe sd) := by
  unfold State.enterSend
  rw [State.port_sendTraining, State.port_setRxSp, State.port_setTxSp, State.port_setPort]
  rfl

theorem newAttempt_only (p : PortSt) (sd : Side) (before : Stripe) : Attempted p (newAttempt p sd before) := by
  unfold newAttempt
  dsimp only
  refine (attempted_setStripe p sd ((p.stripe sd).hunt ((stripeLanes p.split sd).headD 0))).trans ?_
  generalize p.setStripe sd _ = q
  refine (attempted_prepare q sd before).trans ?_
  generalize q.prepare sd before = r
  rw [freshLanes_only]
  rfl

/-- The counts and the stripes after a new attempt. -/
theorem newAttempt_stripes (p : PortSt) (sd : Side) (before : Stripe) :
    (newAttempt p sd before).attempts = satAdd (2 ^ 32 - 1) p.attempts 1
    ∧ (∀ x, (newAttempt p sd before).stripe x =
      ((p.setStripe sd ((p.stripe sd).hunt ((stripeLanes p.split sd).headD 0))).prepare sd before).stripe x) := by
  have counted : ((p.setStripe sd ((p.stripe sd).hunt ((stripeLanes p.split sd).headD 0))).prepare sd before).attempts = p.attempts := by
    cases sd <;> rfl
  unfold newAttempt
  dsimp only
  rw [freshLanes_only]
  generalize (p.setStripe sd ((p.stripe sd).hunt ((stripeLanes p.split sd).headD 0))).prepare sd before = r at counted
  refine ⟨?_, fun x => ?_⟩
  · rw [← counted]
  · cases x <;> rfl

theorem enterSend_only (s : State) (n : Nat) (sd : Side) : Attempted (s.port n) ((s.enterSend n sd).port n) := by
  rw [port_enterSend, State.latchPreset, State.port_setPort]
  exact (attempted_setStripeSt s n sd .send).trans ((attempted_preset ..).trans (newAttempt_only ..))

theorem stripe_enterSend (s : State) (n : Nat) (sd : Side) :
    ∃ first x read rt, ((s.enterSend n sd).port n).stripe sd = { Stripe.hunt x first with
      st := .send, readOwed := read, rtOwed := rt, identFresh := false } := by
  rw [port_enterSend, (newAttempt_stripes ..).2, State.latchPreset, State.port_setPort]
  have st := Stripe.into_st ((s.port n).stripe sd) .send
  have stripe := State.stripe_setStripeSt s n sd .send
  generalize (s.setStripeSt n sd .send).port n = p at stripe
  generalize ((s.port n).stripe sd).into .send = y at st stripe
  unfold PortSt.prepare
  rw [PortSt.stripe_setStripe, PortSt.stripe_setStripe]
  have same (k : Nat) (e : Entry) : ({ p with presetUsed := k, preset := e } : PortSt).stripe sd = y := by
    rw [← stripe]
    cases sd <;> rfl
  rw [same, ← st]
  exact ⟨_, y, _, _, rfl⟩

theorem stripe_enterSend_other (s : State) (n : Nat) {sd sd' : Side} (ne : sd' ≠ sd) :
    ((s.enterSend n sd).port n).stripe sd' = (s.port n).stripe sd' := by
  rw [port_enterSend, (newAttempt_stripes ..).2, State.latchPreset, State.port_setPort, PortSt.prepare,
    PortSt.stripe_setStripe_other _ _ ne, PortSt.stripe_setStripe_other _ _ ne]
  exact State.stripe_setStripeSt_other s n .send ne

theorem attempts_enterSend (s : State) (n : Nat) (sd : Side) :
    ((s.enterSend n sd).port n).attempts = satAdd (2 ^ 32 - 1) (s.port n).attempts 1 := by
  rw [port_enterSend, (newAttempt_stripes ..).1, State.latchPreset, State.port_setPort, State.port_setStripeSt]
  cases sd <;> rfl

/-- A stripe that enters SEND hunts anew, and its port counts the attempt. -/
theorem enterSend_hunts (s : State) (n : Nat) (sd : Side) : Hunts s (s.enterSend n sd) n sd := by
  obtain ⟨first, x, read, rt, stripe⟩ := stripe_enterSend s n sd
  unfold Hunts
  rw [stripe]
  exact ⟨rfl, rfl, rfl, rfl, rfl, attempts_enterSend ..⟩

end Sys2Proof.Claims
end

section
/-! PROOFS. Link training (R332 to R356). -/

namespace Sys2Proof.Claims

open Sys2Proof.Machine

/-! ## Locked lanes (R332 to R334) -/

/-- A stripe whose whole set has locked and that has no width yet takes the full one. -/
def fullWidth (split : Bool) (sd : Side) (x : Stripe) : Stripe :=
  if x.rxw = 0 then { x with rxw := (stripeLanes split sd).length, rxFirst := (stripeLanes split sd).headD 0 } else x

theorem stripe_tryAlign (s : State) (n : Nat) (sd : Side) : ((s.tryAlign n sd).port n).stripe sd =
    if ((s.port n).stripe sd).st = .send ∧ (huntSet (s.port n).split sd ((s.port n).stripe sd)).all
        (fun k => bitAt ((s.port n).stripe sd).locked.toNat k) = true
    then (fullWidth (s.port n).split sd ((s.port n).stripe sd)).into .align else (s.port n).stripe sd := by
  unfold State.tryAlign
  dsimp only
  split
  · rw [State.port_sendTraining, State.stripe_setStripeSt, State.port_updStripe, PortSt.stripe_setStripe]
    rfl
  · rfl

theorem rxSp_setStripeSt (s : State) (n : Nat) (sd : Side) (st : StripeSt) : ((s.setStripeSt n sd st).port n).rxSp = (s.port n).rxSp := by
  rw [State.port_setStripeSt]
  cases sd <;> rfl

theorem rxSp_tryAlign (s : State) (n : Nat) (sd : Side) : ((s.tryAlign n sd).port n).rxSp = (s.port n).rxSp := by
  unfold State.tryAlign
  dsimp only
  split
  · rw [State.port_sendTraining, rxSp_setStripeSt, State.port_updStripe]
    cases sd <;> rfl
  · rfl

/-- Energy is noted for every stripe of a port, and nothing else of it moves. -/
theorem noteEnergy (l : List Side) (n : Nat) (s : State) :
    let t := l.foldl (fun (s : State) sd => s.updStripe n sd fun x => { x with energySeen := true }) s
    OnlyPort s t n ∧ t.port n = { s.port n with a := (t.port n).a, b := (t.port n).b }
    ∧ ∀ x, (t.port n).stripe x = if x ∈ l then { (s.port n).stripe x with energySeen := true } else (s.port n).stripe x := by
  induction l generalizing s with
  | nil => exact ⟨.refl s n, rfl, fun _ => rfl⟩
  | cons sd r ih =>
    obtain ⟨only, port, stripes⟩ := ih (s.updStripe n sd fun x => { x with energySeen := true })
    rw [State.port_updStripe] at port stripes
    refine ⟨(onlyPort_updStripe ..).trans only, ?_, fun x => ?_⟩
    · refine Eq.trans port ?_
      rw [PortSt.setStripe_only]
      rfl
    · refine (stripes x).trans ?_
      by_cases e : x = sd
      · subst e
        rw [PortSt.stripe_setStripe]
        simp
      · rw [PortSt.stripe_setStripe_other _ _ e]
        simp [e]

/-- The clock of a port locks with its energy noted for every stripe (R332, R340). -/
theorem clockLocks (s u : State) (n : Nat) (only : OnlyPort s u n) (locked : (u.port n).clockLocked = true)
    (stripes : ∀ sd, (u.port n).stripe sd = (s.port n).stripe sd) :
    let t := (s.port n).sides.foldl (fun (s : State) sd => s.updStripe n sd fun x => { x with energySeen := true }) u
    OnlyPort s t n ∧ (t.port n).clockLocked = true ∧ (t.port n).ckOnSp = (u.port n).ckOnSp ∧ (t.port n).rxSp = (u.port n).rxSp
    ∧ ∀ x ∈ (s.port n).sides, (t.port n).stripe x = { (s.port n).stripe x with energySeen := true } := by
  obtain ⟨moved, port, noted⟩ := noteEnergy (s.port n).sides n u
  refine ⟨only.trans moved, ?_, ?_, ?_, fun x hx => ?_⟩
  · rw [port]
    exact locked
  · rw [port]
  · rw [port]
  · rw [noted, if_pos hx, stripes]

theorem rxClockLock_locks {port : Port} {s : State} (run : s.lineOk port.val = true) (good : s.rxLaneBad port.val 9 = false)
    (hunts : ((s.port port.val).sides.any fun x => ((s.port port.val).stripe x).hunting) = true) :
    ∃ t, exec (.rxClockLock port) s = .next t ∧ OnlyPort s t port.val ∧ (t.port port.val).clockLocked = true
      ∧ ∀ x ∈ (s.port port.val).sides, (t.port port.val).stripe x = { (s.port port.val).stripe x with energySeen := true } := by
  have same (p : PortSt) (sd : Side) : ({ p with clockLocked := true } : PortSt).stripe sd = p.stripe sd := by cases sd <;> rfl
  obtain ⟨only, locked, -, -, stripes⟩ := clockLocks s (s.updPort port.val fun p => { p with clockLocked := true }) port.val
    (onlyPort_updPort ..) (by rw [State.port_updPort]) (fun sd => by rw [State.port_updPort, same])
  refine ⟨_, ?_, only, locked, stripes⟩
  show execRxClockLock port s = _
  simp only [execRxClockLock, run, good, hunts]
  rfl

theorem ckOnSpTimeout_locks {port : Port} {s : State} (run : s.lineOk port.val = true) (unlocked : (s.port port.val).clockLocked = false)
    (idle : s.rxSpareIdle port.val = true)
    (hunts : ((s.port port.val).sides.any fun x => ((s.port port.val).stripe x).hunting) = true) :
    ∃ t, exec (.ckOnSpTimeout port) s = .next t ∧ OnlyPort s t port.val ∧ (t.port port.val).clockLocked = true
      ∧ (t.port port.val).ckOnSp = true ∧ (t.port port.val).rxSp = 9 := by
  have same (p : PortSt) (sd : Side) :
      ({ ({ p with clockLocked := true, ckOnSp := true } : PortSt) with rxSp := 9 } : PortSt).stripe sd = p.stripe sd := by
    cases sd <;> rfl
  obtain ⟨only, locked, onSp, spare, -⟩ := clockLocks s
    ((s.updPort port.val fun p => { p with clockLocked := true, ckOnSp := true }).setRxSp port.val 9) port.val
    ((onlyPort_updPort ..).trans (onlyPort_setRxSp ..)) (by rw [State.port_setRxSp, State.port_updPort])
    (fun sd => by rw [State.port_setRxSp, State.port_updPort, same])
  refine ⟨_, ?_, only, locked, ?_, ?_⟩
  · show execCkOnSpTimeout port s = _
    simp only [execCkOnSpTimeout, run, unlocked, idle, hunts]
    rfl
  · rw [onSp, State.port_setRxSp, State.port_updPort]
  · rw [spare, State.port_setRxSp]

theorem hunting_st {x : Stripe} (h : x.hunting = true) : x.st = .send := by
  simp only [Stripe.hunting, Bool.and_eq_true, beq_iff_eq] at h
  exact h.1.1

theorem mem_stripeLanes_lt {split : Bool} {sd : Side} {k : Nat} (h : k ∈ stripeLanes split sd) : k < 8 := by
  unfold stripeLanes at h
  cases split <;> cases sd <;> simp at h <;> omega

theorem huntSet_locked (split : Bool) (sd : Side) (x : Stripe) (m : BitVec 9) :
    huntSet split sd { x with locked := m } = huntSet split sd x := rfl

theorem fullWidth_locked (split : Bool) (sd : Side) (x : Stripe) : (fullWidth split sd x).locked = x.locked := by
  unfold fullWidth
  split <;> rfl

theorem Stripe.into_locked (x : Stripe) (st : StripeSt) : (x.into st).locked = x.locked := by
  unfold Stripe.into
  split <;> rfl

theorem laneHeaderLock_locks {port : Port} {sd : Side} {s : State} {lane : Fin 9} {id : BitVec 4} (run : s.lineOk port.val = true)
    (good : s.rxLaneBad port.val lane.val = false) (exists_ : sd = .b → (s.port port.val).split = true)
    (hunts : ((s.port port.val).stripe sd).hunting = true) (clock : (s.port port.val).clockLocked = true)
    (own : lane.val ∈ stripeLanes (s.port port.val).split sd) :
    (id.toNat = lane.val → exec (.laneHeaderLock port sd lane id) s = .next (((s.updStripe port.val sd fun x =>
        { x with locked := x.locked ||| BitVec.ofNat 9 (1 <<< lane.val) }).sendTraining port.val sd).tryAlign port.val sd))
    ∧ (id.toNat ≠ lane.val → exec (.laneHeaderLock port sd lane id) s = .next (s.updPort port.val fun p =>
        { p with trainFails := satAdd 255 p.trainFails 1 })) := by
  have data : lane.val ≠ 8 := Nat.ne_of_lt (mem_stripeLanes_lt own)
  have mine : (stripeLanes (s.port port.val).split sd).contains lane.val = true := by simpa using own
  have side : (sd == .b && !(s.port port.val).split) = false := by
    cases sd
    · rfl
    · rw [exists_ rfl]
      rfl
  have reached : exec (.laneHeaderLock port sd lane id) s = if id.toNat ≠ lane.val
      then .next (s.updPort port.val fun p => { p with trainFails := satAdd 255 p.trainFails 1 })
      else .next (((s.updStripe port.val sd fun x =>
        { x with locked := x.locked ||| BitVec.ofNat 9 (1 <<< lane.val) }).sendTraining port.val sd).tryAlign port.val sd) := by
    show execLaneHeaderLock port sd lane id s = _
    simp [execLaneHeaderLock, run, good, side, hunts, clock, data, own]
  exact ⟨fun names => by rw [reached, if_neg (not_not.mpr names)], fun other => by rw [reached, if_pos other]⟩

/-! ## Lanes that are lost (R334, R349) -/

/-- The half of a width that is kept has lanes. -/
theorem resolveLanes_keeps {idle : Bool} {lanes bad : List Nat} {sp : Option Nat} {half : Option (List Nat)} (wide : 2 ≤ lanes.length)
    (h : resolveLanes idle lanes bad = some (sp, half)) : (half.getD lanes).length ≠ 0 := by
  have first : (lanes.take (lanes.length / 2)).length ≠ 0 := by rw [List.length_take]; omega
  have second : (lanes.drop (lanes.length / 2)).length ≠ 0 := by rw [List.length_drop]; omega
  unfold resolveLanes at h
  dsimp only at h
  repeat' split at h
  all_goals cases h
  all_goals first | exact first | exact second | (show lanes.length ≠ 0; omega)

theorem stripeLanes_wide (split : Bool) (sd : Side) : 2 ≤ (stripeLanes split sd).length := by
  cases split <;> cases sd <;> decide

theorem settleLanes_port {s : State} {n : Nat} {sd : Side} {lanes bad : List Nat} {sp : Option Nat} {half : Option (List Nat)}
    (h : resolveLanes (s.rxSpareIdle n) lanes bad = some (sp, half)) :
    ((s.settleLanes n sd lanes bad).port n).stripe sd = { (s.port n).stripe sd with
      rxw := (half.getD lanes).length, rxFirst := (half.getD lanes).headD 0
      spWant := sp.getD (if (half.getD lanes).contains ((s.port n).stripe sd).spWant = true then ((s.port n).stripe sd).spWant else 15) }
    ∧ ∀ k, sp = some k → ((s.settleLanes n sd lanes bad).port n).rxSp = k := by
  have spare (p : PortSt) (k : Nat) (d : BitVec 10) :
      (({ ({ p with rxSp := k } : PortSt).freshLane 8 with rxDropped := d } : PortSt)).stripe sd = p.stripe sd := by
    cases sd <;> rfl
  unfold State.settleLanes
  rw [h]
  dsimp only
  rw [State.port_sendTraining]
  cases sp with
  | none =>
    rw [State.port_updStripe, PortSt.stripe_setStripe]
    exact ⟨rfl, fun k e => nomatch e⟩
  | some k =>
    dsimp only
    rw [State.port_updPort, State.port_setRxSp, spare, State.port_updStripe, PortSt.stripe_setStripe]
    exact ⟨rfl, fun k' e => Option.some.inj e⟩

/-- Settles O26: each row of link training does one thing to its stripe, and its port alone moves. -/
theorem trainingAdvances : Obligations.TrainingAdvances := by
  intro port sd s run
  refine ⟨fun good hunts => ⟨rxClockLock_locks run good hunts, fun unlocked idle => ckOnSpTimeout_locks run unlocked idle hunts⟩,
    fun lane id good side hunts clock own => ?_, fun sp half hunts locked width resolved => ?_, fun st => ⟨fun all => ?_, ?_⟩,
    fun hunts => ?_, fun st => ?_, fun st => ?_⟩
  · obtain ⟨locks, mismatch⟩ := laneHeaderLock_locks (id := id) run good side hunts clock own
    refine ⟨fun names => ⟨_, locks names, ?_, ?_, ?_⟩, mismatch⟩
    · exact (onlyPort_updStripe ..).trans ((onlyPort_sendTraining ..).trans (onlyPort_tryAlign ..))
    · rw [stripe_tryAlign, State.port_sendTraining, State.port_updStripe, PortSt.stripe_setStripe]
      split
      · rw [Stripe.into_locked, fullWidth_locked]
      · rfl
    · have split : (((s.port port.val).setStripe sd { (s.port port.val).stripe sd with
          locked := ((s.port port.val).stripe sd).locked ||| BitVec.ofNat 9 (1 <<< lane.val) }).split) = (s.port port.val).split := by
        cases sd <;> rfl
      have send := hunting_st hunts
      rw [stripe_tryAlign, State.port_sendTraining, State.port_updStripe, PortSt.stripe_setStripe, huntSet_locked, split]
      by_cases all : (huntSet (s.port port.val).split sd ((s.port port.val).stripe sd)).all (fun k => bitAt
          (((s.port port.val).stripe sd).locked ||| BitVec.ofNat 9 (1 <<< lane.val)).toNat k) = true
      · rw [if_pos ⟨send, all⟩, Stripe.into_st, Stripe.into_locked, fullWidth_locked, if_pos all]
      · rw [if_neg fun h => all h.2, if_neg all]
        exact send
  · obtain ⟨stripe, spare⟩ := settleLanes_port (sd := sd) resolved
    have kept := resolveLanes_keeps (stripeLanes_wide ..) resolved
    have runs : exec (.tLaneWaitExpiry port sd) s = .next ((s.settleLanes port.val sd (stripeLanes (s.port port.val).split sd)
        ((stripeLanes (s.port port.val).split sd).filter fun k => !bitAt ((s.port port.val).stripe sd).locked.toNat k)).tryAlign
          port.val sd) := by
      show execTLaneWaitExpiry port sd s = _
      have some_ : (((s.port port.val).stripe sd).locked == 0) = false := beq_false_of_ne locked
      simp only [execTLaneWaitExpiry, run, hunts, some_, width]
      rfl
    refine ⟨_, runs, (onlyPort_settleLanes ..).trans (onlyPort_tryAlign ..), ?_, ?_, fun k e => (rxSp_tryAlign ..).trans (spare k e)⟩
    all_goals
      rw [stripe_tryAlign, stripe, fullWidth, if_neg kept]
      unfold Stripe.into
      repeat' split
      all_goals rfl
  · have runs : exec (.alignConfirmed port sd) s = .next (((s.updStripe port.val sd fun x => { x with aligned := true }).setStripeSt
        port.val sd .exchange).sendTraining port.val sd) := by
      have none_ : ((huntSet (s.port port.val).split sd ((s.port port.val).stripe sd)).any
          fun k => !bitAt ((s.port port.val).stripe sd).locked.toNat k) = false := by
        rw [List.any_eq_not_all_not]
        simpa using all
      show execAlignConfirmed port sd s = _
      simp only [execAlignConfirmed, run, st, none_]
      rfl
    refine ⟨_, runs, (onlyPort_updStripe ..).trans ((onlyPort_setStripeSt ..).trans (onlyPort_sendTraining ..)), ?_⟩
    rw [State.port_sendTraining, State.stripe_setStripeSt, State.port_updStripe, PortSt.stripe_setStripe, Stripe.into,
      if_neg (by rw [st]; decide)]
  · exact ⟨_, by simp [exec, execTAlignExpiry, run, st], failAttempt_backsOff ..⟩
  · exact ⟨_, by simp [exec, execTHuntExpiry, run, hunts], failAttempt_backsOff ..⟩
  · exact ⟨_, by simp [exec, execTExchangeExpiry, run, st], failAttempt_backsOff ..⟩
  · exact ⟨_, by simp [exec, execBackoffEnd, run, st], onlyPort_enterSend .., enterSend_hunts ..⟩

/-! ## Energy and presence (R320, R340, R356) -/

theorem sides_nodup (p : PortSt) : p.sides.Nodup := by
  unfold PortSt.sides
  split <;> decide

/-- A pass over the stripes of a port, each step of which leaves the other stripe alone: what became of a stripe is what its own step
made of it. -/
theorem foldSides {f : State → Side → State} {n : Nat}
    (other : ∀ s {sd sd' : Side}, sd' ≠ sd → ((f s sd).port n).stripe sd' = (s.port n).stripe sd') (l : List Side) (s : State) (x : Side) :
    (x ∉ l → ((l.foldl f s).port n).stripe x = (s.port n).stripe x)
    ∧ (l.Nodup → x ∈ l → ∃ u, (u.port n).stripe x = (s.port n).stripe x
        ∧ ((l.foldl f s).port n).stripe x = ((f u x).port n).stripe x) := by
  induction l generalizing s with
  | nil => exact ⟨fun _ => rfl, fun _ h => nomatch h⟩
  | cons y r ih =>
    obtain ⟨out, own⟩ := ih (f s y)
    rw [List.foldl_cons]
    refine ⟨fun h => ?_, fun nodup h => ?_⟩
    · rw [List.mem_cons, not_or] at h
      exact (out h.2).trans (other s h.1)
    · rw [List.nodup_cons] at nodup
      by_cases e : x = y
      · subst e
        exact ⟨s, rfl, out nodup.1⟩
      · obtain ⟨u, same, made⟩ := own nodup.2 ((List.mem_cons.mp h).resolve_left e)
        exact ⟨u, same.trans (other s e), made⟩

theorem Attempted.refl (p : PortSt) : Attempted p p := rfl

/-- What energy does to a stripe (R340; log entry 66). -/
def energyStep (n : Nat) (s : State) (sd : Side) : State :=
  let x := (s.port n).stripe sd
  if x.st = .backoff ∧ x.energySeen = false then s.enterSend n sd
  else if x.hunting then s.updStripe n sd fun x => { x with energySeen := true }
  else s

theorem energyStep_moves (s : State) (n : Nat) (sd : Side) :
    OnlyPort s (energyStep n s sd) n ∧ Attempted (s.port n) ((energyStep n s sd).port n) := by
  unfold energyStep
  dsimp only
  repeat' split
  · exact ⟨onlyPort_enterSend .., enterSend_only ..⟩
  · exact ⟨onlyPort_updStripe .., by rw [State.port_updStripe]; exact attempted_setStripe ..⟩
  · exact ⟨.refl .., .refl _⟩

theorem energyStep_other (n : Nat) (s : State) {sd sd' : Side} (ne : sd' ≠ sd) :
    ((energyStep n s sd).port n).stripe sd' = (s.port n).stripe sd' := by
  unfold energyStep
  dsimp only
  repeat' split
  · exact stripe_enterSend_other s n ne
  · rw [State.port_updStripe, PortSt.stripe_setStripe_other _ _ ne]
  · rfl

/-- The state with the wake of a sleeping RX direction begun (R320). -/
def rxWoken (s : State) (n : Nat) : State :=
  if (s.port n).rxAsleep ∧ (s.port n).rxWaking = 0 then (s.setPort n { s.port n with rxWaking := 1 }).emit (.lanesPower n .rx true)
  else s

theorem lineOk_untested {s : State} {n : Nat} (run : s.lineOk n = true) : s.live = true ∧ s.portInReset n = false ∧ s.underTest n = false := by
  simpa [State.lineOk, State.lanesRun] using run

theorem exec_energyDetected {port : Port} {s : State} (run : s.lineOk port.val = true) : exec (.energyDetected port) s =
    .next ((s.port port.val).sides.foldl (energyStep port.val) (rxWoken s port.val)) := by
  obtain ⟨-, -, untested⟩ := lineOk_untested run
  have inactive : s.bist.active.contains port.val = false := by
    rw [State.underTest, Bool.or_eq_false_iff] at untested
    exact untested.1
  show execEnergyDetected port s = _
  simp only [execEnergyDetected, run, inactive, Bool.and_false, Bool.false_and, Bool.not_true, Bool.false_eq_true, if_false]
  rfl

theorem rxWoken_effect (s : State) (n : Nat) : OnlyPort s (rxWoken s n) n ∧ (rxWoken s n).port n = { s.port n with
    rxWaking := if (s.port n).rxAsleep = true ∧ (s.port n).rxWaking = 0 then 1 else (s.port n).rxWaking } := by
  unfold rxWoken
  split
  · exact ⟨(onlyPort_setPort ..).trans (onlyPort_emit ..), by rw [State.port_emit, State.port_setPort]⟩
  · exact ⟨.refl .., rfl⟩

theorem exec_presenceSettled {port : Port} {s : State} (run : s.lineOk port.val = true) (enabled : (s.port port.val).enabled = true)
    (present : s.present port.val = true)
    (absent : ((s.port port.val).sides.any fun sd => decide (((s.port port.val).stripe sd).st = .absent)) = true) :
    exec (.presenceSettled port) s = .next (((s.port port.val).sides.filter fun sd =>
      decide (((s.port port.val).stripe sd).st = .absent)).foldl (fun s sd => s.enterSend port.val sd)
        (s.setPort port.val { s.port port.val with backoffExp := 0 })) := by
  have some_ : ((s.port port.val).sides.filter fun sd => decide (((s.port port.val).stripe sd).st = .absent)).isEmpty = false := by
    obtain ⟨sd, here, st⟩ := List.any_eq_true.mp absent
    exact List.isEmpty_eq_false_iff_exists_mem.mpr ⟨sd, List.mem_filter.mpr ⟨here, st⟩⟩
  show execPresenceSettled port s = _
  simp only [execPresenceSettled, run, enabled, present, some_]
  rfl

theorem enterSends_attempted (l : List Side) (n : Nat) (s : State) :
    Attempted (s.port n) ((l.foldl (fun s sd => s.enterSend n sd) s).port n) :=
  foldl_rel (R := fun s t : State => Attempted (s.port n) (t.port n)) (fun s sd => s.enterSend n sd) (fun _ => rfl) .trans
    (fun _ _ => enterSend_only ..) l s

theorem presenceSettled_starts {port : Port} {s : State} (run : s.lineOk port.val = true) (enabled : (s.port port.val).enabled = true)
    (present : s.present port.val = true)
    (absent : ((s.port port.val).sides.any fun sd => decide (((s.port port.val).stripe sd).st = .absent)) = true) :
    ∃ t, exec (.presenceSettled port) s = .next t ∧ OnlyPort s t port.val ∧ (t.port port.val).backoffExp = 0
      ∧ ∀ sd ∈ (s.port port.val).sides,
        (((s.port port.val).stripe sd).st = .absent → ((t.port port.val).stripe sd).st = .send)
        ∧ (((s.port port.val).stripe sd).st ≠ .absent → (t.port port.val).stripe sd = (s.port port.val).stripe sd) := by
  refine ⟨_, exec_presenceSettled run enabled present absent, ?_, ?_, fun sd here => ⟨fun st => ?_, fun st => ?_⟩⟩
  · exact (onlyPort_setPort ..).trans (onlyPort_foldl _ (fun _ _ => onlyPort_enterSend ..) _ _)
  · rw [enterSends_attempted, State.port_setPort]
  · have own := (foldSides (fun s => stripe_enterSend_other s port.val) _
      (s.setPort port.val { s.port port.val with backoffExp := 0 }) sd).2 ((sides_nodup (s.port port.val)).filter fun sd =>
        decide (((s.port port.val).stripe sd).st = .absent)) (List.mem_filter.mpr ⟨here, decide_eq_true st⟩)
    obtain ⟨u, -, made⟩ := own
    rw [made]
    exact (enterSend_hunts u port.val sd).1
  · refine ((foldSides (fun s => stripe_enterSend_other s port.val) _
      (s.setPort port.val { s.port port.val with backoffExp := 0 }) sd).1 fun h => ?_).trans ?_
    · exact st (of_decide_eq_true (List.mem_filter.mp h).2)
    · rw [State.port_setPort]
      cases sd <;> rfl

/-- Settles O27: energy and presence act on each stripe of the port by its own state. -/
theorem energyAndPresenceStartTraining : Obligations.EnergyAndPresenceStartTraining := by
  intro port s run
  refine ⟨⟨_, exec_energyDetected run, ?_, ?_, fun sd here => ?_⟩, fun enabled present absent => ?_⟩
  · exact (rxWoken_effect ..).1.trans (onlyPort_foldl _ (fun _ _ => (energyStep_moves ..).1) _ _)
  · have moved : Attempted ((rxWoken s port.val).port port.val)
        (((s.port port.val).sides.foldl (energyStep port.val) (rxWoken s port.val)).port port.val) :=
      foldl_rel (R := fun s t : State => Attempted (s.port port.val) (t.port port.val)) _ (fun _ => rfl) .trans
        (fun _ _ => (energyStep_moves ..).2) _ _
    rw [moved, (rxWoken_effect ..).2]
  · obtain ⟨u, same, made⟩ := (foldSides (energyStep_other port.val) (s.port port.val).sides (rxWoken s port.val) sd).2
      (sides_nodup _) here
    have woken : ((rxWoken s port.val).port port.val).stripe sd = (s.port port.val).stripe sd := by
      rw [(rxWoken_effect ..).2]
      cases sd <;> rfl
    rw [made]
    rw [woken] at same
    unfold energyStep
    simp only [same]
    refine ⟨fun st unseen => ?_, fun hunts => ?_, fun idle st => ?_⟩
    · rw [if_pos ⟨st, unseen⟩]
      obtain ⟨send, -, width, -⟩ := enterSend_hunts u port.val sd
      exact ⟨send, width⟩
    · have send : ((s.port port.val).stripe sd).st ≠ .backoff := by
        rw [hunting_st hunts]
        decide
      rw [if_neg fun h => send h.1, if_pos hunts, State.port_updStripe, PortSt.stripe_setStripe, same]
    · rw [if_neg fun h => st h.1, if_neg (by rw [idle]; decide)]
      exact same
  · exact presenceSettled_starts run enabled present absent

end Sys2Proof.Claims
end

section
/-! PROOFS. Flits that a link sends (R343 to R347): what handing one to the lanes moves, and what a replay sends. -/

namespace Sys2Proof.Machine

/-! ## The stripe of an LP -/

@[simp] theorem PortSt.setStripe_setStripe (p : PortSt) (sd : Side) (x y : Stripe) : (p.setStripe sd x).setStripe sd y = p.setStripe sd y := by
  cases sd <;> rfl

@[simp] theorem PortSt.setStripe_stripe (p : PortSt) (sd : Side) : p.setStripe sd (p.stripe sd) = p := by cases sd <;> rfl

theorem State.port_setLpStripe (s : State) (lp : Nat) (x : Stripe) :
    (s.setLpStripe lp x).port (lpPort lp) = (s.port (lpPort lp)).setStripe (lpSide lp) x := State.port_updPort ..

theorem State.port_updLp (s : State) (lp : Nat) (f : Stripe → Stripe) :
    (s.updLp lp f).port (lpPort lp) = (s.port (lpPort lp)).setStripe (lpSide lp) (f (s.lpStripe lp)) := State.port_updStripe ..

@[simp] theorem State.lpStripe_setLpStripe (s : State) (lp : Nat) (x : Stripe) : (s.setLpStripe lp x).lpStripe lp = x := by
  rw [State.lpStripe, State.port_setLpStripe, PortSt.stripe_setStripe]

@[simp] theorem State.lpStripe_updLp (s : State) (lp : Nat) (f : Stripe → Stripe) : (s.updLp lp f).lpStripe lp = f (s.lpStripe lp) := by
  rw [State.lpStripe, State.port_updLp, PortSt.stripe_setStripe]

end Sys2Proof.Machine

namespace Sys2Proof.Claims

open Sys2Proof.Machine

/-- An LP's stripe has become x, beside which only counters moved and this left. -/
def LpSends (s t : State) (lp : Nat) (x : Stripe) (l : List Emission) : Prop :=
  OnlyPort s t (lpPort lp) ∧ t.port (lpPort lp) = (s.port (lpPort lp)).setStripe (lpSide lp) x ∧ t.out = s.out ++ l

theorem LpSends.trans {s t u : State} {lp : Nat} {x y : Stripe} {l m : List Emission} (h : LpSends s t lp x l) (g : LpSends t u lp y m) :
    LpSends s u lp y (l ++ m) := by
  obtain ⟨only, port, out⟩ := h
  obtain ⟨only', port', out'⟩ := g
  refine ⟨only.trans only', ?_, ?_⟩
  · rw [port', port, PortSt.setStripe_setStripe]
  · rw [out', out, List.append_assoc]

theorem LpSends.lpStripe {s t : State} {lp : Nat} {x : Stripe} {l : List Emission} (h : LpSends s t lp x l) : t.lpStripe lp = x := by
  rw [State.lpStripe, h.2.1, PortSt.stripe_setStripe]

theorem lpSends_updLp (s : State) (lp : Nat) (f : Stripe → Stripe) : LpSends s (s.updLp lp f) lp (f (s.lpStripe lp)) [] :=
  ⟨onlyPort_updStripe .., State.port_updLp .., (List.append_nil _).symm⟩

theorem lpSends_setLpStripe (s : State) (lp : Nat) (x : Stripe) : LpSends s (s.setLpStripe lp x) lp x [] :=
  ⟨onlyPort_updPort .., State.port_setLpStripe .., (List.append_nil _).symm⟩

theorem lpSends_emit (s : State) (lp : Nat) (e : Emission) : LpSends s (s.emit e) lp (s.lpStripe lp) [e] :=
  ⟨onlyPort_emit .., (PortSt.setStripe_stripe ..).symm, rfl⟩

theorem lpSends_countLp (s : State) (lp code : Nat) (k a : Option Nat) (m n : Nat) :
    LpSends s (s.countLp m code k a n) lp (s.lpStripe lp) [] := by
  refine ⟨onlyPort_countLp .., ?_⟩
  obtain ⟨c, e⟩ := State.countLp_only s m code k a n
  rw [e, List.append_nil]
  exact ⟨(PortSt.setStripe_stripe ..).symm, rfl⟩

/-- A stripe with what waits for its lanes, and whether it owes an acknowledgement, in the place of what it had. -/
def lined (x : Stripe) (line : List LineItem) (owed : Bool) : Stripe := { x with txLine := line, ackOwed := owed }

theorem lined_lined (x : Stripe) (l m : List LineItem) (o p : Bool) : lined (lined x l o) m p = lined x m p := rfl

theorem lined_self (x : Stripe) : lined x x.txLine x.ackOwed = x := rfl

theorem lined_rxNext (x : Stripe) (l : List LineItem) (o : Bool) : (lined x l o).rxNext = x.rxNext := rfl

/-- A stripe that has handed a flit to its lanes. -/
def handed (x : Stripe) (f : BitVec 2048) : Stripe := lined x (x.txLine ++ [.flit f]) false

theorem handed_rxNext (x : Stripe) (f : BitVec 2048) : (handed x f).rxNext = x.rxNext := rfl

theorem lpSends_putFlit (s : State) (lp : Nat) (h : Hdr) (payload : Bytes) (stomped : Bool) :
    LpSends s (s.putFlit lp h payload stomped) lp (handed (s.lpStripe lp) (wireOf s lp h payload stomped))
      [.flit lp (wireOf s lp h payload stomped)] := by
  have sent := lpSends_emit (s.setLpStripe lp (handed (s.lpStripe lp) (wireOf s lp h payload stomped))) lp
    (.flit lp (wireOf s lp h payload stomped))
  rw [State.lpStripe_setLpStripe] at sent
  exact (lpSends_setLpStripe ..).trans sent

theorem LpSends.counted {s t u : State} {lp : Nat} {x : Stripe} {l : List Emission} (h : LpSends s t lp x l)
    (g : LpSends t u lp (t.lpStripe lp) []) : LpSends s u lp x l := by
  have := h.trans g
  rwa [h.lpStripe, List.append_nil] at this

theorem LpSends.emitted {s t : State} {lp : Nat} {x : Stripe} {l : List Emission} (h : LpSends s t lp x l) (e : Emission) :
    LpSends s (t.emit e) lp x (l ++ [e]) := by
  have := h.trans (lpSends_emit t lp e)
  rwa [h.lpStripe] at this

theorem lpSends_sendCtrl (s : State) (lp subtype : Nat) (bytes : Bytes) :
    LpSends s (s.sendCtrl lp subtype bytes) lp (handed (s.lpStripe lp) (wireOf s lp ctrlHdr (leBytes 1 subtype ++ bytes) false))
      [.flit lp (wireOf s lp ctrlHdr (leBytes 1 subtype ++ bytes) false)] :=
  (((lpSends_putFlit ..).counted (lpSends_countLp ..)).counted (lpSends_countLp ..)).counted (lpSends_countLp ..)

theorem lpSends_putSync (s : State) (lp : Nat) :
    LpSends s (s.putSync lp) lp { s.lpStripe lp with txLine := (s.lpStripe lp).txLine ++ [.sync] } [.syncBlock (lpPort lp) (lpSide lp)] :=
  (lpSends_setLpStripe ..).emitted _

theorem lpSends_resendFlit (s : State) (lp : Nat) (f : TxFlit) :
    LpSends s (s.resendFlit lp f) lp (handed (s.lpStripe lp) (wireOf s lp f.hdr f.payload f.stomped))
      [.flit lp (wireOf s lp f.hdr f.payload f.stomped)] := by
  refine LpSends.counted (LpSends.counted ?_ (lpSends_countLp ..)) (lpSends_countLp ..)
  split
  · exact (lpSends_putFlit ..).counted (lpSends_countLp ..)
  · exact (lpSends_putFlit ..).counted (lpSends_countLp ..)

/-- The flits on the wire depend on RX_NEXT alone. -/
theorem wireOf_congr {s t : State} {lp : Nat} (h : (t.lpStripe lp).rxNext = (s.lpStripe lp).rxNext) : wireOf t lp = wireOf s lp := by
  unfold wireOf
  rw [h]

theorem lpSends_resendAll (l : List TxFlit) (s : State) (lp : Nat) : ∃ line owed,
    LpSends s (l.foldl (fun s f => s.resendFlit lp f) s) lp (lined (s.lpStripe lp) line owed)
      (l.map fun f => .flit lp (wireOf s lp f.hdr f.payload f.stomped)) := by
  induction l generalizing s with
  | nil =>
    refine ⟨(s.lpStripe lp).txLine, (s.lpStripe lp).ackOwed, .refl s _, ?_, (List.append_nil _).symm⟩
    rw [lined_self]
    exact (PortSt.setStripe_stripe ..).symm
  | cons f r ih =>
    have first := lpSends_resendFlit s lp f
    obtain ⟨line, owed, rest⟩ := ih (s.resendFlit lp f)
    have wire : wireOf (s.resendFlit lp f) lp = wireOf s lp := wireOf_congr (by rw [first.lpStripe, handed_rxNext])
    rw [first.lpStripe, handed, lined_lined, wire] at rest
    exact ⟨line, owed, first.trans rest⟩

/-- What a replay sends: an /S/ block, REPLAY_START of acked, and the flits that are not acknowledged (R347). -/
def replayOut (s : State) (lp : Nat) : List Emission :=
  [.syncBlock (lpPort lp) (lpSide lp),
    .flit lp (wireOf s lp ctrlHdr (leBytes 1 4 ++ (zeros 3 ++ leBytes 2 (s.lpStripe lp).acked)) false),
    .replayStart lp (s.lpStripe lp).acked]
  ++ (s.lpStripe lp).replay.map fun f => .flit lp (wireOf s lp f.hdr f.payload f.stomped)

theorem lpSends_resend (s : State) (lp : Nat) : ∃ line owed,
    LpSends s (s.resend lp) lp (lined (s.lpStripe lp) line owed) (replayOut s lp) := by
  have cut : LpSends s (s.updLp lp fun x => { x with txLine := [] }) lp (lined (s.lpStripe lp) [] (s.lpStripe lp).ackOwed) [] :=
    lpSends_updLp ..
  have sync : LpSends _ _ lp (lined (s.lpStripe lp) [.sync] (s.lpStripe lp).ackOwed) [.syncBlock (lpPort lp) (lpSide lp)] :=
    cut.trans (cut.lpStripe ▸ lpSends_putSync ..)
  have start := lpSends_sendCtrl ((s.updLp lp fun x => { x with txLine := [] }).putSync lp) lp 4 (zeros 3 ++ leBytes 2 (s.lpStripe lp).acked)
  rw [sync.lpStripe, handed, lined_lined, wireOf_congr (s := s) (by rw [sync.lpStripe, lined_rxNext])] at start
  have named := (sync.trans start).emitted (.replayStart lp (s.lpStripe lp).acked)
  obtain ⟨line, owed, again⟩ := lpSends_resendAll (s.lpStripe lp).replay _ lp
  rw [named.lpStripe, lined_lined, wireOf_congr (s := s) (by rw [named.lpStripe, lined_rxNext])] at again
  have all := named.trans again
  have last := all.trans (lpSends_updLp _ lp fun y =>
    lined y (y.txLine ++ (s.lpStripe lp).txLine.filter LineItem.isLane) y.ackOwed)
  rw [all.lpStripe, lined_lined, List.append_nil] at last
  exact ⟨_, _, last⟩

end Sys2Proof.Claims
end

section
/-! PROOFS. Acknowledgements, replay and received flits (R343 to R347). -/

namespace Sys2Proof.Claims

open Sys2Proof.Machine

/-! ## What an acknowledgement leaves of every stripe (R345) -/

/-- A sequenced flit may have joined the stripe's replay buffer and its lanes. -/
def StripeQueued (x y : Stripe) : Prop :=
  y = { x with initOwed := y.initOwed, replay := y.replay, txNext := y.txNext, txLine := y.txLine, ackOwed := y.ackOwed }

theorem StripeQueued.acked {x y : Stripe} (h : StripeQueued x y) : y.acked = x.acked := by rw [h]

theorem StripeQueued.rxNext {x y : Stripe} (h : StripeQueued x y) : y.rxNext = x.rxNext := by rw [h]

/-- Sequenced flits may have joined the stripes' replay buffers and lanes; no stripe changed otherwise, and no mode or lane
change. -/
structure FlitsQueued (s t : State) : Prop where
  mode : ∀ k, (t.port k).split = (s.port k).split ∧ (t.port k).rxJob = (s.port k).rxJob
  stripe : ∀ k sd, StripeQueued ((s.port k).stripe sd) ((t.port k).stripe sd)

theorem StripeQueued.trans {x y z : Stripe} (h : StripeQueued x y) (g : StripeQueued y z) : StripeQueued x z := by
  unfold StripeQueued at *
  rw [g, h]

theorem FlitsQueued.trans {s t u : State} (h : FlitsQueued s t) (g : FlitsQueued t u) : FlitsQueued s u :=
  ⟨fun k => ⟨(g.mode k).1.trans (h.mode k).1, (g.mode k).2.trans (h.mode k).2⟩, fun k sd => (h.stripe k sd).trans (g.stripe k sd)⟩

theorem flitsQueued_of_ports {s t : State} (h : t.ports = s.ports) : FlitsQueued s t := by
  have same (k : Nat) : t.port k = s.port k := congrArg (fun m => sget m k defaultPort) h
  exact ⟨fun k => by rw [same]; exact ⟨rfl, rfl⟩, fun k sd => by rw [same]; rfl⟩

theorem flitsQueued_setPort (s : State) (n : Nat) {q : PortSt} (mode : q.split = (s.port n).split ∧ q.rxJob = (s.port n).rxJob)
    (stripes : ∀ sd, StripeQueued ((s.port n).stripe sd) (q.stripe sd)) : FlitsQueued s (s.setPort n q) := by
  constructor <;> intro k <;> by_cases e : k = n
  · rw [e, State.port_setPort]
    exact mode
  · rw [State.port_setPort_other s _ e]
    exact ⟨rfl, rfl⟩
  · rw [e, State.port_setPort]
    exact stripes
  · rw [State.port_setPort_other s _ e]
    exact fun _ => rfl

theorem flitsQueued_setLpStripe (s : State) (lp : Nat) {x : Stripe} (h : StripeQueued (s.lpStripe lp) x) :
    FlitsQueued s (s.setLpStripe lp x) := by
  have mode (p : PortSt) (sd : Side) : (p.setStripe sd x).split = p.split ∧ (p.setStripe sd x).rxJob = p.rxJob := by
    cases sd <;> exact ⟨rfl, rfl⟩
  refine flitsQueued_setPort s _ (mode ..) fun sd => ?_
  by_cases e : sd = lpSide lp
  · subst e
    rw [PortSt.stripe_setStripe]
    exact h
  · rw [PortSt.stripe_setStripe_other _ _ e]
    rfl

theorem countLp_ports (s : State) (lp code : Nat) (k a : Option Nat) (n : Nat) : (s.countLp lp code k a n).ports = s.ports := by
  obtain ⟨m, e⟩ := State.countLp_only s lp code k a n
  rw [e]

theorem countCtrl_ports (s : State) (lp k : Nat) : (s.countCtrl lp k).ports = s.ports :=
  (countLp_ports ..).trans <| (countLp_ports ..).trans (countLp_ports ..)

theorem finishWork_ports (s : State) (p : Work → Bool) (st : BitVec 8) (d : Nat) (b : Bytes) : (s.finishWork p st d b).ports = s.ports := by
  obtain ⟨_, _, _, _, _, _, _, _, e⟩ := State.finishWork_only s p st d b
  rw [e]

theorem finishAll_ports (s : State) (p : Work → Bool) (st : BitVec 8) (d : Nat) : (s.finishAll p st d).ports = s.ports :=
  foldl_rel (R := fun s t : State => t.ports = s.ports) _ (fun _ => rfl) (fun h g => g.trans h) (fun _ _ => finishWork_ports ..) _ s

theorem flitsQueued_sendSeq (s : State) (lp : Nat) (h : Hdr) (b : Bytes) (st : Bool) : FlitsQueued s (s.sendSeq lp h b st) :=
  (flitsQueued_setLpStripe s lp (by rfl)).trans <| (flitsQueued_setLpStripe _ lp (by rfl)).trans (flitsQueued_of_ports rfl)

theorem flitsQueued_sendSleepFlit (s : State) (n a : Nat) : FlitsQueued s (s.sendSleepFlit n a) :=
  (flitsQueued_sendSeq ..).trans (flitsQueued_of_ports (countCtrl_ports ..))

theorem flitsQueued_sleepOut (s : State) (n : Nat) (l : List Nat) :
    FlitsQueued s (s.updPort n fun p => { p with sleepOut := l }) :=
  flitsQueued_setPort s n ⟨rfl, rfl⟩ fun sd => by cases sd <;> rfl

theorem flitsQueued_trySleepFlits (l : List Nat) (s : State) (n : Nat) : FlitsQueued s (s.trySleepFlits n l) := by
  induction l generalizing s with
  | nil => exact flitsQueued_sleepOut ..
  | cons a r ih =>
    rw [State.trySleepFlits]
    split
    · exact (flitsQueued_sendSleepFlit ..).trans (ih _)
    · exact flitsQueued_sleepOut ..

theorem flitsQueued_flushSleepOut (s : State) (n : Nat) : FlitsQueued s (s.flushSleepOut n) := by
  unfold State.flushSleepOut
  split
  · exact flitsQueued_of_ports rfl
  · exact flitsQueued_trySleepFlits ..

theorem flitsQueued_abandonSleep (s : State) (n : Nat) : FlitsQueued s (s.abandonSleep n) := by
  unfold State.abandonSleep
  dsimp only
  split
  · exact flitsQueued_of_ports rfl
  · have awake : FlitsQueued s (s.setPort n { s.port n with txSleeping := false, peerSleep := false }) :=
      flitsQueued_setPort s n ⟨rfl, rfl⟩ fun sd => by cases sd <;> rfl
    refine .trans (awake.trans ?_) (flitsQueued_of_ports (finishAll_ports ..))
    split
    · refine .trans ?_ (flitsQueued_flushSleepOut ..)
      exact flitsQueued_setPort _ n ⟨rfl, rfl⟩ fun sd => by cases sd <;> rfl
    · exact flitsQueued_of_ports rfl

theorem flitsQueued_sendCreditFlit (s : State) (lp : Nat) (init : Bool) (counts : List Nat) :
    FlitsQueued s (s.sendCreditFlit lp init counts) :=
  (flitsQueued_abandonSleep ..).trans <| (flitsQueued_sendSeq ..).trans (flitsQueued_of_ports (countCtrl_ports ..))

theorem clearPending_ports (s : State) (lp : Nat) : (s.clearPending lp).ports = s.ports := rfl

theorem flitsQueued_sendInit (s : State) (lp : Nat) : FlitsQueued s (s.sendInit lp) := by
  unfold State.sendInit
  split
  · have settled : FlitsQueued s (s.setLpStripe lp { s.lpStripe lp with initOwed := false }) :=
      flitsQueued_setLpStripe s lp (by rfl)
    exact settled.trans <| (flitsQueued_sendCreditFlit ..).trans (flitsQueued_of_ports (clearPending_ports ..))
  · exact flitsQueued_of_ports rfl

theorem FlitsQueued.lp {s t : State} (h : FlitsQueued s t) (lp : Nat) : StripeQueued (s.lpStripe lp) (t.lpStripe lp) := h.stripe ..

/-! ## Acknowledgements (R345, R347) -/

theorem exec_of_rxOk {lp : Lp} {s : State} (h : s.rxOk lp.val = true) :
    s.lineOk (lpPort lp.val) = true ∧ s.lpUp lp.val = true ∧ (s.port (lpPort lp.val)).rxAsleep = false := by
  simpa [State.rxOk, and_assoc] using h

theorem ackIn_queued (s : State) (lp a : Nat) : ∃ u, FlitsQueued u (s.ackIn lp a)
    ∧ (u = s ∧ (a = (s.lpStripe lp).acked ∨ seqDist (s.lpStripe lp).acked (s.lpStripe lp).txNext < seqDist (s.lpStripe lp).acked a)
      ∨ u = s.updLp lp (fun x => x.ackTo a)
        ∧ seqDist (s.lpStripe lp).acked a ≤ seqDist (s.lpStripe lp).acked (s.lpStripe lp).txNext) := by
  unfold State.ackIn
  dsimp only
  split
  case isTrue h => exact ⟨_, (flitsQueued_sendInit ..).trans (flitsQueued_flushSleepOut ..), .inr ⟨rfl, h.2⟩⟩
  case isFalse h => exact ⟨s, flitsQueued_of_ports rfl, .inl ⟨rfl, by omega⟩⟩

/-- ACK_SEQ within what has been sent becomes acked; any other leaves it. -/
theorem acked_ackIn (s : State) (lp a : Nat) : ((s.ackIn lp a).lpStripe lp).acked =
    if seqDist (s.lpStripe lp).acked a ≤ seqDist (s.lpStripe lp).acked (s.lpStripe lp).txNext then a else (s.lpStripe lp).acked := by
  obtain ⟨u, queued, ⟨rfl, same⟩ | ⟨rfl, within⟩⟩ := ackIn_queued s lp a
  · rw [(queued.lp lp).acked]
    split <;> omega
  · rw [(queued.lp lp).acked, State.lpStripe_updLp, if_pos within]
    rfl

/-- An acknowledgement leaves RX_NEXT, the mode and a lane change. -/
theorem ackIn_receiver (s : State) (lp a : Nat) : ((s.ackIn lp a).lpStripe lp).rxNext = (s.lpStripe lp).rxNext
    ∧ (s.ackIn lp a).replayDepth lp = s.replayDepth lp
    ∧ ((s.ackIn lp a).port (lpPort lp)).rxJob = (s.port (lpPort lp)).rxJob := by
  have mode (p : PortSt) (sd : Side) (x : Stripe) : (p.setStripe sd x).split = p.split ∧ (p.setStripe sd x).rxJob = p.rxJob := by
    cases sd <;> exact ⟨rfl, rfl⟩
  unfold State.replayDepth
  obtain ⟨u, queued, ⟨rfl, -⟩ | ⟨rfl, -⟩⟩ := ackIn_queued s lp a
  · rw [(queued.lp lp).rxNext, (queued.mode _).1, (queued.mode _).2]
    exact ⟨rfl, rfl, rfl⟩
  · rw [(queued.lp lp).rxNext, (queued.mode _).1, (queued.mode _).2, State.lpStripe_updLp, State.port_updLp, (mode ..).1, (mode ..).2]
    exact ⟨rfl, rfl, rfl⟩

/-- A stripe whose acknowledgement has been taken. -/
def acknowledged (x : Stripe) (a : Nat) : Stripe :=
  if a ≠ x.acked ∧ seqDist x.acked a ≤ seqDist x.acked x.txNext then x.ackTo a else x

/-- While nothing waits for a place in the replay buffer, an acknowledgement moves its stripe alone. -/
theorem ackIn_quiet {s : State} {lp : Nat} (a : Nat) (quiet : NothingWaits s lp) :
    LpSends s (s.ackIn lp a) lp (acknowledged (s.lpStripe lp) a) [] := by
  obtain ⟨noInit, noSleep⟩ := quiet
  have same (p : PortSt) (sd : Side) (x : Stripe) : (p.setStripe sd x).sleepOut = p.sleepOut := by cases sd <;> rfl
  have quietInit : ((s.updLp lp fun x => x.ackTo a).lpStripe lp).initOwed = false := by
    rw [State.lpStripe_updLp]
    exact noInit
  have quietSleep : ((s.updLp lp fun x => x.ackTo a).port (lpPort lp)).sleepOut = [] := by
    rw [State.port_updLp, same, noSleep]
  unfold State.ackIn acknowledged State.sendInit State.flushSleepOut
  dsimp only
  rw [quietInit, Bool.false_and, if_neg Bool.false_ne_true, quietSleep]
  split
  · exact lpSends_updLp ..
  · exact ⟨.refl .., (PortSt.setStripe_stripe ..).symm, (List.append_nil _).symm⟩

/-! ## Replay (R346, R347) -/

theorem OnlyPort.timing {s t : State} {n : Nat} (h : OnlyPort s t n) (i : Nat) : t.timing i = s.timing i := by
  rw [h.1.1]
  rfl

theorem setStripe_replays (p : PortSt) (sd : Side) (x : Stripe) :
    (p.setStripe sd x).replays = p.replays := by cases sd <;> rfl

/-- A replay that REPLAY_LIMIT allows: the port counts it, and the flits leave again. -/
theorem replayNow_sends {s : State} {lp : Nat} (may : (s.lpStripe lp).noProgress + 1 ≤ s.timing 14) :
    OnlyPort s (s.replayNow lp) (lpPort lp)
    ∧ (∃ line owed, (s.replayNow lp).lpStripe lp =
        lined { s.lpStripe lp with noProgress := (s.lpStripe lp).noProgress + 1 } line owed)
    ∧ ((s.replayNow lp).port (lpPort lp)).replays = satAdd 0xFFFF (s.port (lpPort lp)).replays 1
    ∧ (s.replayNow lp).out = s.out ++ replayOut s lp := by
  let count (p : PortSt) : PortSt :=
    { p with replays := satAdd 0xFFFF p.replays 1, replaysAll := satAdd (2 ^ 32 - 1) p.replaysAll 1 }
  let u := s.updLp lp fun x => { x with noProgress := (s.lpStripe lp).noProgress + 1 }
  have noted : LpSends s u lp { s.lpStripe lp with noProgress := (s.lpStripe lp).noProgress + 1 } [] := lpSends_updLp ..
  have counted : OnlyPort u (u.updPort (lpPort lp) count) (lpPort lp) := onlyPort_updPort ..
  have stripe : (u.updPort (lpPort lp) count).lpStripe lp = { s.lpStripe lp with noProgress := (s.lpStripe lp).noProgress + 1 } := by
    rw [← noted.lpStripe, State.lpStripe, State.port_updPort]
    unfold State.lpStripe
    generalize u.port (lpPort lp) = p
    cases lpSide lp <;> rfl
  have runs : s.replayNow lp = (u.updPort (lpPort lp) count).resend lp := by
    have timing : u.timing 14 = s.timing 14 := noted.1.timing 14
    show (if u.timing 14 < (s.lpStripe lp).noProgress + 1 then _ else _) = _
    rw [timing, if_neg (Nat.not_lt.mpr may)]
  obtain ⟨line, owed, only, port, out⟩ := lpSends_resend (u.updPort (lpPort lp) count) lp
  rw [runs]
  refine ⟨noted.1.trans (counted.trans only), ⟨line, owed, ?_⟩, ?_, ?_⟩
  · rw [State.lpStripe, port, PortSt.stripe_setStripe, stripe]
  · rw [port, setStripe_replays, State.port_updPort]
    show satAdd 0xFFFF (u.port (lpPort lp)).replays 1 = _
    rw [noted.2.1, setStripe_replays]
  · rw [out]
    refine congrArg (s.out ++ ·) ?_
    unfold replayOut
    rw [stripe, wireOf_congr (s := s) (by rw [stripe])]

theorem ackIn_port {s : State} {lp : Nat} (a : Nat) (quiet : NothingWaits s lp) : OnlyPort s (s.ackIn lp a) (lpPort lp) :=
  (ackIn_quiet a quiet).1

/-- A NAK within what has been sent frees the replay buffer up to its next, and replays (R347). -/
theorem nakIn_replays {s : State} {lp a : Nat}
    (within : seqDist (s.lpStripe lp).acked a ≤ seqDist (s.lpStripe lp).acked (s.lpStripe lp).txNext)
    (may : (s.lpStripe lp).noProgress + 1 ≤ s.timing 14) :
    s.nakIn lp a = (s.updLp lp fun x => { x with acked := a, replay := x.replay.drop (seqDist (s.lpStripe lp).acked a) }).replayNow lp
    ∧ OnlyPort s (s.nakIn lp a) (lpPort lp)
    ∧ ((s.nakIn lp a).lpStripe lp).acked = a
    ∧ ((s.nakIn lp a).lpStripe lp).replay = (s.lpStripe lp).replay.drop (seqDist (s.lpStripe lp).acked a)
    ∧ ((s.nakIn lp a).port (lpPort lp)).replays = satAdd 0xFFFF (s.port (lpPort lp)).replays 1
    ∧ (s.nakIn lp a).out = s.out ++ ([.syncBlock (lpPort lp) (lpSide lp),
          .flit lp (wireOf s lp ctrlHdr (leBytes 1 4 ++ (zeros 3 ++ leBytes 2 a)) false), .replayStart lp a]
        ++ ((s.lpStripe lp).replay.drop (seqDist (s.lpStripe lp).acked a)).map
          fun f => .flit lp (wireOf s lp f.hdr f.payload f.stomped)) := by
  have runs : s.nakIn lp a =
      (s.updLp lp fun x => { x with acked := a, replay := x.replay.drop (seqDist (s.lpStripe lp).acked a) }).replayNow lp := by
    unfold State.nakIn
    exact if_neg (Nat.not_lt.mpr within)
  have freed := lpSends_updLp s lp fun x => { x with acked := a, replay := x.replay.drop (seqDist (s.lpStripe lp).acked a) }
  rw [runs]
  generalize s.updLp lp _ = u at freed ⊢
  have stripe := freed.lpStripe
  obtain ⟨only, ⟨line, owed, again⟩, counted, out⟩ := replayNow_sends (s := u) (lp := lp) (by rw [stripe, freed.1.timing]; exact may)
  refine ⟨rfl, freed.1.trans only, ?_, ?_, ?_, ?_⟩
  · rw [again, stripe]
    rfl
  · rw [again, stripe]
    rfl
  · rw [counted, freed.2.1, setStripe_replays]
  · rw [out, freed.2.2, List.append_nil, replayOut, stripe, wireOf_congr (s := s) (by rw [stripe])]

/-! ## Spare commands that wait (R353) -/

theorem foldl_fixed {α σ : Type} {f : σ → α → σ} {s : σ} (fixed : ∀ x, f s x = s) (l : List α) : l.foldl f s = s := by
  induction l with
  | nil => rfl
  | cons x r ih => rw [List.foldl_cons, fixed, ih]

theorem serveSpare_none {s : State} {n : Nat} (none_ : NoSpareWork s n) : s.serveSpare n = s := by
  refine foldl_fixed (fun d => ?_) _
  split
  · rfl
  · split
    · next found =>
      obtain ⟨x, hx, named⟩ := List.exists_of_findSome?_eq_some found
      split at named
      · next q e l r w =>
        split at named
        · next h => exact absurd (h.1 ▸ w) (none_ x hx e l r)
        · cases named
      · cases named
    · rfl

theorem abandonSleep_awake {s : State} {n : Nat} (awake : (s.port n).txSleeping = false) : s.abandonSleep n = s := by
  unfold State.abandonSleep
  dsimp only
  rw [awake]
  rfl

/-- Settles O29: ACK, NAK and REPLAY_START act on the stripe of their LP through its sequence numbers. -/
theorem acknowledgementsAndReplay : Obligations.AcknowledgementsAndReplay := by
  intro lp ack a s run
  obtain ⟨line, up, awake⟩ := exec_of_rxOk run
  have nak : exec (.nakReceived lp ack a) s = .next ((s.ackIn lp.val ack.toNat).nakIn lp.val a.toNat) := if_pos run
  have start : exec (.replayStartReceived lp ack a) s =
      .next (((s.ackIn lp.val ack.toNat).replayStartIn lp.val a.toNat).serveSpare (lpPort lp.val)) := if_pos run
  refine ⟨⟨if_pos run, acked_ackIn .., ackIn_port _⟩, fun u hu => ?_, fun txAwake sent => ?_, fun txAwake sleeping owed => ?_⟩
  · subst hu
    obtain ⟨rxNext, depth, job⟩ := ackIn_receiver s lp.val ack.toNat
    refine ⟨fun beyond => ?_, fun within may quiet => ?_, fun beyond => ?_, fun within noJob => ?_⟩
    · rw [nak, State.nakIn, if_pos beyond]
    · have acked := ackIn_quiet ack.toNat quiet
      obtain ⟨-, only, ackedTo, kept, counted, out⟩ := nakIn_replays (s := s.ackIn lp.val ack.toNat) (a := a.toNat) within
        (by rw [acked.1.timing]; exact may)
      refine ⟨_, nak, acked.1.trans only, ackedTo, kept, ?_, ?_⟩
      · rw [counted, acked.2.1, setStripe_replays]
      · rw [out, kept, acked.2.2, List.append_nil, wireOf_congr (s := s) rxNext, List.append_assoc]
    · rw [start, State.replayStartIn, rxNext, depth, if_pos beyond]
    · have taken := lpSends_updLp (s.ackIn lp.val ack.toNat) lp.val fun x =>
        { x with skip := seqDist a.toNat (s.lpStripe lp.val).rxNext, discarding := false }
      have runs : (s.ackIn lp.val ack.toNat).replayStartIn lp.val a.toNat = (s.ackIn lp.val ack.toNat).updLp lp.val fun x =>
          { x with skip := seqDist a.toNat (s.lpStripe lp.val).rxNext, discarding := false } := by
        have noJob' : (((s.ackIn lp.val ack.toNat).updLp lp.val fun x =>
            { x with skip := seqDist a.toNat (s.lpStripe lp.val).rxNext, discarding := false }).port (lpPort lp.val)).rxJob = none := by
          rw [State.port_updLp, ← noJob, ← job]
          cases lpSide lp.val <;> rfl
        unfold State.replayStartIn
        dsimp only
        rw [rxNext, depth, if_neg (Nat.not_lt.mpr within), noJob']
      rw [runs] at start
      exact ⟨_, start, fun quiet => (ackIn_port _ quiet).trans taken.1, serveSpare_none, taken.lpStripe⟩
  · have runs (h : Bool) (e : (s.port (lpPort lp.val)).halted (lpSide lp.val) = h) :
        exec (.ackTimeout lp) s = if h = true then .next s else .next (s.replayNow lp.val) := by
      have some_ : ((s.lpStripe lp.val).txNext != (s.lpStripe lp.val).acked) = true := by simpa using sent
      show execAckTimeout lp s = _
      simp only [execAckTimeout, line, up, txAwake, some_, e]
      cases h <;> rfl
    exact ⟨runs false, runs true⟩
  · have abandoned : s.abandonSleep (lpPort lp.val) = s := abandonSleep_awake sleeping
    have sent := (lpSends_sendCtrl s lp.val 2 []).emitted (.ack lp.val (s.lpStripe lp.val).rxNext)
    have runs : exec (.ackDue lp) s = .next ((s.sendCtrl lp.val 2 []).emit (.ack lp.val (s.lpStripe lp.val).rxNext)) := by
      show execAckDue lp s = _
      simp only [execAckDue, line, up, txAwake, owed, State.sendAck, abandoned]
      rfl
    exact ⟨_, runs, sent.1, sent.lpStripe, sent.2.2⟩

end Sys2Proof.Claims
end

section
/-! PROOFS. Flits received in sequence, link errors, and the credits of a partner (R125, R137, R343, R346). -/

namespace Sys2Proof.Claims

open Sys2Proof.Machine

/-! ## Link errors (R346) -/

/-- The NAK of an LP, as it goes on the wire. -/
def nakOf (s : State) (lp : Nat) : BitVec 2048 :=
  wireOf s lp ctrlHdr (leBytes 1 3 ++ (zeros 3 ++ leBytes 2 (s.lpStripe lp).rxNext)) false

/-- A NAK of an awake transmitter counts, and leaves. -/
theorem sendNak_sends {s : State} {lp : Nat} (awake : (s.port (lpPort lp)).txAwake = true)
    (staying : (s.port (lpPort lp)).txSleeping = false) :
    OnlyPort s (s.sendNak lp) (lpPort lp) ∧ (s.sendNak lp).lpStripe lp = handed (s.lpStripe lp) (nakOf s lp)
    ∧ ((s.sendNak lp).port (lpPort lp)).naks = satAdd 0xFFFF (s.port (lpPort lp)).naks 1
    ∧ (s.sendNak lp).out = s.out ++ [.flit lp (nakOf s lp), .nak lp (s.lpStripe lp).rxNext] := by
  let u := s.updPort (lpPort lp) fun p => { p with naks := satAdd 0xFFFF p.naks 1 }
  have stripe : u.lpStripe lp = s.lpStripe lp := by
    unfold State.lpStripe
    rw [State.port_updPort]
    cases lpSide lp <;> rfl
  have naks (p : PortSt) (sd : Side) (x : Stripe) : (p.setStripe sd x).naks = p.naks := by cases sd <;> rfl
  have runs : s.sendNak lp = (u.sendCtrl lp 3 (zeros 3 ++ leBytes 2 (s.lpStripe lp).rxNext)).emit (.nak lp (s.lpStripe lp).rxNext) := by
    unfold State.sendNak
    simp only [awake, Bool.not_true, Bool.false_eq_true, if_false, abandonSleep_awake staying]
    rfl
  have sent := (lpSends_sendCtrl u lp 3 (zeros 3 ++ leBytes 2 (s.lpStripe lp).rxNext)).emitted (.nak lp (s.lpStripe lp).rxNext)
  rw [stripe, wireOf_congr (s := s) (by rw [stripe])] at sent
  rw [runs]
  refine ⟨(onlyPort_updPort ..).trans sent.1, sent.lpStripe, ?_, sent.2.2⟩
  rw [sent.2.1, naks, State.port_updPort]

theorem linkError_sends {s : State} {lp : Nat} (awake : (s.port (lpPort lp)).txAwake = true)
    (staying : (s.port (lpPort lp)).txSleeping = false) (closed : (s.port (lpPort lp)).requestOpen (lpSide lp) = false)
    (taking : (s.lpStripe lp).discarding = false) :
    OnlyPort s (s.linkError lp) (lpPort lp)
    ∧ (s.linkError lp).lpStripe lp = handed { s.lpStripe lp with discarding := true } (nakOf s lp)
    ∧ ((s.linkError lp).port (lpPort lp)).naks = satAdd 0xFFFF (s.port (lpPort lp)).naks 1
    ∧ (s.linkError lp).out = s.out ++ [.flit lp (nakOf s lp), .nak lp (s.lpStripe lp).rxNext] := by
  have marked := lpSends_updLp s lp fun x => { x with discarding := true }
  have runs : s.linkError lp = (s.updLp lp fun x => { x with discarding := true }).sendNak lp := by
    unfold State.linkError
    dsimp only
    rw [taking, closed]
    rfl
  rw [runs]
  generalize s.updLp lp _ = u at marked ⊢
  have keeps (p : PortSt) (sd : Side) (x : Stripe) : (p.setStripe sd x).txAwake = p.txAwake ∧ (p.setStripe sd x).txSleeping = p.txSleeping
      ∧ (p.setStripe sd x).naks = p.naks := by cases sd <;> exact ⟨rfl, rfl, rfl⟩
  obtain ⟨awake', staying', naks⟩ := keeps (s.port (lpPort lp)) (lpSide lp) { s.lpStripe lp with discarding := true }
  rw [← marked.2.1] at awake' staying' naks
  have stripe := marked.lpStripe
  have nak : nakOf u lp = nakOf s lp := by
    unfold nakOf
    rw [wireOf_congr (s := s) (by rw [stripe]), stripe]
  obtain ⟨only, sent, counted, out⟩ := sendNak_sends (awake'.trans awake) (staying'.trans staying)
  refine ⟨marked.1.trans only, ?_, ?_, ?_⟩
  · rw [sent, stripe, nak]
  · rw [counted, naks]
  · rw [out, marked.2.2, List.append_nil, nak, stripe]

/-! ## Sequence numbers (R346) -/

theorem takeSeq_discarding {s : State} {lp : Nat} (h : (s.lpStripe lp).discarding = true) : s.takeSeq lp = (s, false) := if_pos h

theorem takeSeq_skips {s : State} {lp : Nat} (h : (s.lpStripe lp).discarding = false) (skip : (s.lpStripe lp).skip ≠ 0) :
    s.takeSeq lp = (s.updLp lp fun x => { x with skip := x.skip - 1 }, false) := by
  unfold State.takeSeq
  dsimp only
  rw [if_neg (by rw [h]; decide), if_pos skip]

/-- A stripe that has taken the next sequence number. -/
def nextTaken (x : Stripe) : Stripe := { x with rxNext := (x.rxNext + 1) % 4096, ackOwed := true }

theorem takeSeq_takes {s : State} {lp : Nat} (h : (s.lpStripe lp).discarding = false) (skip : (s.lpStripe lp).skip = 0) :
    s.takeSeq lp = (s.updLp lp nextTaken, true) := by
  unfold State.takeSeq
  dsimp only
  rw [if_neg (by rw [h]; decide), if_neg (not_not.mpr skip)]
  rfl

/-! ## Credits (R136, R137, R168) -/

/-- One class of an INIT or CREDIT flit. -/
def takeCredit (lp : Nat) (init : Bool) (counts : List (BitVec 16)) (s : State) (c : Nat) : State :=
  let k := lpTc lp c
  let v := (counts.getD c 0).toNat
  let all := if init then v else sget s.sw.credits k 0 + v
  { s with sw := { s.sw with
    credits := sput s.sw.credits k (min 65535 all) 0
    creditExcess := sput s.sw.creditExcess k (sget s.sw.creditExcess k 0 + (all - 65535)) 0 } }

/-- What the credit count of a class would be without its limit. -/
def creditSum (s : State) (lp : Nat) (init : Bool) (counts : List (BitVec 16)) (c : Nat) : Nat :=
  (if init = true then 0 else sget s.sw.credits (lpTc lp c) 0) + (counts.getD c 0).toNat

theorem takeCredits (lp : Nat) (init : Bool) (counts : List (BitVec 16)) (l : List Nat) (s : State) :
    let t := l.foldl (takeCredit lp init counts) s
    t = { s with sw := { s.sw with credits := t.sw.credits, creditExcess := t.sw.creditExcess } }
    ∧ (∀ c, c ∉ l → sget t.sw.credits (lpTc lp c) 0 = sget s.sw.credits (lpTc lp c) 0
        ∧ sget t.sw.creditExcess (lpTc lp c) 0 = sget s.sw.creditExcess (lpTc lp c) 0)
    ∧ (l.Nodup → ∀ c ∈ l, sget t.sw.credits (lpTc lp c) 0 = min 65535 (creditSum s lp init counts c)
        ∧ sget t.sw.creditExcess (lpTc lp c) 0
          = sget s.sw.creditExcess (lpTc lp c) 0 + (creditSum s lp init counts c - 65535)) := by
  induction l generalizing s with
  | nil => exact ⟨rfl, fun _ _ => ⟨rfl, rfl⟩, fun _ c h => nomatch h⟩
  | cons d r ih =>
    obtain ⟨only, out, own⟩ := ih (takeCredit lp init counts s d)
    have other {c : Nat} (ne : c ≠ d) :
        sget (takeCredit lp init counts s d).sw.credits (lpTc lp c) 0 = sget s.sw.credits (lpTc lp c) 0
        ∧ sget (takeCredit lp init counts s d).sw.creditExcess (lpTc lp c) 0 = sget s.sw.creditExcess (lpTc lp c) 0 := by
      have apart : lpTc lp c ≠ lpTc lp d := by
        unfold lpTc
        omega
      unfold takeCredit
      dsimp only
      rw [sget_sput_other _ _ _ _ apart, sget_sput_other _ _ _ _ apart]
      exact ⟨rfl, rfl⟩
    rw [List.foldl_cons]
    refine ⟨?_, fun c h => ?_, fun nodup c h => ?_⟩
    · rw [only]
      rfl
    · rw [List.mem_cons, not_or] at h
      exact ⟨(out c h.2).1.trans (other h.1).1, (out c h.2).2.trans (other h.1).2⟩
    · rw [List.nodup_cons] at nodup
      by_cases e : c = d
      · subst e
        have sum : (if init = true then (counts.getD c 0).toNat else sget s.sw.credits (lpTc lp c) 0 + (counts.getD c 0).toNat)
            = creditSum s lp init counts c := by
          unfold creditSum
          cases init <;> simp
        refine ⟨(out c nodup.1).1.trans ?_, (out c nodup.1).2.trans ?_⟩
        all_goals
          unfold takeCredit
          dsimp only
          rw [sget_sput_same, sum]
      · obtain ⟨credits, excess⟩ := own nodup.2 c ((List.mem_cons.mp h).resolve_left e)
        have sum : creditSum (takeCredit lp init counts s d) lp init counts c = creditSum s lp init counts c := by
          unfold creditSum
          rw [(other e).1]
        rw [credits, excess, sum, (other e).2]
        exact ⟨rfl, rfl⟩

theorem holdOf_of_recov {s t : State} (h : t.recov.ports = s.recov.ports) (lp : Nat) : t.holdOf lp = s.holdOf lp := by
  unfold State.holdOf State.recovOf
  rw [h]

theorem sendFenceNotice_recov (s : State) (n : Nat) (again : Bool) : (s.sendFenceNotice n again).recov.ports = s.recov.ports := by
  unfold State.sendFenceNotice State.sendAgent
  dsimp only
  repeat' split
  all_goals rfl

/-- A link-up leaves the hold state UP. -/
theorem linkUp_holdOf (s : State) (lp : Nat) (resumed : Bool) : (s.linkUp lp resumed).holdOf lp = .up := by
  have waiting (t : State) : (t.sendWaitingNotices lp).recov.ports = t.recov.ports :=
    foldl_rel (R := fun s t : State => t.recov.ports = s.recov.ports) _ (fun _ => rfl) (fun h g => g.trans h)
      (fun _ _ => sendFenceNotice_recov ..) _ t
  have hold (t : State) (r : PortRecov) : (t.setRecov (lpPort lp) r).holdOf lp =
      match lpSide lp with
      | .a => r.stA
      | .b => r.stB := by
    rewrite [State.holdOf, State.recovOf_setRecov]
    rfl
  unfold State.linkUp
  dsimp only
  generalize (if s.holdOf lp = .holding ∧ resumed = false then (s.discardHeld lp 9).1 else s) = u
  rw [holdOf_of_recov (waiting _) lp, hold, State.setHold, State.recovOf_setRecov]
  cases lpSide lp <;> rfl

/-- The INIT or CREDIT flit, but for the link-up that an INIT flit may complete. -/
def creditsTaken (s : State) (lp : Nat) (init : Bool) (counts : List (BitVec 16)) : State :=
  (List.range 8).foldl (takeCredit lp init counts)
    { s with sw := { s.sw with initSeen := if init then sput s.sw.initSeen lp true false else s.sw.initSeen } }

theorem creditsIn_eq (s : State) (lp : Nat) (init : Bool) (counts : List (BitVec 16)) : s.creditsIn lp init counts =
    if init && (creditsTaken s lp init counts).lpUp lp && decide ((creditsTaken s lp init counts).holdOf lp ≠ .up)
    then (creditsTaken s lp init counts).linkUp lp ((creditsTaken s lp init counts).lpStripe lp).resumed
    else creditsTaken s lp init counts := rfl

theorem creditsTaken_only (s : State) (lp : Nat) (init : Bool) (counts : List (BitVec 16)) :
    creditsTaken s lp init counts = { s with sw := { s.sw with
      credits := (creditsTaken s lp init counts).sw.credits, creditExcess := (creditsTaken s lp init counts).sw.creditExcess
      initSeen := (creditsTaken s lp init counts).sw.initSeen } } := by
  have only := (takeCredits lp init counts (List.range 8)
    { s with sw := { s.sw with initSeen := if init then sput s.sw.initSeen lp true false else s.sw.initSeen } }).1
  unfold creditsTaken
  dsimp only at only
  generalize (List.range 8).foldl (takeCredit lp init counts) _ = t at only ⊢
  rw [only]

/-- The credit counts after the flit, each at most 65,535 with the excess counted (R137). -/
theorem creditsTaken_counts (s : State) (lp : Nat) (init : Bool) (counts : List (BitVec 16)) {c : Nat} (h : c < 8) :
    sget (creditsTaken s lp init counts).sw.credits (lpTc lp c) 0 = min 65535 (creditSum s lp init counts c)
    ∧ sget (creditsTaken s lp init counts).sw.creditExcess (lpTc lp c) 0
      = sget s.sw.creditExcess (lpTc lp c) 0 + (creditSum s lp init counts c - 65535) := by
  obtain ⟨-, -, sums⟩ := takeCredits lp init counts (List.range 8)
    { s with sw := { s.sw with initSeen := if init then sput s.sw.initSeen lp true false else s.sw.initSeen } }
  have sum (m : SMap Bool) : creditSum { s with sw := { s.sw with initSeen := m } } lp init counts c = creditSum s lp init counts c := rfl
  have own := sums List.nodup_range c (List.mem_range.mpr h)
  rw [sum] at own
  unfold creditsTaken
  exact own

/-- An INIT or CREDIT flit that completes no link-up moves the credits alone. -/
theorem creditsIn_stays {s : State} {lp : Nat} {init : Bool} {counts : List (BitVec 16)} (held : init = false ∨ s.holdOf lp = .up) :
    s.creditsIn lp init counts = creditsTaken s lp init counts := by
  have only := creditsTaken_only s lp init counts
  rw [creditsIn_eq]
  generalize creditsTaken s lp init counts = t at only ⊢
  have hold : t.holdOf lp = s.holdOf lp := holdOf_of_recov (by rw [only]) _
  cases held with
  | inl h => rw [h, Bool.false_and, Bool.false_and, if_neg Bool.false_ne_true]
  | inr h => rw [hold, h, decide_eq_false (by decide), Bool.and_false, if_neg Bool.false_ne_true]

/-- The INIT flit of an LP that is UP leaves its hold state UP (R168). -/
theorem creditsIn_linksUp {s : State} {lp : Nat} {init : Bool} {counts : List (BitVec 16)} (up : s.lpUp lp = true) (first : init = true) :
    (s.creditsIn lp init counts).holdOf lp = .up := by
  have only := creditsTaken_only s lp init counts
  rw [creditsIn_eq]
  generalize creditsTaken s lp init counts = t at only ⊢
  have upNow : t.lpUp lp = true := by
    rw [only, ← up]
    rfl
  split
  · exact linkUp_holdOf ..
  · next h =>
    rw [first, upNow, Bool.true_and, Bool.true_and] at h
    exact of_not_not fun ne => h (decide_eq_true ne)

/-! ## Flits of frames (R125, R343) -/

theorem lpSends_ctxFlit (s : State) (lp : Nat) (rx : Bool) (h : Hdr) : LpSends s (s.ctxFlit lp rx h) lp (s.lpStripe lp) [] := by
  obtain ⟨m, e⟩ : ∃ m, s.ctxFlit lp rx h = { s with ctr := { s.ctr with counters := m } } := State.noteCtx_only ..
  rw [e]
  exact ⟨⟨⟨rfl, List.prefix_refl _⟩, fun _ _ => rfl⟩, (PortSt.setStripe_stripe ..).symm, (List.append_nil _).symm⟩

/-- The state in which a good flit of a frame reaches the frame layer: acknowledged, counted, and numbered. -/
def numbered (s : State) (lp : Nat) (h : Hdr) : State :=
  (((s.ackIn lp (h.link.toNat / 16)).countLp lp 0x0101 (some h.tc.toNat) none 1).ctxFlit lp true h).updLp lp nextTaken

theorem acknowledged_receiver (x : Stripe) (a : Nat) : (acknowledged x a).rxNext = x.rxNext ∧ (acknowledged x a).flits = x.flits
    ∧ (acknowledged x a).discarding = x.discarding ∧ (acknowledged x a).skip = x.skip := by
  unfold acknowledged Stripe.ackTo
  split <;> exact ⟨rfl, rfl, rfl, rfl⟩

theorem numbered_sends {s : State} {lp : Nat} (h : Hdr) (quiet : NothingWaits s lp) :
    LpSends s (numbered s lp h) lp (nextTaken (acknowledged (s.lpStripe lp) (h.link.toNat / 16))) [] := by
  have counted := ((ackIn_quiet (h.link.toNat / 16) quiet).counted (lpSends_countLp _ lp 0x0101 (some h.tc.toNat) none lp 1)).counted
    (lpSends_ctxFlit _ lp true h)
  have := counted.trans (lpSends_updLp _ lp nextTaken)
  rwa [counted.lpStripe] at this

theorem takeFlit_good {s : State} {lp : Nat} {flit : BitVec 2048} (good : checkFlit flit = .good) (frame : (flitHdr flit).ftype ≠ 0xF)
    (taking : (s.lpStripe lp).discarding = false) (skip : (s.lpStripe lp).skip = 0) (quiet : NothingWaits s lp) :
    s.takeFlit lp flit = (numbered s lp (flitHdr flit)).frameFlit lp (flitHdr flit) (flitPayload flit) false := by
  have counted := ((ackIn_quiet ((flitHdr flit).link.toNat / 16) quiet).counted
    (lpSends_countLp _ lp 0x0101 (some (flitHdr flit).tc.toNat) none lp 1)).counted (lpSends_ctxFlit _ lp true (flitHdr flit))
  obtain ⟨-, -, discarding, skips⟩ := acknowledged_receiver (s.lpStripe lp) ((flitHdr flit).link.toNat / 16)
  unfold State.takeFlit
  simp only [good, if_neg frame]
  rw [takeSeq_takes (by rw [counted.lpStripe, discarding, taking]) (by rw [counted.lpStripe, skips, skip])]
  rfl

/-- The oldest flit that RX_BLOCK has left, or one that has come without it, is taken. -/
theorem flitReceived_runs {lp : Lp} {flit : BitVec 2048} {s : State} (run : s.rxOk lp.val = true)
    (front : (s.lpStripe lp.val).flits = [] ∨ (s.lpStripe lp.val).flits.head? = some (.flit flit)) :
    exec (.flitReceived lp flit) s = .next ((((s.updLp lp.val fun x => { x with flits := x.flits.drop 1 }).takeFlit lp.val
      flit).takeFaults lp.val).serveSpare (lpPort lp.val)) := by
  have right : (!(s.lpStripe lp.val).flits.isEmpty && (s.lpStripe lp.val).flits.head? != some (.flit flit)) = false := by
    cases front with
    | inl h => rw [h]; rfl
    | inr h => simp [h]
  show execFlitReceived lp flit s = _
  simp only [execFlitReceived, run, right]
  rfl

/-- Settles O30: link errors, sequence numbers and credits act on the LP's stripe, and a good flit reaches the frame layer. -/
theorem flitsAreTakenInOrder : Obligations.FlitsAreTakenInOrder := by
  intro lp s run
  obtain ⟨line, up, -⟩ := exec_of_rxOk run
  refine ⟨fun awake staying closed => ⟨fun taking => ?_, fun discarding => ?_⟩,
    fun init counts => ⟨fun discarding => ?_, fun taking skip => ?_, fun taking skip held => ?_, fun taking skip first => ?_⟩,
    fun flit => ⟨fun front => ⟨fun bad => ?_, fun good frame taking skip quiet => ?_⟩, fun some_ other => ?_⟩⟩
  · have counted := lpSends_countLp s lp.val 0x010C none none lp.val 1
    have same := counted.2.1.trans (PortSt.setStripe_stripe ..)
    have runs : exec (.flitCrcError lp) s = .next ((s.countLp lp.val 0x010C none none 1).linkError lp.val) := if_pos run
    rw [runs]
    generalize s.countLp lp.val 0x010C none none 1 = u at counted same ⊢
    have stripe := counted.lpStripe
    rw [← same] at awake staying closed ⊢
    rw [← stripe] at taking
    obtain ⟨only, sent, naks, out⟩ := linkError_sends awake staying closed taking
    have nak : nakOf u lp.val = nakOf s lp.val := by
      unfold nakOf
      rw [wireOf_congr (s := s) (by rw [stripe]), stripe]
    refine ⟨_, rfl, counted.1.trans only, ?_, naks, ?_⟩
    · rw [sent, stripe, nak]
      rfl
    · rw [out, counted.2.2, nak, stripe, List.append_nil]
      rfl
  · have runs : exec (.nakRepeat lp) s = .next (s.sendNak lp.val) := by
      show execNakRepeat lp s = _
      simp only [execNakRepeat, line, up, discarding, closed]
      rfl
    obtain ⟨only, sent, -, out⟩ := sendNak_sends awake staying
    exact ⟨_, runs, only, sent, out⟩
  · show execCreditFlitReceived lp init counts s = _
    simp only [execCreditFlitReceived, run, takeSeq_discarding discarding]
    rfl
  · have runs : exec (.creditFlitReceived lp init counts) s = .next (s.updLp lp.val fun x => { x with skip := x.skip - 1 }) := by
      show execCreditFlitReceived lp init counts s = _
      simp only [execCreditFlitReceived, run, takeSeq_skips taking skip]
      rfl
    have moved := lpSends_updLp s lp.val fun x => { x with skip := x.skip - 1 }
    exact ⟨_, runs, moved.1, moved.lpStripe⟩
  · have runs : exec (.creditFlitReceived lp init counts) s = .next ((s.updLp lp.val nextTaken).creditsIn lp.val init counts) := by
      show execCreditFlitReceived lp init counts s = _
      simp only [execCreditFlitReceived, run, takeSeq_takes taking skip]
      rfl
    have taken := lpSends_updLp s lp.val nextTaken
    have rest : s.updLp lp.val nextTaken = { s with ports := (s.updLp lp.val nextTaken).ports } := rfl
    have held' : init = false ∨ (s.updLp lp.val nextTaken).holdOf lp.val = .up := held
    have sums := fun c hc => creditsTaken_counts (s.updLp lp.val nextTaken) lp.val init counts (c := c) hc
    have only := creditsTaken_only (s.updLp lp.val nextTaken) lp.val init counts
    rw [creditsIn_stays held'] at runs
    refine ⟨_, runs, ?_⟩
    generalize creditsTaken (s.updLp lp.val nextTaken) lp.val init counts = t at only sums ⊢
    refine ⟨?_, fun c hc => (sums c hc).1, fun c hc => (sums c hc).2, ?_⟩
    · refine Eq.trans ?_ taken.lpStripe
      rw [only]
      rfl
    · rw [only, rest]
  · have runs : exec (.creditFlitReceived lp init counts) s = .next ((s.updLp lp.val nextTaken).creditsIn lp.val init counts) := by
      show execCreditFlitReceived lp init counts s = _
      simp only [execCreditFlitReceived, run, takeSeq_takes taking skip]
      rfl
    have upNow : (s.updLp lp.val nextTaken).lpUp lp.val = true := by
      rw [← up, State.lpUp, State.lpUp, State.lpStripe_updLp, State.lpExists, State.lpExists, State.port_updLp]
      cases lpSide lp.val <;> rfl
    exact ⟨_, runs, creditsIn_linksUp upNow first⟩
  · have runs : exec (.flitReceived lp flit) s = .next ((((s.updLp lp.val fun x => { x with flits := x.flits.drop 1 }).takeFlit lp.val
        flit).takeFaults lp.val).serveSpare (lpPort lp.val)) := flitReceived_runs run front
    rw [runs, State.takeFlit, bad]
  · have runs := flitReceived_runs run front
    have dropped := lpSends_updLp s lp.val fun x => { x with flits := x.flits.drop 1 }
    have sleepOut (p : PortSt) (sd : Side) (x : Stripe) : (p.setStripe sd x).sleepOut = p.sleepOut := by cases sd <;> rfl
    have quiet' : NothingWaits (s.updLp lp.val fun x => { x with flits := x.flits.drop 1 }) lp.val :=
      ⟨dropped.lpStripe ▸ quiet.1, by rw [dropped.2.1, sleepOut, quiet.2]⟩
    rw [takeFlit_good good frame (by rw [dropped.lpStripe]; exact taking) (by rw [dropped.lpStripe]; exact skip) quiet'] at runs
    have sent := dropped.trans (numbered_sends (flitHdr flit) quiet')
    obtain ⟨rxNext, flits, -, -⟩ := acknowledged_receiver
      ((s.updLp lp.val fun x => { x with flits := x.flits.drop 1 }).lpStripe lp.val) ((flitHdr flit).link.toNat / 16)
    refine ⟨_, runs, sent.1, ?_, ?_, ?_⟩
    · rw [sent.lpStripe, nextTaken, rxNext, dropped.lpStripe]
    · rw [sent.lpStripe, nextTaken, flits, dropped.lpStripe]
    · rw [sent.2.2]
      exact List.append_nil _
  · have wrong : (!(s.lpStripe lp.val).flits.isEmpty && (s.lpStripe lp.val).flits.head? != some (.flit flit)) = true := by
      simp [some_, other]
    show execFlitReceived lp flit s = _
    simp only [execFlitReceived, run, wrong]
    rfl

end Sys2Proof.Claims
end

section
/-! PROOFS. Received blocks, and lanes that lose lock in training (R289 to R303, R348). -/

namespace Sys2Proof.Claims

open Sys2Proof.Machine

/-! ## The stream of a block (R301 to R303) -/

/-- A byte joins the flit being received, which may then be whole. -/
def addByte (r : BlockRead) (b : Byte) : BlockRead :=
  if (r.part ++ [b]).length = 256
  then { r with part := [], items := r.items ++ [.flit (BitVec.ofNat 2048 (leNat (r.part ++ [b])))] }
  else { r with part := r.part ++ [b] }

theorem addByte_effect (r : BlockRead) (b : Byte) :
    (addByte r b).errs = r.errs ∧ (.fault ∉ r.items → .fault ∉ (addByte r b).items) := by
  unfold addByte
  split
  · exact ⟨rfl, fun h => by simpa using h⟩
  · exact ⟨rfl, id⟩

/-- A fault in the stream goes with a lane that had a code error. -/
theorem next_clean {r : BlockRead} {lane : Nat} {sym : Option Nat} (clean : (r.next lane sym).errs = []) :
    r.errs = [] ∧ (.fault ∉ r.items → .fault ∉ (r.next lane sym).items) := by
  let good := match sym with
    | some n => decide (n < 256)
    | none => false
  let b : Byte := match sym with
    | some n => if n < 256 then BitVec.ofNat 8 n else 0
    | none => 0
  have next : r.next lane sym = if sym = some 260 ∧ r.part.isEmpty then r
      else addByte (if good then r else { r with items := r.items ++ [.fault], errs := r.errs ++ [lane] }) b := by
    cases sym <;> rfl
  rw [next] at clean ⊢
  split
  · next idle => exact ⟨by rwa [if_pos idle] at clean, id⟩
  · next taken =>
    rw [if_neg taken, (addByte_effect ..).1] at clean
    by_cases h : good = true
    · rw [if_pos h] at clean ⊢
      exact ⟨clean, (addByte_effect ..).2⟩
    · rw [if_neg h] at clean
      exact absurd clean (by simp)

theorem readFold_clean {α : Type} (lane : α → Nat) (sym : α → Option Nat) (l : List α) (r : BlockRead)
    (clean : (l.foldl (fun r p => r.next (lane p) (sym p)) r).errs = []) :
    r.errs = [] ∧ (.fault ∉ r.items → .fault ∉ (l.foldl (fun r p => r.next (lane p) (sym p)) r).items) := by
  induction l generalizing r with
  | nil => exact ⟨clean, id⟩
  | cons p l ih =>
    obtain ⟨first, rest⟩ := ih _ clean
    obtain ⟨start, one⟩ := next_clean first
    exact ⟨start, fun h => rest (one h)⟩

theorem readPayload_clean {part : Bytes} {syms : List (List (Option Nat))} (clean : (readPayload part syms).errs = []) :
    .fault ∉ (readPayload part syms).items :=
  (readFold_clean _ _ _ _ clean).2 (by simp)

/-! ## The lanes of a block (R299, R348) -/

@[simp] theorem lane_setLane (p : PortSt) (k : Nat) (l : LaneSt) : (p.setLane k l).lane k = l := sget_sput_same ..

theorem lane_setLane_other (p : PortSt) {k k' : Nat} (l : LaneSt) (ne : k' ≠ k) : (p.setLane k l).lane k' = p.lane k' :=
  sget_sput_other _ _ _ _ ne

/-- The code errors that count toward a lane's loss once a clean block has come. -/
def recentSum (l : LaneSt) (depth : Nat) : Nat := (((0 : Nat) :: l.recent).take depth).sum

theorem sum_take_le (l : List Nat) (n : Nat) : (l.take n).sum ≤ l.sum := by
  rw [← List.sum_take_add_sum_drop l n]
  exact Nat.le_add_right ..

/-- A clean block does not bring a lane nearer to its loss. -/
theorem recentSum_clean (l : LaneSt) (depth : Nat) :
    (((0 : Nat) :: ((0 : Nat) :: l.recent).take depth).take depth).sum ≤ recentSum l depth := by
  unfold recentSum
  cases depth with
  | zero => exact Nat.le_refl _
  | succ n =>
    rw [List.take_succ_cons, List.sum_cons, Nat.zero_add]
    exact sum_take_le ..

/-- A lane after a block without errors. -/
def cleanLane (l : LaneSt) (rd : Option Bool) (depth : Nat) : LaneSt :=
  { l with rd := rd, hdrErrs := 0, recent := ((0 : Nat) :: l.recent).take depth }

/-- One lane of a block: its disparity and errors noted, and whether it loses lock, under the thresholds of R348. -/
def noteLane (depth headers errors n : Nat) (acc : State × List Nat) (x : Nat × Option Bool × Bool × Nat) : State × List Nat :=
  let l := ((acc.1).port n).lane x.1
  let run := if x.2.2.1 then l.hdrErrs + 1 else 0
  let recent := (x.2.2.2 :: l.recent).take depth
  let lost := decide (headers ≤ run) || decide (errors ≤ recent.sum)
  let l' : LaneSt := { l with rd := x.2.1, hdrErrs := if lost then 0 else run, recent := if lost then [] else recent }
  (((acc.1).updPort n fun p => p.setLane x.1 l').codeErrors n x.1 x.2.2.2, if lost then acc.2 ++ [x.1] else acc.2)

theorem noteLanes_eq (s : State) (n : Nat) (l : List (Nat × Option Bool × Bool × Nat)) :
    s.noteLanes n l = l.foldl (noteLane (s.timing 12) (s.timing 13) (s.timing 11) n) (s, []) := rfl

/-- A lane whose block has no error keeps its lock and carries its disparity on. -/
theorem noteLane_clean {depth headers errors n : Nat} {s : State} {m : List Nat} {x : Nat × Option Bool × Bool × Nat}
    (clean : x.2.2 = (false, 0)) (locks : 0 < headers) (holds : recentSum ((s.port n).lane x.1) depth < errors) :
    noteLane depth headers errors n (s, m) x =
      (s.updPort n fun p => p.setLane x.1 (cleanLane ((s.port n).lane x.1) x.2.1 depth), m) := by
  obtain ⟨k, rd, e⟩ := x
  obtain rfl : e = (false, 0) := clean
  have kept : (decide (headers ≤ 0) || decide (errors ≤ recentSum ((s.port n).lane k) depth)) = false := by
    rw [decide_eq_false (by omega), decide_eq_false (Nat.not_le.mpr holds)]
    rfl
  unfold recentSum at kept
  unfold noteLane
  simp only [Bool.false_eq_true, if_false, kept]
  rfl

/-- Lanes whose block has no error keep their lock; each carries its disparity on, and nothing else moves. -/
theorem noteFold_clean {depth headers errors : Nat} (n : Nat) (l : List (Nat × Option Bool × Bool × Nat)) (s : State)
    (clean : ∀ x ∈ l, x.2.2 = (false, 0)) (locks : 0 < headers)
    (holds : ∀ x ∈ l, recentSum ((s.port n).lane x.1) depth < errors) :
    ∃ t, l.foldl (noteLane depth headers errors n) (s, []) = (t, []) ∧ OnlyPort s t n ∧ t.out = s.out
      ∧ t.port n = { s.port n with rxLanes := (t.port n).rxLanes }
      ∧ (∀ k, k ∉ l.map (·.1) → (t.port n).lane k = (s.port n).lane k)
      ∧ ((l.map (·.1)).Nodup → ∀ x ∈ l, ((t.port n).lane x.1).rd = x.2.1) := by
  induction l generalizing s with
  | nil => exact ⟨s, rfl, .refl .., rfl, rfl, fun _ _ => rfl, fun _ _ h => nomatch h⟩
  | cons x l ih =>
    have here := noteLane_clean (m := []) (clean x List.mem_cons_self) locks (holds x List.mem_cons_self)
    have moved := onlyPort_updPort s n fun p => p.setLane x.1 (cleanLane ((s.port n).lane x.1) x.2.1 depth)
    have port : (s.updPort n fun p => p.setLane x.1 (cleanLane ((s.port n).lane x.1) x.2.1 depth)).port n
        = (s.port n).setLane x.1 (cleanLane ((s.port n).lane x.1) x.2.1 depth) := State.port_updPort ..
    have out : (s.updPort n fun p => p.setLane x.1 (cleanLane ((s.port n).lane x.1) x.2.1 depth)).out = s.out := rfl
    generalize s.updPort n _ = u at here moved port out
    obtain ⟨t, runs, only, sent, lanes, other, disparity⟩ := ih u (fun y h => clean y (List.mem_cons_of_mem _ h)) fun y h => by
      rw [port]
      by_cases e : y.1 = x.1
      · rw [e, lane_setLane]
        exact Nat.lt_of_le_of_lt (recentSum_clean ..) (holds x List.mem_cons_self)
      · rw [lane_setLane_other _ _ e]
        exact holds y (List.mem_cons_of_mem _ h)
    rw [List.foldl_cons, here]
    refine ⟨t, runs, moved.trans only, sent.trans out, ?_, fun k h => ?_, fun nodup y h => ?_⟩
    · rw [lanes, port]
      rfl
    · rw [List.map_cons, List.mem_cons, not_or] at h
      rw [other k h.2, port, lane_setLane_other _ _ h.1]
    · rw [List.map_cons, List.nodup_cons] at nodup
      cases List.mem_cons.mp h with
      | inl e => rw [e, other _ nodup.1, port, lane_setLane, cleanLane]
      | inr h => exact disparity nodup.2 y h

/-! ## A clean data block (R301 to R303) -/

/-- The lanes of a block as noteLanes takes them: each data lane with its header and code errors, and the clock lane. -/
def blockLanes (d : List (Nat × List (Option Nat) × Option Bool)) (headErrs : List Bool) (errs : List Nat)
    (clock : List (Nat × Option Bool × Bool × Nat)) : List (Nat × Option Bool × Bool × Nat) :=
  ((d.zip (headErrs.zip errs)).map fun y => (y.1.1, y.1.2.2, y.2.1, y.2.2)) ++ clock

theorem blockLanes_clean {d : List (Nat × List (Option Nat) × Option Bool)} {headErrs : List Bool} {errs : List Nat}
    {clock : List (Nat × Option Bool × Bool × Nat)} (heads : ∀ e ∈ headErrs, e = false) (codes : ∀ e ∈ errs, e = 0)
    (ck : ∀ x ∈ clock, x.2.2 = (false, 0)) : ∀ x ∈ blockLanes d headErrs errs clock, x.2.2 = (false, 0) := by
  intro x hx
  cases List.mem_append.mp hx with
  | inl h =>
    obtain ⟨⟨y, e, c⟩, hy, rfl⟩ := List.mem_map.mp h
    have pair := (List.of_mem_zip hy).2
    rw [heads e (List.of_mem_zip pair).1, codes c (List.of_mem_zip pair).2]
  | inr h => exact ck x h

/-- With an error count for each data lane, the lanes are the data lanes and the clock lane. -/
theorem blockLanes_lanes {d : List (Nat × List (Option Nat) × Option Bool)} {headErrs : List Bool} {errs : List Nat}
    {clock : List (Nat × Option Bool × Bool × Nat)} (heads : headErrs.length = d.length) (codes : errs.length = d.length) :
    (blockLanes d headErrs errs clock).map (·.1) = d.map (·.1) ++ clock.map (·.1)
    ∧ ∀ y ∈ d, ∃ e, (y.1, y.2.2, e) ∈ blockLanes d headErrs errs clock := by
  have pairs : (d.zip (headErrs.zip errs)).map (·.1) = d := by
    rw [List.map_fst_zip]
    rw [List.length_zip]
    omega
  refine ⟨?_, fun y hy => ?_⟩
  · unfold blockLanes
    rw [List.map_append, List.map_map]
    conv_rhs => rw [← pairs]
    rw [List.map_map]
    rfl
  · rw [← pairs] at hy
    obtain ⟨⟨z, e⟩, hz, rfl⟩ := List.mem_map.mp hy
    exact ⟨e, List.mem_append_left _ (List.mem_map.mpr ⟨_, hz, rfl⟩)⟩

/-- What a block does once its lanes are noted: its stream joins the stripe, and what it shows of faults, sleep and loss follows. -/
def takeBlock (s : State) (n : Nat) (sd : Side) (b : BlockDone) (ck : List (Option Nat)) (noted : State × List Nat) : Out :=
  let p := s.port n
  let x := p.stripe sd
  let (s, lost) := noted
  let s := if p.rxAsleep then (s.updPort n fun p => { p with rxAsleep := false, rxWaking := 0 }).sleepCheck n else s
  let s := if b.slip then s.updPort n fun p => { p with slips := satAdd 255 p.slips 1 } else s
  let run := if b.head = 259 then x.trainRun + 1 else 0
  let s := s.updStripe n sd fun x => { x with
    partFlit := b.read.part, flits := x.flits ++ (if b.slip then [.fault] else []) ++ b.read.items
    trainRun := run, zSeen := decide (b.head = 258) }
  if run ≠ 0 ∧ s.timing 4 ≤ run then .next (s.stripeDown n sd 14 .send)
  else
    let s := s.takeFaults (lpOf n sd)
    let p' := s.port n
    let asleep := ck.contains (some 264) || (p'.sides.all fun sd => (p'.stripe sd).st != .up || (p'.stripe sd).zSeen)
    if asleep then .next (s.rxSleep n) else .next (lost.foldl (fun s k => s.loseLane n k) s)

/-- The clock lane among the lanes of a block, when it has carried anything. -/
def clockNote (lane : Nat) (clock : List Level) (ck : List (Option Nat) × Option Bool) : List (Nat × Option Bool × Bool × Nat) :=
  if clock.isEmpty then [] else [(lane, ck.2, false, (ck.1.filter fun x => x.isNone).length)]

theorem exec_rxBlock {port : Port} {sd : Side} {lanes : List (List Level)} {clock : List Level} {s : State} {x : Stripe}
    {d : List (Nat × List (Option Nat) × Option Bool)} {ck : List (Option Nat) × Option Bool} {b : BlockDone}
    (run : s.lineOk port.val = true) (hx : x = (s.port port.val).stripe sd) (up : x.st = .up) (wide : x.rxw ≠ 0)
    (all : lanes.length = x.rxw) (awake : (s.port port.val).rxAsleep = false) (side : sd = .a ∨ (s.port port.val).split = true)
    (hd : d = ((x.rxLanes.map (s.port port.val).physLane).zip lanes).map
      (fun y => (y.1, s.decodeLane false ((s.port port.val).lane y.1).rd (dataGroups y.2))))
    (hck : ck = s.decodeLane true ((s.port port.val).lane (s.port port.val).rxClock).rd (clockGroups clock))
    (hb : b = blockDone x.partFlit (d.map fun y => y.2.1)) :
    exec (.rxBlock port sd lanes clock) s = takeBlock s port.val sd b ck.1 (s.noteLanes port.val
      (blockLanes d b.headErrs b.errs (clockNote (s.port port.val).rxClock clock ck))) := by
  subst hb hck hd hx
  have side' : (sd == .b && !(s.port port.val).split) = false := by
    cases side with
    | inl h => rw [h]; rfl
    | inr h => rw [h, Bool.not_true, Bool.and_false]
  have idle : ((s.port port.val).stripe sd).training = false := by
    simp [Stripe.training, Stripe.hunting, up]
  have ready : (((s.port port.val).stripe sd).st != .up || ((s.port port.val).stripe sd).rxw == 0
      || lanes.length != ((s.port port.val).stripe sd).rxw) = false := by
    simp [up, wide, all]
  have stays (z : Bool) : ((s.port port.val).rxAsleep && z) = false := by rw [awake, Bool.false_and]
  show execRxBlock port sd lanes clock s = _
  unfold execRxBlock
  simp only [run, side', idle, ready, stays, Bool.not_true, Bool.or_false, Bool.false_eq_true, if_false]
  rfl

/-- A stripe that has taken the stream of a data block. -/
def streamed (x : Stripe) (r : BlockRead) : Stripe := { x with partFlit := r.part, flits := x.flits ++ r.items, trainRun := 0, zSeen := false }

theorem takeFaults_none {s : State} {lp : Nat} (h : (s.lpStripe lp).flits.head? ≠ some .fault) : s.takeFaults lp = s := if_neg h

theorem lpOf_port (n : Nat) (sd : Side) : lpPort (lpOf n sd) = n ∧ lpSide (lpOf n sd) = sd := by
  cases sd
  · simp [lpPort, lpSide, lpOf]
  · simp only [lpPort, lpSide, lpOf]
    exact ⟨by omega, if_neg (by omega)⟩

theorem takeBlock_data {s t : State} {n : Nat} {sd : Side} {b : BlockDone} {ck : List (Option Nat)}
    (awake : (s.port n).rxAsleep = false) (port : t.port n = { s.port n with rxLanes := (t.port n).rxLanes })
    (head : b.head = 256 ∨ b.head = 257) (slip : b.slip = false) (whole : .fault ∉ b.read.items)
    (up : ((s.port n).stripe sd).st = .up) (front : ((s.port n).stripe sd).flits.head? ≠ some .fault)
    (side : sd = .a ∨ (s.port n).split = true) (goes : ck.contains (some 264) = false) :
    takeBlock s n sd b ck (t, []) = .next (t.updStripe n sd fun x => streamed x b.read) := by
  have stripes (sd' : Side) : (t.port n).stripe sd' = (s.port n).stripe sd' := by
    rw [port]
    cases sd' <;> rfl
  have after : (t.updStripe n sd fun x => streamed x b.read).port n =
      (t.port n).setStripe sd (streamed ((s.port n).stripe sd) b.read) := by
    rw [State.port_updStripe, stripes]
  have sides : sd ∈ ((t.updStripe n sd fun x => streamed x b.read).port n).sides := by
    have split : ((t.updStripe n sd fun x => streamed x b.read).port n).split = (s.port n).split := by
      rw [after, port]
      cases sd <;> rfl
    unfold PortSt.sides
    rw [split]
    cases side with
    | inl h => rw [h]; split <;> decide
    | inr h => rw [h]; cases sd <;> decide
  have flits : ((t.updStripe n sd fun x => streamed x b.read).lpStripe (lpOf n sd)).flits.head? ≠ some .fault := by
    rw [State.lpStripe, (lpOf_port n sd).1, (lpOf_port n sd).2, after, PortSt.stripe_setStripe, streamed]
    cases h : ((s.port n).stripe sd).flits with
    | nil =>
      rw [List.nil_append]
      exact fun e => whole (List.mem_of_head? e)
    | cons f r =>
      rw [h] at front
      exact front
  have stays : (ck.contains (some 264) || (((t.updStripe n sd fun x => streamed x b.read).port n).sides.all fun sd' =>
      (((t.updStripe n sd fun x => streamed x b.read).port n).stripe sd').st != .up
        || (((t.updStripe n sd fun x => streamed x b.read).port n).stripe sd').zSeen)) = false := by
    rw [goes, Bool.false_or, Bool.eq_false_iff]
    intro asleep
    have own := List.all_eq_true.mp asleep sd sides
    rw [after, PortSt.stripe_setStripe] at own
    simp [streamed, up] at own
  have noSleep : b.head ≠ 258 := by omega
  have noTrain : b.head ≠ 259 := by omega
  unfold takeBlock
  simp only [awake, slip, noSleep, noTrain, if_false, Bool.false_eq_true, List.append_nil, decide_false, ne_eq, not_true_eq_false,
    false_and]
  rw [show (t.updStripe n sd fun x => { x with
      partFlit := b.read.part, flits := x.flits ++ b.read.items, trainRun := 0, zSeen := false })
    = t.updStripe n sd fun x => streamed x b.read from rfl, takeFaults_none flits, stays]
  rfl

theorem blockDone_lengths (part : Bytes) (syms : List (List (Option Nat))) :
    (blockDone part syms).headErrs.length = syms.length ∧ (blockDone part syms).errs.length = syms.length := by
  simp [blockDone]

/-- The items of a block without code errors hold no fault. -/
theorem blockDone_whole {part : Bytes} {syms : List (List (Option Nat))} (clean : (blockDone part syms).read.errs = []) :
    .fault ∉ (blockDone part syms).read.items := by
  unfold blockDone at *
  dsimp only at *
  split at clean
  · next data =>
    rw [if_pos data]
    exact readPayload_clean clean
  · next other =>
    rw [if_neg other]
    simp

theorem clockNote_clean {lane : Nat} {clock : List Level} {ck : List (Option Nat) × Option Bool} (good : ∀ e ∈ ck.1, e ≠ none) :
    ∀ x ∈ clockNote lane clock ck, x.1 = lane ∧ x.2.2 = (false, 0) := by
  have none_ : (ck.1.filter fun x => x.isNone) = [] := by
    rw [List.filter_eq_nil_iff]
    intro e he h
    exact good e he (Option.isNone_iff_eq_none.mp h)
  intro x hx
  unfold clockNote at hx
  rw [none_] at hx
  split at hx
  · cases hx
  · rw [List.mem_singleton.mp hx]
    exact ⟨rfl, rfl⟩

theorem clockNote_lane (lane : Nat) (clock : List Level) (ck : List (Option Nat) × Option Bool) :
    ((clockNote lane clock ck).map (·.1)) <+: [lane] := by
  unfold clockNote
  split
  · exact List.nil_prefix
  · exact List.prefix_refl _

/-! ## Lock loss in training (R348) -/

theorem trainingLoss_send {s : State} {n lane : Nat} (split : (s.port n).split = false) (st : (s.port n).a.st = .send) :
    (s.port n).sides.foldl (fun s sd => s.trainingLoss n sd lane) s = s.updStripe n .a fun x => { x with
      locked := if lane = (if (s.port n).ckOnSp = true then 8 else 9) then 0 else x.locked &&& ~~~(BitVec.ofNat 9 (1 <<< lane)) } := by
  have sides : (s.port n).sides = [.a] := by
    rw [PortSt.sides, split]
    rfl
  have st' : ((s.port n).stripe .a).st = .send := st
  rw [sides, List.foldl_cons, List.foldl_nil, State.trainingLoss, st']
  by_cases clock : lane = (if (s.port n).ckOnSp = true then 8 else 9)
  · simp only [beq_iff_eq, clock, if_true]
  · simp only [beq_iff_eq, clock, if_false]

/-- The port whose lane has lost lock in SEND. -/
theorem laneLockLoss_send {port : Port} {lane : Lane} {s : State} (run : s.lineOk port.val = true)
    (split : (s.port port.val).split = false) (st : (s.port port.val).a.st = .send) (m : BitVec 9)
    (hm : m = if lane.val = (if (s.port port.val).ckOnSp = true then 8 else 9) then (0 : BitVec 9)
      else (s.port port.val).a.locked &&& ~~~(BitVec.ofNat 9 (1 <<< lane.val))) :
    ∃ t, exec (.laneLockLoss port lane) s = .next t ∧ OnlyPort s t port.val ∧ t.out = s.out
      ∧ t.port port.val = { s.port port.val with
          a := { (s.port port.val).a with locked := m }
          clockLocked := !decide (lane.val = (if (s.port port.val).ckOnSp = true then 8 else 9)) && (s.port port.val).clockLocked } := by
  have lost := trainingLoss_send (lane := lane.val) split st
  have moved := onlyPort_updStripe s port.val .a fun x => { x with
    locked := if lane.val = (if (s.port port.val).ckOnSp = true then 8 else 9) then 0
      else x.locked &&& ~~~(BitVec.ofNat 9 (1 <<< lane.val)) }
  have after : (s.updStripe port.val .a fun x => { x with
      locked := if lane.val = (if (s.port port.val).ckOnSp = true then 8 else 9) then 0
        else x.locked &&& ~~~(BitVec.ofNat 9 (1 <<< lane.val)) }).port port.val =
      { s.port port.val with a := { (s.port port.val).a with locked := m } } := by
    rw [State.port_updStripe, hm]
    rfl
  have out : (s.updStripe port.val .a fun x => { x with
      locked := if lane.val = (if (s.port port.val).ckOnSp = true then 8 else 9) then 0
        else x.locked &&& ~~~(BitVec.ofNat 9 (1 <<< lane.val)) }).out = s.out := rfl
  generalize s.updStripe port.val .a _ = u at lost moved after out
  have down : (u.port port.val).anyUp = false := by
    simp [after, PortSt.anyUp, PortSt.sides, split, PortSt.stripe, st]
  have runs : exec (.laneLockLoss port lane) s = if lane.val = (if (u.port port.val).ckOnSp = true then 8 else 9)
      then .next (u.setPort port.val { u.port port.val with clockLocked := false }) else .next u := by
    show execLaneLockLoss port lane s = _
    unfold execLaneLockLoss
    simp only [run, lost, down, Bool.not_true, Bool.false_eq_true, if_false]
  have spare : (u.port port.val).ckOnSp = (s.port port.val).ckOnSp := by rw [after]
  rw [spare] at runs
  by_cases clock : lane.val = (if (s.port port.val).ckOnSp = true then 8 else 9)
  · rw [if_pos clock] at runs
    refine ⟨_, runs, moved.trans (onlyPort_setPort ..), out, ?_⟩
    rw [State.port_setPort, after, decide_eq_true clock]
    rfl
  · rw [if_neg clock] at runs
    refine ⟨_, runs, moved, out, ?_⟩
    rw [after, decide_eq_false clock]
    rfl

/-- Settles O31: a clean block is decoded, its lanes noted, and its stream handed to the stripe. -/
theorem blocksBecomeFlits : Obligations.BlocksBecomeFlits := by
  refine ⟨?_, fun port lane s run split st => ⟨fun clock => ?_, fun other => ?_⟩⟩
  · intro port sd lanes clock s x d ck b run hx up wide all awake side hd hck good front hb head slip clean heads codes locks holds
    have runs := exec_rxBlock (port := port) (clock := clock) run hx up wide all awake side hd hck hb
    have lengths : b.headErrs.length = d.length ∧ b.errs.length = d.length := by
      have := blockDone_lengths x.partFlit (d.map fun y => y.2.1)
      rwa [← hb, List.length_map] at this
    obtain ⟨lanesAre, each⟩ := blockLanes_lanes (clock := clockNote (s.port port.val).rxClock clock ck) lengths.1 lengths.2
    have data : d.map (·.1) = x.rxLanes.map (s.port port.val).physLane := by
      rw [hd, List.map_map]
      exact List.map_fst_zip (by simp [Stripe.rxLanes, all])
    have ckClean := clockNote_clean (lane := (s.port port.val).rxClock) (clock := clock) (ck := ck) fun e he => (good e he).1
    have within : ∀ y ∈ blockLanes d b.headErrs b.errs (clockNote (s.port port.val).rxClock clock ck),
        recentSum ((s.port port.val).lane y.1) (s.timing 12) < s.timing 11 := by
      intro y hy
      refine holds y.1 ?_
      have lane := List.mem_map_of_mem (f := (·.1)) hy
      rw [lanesAre, data] at lane
      cases List.mem_append.mp lane with
      | inl h => exact List.mem_cons_of_mem _ h
      | inr h =>
        obtain ⟨z, hz, e⟩ := List.mem_map.mp h
        rw [← e, (ckClean z hz).1]
        exact List.mem_cons_self
    obtain ⟨t, noted, only, out, laneOnly, -, disparity⟩ := noteFold_clean port.val _ s
      (blockLanes_clean heads codes fun y hy => (ckClean y hy).2) locks within
    have goes : ck.1.contains (some 264) = false := by
      rw [Bool.eq_false_iff]
      intro h
      exact (good _ (List.contains_iff_mem.mp h)).2 rfl
    rw [noteLanes_eq, noted, takeBlock_data awake laneOnly head slip (hb ▸ blockDone_whole (hb ▸ clean)) (hx ▸ up) (hx ▸ front) side
      goes] at runs
    have stripe : (t.port port.val).stripe sd = x := by
      rw [laneOnly, hx]
      cases sd <;> rfl
    refine ⟨_, runs, only.trans (onlyPort_updStripe ..), out, ?_, fun nodup y hy => ?_⟩
    · rw [State.port_updStripe, PortSt.stripe_setStripe, stripe]
      rfl
    · obtain ⟨e, hz⟩ := each y hy
      have lane : ((t.updStripe port.val sd fun x => streamed x b.read).port port.val).lane y.1 = (t.port port.val).lane y.1 := by
        rw [State.port_updStripe]
        cases sd <;> rfl
      rw [lane]
      refine disparity ?_ _ hz
      rw [lanesAre, data]
      obtain ⟨notClock, nodup⟩ := List.nodup_cons.mp nodup
      refine List.Nodup.append nodup ((clockNote_lane ..).sublist.nodup (List.nodup_singleton _)) fun k hk hc => ?_
      rw [List.mem_singleton.mp ((clockNote_lane ..).subset hc)] at hk
      exact notClock hk
  · obtain ⟨t, runs, only, out, port⟩ := laneLockLoss_send run split st 0 (by rw [if_pos clock])
    refine ⟨t, runs, only, ?_, ?_, out⟩
    · rw [port, decide_eq_true clock]
      rfl
    · rw [port]
  · obtain ⟨t, runs, only, out, port⟩ := laneLockLoss_send run split st _ rfl
    refine ⟨t, runs, only, ?_, out, ?_⟩
    · rw [port, decide_eq_false other]
      rfl
    · rw [port, if_neg other]

end Sys2Proof.Claims
end

section
/-! PROOFS. LANE messages and lane changes (R349 to R353). -/

namespace Sys2Proof.Claims

open Sys2Proof.Machine

/-! ## Sending a LANE message (R350) -/

theorem laneLp_port (s : State) (n : Nat) (sd : Side) (clock : Bool) : lpPort (s.laneLp n sd clock) = n := by
  unfold State.laneLp
  dsimp only
  split
  · split <;> unfold lpPort <;> omega
  · exact (lpOf_port n sd).1

/-- What an awake transmitter sends for a LANE message. -/
def laneOutput (s : State) (n lp code : Nat) (m : LaneMsg) : List Emission :=
  [.flit lp (wireOf s lp ctrlHdr (leBytes 1 5 ++ laneBytes code m) false), .lane n code m]

theorem sendLane_sends {s : State} {n : Nat} (sd : Side) (code : Nat) (m : LaneMsg) (awake : (s.port n).txAwake = true)
    (staying : (s.port n).txSleeping = false) : let lp := s.laneLp n sd (m.lane == 9)
    LpSends s (s.sendLane n sd code m) lp
      (handed (s.lpStripe lp) (wireOf s lp ctrlHdr (leBytes 1 5 ++ laneBytes code m) false)) (laneOutput s n lp code m) := by
  have runs : s.sendLane n sd code m = (s.sendCtrl (s.laneLp n sd (m.lane == 9)) 5 (laneBytes code m)).emit (.lane n code m) := by
    unfold State.sendLane
    rw [if_pos awake, abandonSleep_awake staying]
  dsimp only
  rw [runs]
  exact (lpSends_sendCtrl ..).emitted _

theorem sendLane_waits {s : State} {n : Nat} (sd : Side) (code : Nat) (m : LaneMsg) (asleep : (s.port n).txAwake = false) :
    s.sendLane n sd code m = s.updPort n fun p => { p with laneOut := (p.laneOut.filter fun x => x.1 != code) ++ [(code, m)] } :=
  if_neg (by rw [asleep]; decide)

theorem OnlyLine.of_setStripe {p : PortSt} {sd : Side} (f : BitVec 2048) : OnlyLine p (p.setStripe sd (handed (p.stripe sd) f)) := by
  cases sd <;> rfl

theorem LpSends.onlyLine {s t : State} {lp n : Nat} {f : BitVec 2048} {l : List Emission} (h : LpSends s t lp (handed (s.lpStripe lp) f) l)
    (hn : lpPort lp = n) : OnlyPort s t n ∧ OnlyLine (s.port n) (t.port n) := by
  subst hn
  refine ⟨h.1, ?_⟩
  rw [h.2.1]
  exact OnlyLine.of_setStripe f

/-- A LANE message moves a port's lane line alone, or waits in its LANE queue. -/
def LaneSent (p q : PortSt) : Prop :=
  q = { p with
    a := { p.a with txLine := q.a.txLine, ackOwed := q.a.ackOwed }, b := { p.b with txLine := q.b.txLine, ackOwed := q.b.ackOwed }
    laneOut := q.laneOut }

theorem sendLane_only {s : State} {n : Nat} (sd : Side) (code : Nat) (m : LaneMsg) (staying : (s.port n).txSleeping = false) :
    OnlyPort s (s.sendLane n sd code m) n ∧ LaneSent (s.port n) ((s.sendLane n sd code m).port n) := by
  cases awake : (s.port n).txAwake with
  | true =>
    obtain ⟨only, line⟩ := (sendLane_sends sd code m awake staying).onlyLine (laneLp_port ..)
    refine ⟨only, ?_⟩
    rw [line]
    rfl
  | false =>
    rw [sendLane_waits sd code m awake, State.port_updPort]
    exact ⟨onlyPort_updPort .., rfl⟩

/-! ## The TX mapping (R351, R352) -/

/-- The TX lane that gives its place to the spare, or takes it back (R351 step 4). -/
def txLaneMoved (s : State) (n : Nat) (restore : Bool) : Option Nat → State
  | none => s
  | some k =>
    (s.setTxSp n (if restore then 15 else k)).updPort n fun p => { p with
      swaps := satAdd 255 p.swaps 1
      txDropped := if restore then clearLanes p.txDropped [k]
        else p.txDropped ||| BitVec.ofNat 10 (maskOf (if (s.port n).txSp < 8 then [k, (s.port n).txSp] else [k])) }

/-- The TX width that a stripe is narrowed to (R352). -/
def txNarrowed (s : State) (n : Nat) (sd : Side) (width first : Nat) : State :=
  let gone := (stripeLanes (s.port n).split sd).filter fun k => decide (k < first) || decide (first + width ≤ k)
  ((s.updStripe n sd fun x => { x with txw := width, txFirst := first }).updPort n fun p => { p with
    widthDrops := satAdd 255 p.widthDrops 1, txDropped := p.txDropped ||| BitVec.ofNat 10 (maskOf gone) }).linkChanged n

theorem applyTxMap_eq (s : State) (n : Nat) (sd : Side) (lane : Option Nat) (restore : Bool) (width first : Nat) :
    s.applyTxMap n sd lane restore width first =
      if width = 0 then txLaneMoved s n restore lane else txNarrowed (txLaneMoved s n restore lane) n sd width first := by
  cases lane <;> rfl

/-- What the port keeps of its lane changes, the spare's role and its counts. -/
theorem txNarrowed_port (s : State) (n : Nat) (sd : Side) (width first : Nat) :
    OnlyPort s (txNarrowed s n sd width first) n
    ∧ ((txNarrowed s n sd width first).port n).txJob = (s.port n).txJob
    ∧ ((txNarrowed s n sd width first).port n).txSp = (s.port n).txSp
    ∧ ((txNarrowed s n sd width first).port n).swaps = (s.port n).swaps
    ∧ ((txNarrowed s n sd width first).port n).txSleeping = (s.port n).txSleeping
    ∧ (((txNarrowed s n sd width first).port n).stripe sd).txw = width
    ∧ (((txNarrowed s n sd width first).port n).stripe sd).txFirst = first := by
  refine ⟨(onlyPort_updStripe ..).trans <| (onlyPort_updPort ..).trans (onlyPort_linkChanged ..), ?_⟩
  unfold txNarrowed
  rw [State.port_linkChanged, State.port_updPort, State.port_updStripe]
  cases sd <;> exact ⟨rfl, rfl, rfl, rfl, rfl, rfl⟩

theorem txLaneMoved_port (s : State) (n : Nat) (restore : Bool) (lane : Option Nat) :
    OnlyPort s (txLaneMoved s n restore lane) n
    ∧ ((txLaneMoved s n restore lane).port n).txJob = (s.port n).txJob
    ∧ ((txLaneMoved s n restore lane).port n).txSleeping = (s.port n).txSleeping
    ∧ ∀ k, lane = some k → ((txLaneMoved s n restore lane).port n).txSp = (if restore = true then 15 else k)
      ∧ ((txLaneMoved s n restore lane).port n).swaps = satAdd 255 (s.port n).swaps 1 := by
  cases lane with
  | none => exact ⟨.refl .., rfl, rfl, fun _ h => nomatch h⟩
  | some k =>
    have port : (txLaneMoved s n restore (some k)).port n = _ := State.port_updPort ..
    have only : OnlyPort s (txLaneMoved s n restore (some k)) n := by
      unfold txLaneMoved
      exact (onlyPort_setTxSp ..).trans (onlyPort_updPort ..)
    rw [port, State.port_setTxSp]
    exact ⟨only, rfl, rfl, fun _ h => Option.some.inj h ▸ ⟨rfl, rfl⟩⟩

theorem applyTxMap_port (s : State) (n : Nat) (sd : Side) (lane : Option Nat) (restore : Bool) (width first : Nat) :
    OnlyPort s (s.applyTxMap n sd lane restore width first) n
    ∧ ((s.applyTxMap n sd lane restore width first).port n).txJob = (s.port n).txJob
    ∧ ((s.applyTxMap n sd lane restore width first).port n).txSleeping = (s.port n).txSleeping
    ∧ (∀ k, lane = some k → ((s.applyTxMap n sd lane restore width first).port n).txSp = (if restore = true then 15 else k)
        ∧ ((s.applyTxMap n sd lane restore width first).port n).swaps = satAdd 255 (s.port n).swaps 1)
    ∧ (width ≠ 0 → (((s.applyTxMap n sd lane restore width first).port n).stripe sd).txw = width
        ∧ (((s.applyTxMap n sd lane restore width first).port n).stripe sd).txFirst = first) := by
  obtain ⟨only, job, sleeping, lanes⟩ := txLaneMoved_port s n restore lane
  obtain ⟨only', job', spare', swaps', sleeping', width', first'⟩ := txNarrowed_port (txLaneMoved s n restore lane) n sd width first
  rw [applyTxMap_eq]
  split
  · next zero => exact ⟨only, job, sleeping, lanes, fun h => absurd zero h⟩
  · refine ⟨only.trans only', job'.trans job, sleeping'.trans sleeping, fun k h => ?_, fun _ => ⟨width', first'⟩⟩
    rw [spare', swaps']
    exact lanes k h

theorem spareDone_port (s : State) (n k : Nat) (d : Dir) (lane : Nat) : (s.spareDone n d lane).port k = s.port k :=
  congrArg (fun m => sget m k defaultPort) (finishWork_ports ..)

theorem spareDenied_port (s : State) (n k : Nat) (d : Dir) (lane : Nat) : (s.spareDenied n d lane).port k = s.port k :=
  congrArg (fun m => sget m k defaultPort) (finishWork_ports ..)

/-! ## The messages (R351, R353) -/

/-- A LANE message of code k is handled, and a spare command that waited starts. -/
theorem laneMessage_runs {port : Port} {m : LaneMsg} {s : State} (run : s.laneRxOk port.val m = true) :
    exec (.laneReqSpare port m) s = .next ((s.reqSpareIn port.val m).serveSpare port.val)
    ∧ exec (.laneReady port m) s = .next ((s.readyIn port.val m).serveSpare port.val)
    ∧ exec (.laneReqWidth port m) s = .next ((s.reqWidthIn port.val m).serveSpare port.val)
    ∧ exec (.laneAsk port m) s = .next ((s.askIn port.val m).serveSpare port.val)
    ∧ exec (.laneSwitched port m) s = .next ((s.switchedIn port.val m).serveSpare port.val)
    ∧ exec (.laneDone port m) s = .next ((s.doneIn port.val m).serveSpare port.val)
    ∧ exec (.laneRefuse port m) s = .next ((s.refuseIn port.val m).serveSpare port.val) :=
  ⟨if_pos run, if_pos run, if_pos run, if_pos run, if_pos run, if_pos run, if_pos run⟩

theorem startWake_effect (s : State) (n : Nat) : OnlyPort s (s.startWake n) n ∧ s.out <+: (s.startWake n).out
    ∧ (s.startWake n).port n = { s.port n with
        txWaking := if (s.port n).txAsleep = true ∧ (s.port n).txWaking = 0 then 1 else (s.port n).txWaking } := by
  unfold State.startWake
  split
  · exact ⟨(onlyPort_updPort ..).trans (onlyPort_emit ..), List.prefix_append .., by rw [State.port_emit, State.port_updPort]⟩
  · exact ⟨.refl .., List.prefix_refl _, rfl⟩

/-- The job that a REQ_SPARE opens in the TX direction. -/
def askedJob (m : LaneMsg) : LaneJob :=
  { side := if m.stripeB = true then .b else .a, lane := m.lane.toNat, hitless := m.hitless && m.lane.toNat != 9
    restore := m.restore, sent := 0, body := m, locked := false, doubled := false }

theorem reqSpareIn_effect {s : State} {n : Nat} {m : LaneMsg} (lane : m.lane.toNat < 8 ∨ m.lane.toNat = 9) :
    OnlyPort s (s.reqSpareIn n m) n ∧ .lanesPower n .tx true ∈ (s.reqSpareIn n m).out
    ∧ (s.reqSpareIn n m).port n = { s.port n with
        txJob := some (askedJob m)
        txRd := if (s.port n).lanePowered true (if m.restore = true then m.lane.toNat else 8) = true then (s.port n).txRd
          else clearLanes (s.port n).txRd [if m.restore = true then m.lane.toNat else 8]
        txWaking := if (s.port n).txAsleep = true ∧ (s.port n).txWaking = 0 then 1 else (s.port n).txWaking } := by
  have runs : s.reqSpareIn n m = ((s.updPort n fun p => { p with
      txJob := some (askedJob m)
      txRd := if p.lanePowered true (if m.restore then m.lane.toNat else 8) then p.txRd
        else clearLanes p.txRd [if m.restore then m.lane.toNat else 8] }).emit (.lanesPower n .tx true)).startWake n := by
    unfold State.reqSpareIn
    exact if_neg (by omega)
  obtain ⟨only, sent, port⟩ := startWake_effect ((s.updPort n fun p => { p with
      txJob := some (askedJob m)
      txRd := if p.lanePowered true (if m.restore then m.lane.toNat else 8) then p.txRd
        else clearLanes p.txRd [if m.restore then m.lane.toNat else 8] }).emit (.lanesPower n .tx true)) n
  rw [runs]
  refine ⟨(onlyPort_updPort ..).trans ((onlyPort_emit ..).trans only), sent.subset (by simp [State.emit]), ?_⟩
  rw [port, State.port_emit, State.port_updPort]

/-! ### Swaps and restores (R353) -/

/-- The job of a hitless change of a data lane, under way with its first message. -/
def hitlessJob (s : State) (n lane : Nat) (restore : Bool) (sent : Nat) : LaneJob :=
  { side := (s.port n).laneStripe lane, lane := lane, hitless := true, restore := restore, sent := sent
    body := s.laneBody n ((s.port n).laneStripe lane) lane true restore 0 0, locked := false, doubled := false }

theorem hitlessJob_lane {s : State} {n lane : Nat} {restore : Bool} {sent : Nat} (data : lane < 8) :
    ((hitlessJob s n lane restore sent).body.lane == 9) = false := by
  refine beq_false_of_ne fun h => ?_
  have h : BitVec.ofNat 8 lane = 9 := h
  bv_omega

/-- What a hitless change sends from a state that has its job: the message of the job, or the message in the LANE queue. -/
theorem sendJob {s u : State} {n lane : Nat} {restore : Bool} {sent : Nat} {q : PortSt} (code : Nat) (data : lane < 8)
    (staying : q.txSleeping = false) (port : u.port n = q)
    (rx : ∀ sd, (q.stripe sd).rxNext = ((s.port n).stripe sd).rxNext) :
    OnlyPort u (u.sendLane n (hitlessJob s n lane restore sent).side code (hitlessJob s n lane restore sent).body) n
    ∧ (q.txAwake = true →
        OnlyLine q ((u.sendLane n (hitlessJob s n lane restore sent).side code (hitlessJob s n lane restore sent).body).port n)
        ∧ (u.sendLane n (hitlessJob s n lane restore sent).side code (hitlessJob s n lane restore sent).body).out = u.out
          ++ laneOutput s n (lpOf n (hitlessJob s n lane restore sent).side) code (hitlessJob s n lane restore sent).body)
    ∧ (q.txAwake = false →
        (u.sendLane n (hitlessJob s n lane restore sent).side code (hitlessJob s n lane restore sent).body).out = u.out
        ∧ (u.sendLane n (hitlessJob s n lane restore sent).side code (hitlessJob s n lane restore sent).body).port n
          = { q with laneOut := (q.laneOut.filter fun x => x.1 != code) ++ [(code, (hitlessJob s n lane restore sent).body)] }) := by
  subst port
  have noClock := hitlessJob_lane (s := s) (n := n) (restore := restore) (sent := sent) data
  generalize hitlessJob s n lane restore sent = j at noClock ⊢
  refine ⟨(sendLane_only j.side code j.body staying).1, fun awake => ?_, fun asleep => ?_⟩
  · have lp : u.laneLp n j.side (j.body.lane == 9) = lpOf n j.side := by
      rw [noClock]
      rfl
    have sends := sendLane_sends j.side code j.body awake staying
    rw [lp] at sends
    refine ⟨(sends.onlyLine (lpOf_port ..).1).2, ?_⟩
    have wire : wireOf u (lpOf n j.side) = wireOf s (lpOf n j.side) := by
      refine wireOf_congr ?_
      rw [State.lpStripe, State.lpStripe, (lpOf_port ..).1]
      exact rx _
    rw [sends.2.2, laneOutput, laneOutput, wire]
  · rw [sendLane_waits j.side code j.body asleep, State.port_updPort]
    exact ⟨rfl, rfl⟩

/-- The port in which the RX direction has begun a swap or a restore. -/
def rxSwapping (s : State) (n lane : Nat) (restore : Bool) : PortSt :=
  { (s.port n).freshLane (if restore = true then lane else 8) with rxJob := some (hitlessJob s n lane restore 1) }

theorem startRxSwap_eq {s : State} {n lane : Nat} {restore : Bool} (data : lane < 8) : s.startRxSwap n lane restore =
    ((s.updPort n fun p => { p.freshLane (if restore then lane else 8) with rxJob := some (hitlessJob s n lane restore 1) }).emit
      (.lanesPower n .rx true)).sendLane n (hitlessJob s n lane restore 1).side 1 (hitlessJob s n lane restore 1).body := by
  have hitless : (lane != 9) = true := by
    rw [bne_iff_ne]
    omega
  unfold State.startRxSwap
  simp only [hitless, if_true, Bool.not_true, Bool.false_and, Bool.false_eq_true, if_false]
  rfl

theorem startRxSwap_effect {s : State} {n lane : Nat} {restore : Bool} (data : lane < 8) (staying : (s.port n).txSleeping = false) :
    OnlyPort s (s.startRxSwap n lane restore) n
    ∧ ((s.port n).txAwake = true → OnlyLine (rxSwapping s n lane restore) ((s.startRxSwap n lane restore).port n)
        ∧ (s.startRxSwap n lane restore).out = s.out ++ (.lanesPower n .rx true
          :: laneOutput s n (lpOf n (hitlessJob s n lane restore 1).side) 1 (hitlessJob s n lane restore 1).body))
    ∧ ((s.port n).txAwake = false → (s.startRxSwap n lane restore).out = s.out ++ [.lanesPower n .rx true]
        ∧ (s.startRxSwap n lane restore).port n = { rxSwapping s n lane restore with
          laneOut := ((rxSwapping s n lane restore).laneOut.filter fun x => x.1 != 1) ++ [(1, (hitlessJob s n lane restore 1).body)] }) := by
  have port : ((s.updPort n fun p => { p.freshLane (if restore then lane else 8) with
      rxJob := some (hitlessJob s n lane restore 1) }).emit (.lanesPower n .rx true)).port n = rxSwapping s n lane restore := by
    rw [State.port_emit, State.port_updPort]
    rfl
  have sent : ((s.updPort n fun p => { p.freshLane (if restore then lane else 8) with
      rxJob := some (hitlessJob s n lane restore 1) }).emit (.lanesPower n .rx true)).out = s.out ++ [.lanesPower n .rx true] := rfl
  have moved : OnlyPort s ((s.updPort n fun p => { p.freshLane (if restore then lane else 8) with
      rxJob := some (hitlessJob s n lane restore 1) }).emit (.lanesPower n .rx true)) n :=
    (onlyPort_updPort ..).trans (onlyPort_emit ..)
  have stripes (sd : Side) : ((rxSwapping s n lane restore).stripe sd).rxNext = ((s.port n).stripe sd).rxNext := by cases sd <;> rfl
  rw [startRxSwap_eq data]
  generalize (s.updPort n _).emit _ = u at port sent moved ⊢
  obtain ⟨only, awake, asleep⟩ := sendJob (s := s) (u := u) (restore := restore) (sent := 1)
    (q := rxSwapping s n lane restore) 1 data staying port stripes
  refine ⟨moved.trans only, fun h => ⟨(awake h).1, ?_⟩, fun h => ⟨?_, (asleep h).2⟩⟩
  · rw [(awake h).2, sent, List.append_assoc]
    rfl
  · rw [(asleep h).1, sent]

/-! ### The other messages -/

theorem askIn_refuses {s : State} {n : Nat} {m : LaneMsg} (bad : s.rxSwapOk n m.lane.toNat m.restore = false) :
    s.askIn n m = s.sendLane n (if m.stripeB = true then .b else .a) 7 m := if_neg (by rw [bad]; decide)

theorem askIn_starts {s : State} {n : Nat} {m : LaneMsg} (ok : s.rxSwapOk n m.lane.toNat m.restore = true) :
    s.askIn n m = s.startRxSwap n m.lane.toNat m.restore := if_pos ok

theorem rxSwapOk_data {s : State} {n lane : Nat} {restore : Bool} (ok : s.rxSwapOk n lane restore = true) (data : lane ≠ 9) : lane < 8 := by
  simp only [State.rxSwapOk, data, if_false, Bool.and_eq_true, decide_eq_true_eq] at ok
  exact ok.1.1.1.1.1

section
variable {s : State} {n : Nat} {m : LaneMsg} {j : LaneJob} (job : (s.port n).txJob = some j) (mine : j.lane = m.lane.toNat)
include job mine

theorem readyIn_doubles (first : j.sent = 0) (hitless : j.hitless = true) :
    s.readyIn n m = s.updPort n fun p => { p with txJob := some { j with doubled := true } } := by
  unfold State.readyIn
  simp only [job, mine, first, hitless, ne_eq, not_true_eq_false, or_self, if_false, if_true]

/-- The state in which a halted change has given the lane to the spare, or back, before the replay. -/
def laneGiven (s : State) (n : Nat) (m : LaneMsg) (j : LaneJob) : State :=
  ((s.updPort n fun p => { p with txJob := none }).applyTxMap n j.side (some j.lane) j.restore
    (if m.width = 0 then j.body.width.toNat else m.width.toNat)
    (if m.width = 0 then j.body.first.toNat else m.first.toNat)).spareDone n .tx j.lane

omit job mine in
theorem laneGiven_port : ((laneGiven s n m j).port n).txJob = none
    ∧ ((laneGiven s n m j).port n).txSp = (if j.restore = true then 15 else j.lane)
    ∧ ((laneGiven s n m j).port n).swaps = satAdd 255 (s.port n).swaps 1 := by
  have start : (s.updPort n fun p => { p with txJob := none }).port n = { s.port n with txJob := none } := State.port_updPort ..
  obtain ⟨-, none_, -, lanes, -⟩ := applyTxMap_port (s.updPort n fun p => { p with txJob := none }) n j.side (some j.lane) j.restore
    (if m.width = 0 then j.body.width.toNat else m.width.toNat) (if m.width = 0 then j.body.first.toNat else m.first.toNat)
  rw [start] at none_ lanes
  unfold laneGiven
  rw [spareDone_port]
  exact ⟨none_, lanes j.lane rfl⟩

theorem readyIn_gives (first : j.sent = 0) (halts : j.hitless = false) (data : j.lane ≠ 9) :
    s.readyIn n m = (laneGiven s n m j).nakIn (lpOf n j.side) m.next.toNat := by
  have clock : (j.lane == 9) = false := beq_false_of_ne data
  unfold State.readyIn
  simp only [job, first, halts, clock, data, if_false, Bool.false_eq_true, ne_eq, not_true_eq_false, or_false]
  rw [if_neg (not_not.mpr mine)]
  rfl

omit mine in
theorem switchedIn_waits (single : j.doubled = false) : s.switchedIn n m = s := by
  unfold State.switchedIn
  simp only [job, single, or_true, if_true]

theorem switchedIn_ends (staying : (s.port n).txSleeping = false) (doubled : j.doubled = true) :
    ((s.switchedIn n m).port n).txJob = none
    ∧ ((s.switchedIn n m).port n).txSp = (if j.restore = true then 15 else j.lane)
    ∧ ((s.switchedIn n m).port n).swaps = satAdd 255 (s.port n).swaps 1 := by
  have start : (s.updPort n fun p => { p with txJob := none }).port n = { s.port n with txJob := none } := State.port_updPort ..
  obtain ⟨-, none_, awake, lanes, -⟩ := applyTxMap_port (s.updPort n fun p => { p with txJob := none }) n j.side (some j.lane)
    j.restore 0 0
  have runs : s.switchedIn n m = (((s.updPort n fun p => { p with txJob := none }).applyTxMap n j.side (some j.lane) j.restore 0
      0).sendLane n j.side 6 (((s.updPort n fun p => { p with txJob := none }).applyTxMap n j.side (some j.lane) j.restore 0
      0).laneBody n j.side j.lane true j.restore 0 0)).spareDone n .tx j.lane := by
    unfold State.switchedIn
    simp only [job, doubled, Bool.true_eq_false, or_false]
    rw [if_neg (not_not.mpr mine)]
  rw [start] at none_ awake lanes
  rw [runs, spareDone_port]
  generalize (s.updPort n fun p => { p with txJob := none }).applyTxMap n j.side (some j.lane) j.restore 0 0 = u at none_ awake lanes ⊢
  rw [(sendLane_only j.side 6 _ (awake.trans staying)).2]
  exact ⟨none_, lanes j.lane rfl⟩

theorem refuseIn_ends (asked : j.sent = 4) : s.refuseIn n m =
    (s.setPort n { s.port n with txJob := none }).spareDenied n .tx m.lane.toNat := by
  unfold State.refuseIn
  simp only [job, mine, asked, beq_self_eq_true, Bool.and_self, if_true]

end

theorem doneIn_ends {s : State} {n : Nat} {m : LaneMsg} {j : LaneJob} (job : (s.port n).rxJob = some j) (mine : j.lane = m.lane.toNat)
    (switched : j.sent = 5) : s.doneIn n m = (s.updPort n fun p => { p with
      rxJob := none, swaps := satAdd 255 p.swaps 1
      rxDropped := if j.restore then clearLanes p.rxDropped [j.lane, 8]
        else p.rxDropped ||| BitVec.ofNat 10 (1 <<< j.lane) }).spareDone n .rx j.lane := by
  unfold State.doneIn
  simp only [job, switched, ne_eq, not_true_eq_false, or_false]
  rw [if_neg (not_not.mpr mine)]

/-- The state in which the TX direction has narrowed, before the replay. -/
def widthTaken (s : State) (n : Nat) (sd : Side) (m : LaneMsg) : State :=
  (s.updPort n fun p => { p with txJob := dropJob sd p.txJob }).applyTxMap n sd none false m.width.toNat m.first.toNat

/-- Settles O32: each LANE message acts on the job it names, through the lemma of its code. -/
theorem laneMessagesActOnTheirJobs : Obligations.LaneMessagesActOnTheirJobs := by
  intro port m s run staying
  obtain ⟨reqSpare, ready, reqWidth, ask, switched, done, refuse⟩ := laneMessage_runs (port := port) run
  refine ⟨serveSpare_none, fun lane => ?_, fun j job mine => ⟨fun first hitless => ?_, fun first halts data => ?_, fun doubled => ?_,
    fun single => ?_, fun asked => ?_⟩, fun sd hsd => ⟨fun half => ?_, fun no2 no4 => ?_⟩, fun ok data => ?_, fun bad awake => ?_,
    fun j job mine sent => ?_⟩
  · obtain ⟨only, powered, after⟩ := reqSpareIn_effect (s := s) (n := port.val) lane
    refine ⟨_, reqSpare, only, powered, ?_, ?_⟩
    · rw [after]
    · rw [after]
      rfl
  · rw [readyIn_doubles job mine first hitless] at ready
    exact ⟨_, ready, onlyPort_updPort .., rfl, State.port_updPort ..⟩
  · rw [readyIn_gives job mine first halts data] at ready
    exact ⟨_, ready, laneGiven_port⟩
  · exact ⟨_, switched, switchedIn_ends job mine staying doubled⟩
  · rw [switched, switchedIn_waits job single]
  · rw [refuseIn_ends job mine asked] at refuse
    exact ⟨_, refuse, by rw [spareDenied_port, State.port_setPort]⟩
  · have runs : s.reqWidthIn port.val m = (widthTaken s port.val sd m).nakIn (lpOf port.val sd) m.next.toNat := by
      subst hsd
      unfold State.reqWidthIn
      exact if_neg (not_not.mpr half)
    obtain ⟨only, -, -, -, narrowed⟩ := applyTxMap_port (s.updPort port.val fun p => { p with txJob := dropJob sd p.txJob }) port.val
      sd none false m.width.toNat m.first.toNat
    rw [runs] at reqWidth
    exact ⟨_, reqWidth, (onlyPort_updPort ..).trans only, narrowed (by omega)⟩
  · rw [reqWidth, State.reqWidthIn]
    exact congrArg (fun t : State => Host.Outcome.next (t.serveSpare port.val)) (if_pos fun h => by omega)
  · obtain ⟨only, awake, asleep⟩ := startRxSwap_effect (restore := m.restore) (rxSwapOk_data ok data) staying
    rw [askIn_starts ok] at ask
    exact ⟨_, hitlessJob s port.val m.lane.toNat m.restore 1, rxSwapping s port.val m.lane.toNat m.restore, ask, only, rfl, rfl, rfl,
      rfl, rfl, awake, asleep⟩
  · have sends := sendLane_sends (if m.stripeB = true then .b else .a) 7 m awake staying
    rw [askIn_refuses bad] at ask
    obtain ⟨only, line⟩ := sends.onlyLine (laneLp_port ..)
    exact ⟨_, _, ask, only, rfl, line, sends.2.2⟩
  · rw [doneIn_ends job mine sent] at done
    refine ⟨_, done, ?_⟩
    rw [spareDone_port, State.port_updPort]
    exact ⟨rfl, rfl, rfl⟩

/-! ## Repeats, switches and timeouts (R350, R351, R353) -/

theorem exec_laneMsgRepeat {port : Port} {s : State} {j : LaneJob} (run : s.lineOk port.val = true) (job : (s.port port.val).rxJob = some j)
    (noTx : (s.port port.val).txJob = none) : exec (.laneMsgRepeat port j.side) s =
      .next (if 1 ≤ j.sent ∧ (j.sent = 1 → j.locked = false) then s.sendLane port.val j.side j.sent j.body else s) := by
  show execLaneMsgRepeat port j.side s = _
  unfold execLaneMsgRepeat
  simp only [run, job, noTx, Bool.not_true, Bool.false_eq_true, if_false, true_and]

/-- The state in which the RX takes the lane from its new place (R353 step 3). -/
def rxSwitched (s : State) (n : Nat) (j : LaneJob) : State :=
  (s.updPort n fun p => { p with rxJob := some { j with
    sent := 5, body := s.laneBody n j.side j.lane true j.restore 0 0 } }).setRxSp n (if j.restore then 15 else j.lane)

theorem rxSwitched_port (s : State) (n : Nat) (j : LaneJob) : OnlyPort s (rxSwitched s n j) n ∧ (rxSwitched s n j).out = s.out
    ∧ (rxSwitched s n j).port n = { s.port n with
        rxJob := some { j with sent := 5, body := s.laneBody n j.side j.lane true j.restore 0 0 }
        rxSp := if j.restore = true then 15 else j.lane } := by
  have out (t : State) (role : Nat) : (t.setRxSp n role).out = t.out := by
    unfold State.setRxSp
    split <;> rfl
  refine ⟨(onlyPort_updPort ..).trans (onlyPort_setRxSp ..), out .., ?_⟩
  unfold rxSwitched
  rw [State.port_setRxSp, State.port_updPort]

theorem hitlessSwitch_sends {port : Port} {s : State} {j : LaneJob} (run : s.lineOk port.val = true)
    (staying : (s.port port.val).txSleeping = false) (awake : (s.port port.val).txAwake = true)
    (job : (s.port port.val).rxJob = some j) (hitless : j.hitless = true) (ready : j.sent = 2) :
    ∃ (t : State) (b : LaneMsg) (lp : Nat), exec (.hitlessSwitch port) s = .next t
      ∧ OnlyPort s t port.val ∧ lp = s.laneLp port.val j.side (b.lane == 9)
      ∧ OnlyLine { s.port port.val with
          rxJob := some { j with sent := 5, body := b }, rxSp := if j.restore = true then 15 else j.lane } (t.port port.val)
      ∧ t.out = s.out ++ laneOutput s port.val lp 5 b := by
  let b := s.laneBody port.val j.side j.lane true j.restore 0 0
  have runs : exec (.hitlessSwitch port) s = .next ((rxSwitched s port.val j).sendLane port.val j.side 5 b) := by
    show execHitlessSwitch port s = _
    unfold execHitlessSwitch
    dsimp only
    rw [job]
    exact if_pos ⟨run, hitless, ready⟩
  obtain ⟨moved, out, after⟩ := rxSwitched_port s port.val j
  have stripes (sd : Side) : ((rxSwitched s port.val j).port port.val).stripe sd = (s.port port.val).stripe sd := by
    rw [after]
    cases sd <;> rfl
  have lp : (rxSwitched s port.val j).laneLp port.val j.side (b.lane == 9) = s.laneLp port.val j.side (b.lane == 9) := by
    unfold State.laneLp
    rw [after]
  have sends := sendLane_sends (s := rxSwitched s port.val j) j.side 5 b (by rw [after]; exact awake) (by rw [after]; exact staying)
  rw [lp] at sends
  obtain ⟨only, line⟩ := sends.onlyLine (laneLp_port ..)
  refine ⟨_, b, _, runs, moved.trans only, rfl, ?_, ?_⟩
  · rw [after] at line
    exact line
  · have wire : wireOf (rxSwitched s port.val j) (s.laneLp port.val j.side (b.lane == 9)) =
        wireOf s (s.laneLp port.val j.side (b.lane == 9)) := by
      refine wireOf_congr ?_
      rw [State.lpStripe, State.lpStripe, laneLp_port, stripes]
    rw [sends.2.2, out, laneOutput, laneOutput, wire]

/-- Settles O33: repeats, switches and timeouts act on the open job of their direction. -/
theorem laneChangesEnd : Obligations.LaneChangesEnd := by
  intro port s run staying awake
  have timeout (dir : Dir) (j : LaneJob) (job : (match dir with | .rx => (s.port port.val).rxJob | .tx => (s.port port.val).txJob) = some j) :
      exec (.swapTimeout port dir) s = if j.hitless = true then .next s else .next (if j.lane = 9 then s.portDownAll port.val 12
        else s.stripeDown port.val j.side 12 .send) := by
    show execSwapTimeout port dir s = _
    unfold execSwapTimeout
    cases dir <;> simp only at job <;> simp only [job, run, Bool.not_true, Bool.false_or, apply_ite Host.Outcome.next]
  refine ⟨fun j job => ⟨fun sent open_ noTx => ?_, fun sent locked noTx => ?_, fun hitless ready =>
      hitlessSwitch_sends run staying awake job hitless ready, fun hitless sent => ?_, fun hitless => ?_, fun halts => ?_⟩,
    fun j job => ⟨fun hitless single => ?_, fun halts => ?_⟩⟩
  · have runs := exec_laneMsgRepeat run job noTx
    rw [if_pos ⟨sent, open_⟩] at runs
    have sends := sendLane_sends j.side j.sent j.body awake staying
    obtain ⟨only, line⟩ := sends.onlyLine (laneLp_port ..)
    exact ⟨_, _, runs, only, rfl, line, sends.2.2⟩
  · have runs := exec_laneMsgRepeat run job noTx
    rwa [if_neg fun h => by rw [h.2 sent] at locked; cases locked] at runs
  · have dropped : s.dropRxHitless port.val = (s.updPort port.val fun p => { p with rxJob := none }).spareDenied port.val .rx j.lane := by
      unfold State.dropRxHitless
      simp only [job, hitless, if_true]
    have runs : exec (.hitlessAbandon port .rx) s = .next ((s.dropRxHitless port.val).serveSpare port.val) := by
      show execHitlessAbandon port .rx s = _
      unfold execHitlessAbandon
      simp only [job, run, hitless, sent, and_self, if_true, Bool.not_true, Bool.false_eq_true, if_false]
    exact ⟨_, runs, by rw [dropped, spareDenied_port, State.port_updPort]⟩
  · rw [timeout .rx j job, if_pos hitless]
  · rw [timeout .rx j job, if_neg (by rw [halts]; decide)]
  · have runs : exec (.hitlessAbandon port .tx) s = .next (((s.setPort port.val { s.port port.val with txJob := none }).spareDenied
        port.val .tx j.lane).serveSpare port.val) := by
      show execHitlessAbandon port .tx s = _
      unfold execHitlessAbandon
      simp only [job, run, hitless, single, and_self, if_true, Bool.not_true, Bool.false_eq_true, if_false]
    exact ⟨_, runs, by rw [spareDenied_port, State.port_setPort]⟩
  · rw [timeout .tx j job, if_neg (by rw [halts]; decide)]

end Sys2Proof.Claims
end

section
/-! PROOFS. Sleep and wake of a direction (R299, R317 to R321). -/

namespace Sys2Proof.Claims

open Sys2Proof.Machine

/-! ## The last lanes of a sleep (R317) -/

/-- Of a state only what the lanes of a port carry has gone on, and its lanes were sent. -/
structure LanesGone (n : Nat) (s t : State) : Prop where
  only : OnlyPort s t n
  sent : LanesSent (s.port n) (t.port n)
  out : ∃ l : List Emission, t.out = s.out ++ l ∧ ∀ e ∈ l, ∃ rows, e = .lanes n rows

theorem LanesGone.refl (n : Nat) (s : State) : LanesGone n s s := ⟨.refl .., rfl, [], by simp⟩

theorem LanesGone.trans {n : Nat} {s t u : State} (h : LanesGone n s t) (g : LanesGone n t u) : LanesGone n s u := by
  obtain ⟨only, sent, l, out, lanes⟩ := h
  obtain ⟨only', sent', l', out', lanes'⟩ := g
  refine ⟨only.trans only', sent.trans sent', l ++ l', by rw [out', out, List.append_assoc], fun e he => ?_⟩
  exact (List.mem_append.mp he).elim (lanes e) (lanes' e)

theorem lanesGone_setPort (s : State) (n : Nat) {q : PortSt} (h : LanesSent (s.port n) q) : LanesGone n s (s.setPort n q) :=
  ⟨onlyPort_setPort .., by rw [State.port_setPort]; exact h, [], by simp [State.setPort]⟩

theorem lanesGone_updPort (s : State) (n : Nat) (f : PortSt → PortSt) (h : LanesSent (s.port n) (f (s.port n))) :
    LanesGone n s (s.updPort n f) := lanesGone_setPort s n h

theorem lanesGone_emit (s : State) (n : Nat) (rows : List (Nat × List Level)) : LanesGone n s (s.emit (.lanes n rows)) :=
  ⟨onlyPort_emit .., rfl, [.lanes n rows], rfl, by simp⟩

theorem lanesGone_sendRows (s : State) (n : Nat) (clock : Bool) (rows : List (Nat × List Nat)) :
    LanesGone n s (s.sendRows n clock rows).2 :=
  foldl_rel (R := fun x y : _ × State => LanesGone n x.2 y.2) _ (fun _ => .refl ..) .trans
    (fun _ _ => lanesGone_setPort _ _ (lanesSent_txRd ..)) rows ([], s)

theorem lanesGone_sendClock (s : State) (n k : Nat) : LanesGone n s (s.sendClock n k).2 :=
  (lanesGone_sendRows s n true _).trans (lanesGone_setPort _ _ (lanesSent_ckOut ..))

theorem lanesGone_portBlock (s : State) (n : Nat) : LanesGone n s (s.portBlock n) := by
  unfold State.portBlock
  dsimp only
  split
  · exact .refl ..
  · refine .trans (.trans (.trans ?_ (lanesGone_sendRows ..)) (lanesGone_sendClock ..)) (lanesGone_emit ..)
    exact foldl_rel (R := fun x y : _ × State => LanesGone n x.2 y.2) _ (fun _ => .refl ..) .trans
      (fun acc sd => lanesGone_setPort _ _ (lanesSent_setStripe (stripeBlock_sent ..))) _ ([], s)

theorem lanesGone_sendSleepLanes (s : State) (n : Nat) : LanesGone n s (s.sendSleepLanes n) := by
  have sleeps : LanesSent (s.port n) ((s.port n).sides.foldl
      (fun (p : PortSt) sd => p.setStripe sd { p.stripe sd with txLine := [.sleep] }) (s.port n)) :=
    foldl_rel (R := LanesSent) _ (fun _ => rfl) .trans 
      (fun p sd => lanesSent_setStripe (x := { p.stripe sd with txLine := [.sleep] }) rfl) ..
  unfold State.sendSleepLanes
  dsimp only
  exact .trans (.trans (.trans (.trans (lanesGone_updPort s n _ sleeps) (lanesGone_portBlock ..))
    (lanesGone_updPort _ n _ (lanesSent_ckOut ..))) (lanesGone_sendClock ..)) (lanesGone_emit ..)

theorem sleepCheck_none {s : State} (n : Nat) (none_ : s.mgmt.deferred = []) : s.sleepCheck n = s := by
  rw [State.sleepCheck, none_]
  rfl

/-- The state of a port that sleeps after its last lanes. -/
def sleepEntered (s : State) (n : Nat) : State :=
  (((s.sendSleepLanes n).updPort n fun p => { p with txSleeping := false, peerSleep := false, txAsleep := true }).emit
    (.sleepBlock n)).emit (.lanesPower n .tx false)

theorem exec_txSleepEnter {port : Port} {s : State} (run : s.lineOk port.val = true) (leaving : (s.port port.val).txSleeping = true)
    (awake : (s.port port.val).txAwake = true) (flits : (s.port port.val).sleepOut = [])
    (idle : ∀ lp ∈ s.lpsOf port.val, s.flitReady lp = false ∧ s.currentOf lp = none ∧ (s.lpStripe lp).replay = []
      ∧ (s.lpStripe lp).txLine = [] ∧ (s.lpStripe lp).txPart = [])
    (none_ : s.mgmt.deferred = []) : exec (.txSleepEnter port) s = .next (sleepEntered s port.val) := by
  have ready : (!(s.port port.val).sleepOut.isEmpty || (s.lpsOf port.val).any fun lp => s.flitReady lp && (s.currentOf lp).isNone) = false := by
    rw [flits, List.any_eq_false.mpr fun lp h => by simp [(idle lp h).1]]
    rfl
  have busy : ((s.lpsOf port.val).any fun lp => (s.currentOf lp).isSome || !(s.lpStripe lp).replay.isEmpty
      || !(s.lpStripe lp).txLine.isEmpty || !(s.lpStripe lp).txPart.isEmpty) = false := by
    refine List.any_eq_false.mpr fun lp h => ?_
    obtain ⟨-, current, replay, line, part⟩ := idle lp h
    rw [current, replay, line, part]
    decide
  have waits : s.sleepWaitsRx port.val = false := by simp [State.sleepWaitsRx, none_]
  have rest : (sleepEntered s port.val).mgmt.deferred = [] := by
    have only := ((lanesGone_sendSleepLanes s port.val).only.trans (onlyPort_updPort _ _ fun p =>
      { p with txSleeping := false, peerSleep := false, txAsleep := true })).1.1
    unfold sleepEntered
    rw [only]
    exact none_
  show execTxSleepEnter port s = _
  unfold execTxSleepEnter
  dsimp only
  rw [if_neg (by rw [run, leaving, awake]; decide), if_neg (by rw [ready]; decide), if_neg (by rw [busy]; decide),
    if_neg (by rw [waits]; decide)]
  exact congrArg Host.Outcome.next (sleepCheck_none _ rest)

/-! ## Waking (R318, R319) -/

theorem exec_txAutoWake {port : Port} {s : State} (run : s.lineOk port.val = true) (up : (s.port port.val).anyUp = true) :
    exec (.txAutoWake port) s = .next (s.autoWake port.val) := by
  obtain ⟨-, -, untested⟩ := lineOk_untested run
  have inactive : s.bist.active.contains port.val = false := by
    rw [State.underTest, Bool.or_eq_false_iff] at untested
    exact untested.1
  show execTxAutoWake port s = _
  simp only [execTxAutoWake, inactive, run, up, Bool.and_false, Bool.false_and, Bool.false_eq_true, if_false, Bool.and_self, if_true]

/-- /S/ blocks join the lines of these stripes. -/
def syncLines (n : Nat) (l : List Side) (s : State) : State := l.foldl (fun s sd => (s.putSync (lpOf n sd)).sendInit (lpOf n sd)) s

theorem syncLines_effect (n : Nat) (l : List Side) (distinct : l.Nodup) (s : State)
    (sent : ∀ sd ∈ l, ((s.port n).stripe sd).initOwed = false) :
    OnlyPort s (syncLines n l s) n ∧ OnlyLine (s.port n) ((syncLines n l s).port n)
    ∧ (syncLines n l s).out = s.out ++ l.map (fun sd => .syncBlock n sd)
    ∧ (∀ sd ∈ l, (((syncLines n l s).port n).stripe sd).txLine = ((s.port n).stripe sd).txLine ++ [.sync])
    ∧ ∀ sd, sd ∉ l → ((syncLines n l s).port n).stripe sd = (s.port n).stripe sd := by
  induction l generalizing s with
  | nil => exact ⟨.refl .., rfl, by simp [syncLines], by simp, fun _ _ => rfl⟩
  | cons sd l ih =>
    obtain ⟨fresh, distinct⟩ := List.nodup_cons.mp distinct
    obtain ⟨lp, side⟩ := lpOf_port n sd
    obtain ⟨only, port, out⟩ := lpSends_putSync s (lpOf n sd)
    have owes : ((s.putSync (lpOf n sd)).lpStripe (lpOf n sd)).initOwed = false := by
      rw [(lpSends_putSync s (lpOf n sd)).lpStripe, State.lpStripe, lp, side]
      exact sent sd (List.mem_cons_self ..)
    have first : (s.putSync (lpOf n sd)).sendInit (lpOf n sd) = s.putSync (lpOf n sd) := by
      unfold State.sendInit
      rw [owes]
      rfl
    rw [State.lpStripe, lp, side] at port
    rw [lp] at only
    rw [lp, side] at out
    have other (sd' : Side) (h : sd' ≠ sd) : ((s.putSync (lpOf n sd)).port n).stripe sd' = (s.port n).stripe sd' := by
      rw [port, PortSt.stripe_setStripe_other _ _ h]
    have apart {sd' : Side} (h : sd' ∈ l) : sd' ≠ sd := fun e => fresh (e ▸ h)
    obtain ⟨only', line', out', joined, kept⟩ := ih distinct (s.putSync (lpOf n sd)) fun sd' h => by
      rw [other sd' (apart h)]
      exact sent sd' (List.mem_cons_of_mem _ h)
    have step : syncLines n (sd :: l) s = syncLines n l (s.putSync (lpOf n sd)) := congrArg (syncLines n l) first
    rw [step]
    refine ⟨only.trans only', ?_, ?_, ?_, ?_⟩
    · rw [port] at line'
      unfold OnlyLine at line' ⊢
      rw [line']
      cases sd <;> rfl
    · rw [out', out, List.append_assoc]
      rfl
    · intro sd' h
      rcases List.mem_cons.mp h with rfl | h
      · rw [kept _ fresh, port, PortSt.stripe_setStripe]
      · rw [joined sd' h, other sd' (apart h)]
    · intro sd' h
      obtain ⟨ne, h⟩ : sd' ≠ sd ∧ sd' ∉ l := by simpa using h
      rw [kept sd' h, other sd' ne]

theorem wakePreambleEnd_effect {port : Port} {s : State} (run : s.lineOk port.val = true) (waking : (s.port port.val).txWaking = 2)
    (flits : (s.port port.val).sleepOut = []) (messages : (s.port port.val).laneOut = []) (none_ : s.mgmt.deferred = [])
    (sent : ∀ sd ∈ (s.port port.val).sides, ((s.port port.val).stripe sd).initOwed = false) :
    ∃ t, exec (.wakePreambleEnd port) s = .next t ∧ OnlyPort s t port.val
      ∧ OnlyLine { s.port port.val with txWaking := 0, txAsleep := false } (t.port port.val)
      ∧ (∀ sd ∈ (s.port port.val).sides, ((t.port port.val).stripe sd).txLine = ((s.port port.val).stripe sd).txLine ++ [.sync])
      ∧ t.out = s.out ++ (s.port port.val).sides.map fun sd => .syncBlock port.val sd := by
  let n := port.val
  let woken := s.setPort n { s.port n with txWaking := 0, txAsleep := false }
  have port_ : woken.port n = { s.port n with txWaking := 0, txAsleep := false } := State.port_setPort ..
  have stripe (sd : Side) : (woken.port n).stripe sd = (s.port n).stripe sd := by
    rw [port_]
    cases sd <;> rfl
  obtain ⟨only, line, out, joined, -⟩ := syncLines_effect n (s.port n).sides (sides_nodup _) woken fun sd h => by
    rw [stripe]
    exact sent sd h
  have runs : exec (.wakePreambleEnd port) s =
      .next (((((syncLines n (s.port n).sides woken).flushSleepOut n).flushLaneOut n)).sleepCheck n) := by
    have ok : (s.lineOk port.val && (s.port port.val).txWaking == 2) = true := by rw [run, waking]; rfl
    have lps : woken.lpsOf n = (s.port n).sides.map (lpOf n) := by
      rw [State.lpsOf, port_]
      rfl
    show execWakePreambleEnd port s = _
    unfold execWakePreambleEnd
    dsimp only
    rw [if_pos ok]
    show Host.Outcome.next ((((List.foldl _ woken (woken.lpsOf n)).flushSleepOut n).flushLaneOut n).sleepCheck n) = _
    rw [lps, List.foldl_map]
    rfl
  generalize syncLines n (s.port n).sides woken = u at only line out joined runs
  rw [port_] at line
  have all := (onlyPort_setPort s n _).trans only
  have empty : (u.port n).sleepOut = [] ∧ (u.port n).laneOut = [] := by
    rw [line]
    exact ⟨flits, messages⟩
  have flushed : (u.flushSleepOut n).flushLaneOut n = u.setPort n (u.port n) := by
    have none_ : u.flushSleepOut n = u := by
      rw [State.flushSleepOut, empty.1]
      rfl
    have same : ({ u.port n with laneOut := [] } : PortSt) = u.port n := by
      conv_lhs => rw [← empty.2]
    unfold State.flushLaneOut
    rw [none_, empty.2]
    exact congrArg (u.setPort n) same
  have rest : (u.setPort n (u.port n)).mgmt.deferred = [] := by
    show u.mgmt.deferred = []
    rw [all.1.1]
    exact none_
  rw [flushed, sleepCheck_none _ rest] at runs
  refine ⟨_, runs, all.trans (onlyPort_setPort ..), ?_, fun sd h => ?_, out⟩
  · rw [State.port_setPort]
    exact line
  · rw [State.port_setPort, joined sd h, stripe]

/-! ## SLEEP flits of the partner (R321) -/

/-- Whether a flit is ready does not depend on sequence numbers. -/
theorem hasFlit_setPort {s : State} {n : Nat} {q : PortSt} (split : q.split = (s.port n).split)
    (out : q.sleepOut = (s.port n).sleepOut)
    (same : ∀ sd, (q.stripe sd).st = ((s.port n).stripe sd).st ∧ (q.stripe sd).discarding = ((s.port n).stripe sd).discarding) :
    (s.setPort n q).hasFlit n = s.hasFlit n := by
  have at_ (k : Nat) : ((s.setPort n q).port k).split = (s.port k).split ∧ ∀ sd,
      (((s.setPort n q).port k).stripe sd).st = ((s.port k).stripe sd).st
      ∧ (((s.setPort n q).port k).stripe sd).discarding = ((s.port k).stripe sd).discarding := by
    by_cases e : k = n
    · subst e
      rw [State.port_setPort]
      exact ⟨split, same⟩
    · rw [State.port_setPort_other s q e]
      exact ⟨rfl, fun _ => ⟨rfl, rfl⟩⟩
  have ready (lp : Nat) : (s.setPort n q).flitReady lp = s.flitReady lp := by
    have slots : (s.setPort n q).slotsOf lp = s.slotsOf lp := by rw [State.slotsOf, (at_ _).1, State.slotsOf]
    have discarding : ((s.setPort n q).lpStripe lp).discarding = (s.lpStripe lp).discarding := ((at_ _).2 _).2
    unfold State.flitReady
    dsimp only
    rw [slots, discarding]
    rfl
  have up (lp : Nat) : (s.setPort n q).lpUp lp = s.lpUp lp := by
    unfold State.lpUp State.lpExists State.lpStripe
    rw [(at_ _).1, ((at_ _).2 _).1]
  have lps : (s.setPort n q).lpsOf n = s.lpsOf n := by
    unfold State.lpsOf PortSt.sides
    rw [(at_ n).1]
  unfold State.hasFlit
  rw [lps, State.port_setPort, out]
  simp only [ready, up]

theorem sleepFlitIn_taken {s : State} {n : Nat} (action : Nat) (run : s.rxOk (2 * n) = true)
    (taking : (s.lpStripe (2 * n)).discarding = false) (skip : (s.lpStripe (2 * n)).skip = 0) :
    s.sleepFlitIn n action = (s.updLp (2 * n) nextTaken).sleepIn n action := by
  unfold State.sleepFlitIn
  rw [run, takeSeq_takes taking skip]
  rfl

/-- A port whose stripe A has taken the next sequence number. -/
def portTaken (p : PortSt) : PortSt := { p with a := nextTaken p.a }

theorem port_taken (s : State) (n : Nat) : (s.updLp (2 * n) nextTaken).port n = portTaken (s.port n)
    ∧ s.updLp (2 * n) nextTaken = s.setPort n (portTaken (s.port n)) := by
  obtain ⟨lp, side⟩ := lpOf_port n .a
  rw [lpOf] at lp side
  have e : s.updLp (2 * n) nextTaken = s.setPort n (portTaken (s.port n)) := by
    unfold State.updLp State.updStripe
    rw [lp, side]
    rfl
  exact ⟨by rw [e, State.port_setPort], e⟩

theorem sleepFlitWake_effect {port : Port} {s : State} (run : s.rxOk (2 * port.val) = true)
    (taking : (s.lpStripe (2 * port.val)).discarding = false) (skip : (s.lpStripe (2 * port.val)).skip = 0)
    (staying : (s.port port.val).txSleeping = false) (asleep : (s.port port.val).txAsleep = true)
    (still : (s.port port.val).txWaking = 0) : ∃ t, exec (.sleepFlitWake port) s = .next t ∧ OnlyPort s t port.val
      ∧ (t.port port.val).txWaking = 1 ∧ t.out = s.out ++ [.lanesPower port.val .tx true] := by
  obtain ⟨after, whole⟩ := port_taken s port.val
  have runs : exec (.sleepFlitWake port) s = .next (((s.updLp (2 * port.val) nextTaken).abandonSleep port.val).startWake port.val) :=
    congrArg Host.Outcome.next (sleepFlitIn_taken 0 run taking skip)
  rw [abandonSleep_awake (by rw [after]; exact staying)] at runs
  obtain ⟨only, -, port_⟩ := startWake_effect (s.updLp (2 * port.val) nextTaken) port.val
  have out : ((s.updLp (2 * port.val) nextTaken).startWake port.val).out = s.out ++ [.lanesPower port.val .tx true] := by
    unfold State.startWake
    rw [if_pos (by rw [after]; exact ⟨asleep, still⟩)]
    rfl
  refine ⟨_, runs, ?_, ?_, out⟩
  · rw [whole] at only ⊢
    exact (onlyPort_setPort ..).trans only
  · rw [port_, after]
    exact if_pos ⟨asleep, still⟩

theorem sleepFlitSleep_effect {port : Port} {s : State} (run : s.rxOk (2 * port.val) = true)
    (taking : (s.lpStripe (2 * port.val)).discarding = false) (skip : (s.lpStripe (2 * port.val)).skip = 0)
    (staying : (s.port port.val).txSleeping = false) (awake : (s.port port.val).txAsleep = false)
    (up : (s.port port.val).allUp = true) (idle : s.hasFlit port.val = false) :
    ∃ t, exec (.sleepFlitSleep port) s = .next t ∧ OnlyPort s t port.val ∧ t.out = s.out
      ∧ (t.port port.val).txSleeping = true ∧ (t.port port.val).peerSleep = true := by
  obtain ⟨after, whole⟩ := port_taken s port.val
  have still : (s.updLp (2 * port.val) nextTaken).hasFlit port.val = false := by
    have same := hasFlit_setPort (s := s) (n := port.val) (q := portTaken (s.port port.val)) rfl rfl
      fun sd => by cases sd <;> exact ⟨rfl, rfl⟩
    rw [whole, same]
    exact idle
  have allUp : (portTaken (s.port port.val)).allUp = true := by
    have same (sd : Side) : ((portTaken (s.port port.val)).stripe sd).st = ((s.port port.val).stripe sd).st := by cases sd <;> rfl
    unfold PortSt.allUp at up ⊢
    simp only [same]
    exact up
  have runs : exec (.sleepFlitSleep port) s = .next ((s.updLp (2 * port.val) nextTaken).setPort port.val
      { (s.updLp (2 * port.val) nextTaken).port port.val with txSleeping := true, peerSleep := true }) := by
    refine (congrArg Host.Outcome.next (sleepFlitIn_taken 1 run taking skip)).trans (congrArg Host.Outcome.next ?_)
    show State.peerAsksSleep _ _ = _
    unfold State.peerAsksSleep
    dsimp only
    rw [still, after, if_neg (by rw [show (portTaken (s.port port.val)).txAsleep = false from awake,
      show (portTaken (s.port port.val)).txSleeping = false from staying]; decide), if_neg (by rw [allUp]; decide)]
  rw [whole] at runs
  exact ⟨_, runs, (onlyPort_setPort ..).trans (onlyPort_setPort ..), rfl, by rw [State.port_setPort], by rw [State.port_setPort]⟩

/-- A refused or late request leaves SLEEP_REQ_FAIL. -/
theorem reqFails_port (s : State) (n : Nat) (f : PortSt → PortSt) (p : Work → Bool) (fails : ∀ q, (f q).sleepReqFail = true) :
    (((s.updPort n f).finishAll p stDeniedState 0).port n).sleepReqFail = true := by
  have : ((s.updPort n f).finishAll p stDeniedState 0).port n = (s.updPort n f).port n := by
    rw [State.port, finishAll_ports]
    rfl
  rw [this, State.port_updPort]
  exact fails _

theorem sleepFlitRefuse_effect {port : Port} {s : State} (run : s.rxOk (2 * port.val) = true)
    (taking : (s.lpStripe (2 * port.val)).discarding = false) (skip : (s.lpStripe (2 * port.val)).skip = 0)
    (open_ : (s.mgmt.deferred.any fun d => match d.work with
      | .sleep q d _ _ => q == port.val && bitAt d 1
      | _ => false) = true) :
    ∃ t, exec (.sleepFlitRefuse port) s = .next t ∧ (t.port port.val).sleepReqFail = true := by
  refine ⟨_, congrArg Host.Outcome.next (sleepFlitIn_taken 2 run taking skip), ?_⟩
  show (((s.updLp (2 * port.val) nextTaken).peerRefusesSleep port.val).port port.val).sleepReqFail = true
  unfold State.peerRefusesSleep
  dsimp only
  refine (congrArg (fun t : State => (t.port port.val).sleepReqFail) (if_pos open_)).trans ?_
  exact reqFails_port _ _ _ _ fun _ => rfl

/-- Settles O34: a sleep sends its last lanes, a wake starts the lanes anew, and SLEEP flits act as they say. -/
theorem directionsSleepAndWake : Obligations.DirectionsSleepAndWake := by
  intro port s run
  refine ⟨fun leaving awake flits idle none_ => ?_, fun up asleep still needs => ?_, fun waking => ?_,
    fun waking flits messages none_ sent => wakePreambleEnd_effect run waking flits messages none_ sent,
    fun waking => ⟨?_, ?_⟩, fun waking => ?_,
    fun rx taking skip staying => ⟨fun asleep still => sleepFlitWake_effect rx taking skip staying asleep still,
      fun awake up idle => sleepFlitSleep_effect rx taking skip staying awake up idle,
      fun open_ => sleepFlitRefuse_effect rx taking skip open_⟩, fun late => ?_⟩
  · obtain ⟨only, sent, l, out, lanes⟩ := lanesGone_sendSleepLanes s port.val
    refine ⟨_, exec_txSleepEnter run leaving awake flits idle none_, ?_, ?_, l, ?_, lanes⟩
    · exact ((only.trans (onlyPort_updPort ..)).trans (onlyPort_emit ..)).trans (onlyPort_emit ..)
    · unfold sleepEntered
      rw [State.port_emit, State.port_emit, State.port_updPort]
      generalize (s.sendSleepLanes port.val).port port.val = q at sent
      rw [sent]
    · show (s.sendSleepLanes port.val).out ++ [_] ++ [_] = _
      rw [out]
      simp
  · have runs := exec_txAutoWake run up
    have wakes : s.autoWake port.val = ((s.updPort port.val fun p => { p with autoWakes := satAdd 255 p.autoWakes 1 }).updPort
        port.val fun p => { p with txWaking := 1 }).emit (.lanesPower port.val .tx true) := by
      rw [State.autoWake, if_pos ⟨asleep, still, needs⟩, State.startWake, if_pos (by rw [State.port_updPort]; exact ⟨asleep, still⟩)]
    rw [wakes] at runs
    exact ⟨_, runs, ((onlyPort_updPort ..).trans (onlyPort_updPort ..)).trans (onlyPort_emit ..), rfl,
      by rw [State.port_emit, State.port_updPort, State.port_updPort]⟩
  · have runs : exec (.txWakeSettled port) s =
        .next ((s.setPort port.val { s.port port.val with txWaking := 2, txRd := 0 }).emit (.wakePreamble port.val)) := by
      show execTxWakeSettled port s = _
      simp [execTxWakeSettled, run, waking]
    exact ⟨_, runs, (onlyPort_setPort ..).trans (onlyPort_emit ..), by rw [State.port_emit, State.port_setPort], rfl⟩
  · show execRxWakeBlockAlignment port s = _
    simp [execRxWakeBlockAlignment, run, waking]
  · show execRxWakeAlignTimeout port s = _
    exact if_pos (by rw [run, waking]; rfl)
  · show execRxWakeSyncTimeout port s = _
    exact if_pos (by rw [run, waking]; rfl)
  · have ok : (s.lineOk port.val && s.mgmt.deferred.any fun d => match d.work with
        | .sleep q d wake since => q == port.val && bitAt d 1 && (s.port port.val).rxAsleep == wake
            && decide (16 ≤ (s.beat.count - since).toNat)
        | _ => false) = true := by rw [run]; exact late
    have runs := congrArg id (show exec (.sleepReqTimeout port) s = execSleepReqTimeout port s from rfl)
    unfold execSleepReqTimeout at runs
    dsimp only [id] at runs
    exact ⟨_, runs.trans (if_pos ok), reqFails_port _ _ _ _ fun _ => rfl⟩

end Sys2Proof.Claims
end

section
/-! PROOFS. PORT_ADMIN, EQ_OVERRIDE and EYE_SCAN (R105, R309, R313 to R316). -/

namespace Sys2Proof.Claims

open Sys2Proof.Machine

theorem portGate_free {s : State} {n : Nat} (free : PortFree s n) : s.portGate n = none := by
  obtain ⟨running, untested⟩ := free
  rw [State.portGate, running, untested, unitGate_false]

/-- A row of a port that runs, of whose state the check is made. -/
theorem portRow_passes {i : Instr} {c : Cmd} {op : BitVec 16} {s b : State} {n : Nat} {bad : Bool} (ho : Open s) (free : PortFree s n)
    (hp : s.paramError i = none) (good : bad = false) :
    s.opcode i c op (s.gate c op (firstGate [s.portGate n, stateGate bad]) b) = .next b :=
  gate_passes ho hp (by rw [portGate_free free, good]; rfl)

theorem portRow_refuses {i : Instr} {c : Cmd} {op : BitVec 16} {s b : State} {n : Nat} {bad : Bool} (ho : Open s) (free : PortFree s n)
    (hp : s.paramError i = none) (refused : bad = true) :
    s.opcode i c op (s.gate c op (firstGate [s.portGate n, stateGate bad]) b) = .next (s.deny c op stDeniedState 0) :=
  gate_refuses ho hp (by rw [portGate_free free, refused]; rfl)

/-! ## ENABLE (R105, R340) -/

/-- A stripe of a port that is enabled starts: in SEND with presence, in ABSENT without. -/
def startStripe (n : Nat) (here : Bool) (s : State) (sd : Side) : State := if here then s.enterSend n sd else s.setStripeSt n sd .absent

theorem startStripe_only (n : Nat) (here : Bool) (s : State) (sd : Side) :
    OnlyPort s (startStripe n here s sd) n ∧ Attempted (s.port n) ((startStripe n here s sd).port n) := by
  cases here
  · exact ⟨onlyPort_setStripeSt .., attempted_setStripeSt ..⟩
  · exact ⟨onlyPort_enterSend .., enterSend_only ..⟩

theorem startStripe_other (n : Nat) (here : Bool) (s : State) {sd sd' : Side} (ne : sd' ≠ sd) :
    ((startStripe n here s sd).port n).stripe sd' = (s.port n).stripe sd' := by
  cases here
  · exact State.stripe_setStripeSt_other s n .absent ne
  · exact stripe_enterSend_other s n ne

theorem startStripe_st (n : Nat) (here : Bool) (s : State) (sd : Side) :
    (((startStripe n here s sd).port n).stripe sd).st = if here = true then .send else .absent := by
  cases here
  · exact (congrArg Stripe.st (State.stripe_setStripeSt s n sd .absent)).trans (Stripe.into_st ..)
  · exact (enterSend_hunts s n sd).1

/-- A port whose enabling has begun. -/
def enabling (p : PortSt) (mode : Byte) : PortSt :=
  { p with enabled := true, split := if mode = 0xFF then p.split else mode == 1, attempts := 0, backoffExp := 0, lastFail := 0 }

theorem enablePort_effect {s : State} {n : Nat} (mode : Byte) (disabled : (s.port n).enabled = false) :
    OnlyPort s (s.enablePort n mode) n ∧ ((s.enablePort n mode).port n).enabled = true
    ∧ ((s.enablePort n mode).port n).split = (if mode = 0xFF then (s.port n).split else decide (mode = 1))
    ∧ ∀ sd ∈ ((s.enablePort n mode).port n).sides,
        (((s.enablePort n mode).port n).stripe sd).st = if s.present n = true then .send else .absent := by
  let u := s.setPort n (enabling (s.port n) mode)
  have port : u.port n = enabling (s.port n) mode := State.port_setPort ..
  have runs : s.enablePort n mode = (enabling (s.port n) mode).sides.foldl (startStripe n (s.present n)) u := by
    unfold State.enablePort
    rw [if_neg (by rw [disabled]; decide)]
    show List.foldl _ u (u.port n).sides = _
    rw [port]
    rfl
  have moved : Attempted (u.port n) ((s.enablePort n mode).port n) := by
    rw [runs]
    exact foldl_rel (R := fun s t : State => Attempted (s.port n) (t.port n)) _ (fun _ => rfl) .trans
      (fun _ _ => (startStripe_only ..).2) _ u
  rw [port] at moved
  refine ⟨?_, by rw [moved]; rfl, by rw [moved]; rfl, fun sd here => ?_⟩
  · rw [runs]
    exact (onlyPort_setPort ..).trans (onlyPort_foldl _ (fun _ _ => (startStripe_only ..).1) _ _)
  · have here : sd ∈ (enabling (s.port n) mode).sides := by
      have same : ((s.enablePort n mode).port n).sides = (enabling (s.port n) mode).sides := by
        unfold PortSt.sides
        rw [moved]
      rwa [same] at here
    obtain ⟨v, -, made⟩ := (foldSides (startStripe_other n (s.present n)) (enabling (s.port n) mode).sides u sd).2 (sides_nodup _) here
    rw [runs, made]
    exact startStripe_st ..

/-! ## Equalisers and eye scans (R309, R313, R314) -/

section
variable {c : Cmd} {port lane ctle : Byte} {s : State}

theorem eqOverride_param (small : port.toNat < 64) (lanes : lane.toNat ≤ 9) (code : ctle.toNat ≤ 31 ∨ ctle = 0xFF) :
    s.paramError (.eqOverride c port lane ctle) = none := by
  have code : ¬(31 < ctle.toNat ∧ ¬ctle = 255#8) := fun h => code.elim (Nat.not_le.mpr h.1) h.2
  simp [State.paramError, State.rangeLow, State.rangeMid, State.rangeHigh, firstBad, portBad, small, lanes, code]

theorem exec_eqOverride (ho : Open s) (free : PortFree s port.toNat) (small : port.toNat < 64) (lanes : lane.toNat ≤ 9)
    (code : ctle.toNat ≤ 31 ∨ ctle = 0xFF) (disabled : (s.port port.toNat).enabled = false) :
    exec (.eqOverride c port lane ctle) s = .next ((if lane = 9 then s else s.updPort port.toNat fun p => p.setLane lane.toNat
      { p.lane lane.toNat with ctle := if ctle = 0xFF then none else some (ctle.truncate 5) }).ok c 0x0305 []) :=
  portRow_passes ho free (eqOverride_param small lanes code) (by rw [disabled]; rfl)

end

/-- An eye scan that ends is the one command outstanding. -/
theorem eyeScanComplete_effect {c : Cmd} {n : Nat} {s : State} {p : Port} {lane : Lane} {h v dwell : Nat} {counts : List (BitVec 16)}
    {kept : Bool} (live : s.live = true) (at_ : p.val = n)
    (one : s.mgmt.deferred = [{ cmd := c, opcode := 0x0304, keyKept := kept, work := .eyeScan n lane.val h v dwell }])
    (grid : counts.length = h * v) : ∃ u : State, exec (.eyeScanComplete p lane counts) s = .next
        (u.complete c 0x0304 kept stOk 0 (counts.map fun x => leBytes 2 x.toNat).flatten)
      ∧ u.mgmt.deferred = [] ∧ u.port n = { s.port n with scans := (s.port n).scans.filter fun l => l != lane.val }
      ∧ u = { s with ports := u.ports, mgmt := { s.mgmt with deferred := [] } } := by
  subst at_
  let t := s.updPort p.val fun q => { q with scans := q.scans.filter fun l => l != lane.val }
  have port : t.port p.val = { s.port p.val with scans := (s.port p.val).scans.filter fun l => l != lane.val } := State.port_updPort ..
  have mine : (p.val == p.val && lane.val == lane.val && counts.length == h * v) = true := by simp [grid]
  refine ⟨{ t with mgmt := { t.mgmt with deferred := [] } }, ?_, rfl, port, rfl⟩
  have waits : t.mgmt.deferred = [{ cmd := c, opcode := 0x0304, keyKept := kept, work := .eyeScan p.val lane.val h v dwell }] := one
  show execEyeScanComplete p lane counts s = _
  unfold execEyeScanComplete
  dsimp only
  rw [if_pos ⟨live, by rw [one]; simp [grid]⟩]
  show Host.Outcome.next (State.finishWork t _ stOk 0 _) = _
  unfold State.finishWork
  rw [waits]
  simp only [List.find?_cons, mine, dropFirst, if_true]

/-- Settles O35: each row is its check of the port's state and then its effect. -/
theorem portsAreAdministered : Obligations.PortsAreAdministered := by
  intro c port mode n s ho hn small free modes
  subst hn
  have known : ¬(1 < mode.toNat ∧ ¬mode = 255#8) := by
    rcases modes with rfl | rfl | rfl <;> decide
  have disableParam : s.paramError (.portAdminDisable c port mode) = none := by
    simp [State.paramError, State.rangeLow, State.rangeMid, State.rangeHigh, firstBad, portBad, small, known]
  have enableParam : s.paramError (.portAdminEnable c port mode) = none := by
    simp [State.paramError, State.rangeLow, State.rangeMid, State.rangeHigh, firstBad, portBad, small, known]
  have retrainParam : s.paramError (.portAdminRetrain c port mode) = none := by
    simp [State.paramError, State.rangeLow, State.rangeMid, State.rangeHigh, firstBad, portBad, small, known]
  refine ⟨fun disabled => ⟨fun same => ⟨?_, ?_⟩, fun usable => ?_, fun ctle code => ?_, fun lane ctle lanes code => ?_⟩,
    fun enabled change => ⟨?_, ?_, ?_⟩, fun enabled same => ⟨?_, ?_, ?_⟩,
    fun lane h v dwell param powered data awake fresh room => ?_,
    fun p lane h v dwell counts kept at_ one grid => eyeScanComplete_effect ho.1 at_ one grid⟩
  · have nothing : s.disablePort port.toNat = s := if_pos (by rw [disabled]; rfl)
    refine (portRow_passes ho free disableParam same).trans ?_
    rw [nothing]
  · exact portRow_refuses ho free retrainParam (by rw [disabled]; simp)
  · obtain ⟨only, on, split, stripes⟩ := enablePort_effect mode disabled
    exact ⟨_, portRow_passes ho free enableParam (by rw [disabled, usable]; simp), only, on, split, stripes⟩
  · exact exec_eqOverride ho free small (by decide) code disabled
  · have notClock : lane ≠ 9 := by
      rintro rfl
      revert lanes
      decide
    have runs := exec_eqOverride (c := c) ho free small (Nat.le_succ_of_le lanes) code disabled
    rw [if_neg notClock] at runs
    refine ⟨_, runs, onlyPort_updPort .., ?_, rfl⟩
    rw [State.port_updPort]
    exact congrArg LaneSt.ctle (sget_sput_same ..)
  · exact portRow_refuses ho free disableParam change
  · exact portRow_refuses ho free enableParam (by rw [enabled, change]; rfl)
  · exact portRow_refuses ho free retrainParam (by rw [change]; rfl)
  · exact portRow_passes ho free disableParam same
  · have nothing : s.enablePort port.toNat mode = s := if_pos enabled
    split
    case isTrue unusable => exact portRow_refuses ho free enableParam (by rw [same, unusable]; rfl)
    case isFalse usable =>
      refine (portRow_passes ho free enableParam (by simp [same, usable])).trans ?_
      rw [nothing]
  · exact portRow_passes ho free retrainParam (by rw [same, enabled]; rfl)
  · refine portRow_passes ho free param ?_
    have clock : (lane.toNat == 8 && (s.port port.toNat).rxSp == 9) = false := by
      by_cases e : lane = 8
      · simp [data e]
      · have : lane.toNat ≠ 8 := fun h => e (BitVec.eq_of_toNat_eq h)
        simp [this]
    have scans : (s.port port.toNat).scans.contains lane.toNat = false := by simpa using fresh
    rw [powered, clock, awake, scans]
    simpa using room

end Sys2Proof.Claims
end

section
/-! PROOFS. Cartridge transfers (R104, R436): a transfer that waits on its bus is served when another one joins. -/

namespace Sys2Proof.Claims

open Sys2Proof.Machine

/-- A command that the Sideband Chain brought, without authentication. -/
def chainCmd : Cmd := { src := .sb, origin := 0, seq := 1, auth := false, keySlot := 0, echo := 0, correl := 0, index := 0 }

/-- A read of one byte of bus 0, on which nothing has been put yet. -/
def waitingRead : Deferred := { cmd := chainCmd, opcode := 0x0310, keyKept := true, work := .cart 0 0x50 0xFF 0 1 false [] }

/-- The module right after reset, with a cartridge on bus 0 and a read that waits for it. -/
def waitingState : State :=
  { State.reset.setMmb 0 { State.reset.mmb 0 with seated := true } with
    mgmt := { State.reset.mgmt with deferred := [waitingRead] } }

theorem waitingState_open : Open waitingState := ⟨by decide, by decide⟩

/-- The read that joins has the older one served. -/
theorem waitingState_serves : ((waitingState.startCart chainCmd 0x0310 0 (.cart 0 0x50 0xFF 0 1 false [])).mgmt.deferred.map
    fun d => d.served) = [true, false] := by decide

/-- Refutes O37: while an older transfer of the bus is not on it and no identity work comes first, a CART_READ that joins has the older
one served, so besides what is sent it does not only add its own command: the older one is marked. -/
theorem not_cartridgeTransfersAreServedInTurn : ¬ Obligations.CartridgeTransfersAreServedInTurn := by
  intro h
  obtain ⟨t, runs, d, only, -⟩ := (h.1 chainCmd 0 0x50 0xFF 0 1 waitingState waitingState_open (by decide)).2 (by decide)
  have served : exec (.cartRead chainCmd 0 0x50 0xFF 0 1) waitingState =
      .next (waitingState.startCart chainCmd 0x0310 0 (.cart 0 0x50 0xFF 0 1 false [])) :=
    gate_passes (i := .cartRead chainCmd 0 0x50 0xFF 0 1) (c := chainCmd) (op := 0x0310)
      (g := stateGate (!(waitingState.mmb 0).seated)) waitingState_open (by decide) (by decide)
  obtain rfl : waitingState.startCart chainCmd 0x0310 0 (.cart 0 0x50 0xFF 0 1 false []) = t := by
    rw [served] at runs
    exact Host.Outcome.next.inj runs
  have marks := waitingState_serves
  rw [only] at marks
  exact Bool.false_ne_true (List.cons.inj marks).1

end Sys2Proof.Claims
end

section
/-! PROOFS. SPARE_SWAP, SPARE_RESTORE and PORT_SLEEP (R105, R317, R319, R353). -/

namespace Sys2Proof.Claims

open Sys2Proof.Machine

/-! ## Spare commands (R353) -/

/-- SPARE_SWAP or SPARE_RESTORE. -/
def spareRow (c : Cmd) (port dir lane : Byte) (restore : Bool) : Instr :=
  if restore = true then .spareRestore c port dir lane else .spareSwap c port dir lane

/-- The opcode of a spare command. -/
def spareOp (restore : Bool) : BitVec 16 := if restore = true then 0x0307 else 0x0306

section
variable {c : Cmd} {port dir lane : Byte} {restore : Bool} {s : State} (ho : Open s) (free : PortFree s port.toNat)
  (small : port.toNat < 64) (dirs : dir.toNat < 2) (data : lane.toNat < 8)
include ho free small dirs data

omit ho free in
theorem spareRow_param : s.paramError (.spareSwap c port dir lane) = none ∧ s.paramError (.spareRestore c port dir lane) = none := by
  have lanes : spareLaneBad lane.toNat = false := by simp [spareLaneBad, data]
  have dirs : ¬1 < dir.toNat := by omega
  constructor <;>
    simp [State.paramError, State.rangeLow, State.rangeMid, State.rangeHigh, firstBad, portBad, small, dirs, lanes]

theorem exec_spareRow (good : s.spareBad port.toNat (dirOf dir) lane.toNat restore = false) : exec (spareRow c port dir lane restore) s =
    .next (s.startSpare c (spareOp restore) port.toNat (dirOf dir) lane.toNat restore) := by
  obtain ⟨swap, back⟩ := spareRow_param (c := c) (s := s) small dirs data
  cases restore
  · exact portRow_passes ho free swap good
  · exact portRow_passes ho free back good

theorem exec_spareRow_denied (bad : s.spareBad port.toNat (dirOf dir) lane.toNat restore = true) :
    exec (spareRow c port dir lane restore) s = .next (s.deny c (spareOp restore) stDeniedState 0) := by
  obtain ⟨swap, back⟩ := spareRow_param (c := c) (s := s) small dirs data
  cases restore
  · exact portRow_refuses ho free swap bad
  · exact portRow_refuses ho free back bad

end

/-- A change of a TX lane asks the partner. -/
theorem startTxSwap_effect {s : State} {n lane : Nat} {restore : Bool} (data : lane < 8) (staying : (s.port n).txSleeping = false)
    (awake : (s.port n).txAwake = true) : OnlyPort s (s.startTxSwap n lane restore) n
    ∧ OnlyLine { s.port n with txJob := some (hitlessJob s n lane restore 4) } ((s.startTxSwap n lane restore).port n)
    ∧ (s.startTxSwap n lane restore).out = s.out ++ laneOutput s n (lpOf n (hitlessJob s n lane restore 4).side) 4
        (hitlessJob s n lane restore 4).body := by
  have hitless : (lane != 9) = true := by
    rw [bne_iff_ne]
    omega
  have runs : s.startTxSwap n lane restore = (s.updPort n fun p => { p with txJob := some (hitlessJob s n lane restore 4) }).sendLane n
      (hitlessJob s n lane restore 4).side 4 (hitlessJob s n lane restore 4).body := by
    unfold State.startTxSwap
    simp only [hitless]
    rfl
  have port : (s.updPort n fun p => { p with txJob := some (hitlessJob s n lane restore 4) }).port n =
      { s.port n with txJob := some (hitlessJob s n lane restore 4) } := State.port_updPort ..
  have moved : OnlyPort s (s.updPort n fun p => { p with txJob := some (hitlessJob s n lane restore 4) }) n := onlyPort_updPort ..
  have sent : (s.updPort n fun p => { p with txJob := some (hitlessJob s n lane restore 4) }).out = s.out := rfl
  rw [runs]
  generalize (s.updPort n _) = u at port moved sent ⊢
  obtain ⟨only, line, -⟩ := sendJob (s := s) (u := u) (restore := restore) (sent := 4)
    (q := { s.port n with txJob := some (hitlessJob s n lane restore 4) }) 4 data staying port fun sd => by cases sd <;> rfl
  obtain ⟨line, out⟩ := line awake
  exact ⟨moved.trans only, line, by rw [out, sent]⟩

/-! ## PORT_SLEEP (R104, R317, R319) -/

/-- A PORT_SLEEP that is alone outstanding and whose state is not reached stays. -/
theorem sleepCheck_waits {s : State} {c : Cmd} {op : BitVec 16} {n d : Nat} {wake : Bool} {since : Beat}
    (one : s.mgmt.deferred = [{ cmd := c, opcode := op, keyKept := true, work := .sleep n d wake since }])
    (far : (s.port n).sleepReached d wake = false) : s.sleepCheck n = s := by
  unfold State.sleepCheck
  rw [one]
  simp [far]

theorem sleepRow_param {c : Cmd} {port : Byte} {s : State} (small : port.toNat < 64) :
    s.paramError (.portSleep c port 1) = none ∧ s.paramError (.portWake c port 1) = none := by
  constructor <;> simp [State.paramError, State.rangeLow, State.rangeMid, State.rangeHigh, firstBad, portBad, small]

theorem portSleep_effect {c : Cmd} {port : Byte} {s : State} (ho : Open s) (small : port.toNat < 64) (free : PortFree s port.toNat)
    (up : (s.port port.toNat).allUp = true) (none_ : s.mgmt.deferred = []) (awake : (s.port port.toNat).txAsleep = false)
    (empty : s.voqHolds port.toNat = false) : ∃ t, exec (.portSleep c port 1) s = .next t
      ∧ t.port port.toNat = { s.port port.toNat with txSleeping := true }
      ∧ t.mgmt.deferred = [{ cmd := c, opcode := 0x0302, keyKept := true, work := .sleep port.toNat 1 false s.beat.count }]
      ∧ t.out = s.out := by
  let t := (s.defer c 0x0302 (.sleep port.toNat 1 false s.beat.count)).updPort port.toNat fun p => { p with txSleeping := true }
  have after : t.port port.toNat = { s.port port.toNat with txSleeping := true } := State.port_updPort ..
  have one : t.mgmt.deferred = [{ cmd := c, opcode := 0x0302, keyKept := true, work := .sleep port.toNat 1 false s.beat.count }] := by
    show s.mgmt.deferred ++ _ = _
    rw [none_]
    rfl
  have runs : exec (.portSleep c port 1) s = .next (t.sleepCheck port.toNat) := by
    show execPortSleep c port 1 s = _
    unfold execPortSleep
    dsimp only
    refine (portRow_passes ho free (sleepRow_param small).1 (by rw [up, empty]; rfl)).trans ?_
    have sleeps : (bitAt (1 : Byte).toNat 0 && (!((s.defer c 0x0302 (.sleep port.toNat 1 false s.beat.count)).port port.toNat).txAsleep
        || ((s.defer c 0x0302 (.sleep port.toNat 1 false s.beat.count)).port port.toNat).txWaking != 0)) = true := by
      have awake : ((s.defer c 0x0302 (.sleep port.toNat 1 false s.beat.count)).port port.toNat).txAsleep = false := awake
      rw [awake]
      rfl
    exact congrArg (fun u : State => Host.Outcome.next (u.sleepCheck port.toNat)) (if_pos sleeps)
  rw [sleepCheck_waits one (by rw [after, PortSt.sleepReached, awake]; rfl)] at runs
  exact ⟨t, runs, after, one, rfl⟩

theorem portWake_effect {c : Cmd} {port : Byte} {s : State} (ho : Open s) (small : port.toNat < 64) (free : PortFree s port.toNat)
    (up : (s.port port.toNat).allUp = true) (none_ : s.mgmt.deferred = []) (staying : (s.port port.toNat).txSleeping = false)
    (asleep : (s.port port.toNat).txAsleep = true) (still : (s.port port.toNat).txWaking = 0) :
    ∃ t, exec (.portWake c port 1) s = .next t ∧ t.port port.toNat = { s.port port.toNat with txWaking := 1 }
      ∧ t.out = s.out ++ [.lanesPower port.toNat .tx true]
      ∧ t.mgmt.deferred = [{ cmd := c, opcode := 0x0302, keyKept := true, work := .sleep port.toNat 1 true s.beat.count }] := by
  let t := ((s.updPort port.toNat fun p => { p with txWaking := 1 }).emit (.lanesPower port.toNat .tx true)).defer c 0x0302
    (.sleep port.toNat 1 true s.beat.count)
  have wakes : (s.abandonSleep port.toNat).startWake port.toNat =
      (s.updPort port.toNat fun p => { p with txWaking := 1 }).emit (.lanesPower port.toNat .tx true) := by
    rw [abandonSleep_awake staying, State.startWake, if_pos ⟨asleep, still⟩]
  have after : t.port port.toNat = { s.port port.toNat with txWaking := 1 } :=
    State.port_updPort s port.toNat fun p => { p with txWaking := 1 }
  have one : t.mgmt.deferred = [{ cmd := c, opcode := 0x0302, keyKept := true, work := .sleep port.toNat 1 true s.beat.count }] := by
    show s.mgmt.deferred ++ _ = _
    rw [none_]
    rfl
  have runs : exec (.portWake c port 1) s = .next (t.sleepCheck port.toNat) := by
    show execPortWake c port 1 s = _
    unfold execPortWake
    dsimp only
    refine (portRow_passes ho free (sleepRow_param small).2 (by rw [up]; rfl)).trans ?_
    show Host.Outcome.next (State.sleepCheck (State.defer ((s.abandonSleep port.toNat).startWake port.toNat) _ _ _) _) = _
    rw [wakes]
    rfl
  rw [sleepCheck_waits one (by rw [after, PortSt.sleepReached, asleep]; rfl)] at runs
  exact ⟨t, runs, after, rfl, one⟩

/-- Settles O36: an allowed spare command opens the job of its direction or waits for it, and a sleep or a wake starts at once. -/
theorem sparesAndSleepAreCommanded : Obligations.SparesAndSleepAreCommanded := by
  refine ⟨fun c port dir lane restore n s ho hn small free dirs data staying i hi => ?_,
    fun c port n s ho hn small free up none_ staying => ?_⟩
  · subst hn hi
    let d (e : Dir) : Work := .spare port.toNat e lane.toNat restore
    let u (e : Dir) : State := s.defer c (spareOp restore) (d e)
    refine ⟨fun good rx idle awake => ?_, fun good tx idle awake => ?_, fun good runs => ?_, fun bad => ?_⟩
    · subst rx
      have runs := exec_spareRow (c := c) ho free small dirs data good
      have starts : s.startSpare c (spareOp restore) port.toNat (dirOf 1) lane.toNat restore = (u .rx).startRxSwap port.toNat lane.toNat
          restore := by
        unfold State.startSpare
        exact if_neg (by simp [dirOf, PortSt.jobRuns, idle])
      rw [starts] at runs
      obtain ⟨only, line, -⟩ := startRxSwap_effect (s := u .rx) (n := port.toNat) (restore := restore) data staying
      obtain ⟨line, out⟩ := line awake
      refine ⟨_, hitlessJob (u .rx) port.toNat lane.toNat restore 1, runs, line, rfl, rfl, rfl, rfl, out, ?_⟩
      rw [only.1.1]
      rfl
    · subst tx
      have runs := exec_spareRow (c := c) ho free small dirs data good
      have starts : s.startSpare c (spareOp restore) port.toNat (dirOf 0) lane.toNat restore = (u .tx).startTxSwap port.toNat lane.toNat
          restore := by
        unfold State.startSpare
        exact if_neg (by simp [dirOf, PortSt.jobRuns, idle])
      rw [starts] at runs
      obtain ⟨only, line, out⟩ := startTxSwap_effect (s := u .tx) (n := port.toNat) (restore := restore) data staying awake
      refine ⟨_, hitlessJob (u .tx) port.toNat lane.toNat restore 4, runs, line, rfl, rfl, rfl, rfl, out, ?_⟩
      rw [only.1.1]
      rfl
    · refine (exec_spareRow ho free small dirs data good).trans (congrArg Host.Outcome.next ?_)
      unfold State.startSpare
      exact if_pos runs
    · exact exec_spareRow_denied ho free small dirs data bad
  · subst hn
    refine ⟨fun awake empty => portSleep_effect ho small free up none_ awake empty, fun full => ?_,
      fun asleep still => portWake_effect ho small free up none_ staying asleep still⟩
    exact portRow_refuses ho free (sleepRow_param small).1 (by rw [full, up]; rfl)

end Sys2Proof.Claims
end

section
/-! PROOFS. PORT_DRAIN and HELD_DISCARD, and the end of a hold (R106, R168, R326). -/

namespace Sys2Proof.Claims

open Sys2Proof.Machine

/-! ## A hold that ends (R168, R326) -/

/-- The logical port after its hold, once what it held is discarded. -/
def holdEnded (u : State) (lp : Nat) : State :=
  let v := u.setHold lp .ended
  let v := if v.lpUp lp then v else v.dropReplay lp
  v.setRecov (lpPort lp) { v.recovOf (lpPort lp) with expired := true }

theorem endHold_eq (s : State) (lp reason : Nat) :
    s.endHold lp reason = (holdEnded (s.discardHeld lp reason).1 lp, (s.discardHeld lp reason).2) := rfl

theorem setRecov_fences (s : State) (n : Nat) (r : PortRecov) : (s.setRecov n r).recov.fences = s.recov.fences := rfl

theorem holdOf_setRecov (s : State) (lp : Nat) (r : PortRecov) : (s.setRecov (lpPort lp) r).holdOf lp =
    match lpSide lp with
    | .a => r.stA
    | .b => r.stB := by
  rewrite [State.holdOf, State.recovOf_setRecov]
  rfl

theorem setHold_holdOf (s : State) (lp : Nat) (h : HoldSt) : (s.setHold lp h).holdOf lp = h := by
  refine (holdOf_setRecov ..).trans ?_
  cases lpSide lp <;> rfl

theorem holdEnded_effect (u : State) (lp : Nat) : (holdEnded u lp).holdOf lp = .ended
    ∧ ((holdEnded u lp).recovOf (lpPort lp)).expired = true ∧ (holdEnded u lp).out = u.out
    ∧ (holdEnded u lp).recov.fences = u.recov.fences
    ∧ (u.lpUp lp = false → (holdEnded u lp).lpStripe lp = (u.lpStripe lp).dropReplay)
    ∧ (u.lpUp lp = true → (holdEnded u lp).lpStripe lp = u.lpStripe lp) := by
  have same : (u.setHold lp .ended).lpUp lp = u.lpUp lp := rfl
  have expires (v : State) (h : v.holdOf lp = .ended) :
      (v.setRecov (lpPort lp) { v.recovOf (lpPort lp) with expired := true }).holdOf lp = .ended := by
    refine (holdOf_setRecov ..).trans (Eq.trans ?_ h)
    rewrite [State.holdOf]
    cases lpSide lp <;> rfl
  have ended := setHold_holdOf u lp .ended
  unfold holdEnded
  dsimp only
  rw [same]
  cases u.lpUp lp
  · refine ⟨expires ((u.setHold lp .ended).dropReplay lp) ended, by rw [State.recovOf_setRecov], rfl, rfl, fun _ => ?_, fun h => nomatch h⟩
    exact State.lpStripe_setLpStripe ..
  · exact ⟨expires (u.setHold lp .ended) ended, by rw [State.recovOf_setRecov], rfl, rfl, fun h => (nomatch h), fun _ => rfl⟩

/-- Nothing is held toward any logical port. -/
structure HoldsNothing (s : State) (lp : Nat) : Prop where
  current : s.currentOf lp = none
  frames : s.sw.frames = []
  slots : s.sw.slotFifo = []
  copies : s.sw.mcFifo = []
  agents : s.sw.agentOut = []

theorem heldFrames_none {s : State} {lp : Nat} (none_ : HoldsNothing s lp) : s.heldFrames lp = [] := by
  obtain ⟨current, frames, slots, copies, -⟩ := none_
  have fifo (u : Nat) : s.fifo u = [] := by
    rw [State.fifo, slots]
    rfl
  have copies : s.mcFifoOf lp = [] := by
    rw [State.mcFifoOf, copies]
    rfl
  unfold State.heldFrames
  rw [current, frames, fifo, fifo, copies]
  rfl

theorem discardHeld_none {s : State} {lp : Nat} (reason : Nat) (none_ : HoldsNothing s lp) :
    s.discardHeld lp reason = ({ s with sw := (s.dropHeld lp).sw }, 0) := by
  have kept : ∃ w, s.dropHeld lp = { s with sw := w } := by
    simp only [State.dropHeld, none_.frames, List.filter_nil, List.foldl_nil, List.foldl_cons, State.setFifo, State.setCurrent,
      State.setMcFifo, State.dropAgentOut]
    exact ⟨_, rfl⟩
  obtain ⟨w, kept⟩ := kept
  unfold State.discardHeld
  rw [heldFrames_none none_, none_.current, none_.agents, kept]
  rfl

theorem endHold_none {s : State} {lp : Nat} (reason : Nat) (none_ : HoldsNothing s lp) :
    s.endHold lp reason = (holdEnded { s with sw := (s.dropHeld lp).sw } lp, 0) := by
  rw [endHold_eq, discardHeld_none reason none_]

/-! ## HELD_DISCARD -/

section
variable {c : Cmd} {port : Byte} {s : State} (ho : Open s) (free : SharedFree s) (small : port.toNat < 64)
  (single : s.holdOf (2 * port.toNat + 1) ≠ .holding)
include ho free small single

omit ho free single in
theorem heldDiscard_param : s.paramError (.heldDiscard c port) = none := by
  simp [State.paramError, State.rangeLow, State.rangeMid, State.rangeHigh, firstBad, portBad, small]

theorem exec_heldDiscard_denied (idle : s.holdOf (2 * port.toNat) ≠ .holding) :
    exec (.heldDiscard c port) s = .next (s.deny c 0x0404 stDeniedState 0) := by
  show execHeldDiscard c port s = _
  unfold execHeldDiscard
  simp only [single, idle, decide_false, List.filter_cons, List.filter_nil, Bool.false_eq_true, if_false, List.foldl_nil]
  exact gate_refuses ho (heldDiscard_param small) (by rw [free.switchGate]; rfl)

theorem exec_heldDiscard_ends (holds : s.holdOf (2 * port.toNat) = .holding) : exec (.heldDiscard c port) s =
    .next ((s.endHold (2 * port.toNat) 8).1.ok c 0x0404 (leBytes 4 (s.endHold (2 * port.toNat) 8).2)) := by
  show execHeldDiscard c port s = _
  unfold execHeldDiscard
  simp only [single, holds, decide_false, decide_true, List.filter_cons, List.filter_nil, Bool.false_eq_true, if_false, if_true,
    List.foldl_cons, List.foldl_nil, Nat.zero_add]
  exact gate_passes ho (heldDiscard_param small) (by rw [free.switchGate]; rfl)

end

/-- Settles O40: a drain waits, and the hold of a port ends as any hold does. -/
theorem drainsAndHeldFrames : Obligations.DrainsAndHeldFrames := by
  refine ⟨fun c lp classes timeout s ho free small some_ => ?_, fun c port n s ho free hn small single => ?_⟩
  · refine gate_passes ho ?_ free.switchGate
    have some_ : ¬timeout = 0#16 := some_
    simp [State.paramError, State.rangeLow, State.rangeMid, State.rangeHigh, firstBad, small, some_]
  · subst hn
    refine ⟨fun idle => exec_heldDiscard_denied ho free small single idle,
      fun holds => ⟨exec_heldDiscard_ends ho free small single holds, fun current frames slots copies agents => ?_⟩⟩
    rw [endHold_none 8 ⟨current, frames, slots, copies, agents⟩]
    obtain ⟨hold, expired, out, -⟩ := holdEnded_effect { s with sw := (s.dropHeld (2 * port.toNat)).sw } (2 * port.toNat)
    rw [show lpPort (2 * port.toNat) = port.toNat from (lpOf_port port.toNat .a).1] at expired
    exact ⟨rfl, hold, expired, out⟩

end Sys2Proof.Claims
end

section
/-! PROOFS. SESSION_OPEN and SESSION_CLOSE (R109, R110, R285). -/

namespace Sys2Proof.Claims

open Sys2Proof.Machine

/-! ## A free SID (R109) -/

theorem freeSid_some {s : State} (start : Nat) {n : Nat} (small : n < 4096) (free : (s.session n).st = .free) :
    ∃ m, s.freeSid start = some m ∧ m < 4096 ∧ (s.session m).st = .free := by
  have here : n ∈ (List.range 4096).map fun k => (start + k) % 4096 := by
    have reached : ∃ k, k < 4096 ∧ (start + k) % 4096 = n := ⟨(n + 4096 - start % 4096) % 4096, by omega, by omega⟩
    simpa only [List.mem_map, List.mem_range] using reached
  have found : (s.freeSid start).isSome = true := List.find?_isSome.mpr ⟨n, here, decide_eq_true free⟩
  obtain ⟨m, hm⟩ := Option.isSome_iff_exists.mp found
  have found := hm
  unfold State.freeSid at found
  obtain ⟨k, -, rfl⟩ := List.mem_map.mp (List.mem_of_find?_eq_some found)
  have idle := List.find?_some found
  exact ⟨_, hm, Nat.mod_lt _ (by omega), of_decide_eq_true idle⟩

/-! ## SESSION_OPEN -/

section
variable {c : Cmd} {sid mg : BitVec 16} {flags : Byte} {members : BitVec 128} {quota : BitVec 32} {s : State}

theorem sessionOpen_sid (hp : s.paramError (.sessionOpen c sid mg flags members quota) = none) (one : sid ≠ 0xFFFF) : sid.toNat < 4096 := by
  have one : ¬sid = 65535#16 := one
  by_contra big
  have big : 4096 ≤ sid.toNat := Nat.not_lt.mp big
  simp [State.paramError, State.rangeLow, State.rangeMid, State.rangeHigh, firstBad, big, one] at hp

variable (ho : Open s) (free : SharedFree s) (hp : s.paramError (.sessionOpen c sid mg flags members quota) = none)
include ho free hp

/-- The state from which a session is opened, and its number. -/
def openTarget (s : State) (sid : BitVec 16) : State × Option Nat :=
  if sid == 0xFFFF then (s.draw.2, s.freeSid s.draw.1.toNat) else (s, some sid.toNat)

/-- Why a session cannot be opened, but for its unit and its room. -/
def openBad (s : State) (sid mg : BitVec 16) (flags : Byte) : Bool :=
  s.groupInUse mg.toNat || (bitAt flags.toNat 1 && s.beat.st == .freerun)
    || (!(sid == 0xFFFF) && decide ((s.session sid.toNat).st ≠ .free))

theorem exec_sessionOpen_denied (bad : openBad s sid mg flags = true) :
    exec (.sessionOpen c sid mg flags members quota) s = .next (s.deny c 0x0600 stDeniedState 0) := by
  refine gate_refuses ho hp ?_
  have bad' := bad
  unfold openBad at bad'
  rw [free.collGate, bad']
  rfl

theorem exec_sessionOpen {n : Nat} (good : openBad s sid mg flags = false)
    (room : s.quotaSum + quota.toNat + s.coll.stageKib ≤ s.dreyCap) (target : (openTarget s sid).2 = some n) :
    exec (.sessionOpen c sid mg flags members quota) s = .next (((openTarget s sid).1.setSession n
      (openedSession c mg.toNat flags.toNat members.toNat quota.toNat)).ok c 0x0600 (leBytes 2 n)) := by
  have run : exec (.sessionOpen c sid mg flags members quota) s = s.opcode (.sessionOpen c sid mg flags members quota) c 0x0600
      (s.gate c 0x0600 (firstGate [s.collGate, stateGate (openBad s sid mg flags),
        roomGate (decide (s.dreyCap < s.quotaSum + quota.toNat + s.coll.stageKib) || (openTarget s sid).2.isNone)])
      (((openTarget s sid).1.setSession ((openTarget s sid).2.getD 0)
        (openedSession c mg.toNat flags.toNat members.toNat quota.toNat)).ok c 0x0600 (leBytes 2 ((openTarget s sid).2.getD 0)))) := rfl
  rw [run, target, good, free.collGate, decide_eq_false (Nat.not_lt.mpr room)]
  exact gate_passes ho hp rfl

end

theorem sessionOpen_effect {c : Cmd} {sid mg : BitVec 16} {flags : Byte} {members : BitVec 128} {quota : BitVec 32} {s : State}
    (ho : Open s) (free : SharedFree s) (hp : s.paramError (.sessionOpen c sid mg flags members quota) = none)
    (good : openBad s sid mg flags = false) (room : s.quotaSum + quota.toNat + s.coll.stageKib ≤ s.dreyCap)
    (target : if sid = 0xFFFF then ∃ n, n < 4096 ∧ (s.session n).st = .free else (s.session sid.toNat).st = .free) :
    ∃ (u : State) (n : Nat), exec (.sessionOpen c sid mg flags members quota) s = .next (u.ok c 0x0600 (leBytes 2 n))
      ∧ n < 4096 ∧ (sid ≠ 0xFFFF → n = sid.toNat) ∧ (s.session n).st = .free
      ∧ u = { s with coll := { s.coll with sessions := u.coll.sessions }, draws := u.draws }
      ∧ (∀ k, k ≠ n → u.session k = s.session k)
      ∧ u.session n = openedSession c mg.toNat flags.toNat members.toNat quota.toNat := by
  have made (v : State) (n : Nat) (same : v.coll.sessions = s.coll.sessions) :
      (∀ k, k ≠ n → (v.setSession n (openedSession c mg.toNat flags.toNat members.toNat quota.toNat)).session k = s.session k)
      ∧ (v.setSession n (openedSession c mg.toNat flags.toNat members.toNat quota.toNat)).session n
        = openedSession c mg.toNat flags.toNat members.toNat quota.toNat :=
    ⟨fun k ne => (State.session_setSession_other v _ ne).trans (by rw [State.session, State.session, same]),
      State.session_setSession ..⟩
  by_cases any : sid = 0xFFFF
  · rw [if_pos any] at target
    obtain ⟨k, small, idle⟩ := target
    obtain ⟨n, found, small, idle⟩ := freeSid_some s.draw.1.toNat small idle
    have drawn : openTarget s sid = (s.draw.2, s.freeSid s.draw.1.toNat) := if_pos (beq_iff_eq.mpr any)
    rw [found] at drawn
    have runs := exec_sessionOpen ho free hp good room (n := n) (by rw [drawn])
    rw [drawn] at runs
    obtain ⟨others, own⟩ := made s.draw.2 n rfl
    exact ⟨_, n, runs, small, fun h => absurd any h, idle, rfl, others, own⟩
  · rw [if_neg any] at target
    have one : openTarget s sid = (s, some sid.toNat) :=
       if_neg (by rw [beq_iff_eq]; exact any)
    have runs := exec_sessionOpen ho free hp good room (n := sid.toNat) (by rw [one])
    rw [one] at runs
    obtain ⟨others, own⟩ := made s sid.toNat rfl
    exact ⟨_, _, runs, sessionOpen_sid hp any, fun _ => rfl, target, rfl, others, own⟩

/-! ## SESSION_CLOSE (R285) -/

section
variable {c : Cmd} {sid : BitVec 16} {s : State} (ho : Open s) (free : SharedFree s) (small : sid.toNat < 4096)

theorem sessionClose_param (small : sid.toNat < 4096) :
    s.paramError (.sessionClose c sid) = none ∧ s.paramError (.sessionCloseForce c sid) = none := by
  constructor <;> simp [State.paramError, State.rangeLow, State.rangeMid, State.rangeHigh, firstBad, small]

include free

theorem closeGate_free (idle : (s.session sid.toNat).st = .free) : s.closeGate c sid.toNat = some (stDeniedState, 0) := by
  unfold State.closeGate
  dsimp only
  rw [idle, free.collGate]
  rfl

section
variable (open_ : (s.session sid.toNat).st ≠ .free)
include open_

theorem closeGate_allowed (may : mayChange (some ((s.session sid.toNat).openerSrc, (s.session sid.toNat).openerOrigin)) c.src c.origin = true) :
    s.closeGate c sid.toNat = none := by
  unfold State.closeGate
  dsimp only
  rw [if_neg open_, holdGate_allowed may, free.collGate, beq_false_of_ne open_]
  rfl

omit free in
theorem closeGate_denied (may : mayChange (some ((s.session sid.toNat).openerSrc, (s.session sid.toNat).openerOrigin)) c.src c.origin = false) :
    s.closeGate c sid.toNat = some (stDeniedPrecedence,
      holderCode (some ((s.session sid.toNat).openerSrc, (s.session sid.toNat).openerOrigin))) := by
  unfold State.closeGate
  dsimp only
  rw [if_neg open_, holdGate_denied may]
  rfl

end
end

/-- What a discarded collective frame moves: cells, and the counts. -/
theorem dropColl_keeps (s : State) (lp : Nat) (f : InFrame) :
    (s.dropColl lp f).coll.sessions = s.coll.sessions ∧ (s.dropColl lp f).out = s.out := by
  have freed := (State.freeCells_keepsQueues s lp f.hdr.tc.toNat f.arrived).rest
  unfold State.dropColl State.freeFrame State.countDiscard
  dsimp only
  obtain ⟨n, counted⟩ := State.countGlobal_only { s.freeCells lp f.hdr.tc.toNat f.arrived with coll :=
    { (s.freeCells lp f.hdr.tc.toNat f.arrived).coll with
      discarded := satAdd 0xFFFF (s.freeCells lp f.hdr.tc.toNat f.arrived).coll.discarded 1 } } 0x3003 none none 1
  rw [counted, freed]
  exact ⟨rfl, rfl⟩

theorem dropEntry_keeps (s : State) (sid : Nat) :
    (s.dropEntry sid).coll.sessions = s.coll.sessions ∧ (s.dropEntry sid).out = s.out := by
  unfold State.dropEntry
  dsimp only
  exact foldl_rel (R := fun s t : State => t.coll.sessions = s.coll.sessions ∧ t.out = s.out) _ (fun _ => ⟨rfl, rfl⟩)
    (fun h g => ⟨g.1.trans h.1, g.2.trans h.2⟩) (fun _ _ => dropColl_keeps ..) _
    { s with coll := { s.coll with entry := s.coll.entry.filter fun x => !(frameSid x.frame == sid
      && (x.frame.hdr.ftype == 3 || x.frame.hdr.ftype == 4) && !s.isForeign x.foreign x.frame) } }

/-- Settles O39: a session opens under a free number, and closes at once, when its chunks are done, or by force. -/
theorem sessionsOpenAndClose : Obligations.SessionsOpenAndClose := by
  refine ⟨fun c sid mg flags members quota s ho free hp => ⟨fun one used => ?_, fun unused beat room target => ?_⟩,
    fun c sid s ho free small => ?_⟩
  · exact exec_sessionOpen_denied ho free hp (by
      unfold openBad
      rw [beq_false_of_ne one, decide_eq_true used]
      simp)
  · have good : openBad s sid mg flags = false := by
      have locked : (bitAt flags.toNat 1 && s.beat.st == .freerun) = false := by
        cases sync : bitAt flags.toNat 1
        · rfl
        · exact beq_false_of_ne (beat sync)
      unfold openBad
      rw [unused, locked]
      by_cases any : sid = 0xFFFF
      · simp [any]
      · rw [if_neg any] at target
        simp [target]
    obtain ⟨u, n, runs, small, own, idle, only, others, made⟩ := sessionOpen_effect ho free hp good room target
    exact ⟨u, n, runs, small, own, idle, only, others, by rw [made]; rfl, by rw [made]; exact (BitVec.ofNat_toNat ..).trans (BitVec.setWidth_eq _), by rw [made]; rfl,
      by rw [made]; rfl, by rw [made]; rfl, by rw [made]; rfl, by rw [made]; rfl, by rw [made]; rfl⟩
  · obtain ⟨param, paramForce⟩ := sessionClose_param (c := c) (s := s) small
    have runs {why : Option (BitVec 8 × Nat)} {b : State} (hg : why = none) :
        s.opcode (.sessionClose c sid) c 0x0601 (s.gate c 0x0601 why b) = .next b := gate_passes ho param hg
    refine ⟨fun idle => ⟨?_, ?_⟩, fun open_ may => ⟨fun rests => ?_, fun active chunks => ?_, fun closing => ?_, ?_⟩, fun open_ may => ?_⟩
    · exact gate_refuses ho param (by rw [closeGate_free free idle]; rfl)
    · exact gate_refuses ho paramForce (closeGate_free free idle)
    · have allowed := closeGate_allowed (c := c) free open_ may
      have settled : ((s.session sid.toNat).st == .closing) = false := by
        rcases rests with h | h <;> rw [h] <;> rfl
      obtain ⟨sessions, out⟩ := dropEntry_keeps s sid.toNat
      refine ⟨(s.dropEntry sid.toNat).freeSession sid.toNat, ?_, ?_, State.session_setSession .., fun k ne => ?_, out⟩
      · refine (gate_passes ho param (by rw [allowed, settled]; rfl)).trans ?_
        rw [if_pos rests]
      · refine (gate_passes ho paramForce allowed).trans ?_
        rw [if_pos rests]
      · exact (State.session_setSession_other _ _ ne).trans (by rw [State.session, sessions]; rfl)
    · have allowed := closeGate_allowed (c := c) free open_ may
      have settled : ((s.session sid.toNat).st == .closing) = false := by
        rcases active with h | h <;> rw [h] <;> rfl
      have busy : ¬((s.session sid.toNat).st = .idle ∨ (s.session sid.toNat).st = .aborted) := by
        rcases active with h | h <;> rw [h] <;> decide
      let t := (s.setSession sid.toNat { s.session sid.toNat with st := .closing }).defer c 0x0601 (.close sid.toNat)
      have own : t.session sid.toNat = { s.session sid.toNat with st := .closing } := State.session_setSession ..
      have stays : t.closeCheck sid.toNat = t := by
        unfold State.closeCheck
        dsimp only
        rw [own, if_neg fun h => chunks h.2.1]
      refine ⟨t, ?_, own, rfl⟩
      refine (gate_passes ho param (by rw [allowed, settled]; rfl)).trans ?_
      rw [if_neg busy]
      exact congrArg Host.Outcome.next stays
    · refine gate_refuses ho param ?_
      rw [closeGate_allowed free open_ may, closing]
      rfl
    · exact ⟨_, gate_passes ho paramForce (closeGate_allowed free open_ may), State.session_setSession ..⟩
    · exact gate_refuses ho param (by rw [closeGate_denied open_ may]; rfl)

end Sys2Proof.Claims
end

section
/-! PROOFS. Fabric memory: the bytes, the reads of sectors, the allocations and the memory commands (R108, R187 to R193, R211). -/

namespace Sys2Proof.Claims

open Sys2Proof.Machine

/-! ## Bytes after a write (R188) -/

theorem find?_filter_of_imp {α : Type} {p q : α → Bool} (l : List α) (h : ∀ x, q x = true → p x = true) :
    (l.filter p).find? q = l.find? q := by
  rw [List.find?_filter]
  congr 1
  funext x
  cases hq : q x
  · exact decide_eq_false fun e => Bool.false_ne_true e.2
  · exact decide_eq_true ⟨h x hq, rfl⟩

theorem find?_filter_none {α : Type} {p q : α → Bool} (l : List α) (h : ∀ x, q x = true → p x = false) : (l.filter p).find? q = none :=
  List.find?_eq_none.mpr fun x hx hq => Bool.false_ne_true ((h x hq).symm.trans (List.mem_filter.mp hx).2)

/-- The cells that a write puts in place. -/
def written (off : Nat) (b : Bytes) : List Host.Cell := (List.range b.length).zipWith (fun k x => (off + k, x)) b

theorem mem_written {off : Nat} {b : Bytes} {c : Host.Cell} (h : c ∈ written off b) : ∃ k, k < b.length ∧ c = (off + k, byteAt b k) := by
  obtain ⟨k, hk, rfl⟩ := List.getElem_of_mem h
  have small : k < b.length := by simpa [written] using hk
  exact ⟨k, small, by simp [written, byteAt, List.getElem?_eq_getElem small]⟩

theorem written_mem {off : Nat} {b : Bytes} {k : Nat} (h : k < b.length) : (off + k, byteAt b k) ∈ written off b := by
  have small : k < (written off b).length := by simpa [written] using h
  refine List.mem_of_getElem (h := small) ?_
  simp [written, byteAt, List.getElem?_eq_getElem h]

theorem find?_written {off : Nat} {b : Bytes} {k : Nat} (h : k < b.length) :
    (written off b).find? (fun c => c.1 == off + k) = some (off + k, byteAt b k) := by
  have found : ((written off b).find? fun c => c.1 == off + k).isSome = true :=
    List.find?_isSome.mpr ⟨_, written_mem h, beq_self_eq_true _⟩
  obtain ⟨c, hc⟩ := Option.isSome_iff_exists.mp found
  obtain ⟨j, -, rfl⟩ := mem_written (List.mem_of_find?_eq_some hc)
  have same := List.find?_some hc
  obtain rfl : j = k := by simpa using same
  exact hc

/-- A write leaves its bytes in place. -/
theorem memByte_putMem (s : State) (off : Nat) (b : Bytes) {k : Nat} (h : k < b.length) : (s.putMem off b).memByte (off + k) = byteAt b k := by
  have found : (putCells s.mem.cells off b).find? (fun c => c.1 == off + k) = some (off + k, byteAt b k) := by
    rw [putCells, List.find?_append, List.find?_append, find?_filter_none _ fun x hx => decide_eq_false (by
      rw [beq_iff_eq.mp hx]
      omega), Option.none_or, show List.zipWith _ _ _ = written off b from rfl, find?_written h]
    rfl
  unfold State.memByte State.putMem State.updMem
  dsimp only
  rw [found]

/-- A write leaves every other byte. -/
theorem memByte_putMem_other (s : State) (off : Nat) (b : Bytes) {a : Nat} (h : a < off ∨ off + b.length ≤ a) :
    (s.putMem off b).memByte a = s.memByte a := by
  have apart : (written off b).find? (fun c => c.1 == a) = none := List.find?_eq_none.mpr fun c hc e => by
    obtain ⟨k, hk, rfl⟩ := mem_written hc
    have e : off + k = a := beq_iff_eq.mp e
    omega
  have same : (putCells s.mem.cells off b).find? (fun c => c.1 == a) = s.mem.cells.find? (fun c => c.1 == a) := by
    rw [putCells, List.find?_append, List.find?_append, show List.zipWith _ _ _ = written off b from rfl, apart, Option.or_none]
    rcases h with below | above
    · rw [find?_filter_of_imp _ fun x hx => decide_eq_true (by rw [beq_iff_eq.mp hx]; exact below),
        find?_filter_none _ fun x hx => decide_eq_false (by rw [beq_iff_eq.mp hx]; omega), Option.or_none]
    · rw [find?_filter_none _ fun x hx => decide_eq_false (by rw [beq_iff_eq.mp hx]; omega), Option.none_or,
        find?_filter_of_imp _ fun x hx => decide_eq_true (by rw [beq_iff_eq.mp hx]; exact above)]
  unfold State.memByte State.putMem State.updMem
  dsimp only
  rw [same]

/-! ## Sectors (R187, R189, R211) -/

/-- A range of whole sectors covers no sector in part. -/
theorem partSectors_whole {off n : Nat} (start : off % 64 = 0) (whole : n % 64 = 0) : partSectors off n = [] := by
  unfold partSectors sectorsOf
  refine List.filter_eq_nil_iff.mpr fun k hk => ?_
  split at hk
  case isTrue => exact absurd hk (List.not_mem_nil)
  case isFalse some_ =>
    obtain ⟨j, hj, rfl⟩ := List.mem_map.mp hk
    have hj := List.mem_range.mp hj
    simp only [Bool.not_eq_true', Bool.and_eq_false_iff, decide_eq_false_iff_not]
    omega

theorem onlyCounted_countPlaces (s : State) (heading : Nat) (l : List Nat) : OnlyCounted s (s.countPlaces heading l) :=
  onlyCounted_foldl _ (fun _ _ => (onlyCounted_countGlobal ..).trans (onlyCounted_countGlobal ..)) _ s

theorem onlyCounted_countSectors (s : State) (code : Nat) (l rmw : List Nat) : OnlyCounted s (s.countSectors code l rmw) :=
  ((onlyCounted_foldl _ (fun _ _ => onlyCounted_countGlobal ..) l s).trans (onlyCounted_countPlaces ..)).trans
    (onlyCounted_countPlaces ..)

theorem OnlyCounted.memBytesAt {s t : State} (h : OnlyCounted s t) (off n : Nat) : t.memBytesAt off n = s.memBytesAt off n := by
  rw [h]
  rfl

/-- The sectors can be read: none is poisoned, lost, or on a stack that has stopped answering. -/
def Readable (s : State) (l : List Nat) : Prop :=
  ∀ k ∈ l, k ∉ s.mem.poison ∧ s.isLost (k / 64) = false ∧ (s.stack (s.stackOf (k / 64))).dead = false

theorem sectorStack_eq (s : State) (k : Nat) : s.sectorStack k = s.stackOf (k / 64) := by
  unfold State.sectorStack State.memPlace
  dsimp only
  congr 1
  omega

/-- What the stacks report when they report nothing. -/
theorem filter_reported (l : List Nat) : l.filter ([] : List Nat).contains = [] :=
  List.filter_eq_nil_iff.mpr fun _ _ => by simp

/-- Reading sectors in which the stacks report nothing moves nothing. -/
theorem readSectors_clean {s : State} {l : List Nat} (read : Readable s l) (lost : Bool) :
    s.readSectors l lost { uncorrected := [], corrected := [] } = (s, true) := by
  have good : (l.all fun k => !([] : List Nat).contains k && !s.mem.poison.contains k && !(lost && s.isLost (k / 64))
      && !(s.stack (s.sectorStack k)).dead) = true := by
    refine List.all_eq_true.mpr fun k hk => ?_
    obtain ⟨clean, kept, alive⟩ := read k hk
    rw [sectorStack_eq, alive, kept]
    simpa using clean
  unfold State.readSectors
  dsimp only
  rw [good, filter_reported]
  rfl

theorem readSectors_poisoned {s : State} {l : List Nat} (bad : ∃ k ∈ l, k ∈ s.mem.poison) (lost : Bool) :
    s.readSectors l lost { uncorrected := [], corrected := [] } = (s, false) := by
  obtain ⟨k, hk, poisoned⟩ := bad
  have bad : (l.all fun k => !([] : List Nat).contains k && !s.mem.poison.contains k && !(lost && s.isLost (k / 64))
      && !(s.stack (s.sectorStack k)).dead) = false :=
    List.all_eq_false.mpr ⟨k, hk, by simp [poisoned]⟩
  unfold State.readSectors
  dsimp only
  rw [bad, filter_reported]
  rfl

/-- From s to t only the memory and counters have moved, in the memory the bytes b from off as R202 says. -/
structure BytesWritten (s t : State) (off : Nat) (b : Bytes) : Prop where
  only : t = { s with mem := t.mem, ctr := { s.ctr with counters := t.ctr.counters } }
  own : ∀ k, k < b.length → t.memByte (off + k) = byteAt b k
  others : ∀ a, a < off ∨ off + b.length ≤ a → t.memByte a = s.memByte a
  queue : t.mem.waiting = s.mem.waiting

theorem BytesWritten.counted {s t u : State} {off : Nat} {b : Bytes} (h : BytesWritten s t off b) (g : OnlyCounted t u) :
    BytesWritten s u off b := by
  obtain ⟨only, own, others, queue⟩ := h
  have same (a : Nat) : u.memByte a = t.memByte a := by
    rw [g]
    rfl
  exact ⟨by rw [g, only], fun k hk => (same _).trans (own k hk), fun a ha => (same _).trans (others a ha), by rw [g]; exact queue⟩

theorem BytesWritten.marks {s t : State} {off : Nat} {b : Bytes} (h : BytesWritten s t off b) {f : FabMem → FabMem}
    (keeps : ∀ m, (f m).cells = m.cells ∧ (f m).powerOns = m.powerOns ∧ (f m).waiting = m.waiting) : BytesWritten s (t.updMem f) off b := by
  obtain ⟨only, own, others, queue⟩ := h
  have same (a : Nat) : (t.updMem f).memByte a = t.memByte a := by
    unfold State.memByte State.updMem
    dsimp only
    rw [(keeps t.mem).1, (keeps t.mem).2.1]
  exact ⟨by rw [State.updMem, only], fun k hk => (same _).trans (own k hk), fun a ha => (same _).trans (others a ha),
    (keeps t.mem).2.2.trans queue⟩

theorem writeRange_writes (s : State) (off : Nat) (b : Bytes) (rmw : List Nat) : BytesWritten s (s.writeRange off b rmw) off b := by
  have put : BytesWritten s (s.putMem off b) off b :=
    ⟨rfl, fun _ => memByte_putMem s off b, fun _ => memByte_putMem_other s off b, rfl⟩
  unfold State.writeRange
  exact ((put.marks (f := fun m => { m with poison := m.poison.filter fun k =>
    !((sectorsOf off b.length).filter fun k => !(partSectors off b.length).contains k).contains k }) fun _ => ⟨rfl, rfl, rfl⟩).counted
    (onlyCounted_countSectors ..)).counted (onlyCounted_countPlaces ..)

theorem BytesWritten.clearLost {s t : State} {off : Nat} {b : Bytes} (h : BytesWritten s t off b) (g : Nat) :
    BytesWritten s (t.clearLost g) off b := by
  unfold State.clearLost
  exact h.marks fun _ => ⟨rfl, rfl, rfl⟩

/-- A write of whole sectors reads nothing first, whatever the stacks report. -/
theorem writeMem_whole (s : State) {off : Nat} {b : Bytes} (ecc : EccReport) (start : off % 64 = 0) (whole : b.length % 64 = 0) :
    ∃ t, s.writeMem off b ecc = (t, true) ∧ BytesWritten s t off b := by
  have wrote := writeRange_writes s off b []
  unfold State.writeMem
  rw [partSectors_whole start whole]
  by_cases full : b.length = 4096 ∧ off % 4096 = 0
  · exact ⟨_, Prod.ext (if_pos full) rfl, wrote.clearLost _⟩
  · exact ⟨_, Prod.ext (if_neg full) rfl, wrote⟩

/-! ## Allocations (R191) -/

/-- A free run lies apart from every allocation, where these are in order. -/
theorem mem_freeRuns {l : List Alloc} {lo k n : Nat} (ordered : l.Pairwise fun a b => a.first + a.count ≤ b.first)
    (above : ∀ a ∈ l, lo ≤ a.first) (run : (k, n) ∈ freeRuns lo l) :
    lo ≤ k ∧ ∀ a ∈ l, a.first + a.count ≤ k ∨ k + n ≤ a.first := by
  induction l generalizing lo with
  | nil =>
    obtain ⟨rfl, -⟩ := Prod.mk.inj (List.mem_singleton.mp run)
    exact ⟨Nat.le_refl _, fun a h => absurd h List.not_mem_nil⟩
  | cons a r ih =>
    obtain ⟨after, ordered⟩ := List.pairwise_cons.mp ordered
    have first := above a (List.mem_cons_self ..)
    rcases List.mem_cons.mp run with here | later
    · obtain ⟨rfl, rfl⟩ := Prod.mk.inj here
      refine ⟨Nat.le_refl _, fun x hx => Or.inr ?_⟩
      rcases List.mem_cons.mp hx with rfl | hx
      · omega
      · have := after x hx
        omega
    · obtain ⟨low, apart⟩ := ih ordered (fun x hx => after x hx) later
      refine ⟨by omega, fun x hx => ?_⟩
      rcases List.mem_cons.mp hx with rfl | hx
      · exact Or.inl low
      · exact apart x hx

theorem firstFit_apart {s : State} {n k : Nat} (fits : s.firstFit n = some k)
    (ordered : s.mem.allocs.Pairwise fun a b => a.first + a.count ≤ b.first) :
    ∀ a ∈ s.mem.allocs, a.first + a.count ≤ k ∨ k + n ≤ a.first := by
  unfold State.firstFit at fits
  split at fits
  case isTrue => cases fits
  case isFalse =>
    obtain ⟨r, found, rfl⟩ := Option.map_eq_some_iff.mp fits
    have room := List.find?_some found
    have room : n ≤ r.2 := of_decide_eq_true room
    intro a ha
    rcases (mem_freeRuns ordered (fun _ _ => Nat.zero_le _) (List.mem_of_find?_eq_some found)).2 a ha with h | h
    · exact Or.inl h
    · exact Or.inr (by omega)

theorem mem_addAlloc {a b : Alloc} {l : List Alloc} : b ∈ addAlloc a l ↔ b ∈ l ∨ b = a := by
  simp only [addAlloc, List.mem_append, List.mem_filter, List.mem_singleton, decide_eq_true_eq]
  constructor
  · rintro ((⟨h, -⟩ | rfl) | ⟨h, -⟩)
    exacts [.inl h, .inr rfl, .inl h]
  · rintro (h | rfl)
    · rcases Nat.lt_or_ge b.first a.first with lt | ge
      exacts [.inl (.inl ⟨h, lt⟩), .inr ⟨h, ge⟩]
    · exact .inl (.inr rfl)

/-! ## The memory commands (R108, R191, R193) -/

theorem exec_memAlloc {c : Cmd} {size owner : Word} {s : State} (ho : Open s) (free : SharedFree s) (some_ : size ≠ 0) :
    exec (.memAlloc c size owner) s = .next (match s.firstFit (granulesOf size.toNat) with
      | none => s.deny c 0x0501 stNoResource 0
      | some k => (s.updMem fun m => { m with allocs := addAlloc { first := k, count := granulesOf size.toNat, owner := owner } m.allocs }).ok
          c 0x0501 (leBytes 8 (k * allocGranule))) := by
  have hp : s.paramError (.memAlloc c size owner) = none := by
    have some_ : ¬size = 0#64 := some_
    simp [State.paramError, State.rangeLow, State.rangeMid, State.rangeHigh, firstBad, some_]
  show execMemAlloc c size owner s = _
  unfold execMemAlloc
  dsimp only
  rewrite [opcode_runs ho hp, free.memGate]
  rfl

theorem memFree_effect {c : Cmd} {off : Word} {s : State} (ho : Open s) (free : SharedFree s) :
    ((∀ a ∈ s.mem.allocs, a.first * allocGranule ≠ off.toNat) → exec (.memFree c off) s = .next (s.deny c 0x0502 stDeniedState 0))
    ∧ ∀ a ∈ s.mem.allocs, a.first * allocGranule = off.toNat → ∃ u : State, exec (.memFree c off) s = .next (u.ok c 0x0502 [])
        ∧ u = { s with mem := { s.mem with allocs := u.mem.allocs } }
        ∧ ∀ b, b ∈ u.mem.allocs ↔ b ∈ s.mem.allocs ∧ b.first ≠ a.first := by
  have hp : s.paramError (.memFree c off) = none := by
    simp [State.paramError, State.rangeLow, State.rangeMid, State.rangeHigh]
  refine ⟨fun none_ => gate_refuses ho hp ?_, fun a ha starts => ⟨_, gate_passes ho hp ?_, rfl, fun b => ?_⟩⟩
  · have none_ : (s.mem.allocs.any fun a => a.first * allocGranule == off.toNat) = false :=
      List.any_eq_false.mpr fun a ha => by simpa using none_ a ha
    rw [free.memGate, none_]
    rfl
  · have some_ : (s.mem.allocs.any fun a => a.first * allocGranule == off.toNat) = true :=
      List.any_eq_true.mpr ⟨a, ha, beq_iff_eq.mpr starts⟩
    rw [free.memGate, some_]
    rfl
  · have same : b.first * allocGranule = off.toNat ↔ b.first = a.first := by
      rw [← starts]
      exact Nat.mul_left_inj (by decide)
    simp only [State.updMem, List.mem_filter, Bool.not_eq_true', beq_eq_false_iff_ne, ne_eq, same]

theorem isMem_alone {d : Deferred} {s : State} (one : s.mgmt.deferred = [d]) (mem : d.work.isMem = true) (st : BitVec 8) (data : Bytes) :
    s.finishWork Work.isMem st 0 data = { s with mgmt := { s.mgmt with deferred := [] } }.complete d.cmd d.opcode d.keyKept st 0 data := by
  unfold State.finishWork
  rw [one]
  simp only [List.find?_cons, mem, dropFirst, if_true]

theorem exec_memCmdComplete {d : Deferred} {s t : State} {ecc : EccReport} {st : BitVec 8} {data : Bytes} (run : s.memRuns = true)
    (one : s.mgmt.deferred = [d]) (mem : d.work.isMem = true) (does : s.doMemWork d.work ecc = (t, st, data))
    (kept : t.mgmt = s.mgmt) : exec (.memCmdComplete ecc) s =
      .next ({ t with mgmt := { s.mgmt with deferred := [] } }.complete d.cmd d.opcode d.keyKept st 0 data) := by
  show execMemCmdComplete ecc s = _
  unfold execMemCmdComplete
  rw [run, one]
  simp only [List.find?_cons, mem, Bool.not_true, Bool.false_eq_true, if_false, does]
  rw [isMem_alone (kept ▸ one) mem, kept]

/-- Settles O38: allocations stay apart, and each memory command acts on its bytes. -/
theorem memoryCommandsActOnAllocations : Obligations.MemoryCommandsActOnAllocations := by
  refine ⟨fun c size owner s ho free some_ => ⟨fun full => ?_, fun k fits => ?_⟩, fun c off s ho free => memFree_effect ho free,
    fun i c op off n w s ho free hp row => ?_, fun d off b s run one work alloc start whole ecc => ?_,
    fun d off n s run one work alloc => ⟨fun read => ?_, fun poisoned => ?_⟩⟩
  · rw [exec_memAlloc ho free some_, full]
  · have runs := exec_memAlloc (c := c) (owner := owner) ho free some_
    rw [fits] at runs
    exact ⟨_, runs, rfl, fun a => mem_addAlloc, firstFit_apart fits⟩
  · have row_ {b : State} : s.opcode i c op (s.gate c op (firstGate [s.memGate, stateGate (!s.allocated off n)]) b) =
        .next (if s.allocated off n = true then b else s.deny c op stDeniedState 0) := by
      cases ok : s.allocated off n
      · exact gate_refuses ho hp (by rw [free.memGate]; rfl)
      · exact gate_passes ho hp (by rw [free.memGate]; rfl)
    rcases row with ⟨o, sz, p, rfl, rfl, rfl, rfl, rfl⟩ | ⟨o, k, rfl, rfl, rfl, rfl, rfl⟩ | ⟨o, k, d, rfl, rfl, rfl, rfl, rfl⟩
    exacts [row_, row_, row_]
  · obtain ⟨t, wrote, only, own, others, -⟩ := writeMem_whole s ecc start whole
    have does : s.doMemWork d.work ecc = (t, stOk, []) := by
      rw [work]
      unfold State.doMemWork
      dsimp only
      rw [alloc, wrote]
      rfl
    refine ⟨_, exec_memCmdComplete run one (by rw [work]; rfl) does (by rw [only]), ?_, own, others⟩
    rw [only]
  · have counted := onlyCounted_countSectors s 0x2001 (sectorsOf off n) []
    have does : s.doMemWork d.work { uncorrected := [], corrected := [] } =
        (s.countSectors 0x2001 (sectorsOf off n) [], stOk, s.memBytesAt off n) := by
      rw [work]
      unfold State.doMemWork
      dsimp only
      rw [alloc, readSectors_clean read, ← counted.memBytesAt]
      rfl
    refine ⟨_, exec_memCmdComplete run one (by rw [work]; rfl) does (by rw [counted]), ?_⟩
    rw [counted]
  · have counted := onlyCounted_countSectors s 0x2001 (sectorsOf off n) []
    have does : s.doMemWork d.work { uncorrected := [], corrected := [] } =
        (s.countSectors 0x2001 (sectorsOf off n) [], stInternalFault, []) := by
      rw [work]
      unfold State.doMemWork
      dsimp only
      rw [alloc, readSectors_poisoned poisoned]
      rfl
    refine ⟨_, exec_memCmdComplete run one (by rw [work]; rfl) does (by rw [counted]), ?_⟩
    rw [counted]

end Sys2Proof.Claims
end

section
/-! PROOFS. Memory requests at the ordering stage (R197, R200 to R202). -/

namespace Sys2Proof.Claims

open Sys2Proof.Machine

theorem onlyCounted_ctxUnit (s : State) (kind unit : Nat) (x : SampleCtx) : OnlyCounted s (s.ctxUnit kind unit x) :=
  onlyCounted_foldl _ (fun _ _ => onlyCounted_setCounter ..) _ s

/-- A frame of an agent joins the queue of a logical port that has not ENDED. -/
theorem sendAgent_joins {s : State} {f : AgentFrame} (open_ : s.holdOf f.lp ≠ .ended) :
    s.sendAgent f = { s with sw := { s.sw with agentOut := s.sw.agentOut ++ [f] } } := if_neg open_

theorem sendAgent_only (s : State) (f : AgentFrame) :
    s.sendAgent f = { s with sw := { s.sw with agentOut := (s.sendAgent f).sw.agentOut } } := by
  by_cases e : s.holdOf f.lp = .ended
  · rw [State.sendAgent, if_pos e]
  · rw [sendAgent_joins e]

/-- What finishing a request moves beside its effect: the cells of its frame, and the context of counters. -/
theorem requestDone_only (s : State) (lp tc n kind unit : Nat) (x : SampleCtx) :
    ∃ w c, (s.freeCells lp tc n).ctxUnit kind unit x = { s with sw := w, ctr := { s.ctr with counters := c } }
      ∧ w.agentOut = s.sw.agentOut := by
  have freed : (s.freeCells lp tc n) = s.withSw (s.freeCells lp tc n).sw := (State.freeCells_keepsQueues s lp tc n).rest
  have kept : (s.freeCells lp tc n).sw.agentOut = s.sw.agentOut := by
    have owed (k : Nat) (t : State) : (payOwed k t).sw.agentOut = t.sw.agentOut := by
      induction k generalizing t with
      | zero => rfl
      | succ k ih =>
        unfold payOwed
        split
        · rfl
        · split
          · rfl
          · exact ih _
    exact owed ..
  have counted := onlyCounted_ctxUnit (s.freeCells lp tc n) kind unit x
  refine ⟨(s.freeCells lp tc n).sw, ((s.freeCells lp tc n).ctxUnit kind unit x).ctr.counters, Eq.trans counted ?_, kept⟩
  generalize ((s.freeCells lp tc n).ctxUnit kind unit x).ctr.counters = c
  rw [freed]
  rfl

/-! ## MEM_REQUEST_ENTRY -/

/-- The state in which the first request has left the entry. -/
def requestTaken (s : State) : State := { s with mem := { s.mem with waiting := [] } }

/-- The end of a request that was carried out: its cells are freed, and counters note it. -/
def requestEnded (s t : State) (r : MemReq) : State :=
  (t.freeCells r.lp r.tc r.cells).ctxUnit 2 (s.stackOf (r.offset / 4096)) (.memory (s.stackOf (r.offset / 4096)) r.op r.offset r.lp)

section
variable {lp : Lp} {r : MemReq} {ecc : EccReport} {s t : State} (run : s.memRuns = true) (one : s.mem.waiting = [r]) (here : r.lp = lp.val)
include run one here

theorem exec_memRequestEntry (does : (requestTaken s).enterMem r ecc = some t) :
    exec (.memRequestEntry lp ecc) s = .next (requestEnded s t r) := by
  have first : (r.lp == lp.val) = true := beq_iff_eq.mpr here
  have taken : (s.updMem fun m => { m with waiting := dropFirst (fun r => r.lp == lp.val) m.waiting }) = requestTaken s := by
    unfold State.updMem
    dsimp only
    rw [one, dropFirst, if_pos first]
    rfl
  show execMemRequestEntry lp ecc s = _
  unfold execMemRequestEntry
  dsimp only
  rw [taken, run, one]
  simp only [List.find?_cons, first, Bool.not_true, Bool.false_eq_true, if_false]
  rw [does]
  rfl

end

theorem enterMem_refused {s : State} {r : MemReq} {ecc : EccReport} (unmapped : s.allocated r.offset r.span = false) (single : r.op ≠ 3) :
    s.enterMem r ecc = some (s.answerMem r 1 0 []) := by
  unfold State.enterMem
  rw [if_neg fun h => single h.1, unmapped]
  rfl

theorem enterMem_write {s t : State} {r : MemReq} {ecc : EccReport} (mapped : s.allocated r.offset r.span = true) (op : r.op = 2)
    (silent : r.ack = false) (wrote : s.writeMem r.offset r.data ecc = (t, true)) : s.enterMem r ecc = some t := by
  unfold State.enterMem
  rw [if_neg fun h => by rw [op] at h; exact absurd h.1 (by decide), mapped, op, silent]
  simp only [Bool.not_true, Bool.false_eq_true, if_false, wrote]

/-! ## Reads (R200) -/

theorem readTargets_one {s : State} {x : MemRead} (op : x.req.op = 1) : s.readTargets x = ([x.req.lp], []) :=
  if_neg (by rw [op]; decide)

/-- What reading sectors leaves of the memory: its bytes, and the requests and reads that wait. -/
structure BytesKept (s t : State) : Prop where
  cells : t.mem.cells = s.mem.cells
  reads : t.mem.reads = s.mem.reads

theorem BytesKept.trans {s t u : State} (h : BytesKept s t) (g : BytesKept t u) : BytesKept s u :=
  ⟨g.cells.trans h.cells, g.reads.trans h.reads⟩

theorem OnlyCounted.bytesKept {s t : State} (h : OnlyCounted s t) : BytesKept s t := by
  rw [h]
  exact ⟨rfl, rfl⟩

theorem bytesKept_uncorrected (s : State) (k : Nat) : BytesKept s (s.uncorrected k) := ⟨rfl, rfl⟩

theorem bytesKept_correctedErr (s : State) (k : Nat) : BytesKept s (s.correctedErr k) := ⟨rfl, rfl⟩

theorem bytesKept_readSectors (s : State) (l : List Nat) (lost : Bool) (ecc : EccReport) : BytesKept s (s.readSectors l lost ecc).1 :=
  .trans (foldl_rel (R := BytesKept) _ (fun _ => ⟨rfl, rfl⟩) .trans (fun _ _ => bytesKept_uncorrected ..) _ s)
    (foldl_rel (R := BytesKept) _ (fun _ => ⟨rfl, rfl⟩) .trans (fun _ _ => bytesKept_correctedErr ..) _ _)

theorem bytesKept_sendMem (s : State) (lp : Nat) (r : MemReq) (st flags off frag detail : Nat) (data : Bytes) :
    BytesKept s (s.sendMem lp r st flags off frag detail data) := by
  have sent (f : AgentFrame) : BytesKept s (s.sendAgent f) := by
    rw [sendAgent_only]
    exact ⟨rfl, rfl⟩
  unfold State.sendMem
  dsimp only
  split
  · exact sent _
  · exact (sent _).trans (onlyCounted_countGlobal ..).bytesKept

/-- The sectors of the next fragment are read: the state after it, and its status. -/
def fragmentRead (s : State) (x : MemRead) (ecc : EccReport) : State × Nat :=
  let off := x.req.offset + 4096 * x.next
  let n := x.req.fragLen x.next
  if s.allocated off n then
    let (s, good) := s.readSectors (sectorsOf off n) true ecc
    (s.countSectors 0x2001 (sectorsOf off n) [], if good then 0 else 4)
  else (s, 1)

theorem bytesKept_fragmentRead (s : State) (x : MemRead) (ecc : EccReport) : BytesKept s (fragmentRead s x ecc).1 := by
  unfold fragmentRead
  dsimp only
  split
  · exact (bytesKept_readSectors ..).trans (onlyCounted_countSectors ..).bytesKept
  · exact ⟨rfl, rfl⟩

/-- The next fragment of a READ leaves for its requester. -/
theorem sendFragment_read {s : State} {x : MemRead} {ecc : EccReport} (op : x.req.op = 1) :
    s.sendFragment x ecc = ((fragmentRead s x ecc).1.sendMem x.req.lp x.req (fragmentRead s x ecc).2
        (b2n (decide (x.next + 1 = x.req.fragments)) + 2 * 0) (x.req.offset + 4096 * x.next) x.next 0
        (if (fragmentRead s x ecc).2 = 0 then (fragmentRead s x ecc).1.memBytesAt (x.req.offset + 4096 * x.next) (x.req.fragLen x.next)
          else []),
      { x with next := x.next + 1, skipped := x.skipped ++ [], bad := x.bad || (fragmentRead s x ecc).2 == 4 }) := by
  have single : decide (x.req.op = 3) = false := decide_eq_false (by rw [op]; decide)
  unfold State.sendFragment
  dsimp only
  rw [readTargets_one op, single]
  simp only [List.foldl_nil, List.foldl_cons, Bool.false_and, Bool.not_false, Bool.and_true, Bool.false_eq_true, if_false]
  rfl

theorem fragments_one {r : MemReq} (some_ : 0 < r.length) (small : r.length ≤ 4096) : r.fragments = 1 ∧ r.fragLen 0 = r.length := by
  unfold MemReq.fragments MemReq.fragLen
  constructor
  · omega
  · omega

/-- The response to a READ of one fragment that meets no error. -/
def readAnswer (s : State) (r : MemReq) : AgentFrame :=
  agentFrame 0 r.lp r.respTc 2 2 r.src s.side.fabricId 0
    (memResp s r 0 (b2n (decide (0 + 1 = r.fragments)) + 2 * 0) (r.offset + 4096 * 0) 0 0 ++ s.memBytesAt r.offset r.length)

theorem memResp_length (s : State) (r : MemReq) (st flags off frag detail : Nat) : (memResp s r st flags off frag detail).length = 32 := by
  simp [memResp]

theorem readAnswer_fields (s : State) (r : MemReq) : (readAnswer s r).lp = r.lp ∧ (readAnswer s r).hdr.ftype = 2
    ∧ byteField (readAnswer s r).content 1 1 = 0 ∧ (readAnswer s r).content.drop 32 = s.memBytesAt r.offset r.length := by
  refine ⟨rfl, rfl, rfl, ?_⟩
  exact List.drop_left' (memResp_length ..)

theorem enterMem_read {s : State} {r : MemReq} (mapped : s.allocated r.offset r.length = true) (op : r.op = 1) (some_ : 0 < r.length)
    (small : r.length ≤ 4096) (room : s.stageRoom [r.lp] r.length = true) (open_ : s.holdOf r.lp ≠ .ended)
    (read : Readable s (sectorsOf r.offset r.length)) : ∃ t, s.enterMem r { uncorrected := [], corrected := [] } = some t
      ∧ t.mem = s.mem ∧ t.sw.agentOut = s.sw.agentOut ++ [readAnswer s r] := by
  obtain ⟨fragments, whole⟩ := fragments_one some_ small
  let x : MemRead := { req := r, next := 0, skipped := [], bad := false }
  have span : r.span = r.length := if_pos (by rw [op]; decide)
  have fits : s.fragmentFits x = true := by
    unfold State.fragmentFits
    rw [readTargets_one op]
    show (s.stageRoom [r.lp] (r.fragLen 0) && (r.op != 3 || _)) = true
    rw [whole, room, op]
    rfl
  have counted := onlyCounted_countSectors s 0x2001 (sectorsOf r.offset r.length) []
  have fragment : fragmentRead s x { uncorrected := [], corrected := [] } = (s.countSectors 0x2001 (sectorsOf r.offset r.length) [], 0) := by
    unfold fragmentRead
    show (if s.allocated (r.offset + 4096 * 0) (r.fragLen 0) = true then _ else _) = _
    rw [Nat.mul_zero, Nat.add_zero, whole, if_pos mapped, readSectors_clean read]
    rfl
  generalize s.countSectors 0x2001 (sectorsOf r.offset r.length) [] = u at counted fragment
  have hold : u.holdOf r.lp ≠ .ended := by
    rw [counted]
    exact open_
  have sends := sendFragment_read (s := s) (x := x) (ecc := { uncorrected := [], corrected := [] }) op
  rw [fragment] at sends
  have frame : u.sendMem r.lp r 0 (b2n (decide (0 + 1 = r.fragments)) + 2 * 0) (r.offset + 4096 * 0) 0 0
      (u.memBytesAt (r.offset + 4096 * 0) (r.fragLen 0)) = { u with sw := { u.sw with agentOut := u.sw.agentOut ++ [readAnswer s r] } } := by
    have same : readAnswer u r = readAnswer s r := by
      rw [counted]
      rfl
    unfold State.sendMem
    rw [if_pos rfl, whole]
    refine (sendAgent_joins hold).trans ?_
    rw [← same]
    rfl
  refine ⟨{ u with sw := { u.sw with agentOut := u.sw.agentOut ++ [readAnswer s r] } }, ?_, by rw [counted], by rw [counted]⟩
  rw [← frame]
  unfold State.enterMem
  rw [if_neg fun h => by rw [op] at h; exact absurd h.1 (by decide), span, mapped, op]
  simp only [Bool.not_true, Bool.false_eq_true, if_false]
  rw [if_pos fits, sends]
  simp [x, fragments]

/-- Settles O48: a request is refused, writes its bytes, or queues the bytes that it reads. -/
theorem requestsChangeTheirBytesOnly : Obligations.RequestsChangeTheirBytesOnly := by
  refine ⟨fun lp r ecc s run one here => ⟨fun unmapped single => ?_, fun mapped op silent length start whole => ?_,
    fun mapped op some_ small room open_ read => ?_⟩, fun lp x ecc s run one here op more => ⟨fun full => ?_, fun fits => ?_⟩⟩
  · exact ⟨_, exec_memRequestEntry run one here (enterMem_refused (s := requestTaken s) unmapped single), rfl⟩
  · obtain ⟨t, wrote, only, own, others, queue⟩ := writeMem_whole (requestTaken s) ecc start whole
    obtain ⟨w, c, ended, -⟩ := requestDone_only t r.lp r.tc r.cells 2 (s.stackOf (r.offset / 4096))
      (.memory (s.stackOf (r.offset / 4096)) r.op r.offset r.lp)
    have runs := exec_memRequestEntry run one here (enterMem_write (s := requestTaken s) mapped op silent wrote)
    rw [requestEnded, ended] at runs
    exact ⟨_, runs, queue, own, others, by rw [only]; rfl⟩
  · obtain ⟨t, does, mem, sent⟩ := enterMem_read (s := requestTaken s) mapped op some_ small room open_ read
    obtain ⟨w, c, ended, kept⟩ := requestDone_only t r.lp r.tc r.cells 2 (s.stackOf (r.offset / 4096))
      (.memory (s.stackOf (r.offset / 4096)) r.op r.offset r.lp)
    obtain ⟨target, ftype, status, data⟩ := readAnswer_fields (requestTaken s) r
    have runs := exec_memRequestEntry run one here does
    rw [requestEnded, ended] at runs
    exact ⟨_, _, runs, kept.trans sent, target, ftype, status, data, mem⟩
  · have mine : (x.req.lp == lp.val && x.req.tag == x.req.tag) = true := by simp [here]
    show execMemFragmentRead lp x.req.tag ecc s = _
    unfold execMemFragmentRead
    rw [run, one]
    simp only [List.find?_cons, mine, more, full, Bool.not_true, Bool.not_false, Bool.false_eq_true, if_false, if_true]
  · have mine : (x.req.lp == lp.val && x.req.tag == x.req.tag) = true := by simp [here]
    have single : x.req.op ≠ 3 := by rw [op]; decide
    let rest := s.updMem fun m => { m with reads := dropFirst (fun x' => x'.req.lp == lp.val && x'.req.tag == x.req.tag) m.reads }
    have none_ : rest.mem.reads = [] := by
      show dropFirst _ s.mem.reads = []
      rw [one, dropFirst, if_pos mine]
    have kept (u : State) : BytesKept u (u.sendFragment x ecc).1 := by
      rw [sendFragment_read op]
      exact (bytesKept_fragmentRead ..).trans (bytesKept_sendMem ..)
    have next : (s.sendFragment x ecc).2.next = x.next + 1 ∧ (s.sendFragment x ecc).2.req = x.req := by
      rw [sendFragment_read op]
      exact ⟨rfl, rfl⟩
    have runs : exec (.memFragmentRead lp x.req.tag ecc) s = if x.next + 1 < x.req.fragments then
        .next ((s.sendFragment x ecc).1.updMem fun m => { m with
          reads := (s.sendFragment x ecc).1.mem.reads.map fun z => if z = x then (s.sendFragment x ecc).2 else z })
        else .next (rest.sendFragment x ecc).1 := by
      show execMemFragmentRead lp x.req.tag ecc s = _
      unfold execMemFragmentRead
      rw [run, one]
      simp only [List.find?_cons, mine, more, fits, next.1, single, or_false, Bool.not_true, Bool.false_eq_true, if_false, if_true]
      rfl
    by_cases last : x.next + 1 < x.req.fragments
    · rw [if_pos last] at runs
      refine ⟨_, runs, (kept s).cells, fun h => by omega, fun _ => ⟨(s.sendFragment x ecc).2, ?_, next⟩⟩
      show List.map _ (s.sendFragment x ecc).1.mem.reads = _
      rw [(kept s).reads, one]
      simp
    · rw [if_neg last] at runs
      exact ⟨_, runs, (kept rest).cells, fun _ => (kept rest).reads.trans none_, fun h => absurd h last⟩

end Sys2Proof.Claims
end

section
/-! PROOFS. What an arriving frame moves, and memory requests at their agent (R123, R131, R194 to R201). -/

namespace Sys2Proof.Claims

open Sys2Proof.Machine

/-! ## Fence notices (R176) -/

/-- An ACTIVE entry of logical port 0, which is up, with its repeat mark although it does not wait. -/
def markedFence : Fence := { defaultFence with st := .active, again := true, noticed := 1 }

/-- The module right after reset, with that entry and logical port 0 UP. -/
def markedState : State :=
  ((State.reset.setPort 0 { State.reset.port 0 with a := { (State.reset.port 0).a with st := .up } }).setRecov 0
    { State.reset.recovOf 0 with stA := .up }).setFence 0 markedFence

/-- Refutes O45: an entry that does not wait but keeps its repeat mark loses the mark when its notice is sent again, so more of it
changes than the beat of the notice and its count. -/
theorem not_fencesAreAcknowledged : ¬ Obligations.FencesAreAcknowledged := by
  intro h
  obtain ⟨t, f, runs, entry, -⟩ := ((h.1 0 markedState (by decide)).1 (by decide) (by decide)).2.1 (by decide) (by decide) (by decide)
  have sent : exec (.fenceNoticeRepeat 0) markedState = .next (markedState.sendFenceNotice 0 true) := by
    show execFenceNoticeRepeat 0 markedState = _
    unfold execFenceNoticeRepeat
    dsimp only
    rw [if_pos (by decide)]
    rfl
  obtain rfl : markedState.sendFenceNotice 0 true = t := by
    rw [sent] at runs
    exact Host.Outcome.next.inj runs
  have cleared : ((markedState.sendFenceNotice 0 true).fence 0).again = false := by decide
  have kept := congrArg Fence.again entry
  exact Bool.false_ne_true (cleared.symm.trans kept)

/-! ## What an arriving frame moves (R131, R134, R161) -/

/-- From s to t only the switch core, the fences, counters and the error counts of the buffer's banks have moved. -/
def SwitchMoved (s t : State) : Prop :=
  t = { s with sw := t.sw, recov := t.recov, ctr := { s.ctr with counters := t.ctr.counters }, bist := { s.bist with bufUe := t.bist.bufUe } }

theorem SwitchMoved.refl (s : State) : SwitchMoved s s := rfl

theorem SwitchMoved.trans {s t u : State} (h : SwitchMoved s t) (g : SwitchMoved t u) : SwitchMoved s u := by
  unfold SwitchMoved at *
  rw [g, h]

theorem SwitchMoved.ite {p : Prop} [Decidable p] {s t u : State} (h : SwitchMoved s t) (g : SwitchMoved s u) :
    SwitchMoved s (if p then t else u) := by
  split
  · exact h
  · exact g

theorem switchMoved_foldl {α : Type} (f : State → α → State) (step : ∀ s x, SwitchMoved s (f s x)) (l : List α) (s : State) :
    SwitchMoved s (l.foldl f s) :=
  foldl_rel (R := SwitchMoved) f .refl .trans step l s

theorem OnlyCounted.switchMoved {s t : State} (h : OnlyCounted s t) : SwitchMoved s t := by
  unfold SwitchMoved
  rw [h]

theorem switchMoved_withSw (s : State) (w : Switch) : SwitchMoved s { s with sw := w } := rfl

theorem KeepsQueues.switchMoved {s t : State} (h : KeepsQueues s t) : SwitchMoved s t := by
  rw [h.rest]
  exact switchMoved_withSw ..

theorem switchMoved_freeCells (s : State) (lp tc n : Nat) : SwitchMoved s (s.freeCells lp tc n) :=
  KeepsQueues.switchMoved (State.freeCells_keepsQueues ..)

theorem switchMoved_takeCells (s : State) (lp tc n : Nat) : SwitchMoved s (s.takeCells lp tc n) :=
  KeepsQueues.switchMoved (State.takeCells_keepsQueues ..)

theorem switchMoved_setArriving (s : State) (lp : Nat) (a : Arriving) : SwitchMoved s (s.setArriving lp a) := rfl

theorem switchMoved_setFence (s : State) (n : Nat) (f : Fence) : SwitchMoved s (s.setFence n f) := rfl

theorem switchMoved_sendAgent (s : State) (f : AgentFrame) : SwitchMoved s (s.sendAgent f) := by
  rw [sendAgent_only]
  exact switchMoved_withSw ..

theorem switchMoved_sendFenceNotice (s : State) (n : Nat) (again : Bool) : SwitchMoved s (s.sendFenceNotice n again) :=
  .ite ((switchMoved_sendAgent ..).trans (switchMoved_setFence ..)) (switchMoved_setFence ..)

theorem switchMoved_openFence (s : State) (n : Nat) (f : Fence) : SwitchMoved s (s.openFence n f) :=
  ((switchMoved_setFence ..).trans (onlyCounted_countGlobal ..).switchMoved).trans (switchMoved_sendFenceNotice ..)

theorem switchMoved_foldFences (s : State) (l : List Nat) (f : Fence) : SwitchMoved s (s.foldFences l f) := by
  cases l with
  | nil => exact .refl s
  | cons n r => exact (switchMoved_foldl _ (fun _ _ => switchMoved_setFence ..) r s).trans (switchMoved_openFence ..)

theorem switchMoved_raiseWildcard (s : State) (lp tc : Nat) (fseq : BitVec 16) (reason : Nat) :
    SwitchMoved s (s.raiseWildcard lp tc fseq reason) := by
  unfold State.raiseWildcard
  dsimp only
  split
  · exact switchMoved_foldFences ..
  · split
    · exact switchMoved_openFence ..
    · split
      · exact switchMoved_foldFences ..
      · split
        · exact (switchMoved_foldFences ..).trans (switchMoved_openFence ..)
        · exact switchMoved_foldFences ..

theorem switchMoved_raiseFence (s : State) (lp tc : Nat) (dest : BitVec 16) (target : Option Nat) (fseq : BitVec 16) (reason : Nat) :
    SwitchMoved s (s.raiseFence lp tc dest target fseq reason) := by
  have noted (r : Recov) : SwitchMoved s ({ s with recov := r }.raiseWildcard lp tc fseq reason) :=
    (show SwitchMoved s { s with recov := r } from rfl).trans (switchMoved_raiseWildcard ..)
  unfold State.raiseFence
  dsimp only
  split
  · exact .refl s
  · split
    · exact .ite (noted _) (switchMoved_openFence ..)
    · exact noted _

theorem switchMoved_lossFence (s : State) (lp : Nat) (h : Hdr) (reason : Nat) : SwitchMoved s (s.lossFence lp h reason) :=
  .ite (.refl s) (.ite (switchMoved_foldl _ (fun _ _ => switchMoved_raiseFence ..) _ s) (switchMoved_raiseFence ..))

theorem switchMoved_discardHead (s : State) (lp : Nat) (f : InFrame) (reason : Nat) : SwitchMoved s (s.discardHead lp f reason) := by
  have gone := ((switchMoved_freeCells s lp f.hdr.tc.toNat f.arrived).trans
    (onlyCounted_countLp _ lp 0x0107 (some f.hdr.tc.toNat) (some reason) 1).switchMoved).trans (switchMoved_setArriving _ lp
      (if f.arrived < hdrCount f.hdr && f.stomp.isNone then .dropping else .none))
  exact gone.trans (.ite (switchMoved_lossFence ..) (.refl _))

theorem switchMoved_dropHead (s : State) (lp : Nat) (f : InFrame) : SwitchMoved s (s.dropHead lp f) :=
  (switchMoved_freeCells ..).trans (switchMoved_setArriving ..)

theorem switchMoved_cellErrors (s : State) (l : List CellErr) : SwitchMoved s (s.cellErrors l) := by
  unfold State.cellErrors
  refine switchMoved_foldl _ (fun s e => ?_) l s
  split
  · rfl
  · exact (onlyCounted_countGlobal ..).switchMoved

theorem switchMoved_discardDiverted (s : State) (lp : Nat) (f : InFrame) : SwitchMoved s (s.discardDiverted lp f) :=
  ((switchMoved_freeCells ..).trans (onlyCounted_countLp ..).switchMoved).trans (switchMoved_lossFence ..)

theorem switchMoved_ingress (s : State) (lp : Nat) (f : InFrame) : SwitchMoved s (s.ingress lp f) := by
  unfold State.ingress
  dsimp only
  split
  · refine .trans ?_ (switchMoved_discardHead ..)
    exact .ite (switchMoved_cellErrors ..) (.refl s)
  · have joins (w : Switch) (a : Arriving) : SwitchMoved s ({ s with sw := w }.setArriving lp a) := rfl
    refine .ite ((switchMoved_dropHead ..).trans (onlyCounted_countLp ..).switchMoved) (.ite
      ((switchMoved_dropHead ..).trans (switchMoved_lossFence ..)) (.ite (.ite (switchMoved_withSw s _) (joins ..)) ?_))
    exact .ite ((joins ..).trans (onlyCounted_countLp ..).switchMoved) (joins ..)

theorem switchMoved_arriveFrame (s : State) (lp : Nat) (f : InFrame) : SwitchMoved s (s.arriveFrame lp f) := by
  have received : SwitchMoved s (s.received lp f) := by
    obtain ⟨w, m, e, -⟩ := s.received_only lp f
    rw [e]
    rfl
  have arrived : s.arriveFrame lp f = if !(s.received lp f).sw.lookupHold.isEmpty
        || (s.received lp f).sw.heads.any (fun x => x.1 == lp) then
      if !(s.received lp f).sw.lookupHold.isEmpty then
        ({ s.received lp f with sw := { (s.received lp f).sw with
          heads := (s.received lp f).sw.heads ++ [(lp, !(s.received lp f).sw.lookupHold.isEmpty, f)] } }.setArriving lp
            (if f.arrived < hdrCount f.hdr then .waiting else .none)).countHeld
      else { s.received lp f with sw := { (s.received lp f).sw with
          heads := (s.received lp f).sw.heads ++ [(lp, !(s.received lp f).sw.lookupHold.isEmpty, f)] } }.setArriving lp
            (if f.arrived < hdrCount f.hdr then .waiting else .none)
      else (s.received lp f).ingress lp f := rfl
  rw [arrived]
  have waits (u : State) (w : Switch) (a : Arriving) : SwitchMoved u ({ u with sw := w }.setArriving lp a) := rfl
  have held (u : State) : SwitchMoved u u.countHeld := (switchMoved_withSw u _).trans (onlyCounted_countGlobal ..).switchMoved
  exact received.trans (.ite (.ite ((waits ..).trans (held _)) (waits ..)) (switchMoved_ingress ..))

/-- What opens the switch core and the management controller does not move with the switch core. -/
theorem SwitchMoved.gates {s t : State} (h : SwitchMoved s t) : t.live = s.live ∧ t.switchInReset = s.switchInReset
    ∧ (∀ k, t.underTest k = s.underTest k) ∧ (∀ k, t.portInReset k = s.portInReset k) := by
  rw [h]
  exact ⟨rfl, rfl, fun _ => rfl, fun _ => rfl⟩

/-! ## A frame for an agent (R123, R131, R224) -/

/-- While one of its flow is diverted, a frame is taken or waits; otherwise it passes the ingress first. -/
theorem claim_arrives {s : State} {lp : Nat} (foreign : Bool) {f : InFrame} (port : s.portInReset (lpPort lp) = false)
    (switch : s.switchInReset = false) (first : s.sw.diverted.any (sameFlow lp f.hdr) = false) :
    ((s.arriveFrame lp f).sw.diverted.any (sameFlow lp f.hdr) = true → s.claim lp foreign f = (s.arriveFrame lp f).claim lp foreign f)
    ∧ ((s.arriveFrame lp f).sw.diverted.any (sameFlow lp f.hdr) = false → s.claim lp foreign f = (s.arriveFrame lp f, none)) := by
  have passes : s.claim lp foreign f = (s.arriveFrame lp f).takeDiverted lp foreign f := by
    unfold State.claim
    rw [first, port, switch]
    rfl
  refine ⟨fun diverted => passes.trans ?_, fun gone => passes.trans ?_⟩
  · unfold State.claim
    rw [if_pos diverted]
  · have none_ : (s.arriveFrame lp f).sw.diverted.find? (sameFlow lp f.hdr) = none := by
      simpa using gone
    unfold State.takeDiverted
    rw [none_]

/-- The frame that heads its flow is taken. -/
theorem claim_head {s : State} {lp : Nat} {foreign : Bool} {f : InFrame} {id : Nat} (head : HeadsFlow s lp foreign f id) :
    s.claim lp foreign f = (withoutHead s lp f, some { lp := lp, foreign := foreign, frame := f, id := id }) := by
  obtain ⟨found, entry, clean⟩ := head
  have some_ : s.sw.diverted.any (sameFlow lp f.hdr) = true := by
    rw [List.any_eq_true]
    exact List.find?_isSome.mp (by rw [found]; rfl)
  unfold State.claim
  rw [if_pos some_]
  unfold State.takeDiverted
  rw [found, entry]
  have same : f = { f with cells := [] } := by
    cases f
    cases clean
    rfl
  simp only [List.any_nil, Bool.and_false, Bool.false_eq_true, if_false, clean]
  rw [if_pos ⟨trivial, same⟩]
  rfl

/-! ## Requests at their agent (R194, R195, R197, R201) -/

theorem memArrive_ignores {s : State} {op lp : Nat} {foreign : Bool} {f : InFrame}
    (other : f.hdr.ftype ≠ 1 ∨ (byteField f.content 0 1 ≠ op ∧ 1 ≤ byteField f.content 0 1 ∧ byteField f.content 0 1 ≤ 6)
      ∨ frameGiven f = false) : s.memArrive op lp foreign f = s := by
  have shut : (!s.live || s.switchInReset || s.underTest 94 || f.hdr.ftype != 1
      || !(byteField f.content 0 1 == op || byteField f.content 0 1 == 0 || decide (6 < byteField f.content 0 1)) || !frameGiven f) = true := by
    rcases other with ftype | ⟨code, low, high⟩ | part
    · have ftype : (f.hdr.ftype != 1) = true := bne_iff_ne.mpr ftype
      rw [ftype]
      simp
    · have none_ : ¬byteField f.content 0 1 = 0 := by omega
      have high : ¬6 < byteField f.content 0 1 := by omega
      simp [code, none_, high]
    · simp [part]
  exact if_pos shut

section
variable {s : State} {op lp : Nat} {foreign : Bool} {f : InFrame} (live : s.live = true) (switch : s.switchInReset = false)
  (untested : s.underTest 94 = false) (ftype : f.hdr.ftype = 1)
  (mine : byteField f.content 0 1 = op ∨ byteField f.content 0 1 = 0 ∨ 6 < byteField f.content 0 1) (given : frameGiven f = true)
include live switch untested ftype mine given

/-- What becomes of a claimed request. -/
def requestClaimed (lp : Nat) (foreign : Bool) (f : InFrame) (x : State × Option Diverted) : State :=
  match x with
  | (s, none) => s
  | (s, some x) =>
    let r := memReqOf lp f x.id
    if foreign || s.side.fabricId == 0xFFFF || byteField f.content 4 2 != s.side.fabricId.toNat then
      (s.freeFrame lp f).answerMem r 2 0 []
    else if !memReqOk f r then (s.freeFrame lp f).answerMem r 3 0 []
    else s.updMem fun m => { m with waiting := m.waiting ++ [r] }

theorem memArrive_claims : s.memArrive op lp foreign f = requestClaimed lp foreign f (s.claim lp foreign f) := by
  have open_ : (!s.live || s.switchInReset || s.underTest 94 || f.hdr.ftype != 1
      || !(byteField f.content 0 1 == op || byteField f.content 0 1 == 0 || decide (6 < byteField f.content 0 1)) || !frameGiven f) = false := by
    have mine : (byteField f.content 0 1 == op || byteField f.content 0 1 == 0 || decide (6 < byteField f.content 0 1)) = true := by
      simpa [or_assoc] using mine
    rw [live, switch, untested, ftype, mine, given]
    rfl
  refine (if_neg (by rw [open_]; decide)).trans ?_
  unfold requestClaimed
  rfl

theorem memArrive_arrivesFirst (port : s.portInReset (lpPort lp) = false) (first : s.sw.diverted.any (sameFlow lp f.hdr) = false) :
    ((s.arriveFrame lp f).sw.diverted.any (sameFlow lp f.hdr) = true →
        s.memArrive op lp foreign f = (s.arriveFrame lp f).memArrive op lp foreign f)
    ∧ ((s.arriveFrame lp f).sw.diverted.any (sameFlow lp f.hdr) = false → s.memArrive op lp foreign f = s.arriveFrame lp f) := by
  obtain ⟨live', switch', untested', -⟩ := (switchMoved_arriveFrame s lp f).gates
  obtain ⟨diverted, gone⟩ := claim_arrives foreign port switch first
  refine ⟨fun h => ?_, fun h => ?_⟩
  · rw [memArrive_claims live switch untested ftype mine given, diverted h, memArrive_claims (live'.trans live) (switch'.trans switch)
      ((untested' 94).trans untested) ftype mine given]
  · rw [memArrive_claims live switch untested ftype mine given, gone h]
    rfl

end

/-- Settles O47: every request row is memArrive of its operation. -/
theorem memoryRequestsAreAnsweredOrWait : Obligations.MemoryRequestsAreAnsweredOrWait := by
  intro i op lp foreign f s live switch untested row
  have runs (s : State) : exec i s = .next (s.memArrive op lp.val foreign f) := by
    rcases row with ⟨rfl, rfl⟩ | ⟨rfl, rfl⟩ | ⟨rfl, rfl⟩ | ⟨rfl, rfl⟩ | ⟨rfl, rfl⟩ | ⟨rfl, rfl⟩
    all_goals rfl
  refine ⟨fun other => ?_, fun ftype mine given => ⟨fun port _ first => ?_, fun id r u head hr hu => ?_⟩⟩
  · rw [runs, memArrive_ignores other]
  · obtain ⟨diverted, gone⟩ := memArrive_arrivesFirst live switch untested ftype mine given (foreign := foreign) port first
    exact ⟨fun h => by rw [runs, runs, diverted h], fun h => by rw [runs, gone h]⟩
  · subst hr hu
    have claimed := memArrive_claims live switch untested ftype mine given (lp := lp.val) (foreign := foreign)
    rw [claim_head head] at claimed
    refine ⟨fun other => ?_, fun home known same => ⟨fun bad => ?_, fun good => ?_⟩⟩
    · rw [runs, claimed]
      have other : (foreign || s.side.fabricId == 0xFFFF || byteField f.content 4 2 != s.side.fabricId.toNat) = true := by
        simpa [or_assoc] using other
      exact congrArg Host.Outcome.next (if_pos other)
    all_goals
      rw [runs, claimed]
      have own : (foreign || s.side.fabricId == 0xFFFF || byteField f.content 4 2 != s.side.fabricId.toNat) = false := by
        rw [home, beq_false_of_ne known, same]
        simp
      refine congrArg Host.Outcome.next ((if_neg (by rw [show (withoutHead s lp.val f).side = s.side from rfl, own]; decide)).trans ?_)
    · exact if_pos (by rw [bad]; rfl)
    · exact if_neg (by rw [good]; decide)

end Sys2Proof.Claims
end

section
/-! PROOFS. The stacks of the fabric memory: polls, migrations and their ends (R185, R212 to R216). -/

namespace Sys2Proof.Claims

open Sys2Proof.Machine

/-! ## Polls (R212, R213) -/

theorem execStackPoll_effect (k : Fin 13) (temp : Byte) (ce : BitVec 32) (ue : Byte) {s : State} (live : s.live = true) :
    ∃ t, exec (.stackPoll k temp ce ue) s = .next t ∧ (t.stack k.val).temp = temp
      ∧ (t.stack k.val).ce = satAdd (2 ^ 32 - 1) (s.stack k.val).ce ce.toNat ∧ (t.stack k.val).ue = satAdd 255 (s.stack k.val).ue ue.toNat
      ∧ ((t.stack k.val).ceDue = true ↔ (s.stack k.val).ceDue = true ∨ s.mem.ceThresh.toNat < (t.stack k.val).ce)
      ∧ (∀ j, j ≠ k.val → t.stack j = s.stack j) ∧ t = { s with mem := { s.mem with stackRegs := t.mem.stackRegs } } := by
  let x : Stack := { s.stack k.val with temp := temp }
  have runs : exec (.stackPoll k temp ce ue) s = .next ((s.setStack k.val x).addErrors k.val ce.toNat ue.toNat) := by
    show execStackPoll k temp ce ue s = _
    unfold execStackPoll
    rw [live]
    rfl
  have own : ((s.setStack k.val x).addErrors k.val ce.toNat ue.toNat).stack k.val = { x with
      ce := satAdd (2 ^ 32 - 1) x.ce ce.toNat, ue := satAdd 255 x.ue ue.toNat
      ceDue := x.ceDue || decide (s.mem.ceThresh.toNat < satAdd (2 ^ 32 - 1) x.ce ce.toNat) } := by
    unfold State.addErrors
    dsimp only
    rw [State.stack_setStack, State.stack_setStack]
    rfl
  refine ⟨_, runs, by rw [own], by rw [own], by rw [own], ?_, fun j ne => ?_, rfl⟩
  · rw [own, Bool.or_eq_true, decide_eq_true_eq]
  · unfold State.addErrors
    rw [State.stack_setStack_other _ _ ne, State.stack_setStack_other _ _ ne]

theorem stackUnresponsive_effect (k : Fin 13) {s : State} (live : s.live = true) :
    ∃ t, exec (.stackUnresponsive k) s = .next t ∧ t.stack k.val = { s.stack k.val with dead := true }
      ∧ (∀ j, j ≠ k.val → t.stack j = s.stack j) ∧ t = { s with mem := { s.mem with stackRegs := t.mem.stackRegs } } := by
  have runs : exec (.stackUnresponsive k) s = .next (s.setStack k.val { s.stack k.val with dead := true }) := by
    show execStackUnresponsive k s = _
    unfold execStackUnresponsive
    rw [live]
    rfl
  exact ⟨_, runs, State.stack_setStack .., fun j ne => State.stack_setStack_other _ _ ne, rfl⟩

/-- The corrected counts of these stacks are cleared. -/
def clearCounts (l : List Nat) (s : State) : State := l.foldl (fun s n => s.setStack n { s.stack n with ce := 0 }) s

theorem clearCounts_effect (l : List Nat) (s : State) : clearCounts l s = { s with mem := { s.mem with stackRegs := (clearCounts l s).mem.stackRegs } }
    ∧ ∀ j, (clearCounts l s).stack j = if j ∈ l then { s.stack j with ce := 0 } else s.stack j := by
  induction l generalizing s with
  | nil => exact ⟨rfl, fun _ => rfl⟩
  | cons n r ih =>
    obtain ⟨only, each⟩ := ih (s.setStack n { s.stack n with ce := 0 })
    refine ⟨only.trans rfl, fun j => (each j).trans ?_⟩
    by_cases e : j = n
    · subst e
      rw [State.stack_setStack, if_pos (List.mem_cons_self ..)]
      split <;> rfl
    · rw [State.stack_setStack_other _ _ e]
      simp only [List.mem_cons, e, false_or]

/-! ## Migration (R213 to R216) -/

theorem firstBelow_none {n : Nat} {p : Nat → Bool} (none_ : ∀ k, k < n → p k = false) : firstBelow n p = none := by
  unfold firstBelow
  exact List.find?_eq_none.mpr fun k hk => by rw [none_ k (List.mem_range.mp hk)]; decide

theorem firstBelow_holds {n k : Nat} {p : Nat → Bool} (found : firstBelow n p = some k) : p k = true := List.find?_some found

/-- A stack that takes another role. -/
theorem changeStack_effect (s : State) (n : Nat) (r : StackRole) : ((s.changeStack n r).stack n) = { s.stack n with role := r }
    ∧ (∀ j, j ≠ n → (s.changeStack n r).stack j = s.stack j)
    ∧ (s.changeStack n r).mem = { s.mem with stackRegs := (s.changeStack n r).mem.stackRegs } :=
  ⟨State.stack_setStack .., fun _ ne => State.stack_setStack_other _ _ ne, rfl⟩

theorem startMigration_effect {s : State} {n sp : Nat} (apart : n ≠ sp) (auto : Bool) :
    ((s.startMigration n sp auto).stack n).role = .source ∧ ((s.startMigration n sp auto).stack sp).role = .target
    ∧ (s.startMigration n sp auto).mem.migSt = .copying ∧ (s.startMigration n sp auto).mem.migFrom = n
    ∧ (s.startMigration n sp auto).mem.migTo = sp ∧ (s.startMigration n sp auto).mem.migCause = auto
    ∧ (s.startMigration n sp auto).mem.progress = 0 ∧ (s.startMigration n sp auto).mem.noCopy = false
    ∧ (s.startMigration n sp auto).mem.migNoCopy = (s.mem.noCopy || (s.stack n).dead)
    ∧ (s.startMigration n sp auto).mem.cells = s.mem.cells := by
  obtain ⟨source, -, -⟩ := changeStack_effect s n .source
  obtain ⟨target, others, -⟩ := changeStack_effect (s.changeStack n .source) sp .target
  refine ⟨?_, ?_, rfl, rfl, rfl, rfl, rfl, rfl, rfl, rfl⟩
  · exact congrArg Stack.role ((others n apart).trans source)
  · exact congrArg Stack.role target

theorem finishMigration_effect {s : State} (apart : s.mem.migFrom ≠ s.mem.migTo) :
    (s.finishMigration.mem.migSt = if s.mem.migNoCopy = true then .nocopyDone else .done)
    ∧ s.finishMigration.mem.slotMap = s.mem.slotMap.set s.mem.migSlot s.mem.migTo
    ∧ (s.finishMigration.stack s.mem.migFrom).role = .retired ∧ (s.finishMigration.stack s.mem.migTo).role = .inService
    ∧ (s.mem.migNoCopy = false → s.finishMigration.mem.lostSlots = s.mem.lostSlots)
    ∧ (s.mem.migNoCopy = true → s.finishMigration.mem.lostSlots = addSorted s.mem.lostSlots s.mem.migSlot
        ∧ s.finishMigration.mem.lostSeen = true)
    ∧ s.finishMigration.mem.cells = s.mem.cells := by
  have retired : (s.retire s.mem.migFrom).stack s.mem.migFrom = { s.stack s.mem.migFrom with role := .retired } :=
    State.stack_setStack ..
  obtain ⟨serves, others, -⟩ := changeStack_effect (s.retire s.mem.migFrom) s.mem.migTo .inService
  have source := (others _ apart).trans retired
  unfold State.finishMigration
  dsimp only
  have mark : (((s.retire s.mem.migFrom).changeStack s.mem.migTo .inService).mem).migNoCopy = s.mem.migNoCopy := rfl
  unfold State.updMem at *
  dsimp only at *
  rw [mark]
  cases s.mem.migNoCopy
  · exact ⟨rfl, rfl, congrArg Stack.role source, congrArg Stack.role serves, fun _ => rfl, fun h => (nomatch h), rfl⟩
  · exact ⟨rfl, rfl, congrArg Stack.role source, congrArg Stack.role serves, fun h => (nomatch h), fun _ => ⟨rfl, rfl⟩, rfl⟩

/-- Settles O49: polls count, and a migration starts, copies and ends as its state says. -/
theorem stacksAreWatchedAndMigrated : Obligations.StacksAreWatchedAndMigrated := by
  refine ⟨fun k temp ce ue s live => ⟨execStackPoll_effect k temp ce ue live, stackUnresponsive_effect k live, rfl, ?_⟩,
    fun s live runs_ => ⟨fun auto idle n sp due spare => ?_, fun none_ => ?_, fun copying copies => ⟨fun more => ?_, fun more => ?_,
      fun all apart => ?_⟩, fun copying lost apart => ?_⟩⟩
  · have runs : exec .ceWindowEnd s = .next (clearCounts (List.range 13) s) := by
      show execCeWindowEnd s = _
      unfold execCeWindowEnd
      rw [live]
      rfl
    obtain ⟨only, each⟩ := clearCounts_effect (List.range 13) s
    exact ⟨_, runs, fun j small => by rw [each, if_pos (List.mem_range.mpr small)], only⟩
  · have apart : n ≠ sp := by
      rintro rfl
      have serves : ((s.stack n).role == .inService) = true := (Bool.and_eq_true_iff.mp (firstBelow_holds due)).1
      have waits := of_decide_eq_true (firstBelow_holds spare)
      rw [waits] at serves
      cases serves
    have runs : exec .migrationAutoStart s = .next (s.startMigration n sp true) := by
      have rests : s.migrating = false := decide_eq_false idle
      show execMigrationAutoStart s = _
      unfold execMigrationAutoStart
      rw [live, runs_, auto, rests, due, spare]
      rfl
    obtain ⟨source, target, rest⟩ := startMigration_effect (s := s) apart true
    exact ⟨_, runs, source, target, rest⟩
  · show execMigrationAutoStart s = _
    unfold execMigrationAutoStart
    rw [firstBelow_none none_]
    split <;> rfl
  · have open_ : (!s.live || s.memInReset || s.mem.migSt != .copying || s.mem.migNoCopy || decide (slotGranules ≤ s.mem.progress)) = false := by
      rw [live, runs_, copying, copies, decide_eq_false (Nat.not_le.mpr more)]
      rfl
    have counted := (onlyCounted_countGlobal s 0x2102 none (some s.mem.migFrom) 64).trans
      (onlyCounted_countGlobal _ 0x2100 none (some s.mem.migFrom) 64)
    have runs : exec (.migrationGranuleCopied []) s = .next
        (((s.countGlobal 0x2102 none (some s.mem.migFrom) 64).countGlobal 0x2100 none (some s.mem.migFrom) 64).updMem fun m =>
          { m with progress := m.progress + 1 }) := by
      show execMigrationGranuleCopied [] s = _
      exact if_neg (by rw [open_]; decide)
    refine ⟨_, runs, ?_⟩
    rw [counted]
    rfl
  · have part : (s.mem.progress == slotGranules) = false := beq_false_of_ne (Nat.ne_of_lt more)
    show execMigrationComplete s = _
    unfold execMigrationComplete
    dsimp only
    rw [copies, part]
    simp
  · have runs : exec .migrationComplete s = .next s.finishMigration := by
      show execMigrationComplete s = _
      unfold execMigrationComplete
      dsimp only
      rw [live, runs_, copying, all]
      simp
    obtain ⟨st, slots, source, target, kept, -, cells⟩ := finishMigration_effect apart
    exact ⟨_, runs, by rw [st, copies]; rfl, slots, source, target, kept copies, cells⟩
  · have runs : exec .migrationComplete s = .next s.finishMigration := by
      show execMigrationComplete s = _
      unfold execMigrationComplete
      dsimp only
      rw [live, runs_, copying, lost]
      rfl
    obtain ⟨st, slots, -, -, -, marks, -⟩ := finishMigration_effect apart
    exact ⟨_, runs, by rw [st, lost]; rfl, slots, marks lost⟩

end Sys2Proof.Claims
end

section
/-! PROOFS. The long accumulator: the order of arrival does not matter, and sums are exact (R242 to R248). -/

namespace Sys2Proof.Claims

open Sys2Proof.Machine

/-! ## Special values (R243) -/

/-- The weight of the last place of the largest contributions: 2^253. -/
def accUnit : Nat := 2 ^ 253

theorem accUnit_large : 8 ≤ accUnit := Nat.pow_le_pow_right (n := 2) (by decide) (show 3 ≤ 253 by decide)

/-- The powers of two that bound an accumulator, in units. -/
theorem acc_powers : (2 : Nat) ^ 263 = 1024 * accUnit ∧ (2 : Nat) ^ 277 = 16777216 * accUnit
    ∧ (2 : Nat) ^ 287 = 17179869184 * accUnit ∧ (2 : Nat) ^ 288 = 34359738368 * accUnit :=
  ⟨Nat.pow_add 2 10 253, Nat.pow_add 2 24 253, Nat.pow_add 2 34 253, Nat.pow_add 2 35 253⟩

theorem specialOf_eq (a : Acc) : specialOf a = if a.toNat / (1024 * accUnit) = 16777216 then
    (if a.toNat % (1024 * accUnit) ≤ 4 then some (a.toNat % (1024 * accUnit)) else some 3) else none := by
  rw [← acc_powers.1]
  rfl

theorem specialOf_special {k : Nat} (h : k ≤ 4) : specialOf (special k) = some k := by
  obtain ⟨-, -, p287, p288⟩ := acc_powers
  have unit := accUnit_large
  have value : (special k).toNat = 16777216 * (1024 * accUnit) + k := by
    refine (BitVec.toNat_ofNat ..).trans ?_
    rw [p287, p288, Nat.mod_eq_of_lt (by omega)]
    omega
  have small : k < 1024 * accUnit := by omega
  have high : (16777216 * (1024 * accUnit) + k) / (1024 * accUnit) = 16777216 := by
    rw [Nat.mul_comm, Nat.mul_add_div (by omega), Nat.div_eq_of_lt small]
  have low : (16777216 * (1024 * accUnit) + k) % (1024 * accUnit) = k := Nat.mul_add_mod_of_lt small
  rw [specialOf_eq, value, low, if_pos high, if_pos h]

/-- An accumulator of a value well inside the range is finite and holds that value. -/
theorem finite_ofInt {z : Int} (small : z.natAbs ≤ 1024 * (16777215 * accUnit)) :
    specialOf (BitVec.ofInt 288 z) = none ∧ (BitVec.ofInt 288 z).toInt = z := by
  obtain ⟨-, -, p287, p288⟩ := acc_powers
  have unit := accUnit_large
  have i287 : (2 : Int) ^ 287 = 17179869184 * (accUnit : Int) := by exact_mod_cast p287
  constructor
  · have range : (BitVec.ofInt 288 z).toNat = (if 0 ≤ z then z else z + (34359738368 * accUnit : Nat)).toNat := by
      rw [BitVec.toNat_ofInt, p288]
      split
      case isTrue pos => rw [Int.emod_eq_of_lt pos (by omega)]
      case isFalse neg => rw [← Int.add_emod_right, Int.emod_eq_of_lt (by omega) (by omega)]
    rw [specialOf_eq, if_neg]
    rw [range, Nat.div_eq_iff (by omega)]
    split <;> omega
  · refine BitVec.toInt_ofInt_eq_self (by decide) ?_ ?_
    · show -2 ^ 287 ≤ z
      rw [i287]
      omega
    · show z < 2 ^ 287
      rw [i287]
      omega

/-! ## Contributions (R244) -/

/-- What one element gives an accumulator: a finite value whose magnitude leaves room for 1,024, or one of the special values but
EMPTY. -/
inductive Contribution : Acc → Prop
  | finite {a : Acc} (none_ : specialOf a = none) (small : a.toInt.natAbs ≤ 16777215 * accUnit) : Contribution a
  | special (k : Nat) (known : k ≤ 3) : Contribution (special k)

theorem finite_contribution {z : Int} (small : z.natAbs ≤ 16777215 * accUnit) : Contribution (BitVec.ofInt 288 z) := by
  obtain ⟨none_, value⟩ := finite_ofInt (z := z) (Nat.le_trans small (Nat.le_mul_of_pos_left _ (by decide)))
  exact .finite none_ (by rw [value]; exact small)

/-- A magnitude of 24 bits that has not overflowed leaves the room. -/
theorem shifted_small {sig shift : Nat} (bits : sig < 2 ^ 24) (fits : sig <<< shift < 2 ^ 277) : sig <<< shift ≤ 16777215 * accUnit := by
  obtain ⟨-, p277, -⟩ := acc_powers
  rw [Nat.shiftLeft_eq] at fits ⊢
  rw [p277] at fits
  rcases Nat.lt_or_ge shift 253 with low | high
  · have place : 2 * 2 ^ shift ≤ accUnit := by
      rw [← Nat.pow_succ']
      exact Nat.pow_le_pow_right (by decide) low
    have := Nat.mul_le_mul (Nat.le_of_lt bits) (Nat.le_refl (2 ^ shift))
    omega
  · obtain ⟨d, rfl⟩ := Nat.exists_eq_add_of_le high
    have split : sig * 2 ^ (253 + d) = (sig * 2 ^ d) * accUnit := by
      rw [Nat.pow_add, Nat.mul_comm (2 ^ 253), ← Nat.mul_assoc]
      rfl
    rw [split] at fits ⊢
    exact Nat.mul_le_mul_right _ (Nat.le_of_lt_succ (Nat.lt_of_mul_lt_mul_right fits))

theorem accInf_contribution (neg : Bool) : Contribution (accInf neg) := by
  cases neg
  · exact .special 1 (by decide)
  · exact .special 2 (by decide)

theorem floatAcc_contribution {x : Fmt} (isFp4 : Bool) (code scale : Nat) (man : x.man ≤ 23) : Contribution (floatAcc x isFp4 code scale) := by
  have mantissa : code % 2 ^ x.man < 2 ^ x.man := Nat.mod_lt _ (Nat.two_pow_pos _)
  have width : 2 ^ x.man ≤ 2 ^ 23 := Nat.pow_le_pow_right (by decide) man
  unfold floatAcc
  dsimp only
  generalize bitAt code (x.bits - 1) = neg
  generalize (150 + _) - x.bias - x.man + _ - 127 = shift
  generalize (code >>> x.man) % _ = e
  generalize hs : (if e = 0 then code % 2 ^ x.man else 2 ^ x.man + code % 2 ^ x.man) = sig
  have bits : sig < 2 ^ 24 := by
    rw [← hs]
    split <;> omega
  split
  · exact .special 3 (by decide)
  split
  · split
    · exact accInf_contribution neg
    · exact .special 3 (by decide)
  split
  · exact .special 3 (by decide)
  split
  · cases neg
    · exact finite_contribution (z := 0) (Nat.zero_le _)
    · exact .special 0 (by decide)
  split
  · exact accInf_contribution neg
  case isFalse fits =>
    have small := shifted_small bits (Nat.not_le.mp fits)
    split
    · exact finite_contribution (by rw [Int.natAbs_neg]; exact small)
    · rw [← BitVec.ofInt_natCast]
      exact finite_contribution small

theorem integer_contribution {w : Nat} (code : Nat) (width : 1 ≤ w ∧ w ≤ 32) : Contribution (BitVec.ofInt 288 (signedOf w code * 2 ^ 149)) := by
  refine finite_contribution ?_
  have small : (signedOf w code).natAbs ≤ 2 ^ 32 := by
    have low : code % 2 ^ w < 2 ^ w := Nat.mod_lt _ (Nat.two_pow_pos _)
    have top : 2 ^ w ≤ 2 ^ 32 := Nat.pow_le_pow_right (by decide) width.2
    have cast : ((2 : Int) ^ w) = ((2 ^ w : Nat) : Int) := by norm_cast
    unfold signedOf
    rw [cast]
    split <;> omega
  have scaled : (signedOf w code * 2 ^ 149).natAbs = (signedOf w code).natAbs * 2 ^ 149 := by
    rw [Int.natAbs_mul, Int.natAbs_pow]
    rfl
  have room : 2 ^ 32 * 2 ^ 149 ≤ accUnit := by
    rw [← Nat.pow_add]
    exact Nat.pow_le_pow_right (by decide) (by decide)
  rw [scaled]
  exact Nat.le_trans (Nat.mul_le_mul_right _ small) (Nat.le_trans room (Nat.le_mul_of_pos_left _ (by decide)))

theorem elemAcc_contribution {f : Nat} (known : f ≤ 9) (code scale : Nat) : Contribution (elemAcc f code scale) := by
  unfold elemAcc
  split
  case h_1 x format =>
    refine floatAcc_contribution _ code scale ?_
    interval_cases f <;> cases format <;> decide
  case h_2 =>
    refine integer_contribution code ?_
    interval_cases f <;> decide

/-! ## SUM (R242, R243, R245) -/

/-- The accumulator of contributions among which these special values and finite ones are, the finite ones with this sum. -/
def accTotal (nan pos neg fin : Bool) (z : Int) : Acc :=
  if nan || (pos && neg) then special 3 else if pos then special 1 else if neg then special 2
  else if fin then BitVec.ofInt 288 z else special 0

/-- Whether a contribution of this special value is in the list. -/
def hasSpecial (k : Nat) (l : List Acc) : Bool := l.any fun a => specialOf a == some k

/-- Whether a finite contribution is in the list. -/
def hasFinite (l : List Acc) : Bool := l.any fun a => (specialOf a).isNone

/-- The sum of the finite contributions. -/
def finiteSum (l : List Acc) : Int := (l.map fun a => if specialOf a = none then a.toInt else 0).sum

theorem finiteSum_append (l : List Acc) (c : Acc) :
    finiteSum (l ++ [c]) = finiteSum l + if specialOf c = none then c.toInt else 0 := by
  simp [finiteSum]

theorem finiteSum_small {l : List Acc} (sound : ∀ a ∈ l, Contribution a) : (finiteSum l).natAbs ≤ l.length * (16777215 * accUnit) := by
  induction l using List.reverseRecOn with
  | nil => exact Nat.zero_le _
  | append_singleton l c ih =>
    have below := ih fun a h => sound a (List.mem_append_left _ h)
    rw [finiteSum_append, List.length_append, List.length_singleton, Nat.add_mul, Nat.one_mul]
    have last : (if specialOf c = none then c.toInt else 0).natAbs ≤ 16777215 * accUnit := by
      cases sound c (by simp) with
      | finite none_ small => rw [if_pos none_]; exact small
      | special k known =>
        rw [specialOf_special (by omega)]
        exact Nat.zero_le _
    omega

theorem finiteSum_none {l : List Acc} (none_ : hasFinite l = false) : finiteSum l = 0 := by
  unfold finiteSum
  rw [List.sum_eq_zero]
  intro x hx
  obtain ⟨a, ha, rfl⟩ := List.mem_map.mp hx
  have := List.any_eq_false.mp none_ a ha
  exact if_neg fun h => by simp [h] at this

/-- One more contribution. -/
theorem accSum_total {nan pos neg fin : Bool} {z : Int} {c : Acc} (sound : Contribution c)
    (room : fin = true → specialOf (BitVec.ofInt 288 z) = none) (empty : fin = false → z = 0) :
    accSum (accTotal nan pos neg fin z) c = accTotal (nan || specialOf c == some 3) (pos || specialOf c == some 1)
      (neg || specialOf c == some 2) (fin || (specialOf c).isNone) (z + if specialOf c = none then c.toInt else 0) := by
  have s0 := specialOf_special (k := 0) (by decide)
  have s1 := specialOf_special (k := 1) (by decide)
  have s2 := specialOf_special (k := 2) (by decide)
  have s3 := specialOf_special (k := 3) (by decide)
  have nan_ : accNaN = special 3 := rfl
  cases sound with
  | finite none_ small =>
    rw [none_]
    cases nan <;> cases pos <;> cases neg <;> cases fin
    case false.false.false.true => simp [accTotal, accSum, none_, room rfl, BitVec.ofInt_add, BitVec.ofInt_toInt]
    case false.false.false.false => simp [accTotal, accSum, none_, s0, empty rfl, BitVec.ofInt_toInt]
    all_goals simp [accTotal, accSum, none_, s1, s2, s3]
  | special k known =>
    rw [specialOf_special (by omega)]
    interval_cases k <;> cases nan <;> cases pos <;> cases neg <;> cases fin
    all_goals simp [accTotal, accSum, s0, s1, s2, s3, nan_, room]

theorem foldl_accSum {l : List Acc} (sound : ∀ a ∈ l, Contribution a) (few : l.length ≤ 1024) :
    l.foldl accSum accNZ = accTotal (hasSpecial 3 l) (hasSpecial 1 l) (hasSpecial 2 l) (hasFinite l) (finiteSum l) := by
  induction l using List.reverseRecOn with
  | nil => rfl
  | append_singleton l c ih =>
    have before : ∀ a ∈ l, Contribution a := fun a h => sound a (List.mem_append_left _ h)
    have few : l.length + 1 ≤ 1024 := by simpa using few
    have room : specialOf (BitVec.ofInt 288 (finiteSum l)) = none :=
      (finite_ofInt (Nat.le_trans (finiteSum_small before) (Nat.mul_le_mul_right _ (by omega)))).1
    rw [List.foldl_append, ih before (by omega), List.foldl_cons, List.foldl_nil,
      accSum_total (sound c (by simp)) (fun _ => room) finiteSum_none, finiteSum_append]
    simp [hasSpecial, hasFinite]

theorem foldl_accSum_perm {l k : List Acc} (perm : l.Perm k) (sound : ∀ a ∈ l, Contribution a) (few : l.length ≤ 1024) :
    l.foldl accSum accNZ = k.foldl accSum accNZ := by
  rw [foldl_accSum sound few, foldl_accSum (fun a h => sound a (perm.mem_iff.mpr h)) (perm.length_eq ▸ few)]
  unfold hasSpecial hasFinite finiteSum
  rw [perm.any_eq, perm.any_eq, perm.any_eq, perm.any_eq, (perm.map _).sum_eq]

/-! ## MIN and MAX (R247) -/

/-- A value in the order of R247: finite, a signed infinity, or negative zero. -/
def Ordered (a : Acc) : Prop := Contribution a ∧ specialOf a ≠ some 3

/-- The place of a value in that order. -/
def accPlace (a : Acc) : Int ×ₗ Int := toLex (accKey a)

theorem accLess_iff (a c : Acc) : accLess a c = true ↔ accPlace a < accPlace c := by
  unfold accLess accPlace
  rw [Prod.Lex.lt_iff]
  simp

theorem accKey_special {k : Nat} (known : k ≤ 2) : accKey (special k) = if k = 0 then (2, 0) else if k = 1 then (4, 0) else (0, 0) := by
  rewrite [accKey, specialOf_special (by omega)]
  interval_cases k <;> rfl

theorem accKey_finite {a : Acc} (none_ : specialOf a = none) : accKey a = if a.toInt < 0 then (1, a.toInt) else (3, a.toInt) := by
  rewrite [accKey, none_]
  rfl

theorem accKey_apart {a : Acc} {k : Nat} (none_ : specialOf a = none) (known : k ≤ 2) : accKey a ≠ accKey (special k) := by
  rw [accKey_finite none_, accKey_special known]
  split_ifs <;> simp

theorem Ordered.special_le {k : Nat} (h : Ordered (special k)) (known : k ≤ 3) : k ≤ 2 := by
  refine Nat.le_of_lt_succ (Nat.lt_of_le_of_ne known ?_)
  rintro rfl
  exact h.2 (specialOf_special (by decide))

/-- Two values at one place are the same. -/
theorem accPlace_inj {a c : Acc} (ha : Ordered a) (hc : Ordered c) (same : accPlace a = accPlace c) : a = c := by
  have same : accKey a = accKey c := toLex.injective same
  cases ha.1 with
  | finite none_ =>
    cases hc.1 with
    | finite none' =>
      rw [accKey_finite none_, accKey_finite none'] at same
      refine BitVec.eq_of_toInt_eq ?_
      split_ifs at same <;> simp at same <;> exact same
    | special k known => exact absurd same (accKey_apart none_ (hc.special_le known))
  | special j known =>
    cases hc.1 with
    | finite none' => exact absurd same.symm (accKey_apart none' (ha.special_le known))
    | special k known' =>
      have small := ha.special_le known
      have small' := hc.special_le known'
      rw [accKey_special small, accKey_special small'] at same
      interval_cases j <;> interval_cases k <;> simp at same ⊢

/-- A contribution is in the order, or NaN. -/
theorem Contribution.ordered {a : Acc} (h : Contribution a) : Ordered a ∨ a = accNaN := by
  cases h with
  | finite none_ small => exact .inl ⟨.finite none_ small, by rw [none_]; exact nofun⟩
  | special k known =>
    by_cases e : k = 3
    · exact .inr (by rw [e]; rfl)
    · exact .inl ⟨.special k known, by rw [specialOf_special (by omega)]; simpa using e⟩

theorem Contribution.not_empty {a : Acc} (h : Contribution a) : specialOf a ≠ some 4 := by
  cases h with
  | finite none_ small => rw [none_]; exact nofun
  | special k known =>
    rw [specialOf_special (by omega)]
    simp
    omega

theorem accPick_empty (least : Bool) (c : Acc) : accPick least accEmpty c = c := if_pos (specialOf_special (by decide))

theorem accPick_nan {a c : Acc} (least : Bool) (written : specialOf a ≠ some 4) (nan : specialOf a = some 3 ∨ specialOf c = some 3) :
    accPick least a c = accNaN := by
  unfold accPick
  rw [if_neg written, if_pos nan]

/-- The order of MIN or of MAX. -/
def better (least : Bool) (p q : Int ×ₗ Int) : Int ×ₗ Int := if least then min p q else max p q

theorem better_comm (least : Bool) (p q : Int ×ₗ Int) : better least p q = better least q p := by
  cases least
  · exact max_comm p q
  · exact min_comm p q

theorem better_right_comm (least : Bool) (p q r : Int ×ₗ Int) : better least (better least p q) r = better least (better least p r) q := by
  cases least
  · exact max_right_comm p q r
  · exact min_right_comm p q r

/-- Of two values the better one is picked. -/
theorem accPick_ordered (least : Bool) {a c : Acc} (ha : Ordered a) (hc : Ordered c) :
    Ordered (accPick least a c) ∧ accPlace (accPick least a c) = better least (accPlace a) (accPlace c) := by
  have picks : accPick least a c = if least = true then (if accLess c a = true then c else a) else (if accLess a c = true then c else a) := by
    unfold accPick
    rw [if_neg ha.1.not_empty, if_neg fun h => h.elim ha.2 hc.2]
  rw [picks]
  cases least
  · simp only [Bool.false_eq_true, if_false, accLess_iff, better]
    split
    case isTrue lt => exact ⟨hc, (max_eq_right lt.le).symm⟩
    case isFalse ge => exact ⟨ha, (max_eq_left (not_lt.mp ge)).symm⟩
  · simp only [if_true, accLess_iff, better]
    split
    case isTrue lt => exact ⟨hc, (min_eq_right lt.le).symm⟩
    case isFalse ge => exact ⟨ha, (min_eq_left (not_lt.mp ge)).symm⟩

theorem specialOf_nan : specialOf accNaN = some 3 := specialOf_special (by decide)

theorem accPick_contribution (least : Bool) {a c : Acc} (ha : Contribution a) (hc : Contribution c) : Contribution (accPick least a c) := by
  have nan : Contribution accNaN := .special 3 (by decide)
  rcases ha.ordered with oa | rfl
  · rcases hc.ordered with oc | rfl
    · exact (accPick_ordered least oa oc).1.1
    · rw [accPick_nan least ha.not_empty (.inr specialOf_nan)]
      exact nan
  · rw [accPick_nan least ha.not_empty (.inl specialOf_nan)]
    exact nan

theorem accPick_comm (least : Bool) {a c : Acc} (ha : Contribution a) (hc : Contribution c) : accPick least a c = accPick least c a := by
  rcases ha.ordered with oa | rfl
  · rcases hc.ordered with oc | rfl
    · obtain ⟨o, place⟩ := accPick_ordered least oa oc
      obtain ⟨o', place'⟩ := accPick_ordered least oc oa
      exact accPlace_inj o o' (by rw [place, place', better_comm])
    · rw [accPick_nan least ha.not_empty (.inr specialOf_nan), accPick_nan least hc.not_empty (.inl specialOf_nan)]
  · rw [accPick_nan least ha.not_empty (.inl specialOf_nan), accPick_nan least hc.not_empty (.inr specialOf_nan)]

theorem accPick_right_comm (least : Bool) {z x y : Acc} (hz : z = accEmpty ∨ Contribution z) (hx : Contribution x) (hy : Contribution y) :
    accPick least (accPick least z x) y = accPick least (accPick least z y) x := by
  rcases hz with rfl | hz
  · rw [accPick_empty, accPick_empty, accPick_comm least hx hy]
  have sound {c : Acc} (hc : Contribution c) := accPick_contribution least hz hc
  rcases hz.ordered with oz | rfl
  · rcases hx.ordered with ox | rfl
    · rcases hy.ordered with oy | rfl
      · obtain ⟨o, place⟩ := accPick_ordered least (accPick_ordered least oz ox).1 oy
        obtain ⟨o', place'⟩ := accPick_ordered least (accPick_ordered least oz oy).1 ox
        refine accPlace_inj o o' ?_
        rw [place, place', (accPick_ordered least oz ox).2, (accPick_ordered least oz oy).2, better_right_comm]
      · rw [accPick_nan least (sound hx).not_empty (.inr specialOf_nan), accPick_nan least hz.not_empty (.inr specialOf_nan),
          accPick_nan least hy.not_empty (.inl specialOf_nan)]
    · rw [accPick_nan least (sound hy).not_empty (.inr specialOf_nan), accPick_nan least hz.not_empty (.inr specialOf_nan),
        accPick_nan least hx.not_empty (.inl specialOf_nan)]
  · have stays {c : Acc} : accPick least accNaN c = accNaN := accPick_nan least hz.not_empty (.inl specialOf_nan)
    rw [stays, stays, stays]

/-! ## Every order -/

/-- A pass over a list in any order ends alike, when two steps commute on what the pass can reach. -/
theorem foldl_perm {α β : Type} {f : β → α → β} {P : β → Prop} {Q : α → Prop} (keeps : ∀ b x, P b → Q x → P (f b x))
    (comm : ∀ b x y, P b → Q x → Q y → f (f b x) y = f (f b y) x) {l k : List α} (perm : l.Perm k) :
    ∀ b, P b → (∀ x ∈ l, Q x) → l.foldl f b = k.foldl f b := by
  induction perm with
  | nil => exact fun _ _ _ => rfl
  | cons x _ ih =>
    exact fun b hb hq => ih (f b x) (keeps b x hb (hq x (List.mem_cons_self ..))) fun y h => hq y (List.mem_cons_of_mem _ h)
  | swap x y l =>
    intro b hb hq
    rw [List.foldl_cons, List.foldl_cons, List.foldl_cons, List.foldl_cons, comm b y x hb (hq y (by simp)) (hq x (by simp))]
  | trans first _ ih ih' => exact fun b hb hq => (ih b hb hq).trans (ih' b hb fun x h => hq x (first.mem_iff.mpr h))

theorem foldl_accPick_perm (least : Bool) {l k : List Acc} (perm : l.Perm k) (sound : ∀ a ∈ l, Contribution a) :
    l.foldl (accPick least) accEmpty = k.foldl (accPick least) accEmpty := by
  refine foldl_perm (P := fun z => z = accEmpty ∨ Contribution z) (fun z x hz hx => .inr ?_)
    (fun z x y hz hx hy => accPick_right_comm least hz hx hy) perm accEmpty (.inl rfl) sound
  rcases hz with rfl | hz
  · rw [accPick_empty]
    exact hx
  · exact accPick_contribution least hz hx

/-- The contributions of elements, as accumulators. -/
def contributions (f : Nat) (l : List (Nat × Nat)) : List Acc := l.map fun x => elemAcc f x.1 x.2

theorem contributions_sound {f : Nat} (known : f ≤ 9) (l : List (Nat × Nat)) : ∀ a ∈ contributions f l, Contribution a := by
  intro a ha
  obtain ⟨x, -, rfl⟩ := List.mem_map.mp ha
  exact elemAcc_contribution known ..

/-- A reduction of elements is a pass over their contributions, where it goes by those. -/
theorem foldl_contributions (f : Nat) (g : Acc → Acc → Acc) (a : Acc) (l : List (Nat × Nat)) :
    l.foldl (fun a x => g a (elemAcc f x.1 x.2)) a = (contributions f l).foldl g a := List.foldl_map.symm

theorem reduction_perm {red f : Nat} {l k : List (Nat × Nat)} (low : 1 ≤ red) (high : red ≤ 6) (known : f ≤ 9) (perm : l.Perm k)
    (few : l.length ≤ 1024) :
    l.foldl (fun a x => accAdd red f a x.1 x.2) (accInit red f) = k.foldl (fun a x => accAdd red f a x.1 x.2) (accInit red f) := by
  have sound := contributions_sound known l
  have perm' : (contributions f l).Perm (contributions f k) := perm.map _
  interval_cases red
  · show l.foldl (fun a x => accSum a (elemAcc f x.1 x.2)) accNZ = k.foldl (fun a x => accSum a (elemAcc f x.1 x.2)) accNZ
    rw [foldl_contributions, foldl_contributions]
    exact foldl_accSum_perm perm' sound (by simpa [contributions] using few)
  · show l.foldl (fun a x => accPick true a (elemAcc f x.1 x.2)) accEmpty = k.foldl (fun a x => accPick true a (elemAcc f x.1 x.2)) accEmpty
    rw [foldl_contributions, foldl_contributions]
    exact foldl_accPick_perm true perm' sound
  · show l.foldl (fun a x => accPick false a (elemAcc f x.1 x.2)) accEmpty = k.foldl (fun a x => accPick false a (elemAcc f x.1 x.2)) accEmpty
    rw [foldl_contributions, foldl_contributions]
    exact foldl_accPick_perm false perm' sound
  · exact perm.foldl_eq' (fun x _ y _ z => (BitVec.and_assoc ..).trans ((congrArg _ (BitVec.and_comm ..)).trans (BitVec.and_assoc ..).symm)) _
  · exact perm.foldl_eq' (fun x _ y _ z => (BitVec.or_assoc ..).trans ((congrArg _ (BitVec.or_comm ..)).trans (BitVec.or_assoc ..).symm)) _
  · exact perm.foldl_eq' (fun x _ y _ z => (BitVec.xor_assoc ..).trans ((congrArg _ (BitVec.xor_comm ..)).trans (BitVec.xor_assoc ..).symm)) _

/-- Settles O52: SUM is determined by the special values and the sum of the finite contributions, MIN and MAX pick from a linear order,
and the bitwise reductions commute. -/
theorem arrivalOrderDoesNotMatter : Obligations.ArrivalOrderDoesNotMatter := by
  refine ⟨fun red f l k low high known perm few _ => reduction_perm low high known perm few, fun f l known some_ few finite => ?_⟩
  have sound := contributions_sound known l
  have none_ : ∀ a ∈ contributions f l, specialOf a = none := by
    intro a ha
    obtain ⟨x, hx, rfl⟩ := List.mem_map.mp ha
    exact (finite x hx).2.2
  have few : (contributions f l).length ≤ 1024 := by simpa [contributions] using few
  have absent (k : Nat) : hasSpecial k (contributions f l) = false :=
    List.any_eq_false.mpr fun a ha => by rw [none_ a ha]; exact nofun
  have present : hasFinite (contributions f l) = true := by
    obtain ⟨x, r, rfl⟩ := List.exists_cons_of_ne_nil some_
    exact List.any_eq_true.mpr ⟨_, List.mem_cons_self .., by rw [none_ _ (List.mem_cons_self ..)]; rfl⟩
  have sum : finiteSum (contributions f l) = (l.map fun x => (elemAcc f x.1 x.2).toInt).sum := by
    unfold finiteSum
    rw [List.map_congr_left fun a ha => if_pos (none_ a ha), contributions, List.map_map]
    rfl
  have total : l.foldl (fun a x => accAdd 1 f a x.1 x.2) (accInit 1 f) = BitVec.ofInt 288 (finiteSum (contributions f l)) := by
    refine (foldl_contributions f accSum accNZ l).trans ((foldl_accSum sound few).trans ?_)
    rw [absent, absent, absent, present]
    rfl
  have room := Nat.le_trans (finiteSum_small sound) (Nat.mul_le_mul_right _ few)
  rw [total, ← sum]
  exact finite_ofInt room

end Sys2Proof.Claims
end

section
/-! PROOFS. The reset lands, the stack supplies and the thermal trip (O53). -/

namespace Sys2Proof.Claims
open Sys2Proof.Machine

/-- What driving SB_FWD low puts on the land: a level that stands is not driven again (R420). -/
theorem setFwd_low (s : State) : s.setFwd false = { s with
    pkg := { s.pkg with sbFwd := false }, out := s.out ++ (if s.pkg.sbFwd = true then [.sbFwd false] else []) } := by
  unfold State.setFwd
  cases h : s.pkg.sbFwd with
  | false =>
    rw [if_pos rfl, if_neg (by simp), List.append_nil, ← h]
  | true => rfl

/-- Of a module that nothing holds the sequence starts at the fuse array (R447). -/
theorem startSequence_free {s : State} (held : s.heldInReset = false) (land : Bool) : s.startSequence land = { s with
    pkg := { s.pkg with phase := .fuses, fromLand := land && s.pkg.rolesTaken }, mgmt := { s.mgmt with cause := b2n land } } := by
  unfold State.startSequence
  rw [if_neg (by simp [held])]

/-- A released land lets go of the module when the other one and the test access port do not hold it. -/
theorem heldInReset_free {s : State} (por : s.pkg.porLow = false) (rst : s.pkg.rstLow = false) (tap : tapHolds s.pkg.tap = false) :
    s.heldInReset = false := by
  simp [State.heldInReset, por, rst, tap]

section
variable {s : State}

theorem porNFall_holds (low : s.pkg.porLow = false) : exec .porNFall s = .next { s.powerOnReset with
    pkg := { s.powerOnReset.pkg with porLow := true } } := by
  show execPorNFall s = _
  unfold execPorNFall
  exact if_neg (by simp [low])

theorem porNRise_short (low : s.pkg.porLow = true) (pos : Fin 4) (strap : Bool) :
    exec (.porNRise pos strap false) s = .fault .undefinedPorPulse := by
  show execPorNRise pos strap false s = _
  unfold execPorNRise
  rw [if_neg (by simp [low])]
  rfl

theorem porNRise_starts (por : s.pkg.porLow = true) (rst : s.pkg.rstLow = false) (tap : tapHolds s.pkg.tap = false) (pos : Fin 4)
    (strap : Bool) : exec (.porNRise pos strap true) s = .next { s with
      pkg := { s.pkg with porLow := false, trayPos := pos.val, bistStrap := strap, phase := .fuses, fromLand := false }
      side := { s.side with staticAddr := BitVec.ofNat 7 (0x30 + pos.val) }, mgmt := { s.mgmt with cause := 0 } } := by
  show execPorNRise pos strap true s = _
  unfold execPorNRise
  rw [if_neg (by simp [por]), if_neg (by simp)]
  exact congrArg Host.Outcome.next (startSequence_free (heldInReset_free (s := State.sampleStraps { s with pkg := { s.pkg with porLow := false } } pos.val strap) rfl rst tap) false)

theorem rstNAssert_holds (rst : s.pkg.rstLow = false) (por : s.pkg.porLow = false) : exec .rstNAssert s = .next { s.landReset with
    pkg := { s.landReset.pkg with rstLow := true } } := by
  show execRstNAssert s = _
  unfold execRstNAssert State.holdLand
  rw [if_neg (by simp [rst]), if_neg (by simp [por])]

theorem rstNRelease_starts (rst : s.pkg.rstLow = true) (por : s.pkg.porLow = false) (tap : tapHolds s.pkg.tap = false) (pos : Fin 4)
    (strap : Bool) : exec (.rstNRelease pos strap) s = .next { s with
      pkg := { s.pkg with rstLow := false, trayPos := pos.val, bistStrap := strap, phase := .fuses, fromLand := s.pkg.rolesTaken }
      side := { s.side with staticAddr := BitVec.ofNat 7 (0x30 + pos.val) }, mgmt := { s.mgmt with cause := 1 } } := by
  show execRstNRelease pos strap s = _
  unfold execRstNRelease
  rw [if_neg (by simp [rst])]
  exact congrArg Host.Outcome.next (startSequence_free (heldInReset_free (s := State.sampleStraps { s with pkg := { s.pkg with rstLow := false } } pos.val strap) por rfl tap) true)

theorem thermtrip_again (tripped : s.pkg.tripped = true) : exec .thermtrip s = .next s := by
  show execThermtrip s = _
  unfold execThermtrip
  exact if_pos tripped

theorem thermtrip_trips (tripped : s.pkg.tripped = false) : exec .thermtrip s = .next { s with
    pkg := { s.pkg with tripped := true, selfRefresh := true, sbFwd := false }
    out := s.out ++ .thermtrip true :: (if s.pkg.sbFwd = true then [.sbFwd false] else []) } := by
  show execThermtrip s = _
  unfold execThermtrip
  rw [if_neg (by simp [tripped]), setFwd_low]
  exact congrArg (fun o => Host.Outcome.next { s with pkg := { s.pkg with tripped := true, selfRefresh := true, sbFwd := false }, out := o })
    (List.append_assoc s.out _ _)

theorem rail_stacks {rail : Rail} (supply : rail = .vmpp ∨ rail = .vmdd ∨ rail = .vmq) (low : Bool) :
    exec (.railLeavesRegulation rail low) s = .next { s with mem := { s.mem with cells := [], powerOns := s.mem.powerOns + 1 } } := by
  show execRailLeavesRegulation rail low s = _
  unfold execRailLeavesRegulation
  rw [if_pos supply]
  rfl

theorem rail_vaux (tripped : s.pkg.tripped = true) : exec (.railLeavesRegulation .vaux true) s = .next { s with
    pkg := { s.pkg with tripped := false }, out := s.out ++ [.thermtrip false] } := by
  show execRailLeavesRegulation .vaux true s = _
  unfold execRailLeavesRegulation
  rw [if_neg (by simp), if_pos ⟨rfl, rfl, tripped⟩]
  rfl

theorem rail_ignored {rail : Rail} {low : Bool} (other : rail = .vaux ∧ low = false ∨ rail = .vcore ∨ rail = .vsa ∨ rail = .vst) :
    exec (.railLeavesRegulation rail low) s = .next s := by
  show execRailLeavesRegulation rail low s = _
  unfold execRailLeavesRegulation
  rw [if_neg, if_neg]
  all_goals rcases other with ⟨rfl, rfl⟩ | rfl | rfl | rfl <;> simp

end

/-- Settles O53: each land's row is one of the resets, or the straps and the sequence's start, of a module that nothing else holds. -/
theorem landsHoldAndRelease : Obligations.LandsHoldAndRelease := by
  refine ⟨fun pos strap s => ⟨fun por => ?_, fun por => porNRise_short por pos strap, fun por rst tap => ?_, fun rst por => ?_,
    fun rst por tap => ?_, rfl, thermtrip_again, fun tripped => ?_⟩, fun rail low s => ⟨fun supply => ?_, ?_, rail_ignored⟩⟩
  · exact ⟨_, porNFall_holds por, rfl, rfl, rfl, rfl, rfl, rfl, rfl, rfl, rfl, rfl, rfl, rfl⟩
  · exact ⟨_, porNRise_starts por rst tap pos strap, rfl, rfl, rfl, rfl, rfl, rfl, rfl, rfl⟩
  · exact ⟨_, rstNAssert_holds rst por, rfl, rfl, rfl, rfl, rfl, rfl, rfl, rfl, rfl, rfl, rfl, rfl, rfl, rfl, rfl, rfl⟩
  · exact ⟨_, rstNRelease_starts rst por tap pos strap, rfl, rfl, rfl, rfl, rfl, rfl, rfl, rfl⟩
  · exact ⟨_, thermtrip_trips tripped, rfl, rfl, by simp [State.live], rfl, rfl, rfl⟩
  · exact ⟨_, rail_stacks supply low, rfl, rfl, rfl⟩
  · rintro rfl rfl tripped
    exact rail_vaux tripped

end Sys2Proof.Claims
end

section
/-! PROOFS. The power-on sequence and the test access port (O54). -/

namespace Sys2Proof.Claims
open Sys2Proof.Machine

/-! ## Roles from the fuse marks (R395) -/

/-- A map that takes a value for each key of a list holds it at these keys and keeps every other key. -/
theorem sget_foldl_sput {α : Type} [DecidableEq α] (v d : Nat → α) (k : Nat) (l : List Nat) (m : SMap α) :
    sget (l.foldl (fun m n => sput m n (v n) (d n)) m) k (d k) = if k ∈ l then v k else sget m k (d k) := by
  induction l generalizing m with
  | nil => rfl
  | cons x xs ih =>
    rw [List.foldl_cons, ih]
    by_cases later : k ∈ xs
    · rw [if_pos later, if_pos (List.mem_cons_of_mem _ later)]
    · rw [if_neg later]
      by_cases first : k = x
      · subst first
        rw [if_pos List.mem_cons_self]
        exact sget_sput_same ..
      · rw [if_neg (by simp [first, later])]
        exact sget_sput_other m _ _ _ first

theorem fuseRoles_blown {fuses : List (Nat × Nat)} {kind units : Nat} (service spare : Nat) {n : Nat} (unit : n < units)
    (blown : (kind, n) ∈ fuses) : sget (fuseRoles fuses kind units service spare) n (defaultRole spare n) = .unusable := by
  unfold fuseRoles
  dsimp only
  rw [sget_foldl_sput, if_pos (List.mem_range.mpr unit), if_pos (by simp [blown])]

theorem fuseRoles_unblown {kind units service spare n : Nat} (unit : n < units) (fits : service ≤ units) :
    sget (fuseRoles [] kind units service spare) n (defaultRole spare n) = if n < service then .inService else .spare := by
  unfold fuseRoles
  dsimp only
  rw [sget_foldl_sput, if_pos (List.mem_range.mpr unit)]
  simp [List.take_range, unit, Nat.min_eq_left fits]

/-! ## FUSE_READ_DONE -/

/-- Besides the fuse array's own units only the memory moves, and it keeps its contents. -/
structure MemoryMoved (s t : State) : Prop where
  only : t = { s with mem := t.mem }
  cells : t.mem.cells = s.mem.cells

theorem MemoryMoved.refl (s : State) : MemoryMoved s s := ⟨rfl, rfl⟩

theorem MemoryMoved.trans {s t u : State} (h : MemoryMoved s t) (k : MemoryMoved t u) : MemoryMoved s u :=
  ⟨by rw [k.only, h.only], k.cells.trans h.cells⟩

theorem memoryMoved_updMem (s : State) {f : FabMem → FabMem} (cells : ∀ m, (f m).cells = m.cells) : MemoryMoved s (s.updMem f) :=
  ⟨rfl, cells s.mem⟩

theorem memoryMoved_foldl {α : Type} {f : State → α → State} (each : ∀ s a, MemoryMoved s (f s a)) (l : List α) (s : State) :
    MemoryMoved s (l.foldl f s) := by
  induction l generalizing s with
  | nil => exact .refl s
  | cons a l ih => exact (each s a).trans (ih _)

/-- The units' roles and the empty switch, before the stacks take theirs. -/
def withFuseRoles (s : State) : State :=
  let f := s.bist.fuses ++ s.bist.toBlow
  let s := s.updBist fun b => { b with
    rc := fuseRoles f 2 26 24 24, buf := fuseRoles f 3 132 128 128, drey := fuseRoles f 4 99 96 96, txBad := [], rxBad := []
    portUnusable := BitVec.ofNat 64 (maskOf ((List.range 64).filter fun n => f.contains (5, n))) }
  { s with sw := s.emptySwitch, pkg := { s.pkg with rolesTaken := true } }

/-- The stacks' roles, the slot map and the lost slots from the fuse marks. -/
def withStackRoles (f : List (Nat × Nat)) (s : State) : State :=
  let usable := (List.range 13).filter fun n => !f.contains (1, n)
  let serving := usable.take 12
  let retired := (List.range 13).filter fun n => f.contains (1, n)
  let short := (List.range 12).filter fun k => decide (serving.length ≤ k)
  let s := (List.range 13).foldl (fun (s : State) n =>
    s.setRole n (if retired.contains n then .retired else if serving.contains n then .inService else .spare)) s
  let s := s.updMem fun m => { m with
    slotMap := (List.range 12).map fun k => serving.getD k (retired.getLastD 0) }
  short.foldl (fun (s : State) k => s.loseSlot k) s

theorem readFuses_eq (s : State) : s.readFuses = if (withFuseRoles s).pkg.fromLand = true then withFuseRoles s
    else withStackRoles (s.bist.fuses ++ s.bist.toBlow) (withFuseRoles s) := rfl

theorem withStackRoles_moves (f : List (Nat × Nat)) (s : State) : MemoryMoved s (withStackRoles f s) := by
  unfold withStackRoles
  dsimp only
  generalize List.filter _ (List.range 12) = short
  generalize List.range 13 = l
  refine MemoryMoved.trans ?_ (memoryMoved_foldl (f := State.loseSlot) (fun s n => ⟨rfl, rfl⟩) short _)
  refine MemoryMoved.trans ?_ (memoryMoved_updMem _ ?_)
  · refine memoryMoved_foldl ?_ l s
    exact fun _ _ => ⟨rfl, rfl⟩
  · exact fun _ => rfl

theorem readFuses_moves (s : State) : MemoryMoved (withFuseRoles s) s.readFuses := by
  rw [readFuses_eq]
  split
  · exact .refl _
  · exact withStackRoles_moves ..

theorem withFuseRoles_units (s : State) : (withFuseRoles s).bist.rc = fuseRoles (s.bist.fuses ++ s.bist.toBlow) 2 26 24 24
    ∧ (withFuseRoles s).bist.buf = fuseRoles (s.bist.fuses ++ s.bist.toBlow) 3 132 128 128
    ∧ (withFuseRoles s).bist.drey = fuseRoles (s.bist.fuses ++ s.bist.toBlow) 4 99 96 96
    ∧ (withFuseRoles s).bist.txBad = [] ∧ (withFuseRoles s).bist.rxBad = [] := ⟨rfl, rfl, rfl, rfl, rfl⟩

/-- What FUSE_READ_DONE leaves: the roles, and the self-test ahead. -/
theorem fuseReadDone_takes {s : State} (free : s.sequencing = true) (fuses : s.pkg.phase = .fuses) :
    ∃ t, exec .fuseReadDone s = .next t ∧ t.pkg.phase = .testing (!s.pkg.bistStrap) false
      ∧ t.bist = (withFuseRoles s).bist ∧ t.mem.cells = s.mem.cells := by
  obtain ⟨only, cells⟩ := readFuses_moves s
  have runs : exec .fuseReadDone s = .next { s.readFuses with
      pkg := { s.readFuses.pkg with phase := .testing (!s.pkg.bistStrap) false } } := if_pos ⟨free, fuses⟩
  refine ⟨_, runs, rfl, ?_, cells⟩
  show s.readFuses.bist = _
  rw [only]

/-! ## Self-test, stack training and the opening -/

/-- One stack, and the contents of fabric memory, stand as they were. -/
structure StackKept (n : Nat) (s t : State) : Prop where
  stack : t.stack n = s.stack n
  cells : t.mem.cells = s.mem.cells

theorem StackKept.trans {n : Nat} {s t u : State} (h : StackKept n s t) (k : StackKept n t u) : StackKept n s u :=
  ⟨k.stack.trans h.stack, k.cells.trans h.cells⟩

theorem stackKept_changeStack {n k : Nat} (other : n ≠ k) (s : State) (r : StackRole) : StackKept n s (s.changeStack k r) :=
  ⟨(changeStack_effect s k r).2.1 n other, rfl⟩

/-- A stack that failed training, marked in the fuse array and retired, before another one takes its place. -/
def markFailed (s : State) (n : Nat) : State :=
  let s := if s.bist.fuses.contains (1, n) then s
    else (s.updBist fun b => { b with fuses := b.fuses ++ [(1, n)] }).emit (.fuse 1 n)
  (s.setStack n { s.stack n with dead := true }).changeStack n .retired

theorem markFailed_effect (s : State) (n : Nat) : ((markFailed s n).stack n).role = .retired ∧ ((markFailed s n).stack n).dead = true
    ∧ (markFailed s n).mem = { s.mem with stackRegs := (markFailed s n).mem.stackRegs } := by
  unfold markFailed
  dsimp only
  split <;> exact ⟨by rw [(changeStack_effect ..).1], by rw [(changeStack_effect ..).1, State.stack_setStack], rfl⟩

/-- The stack that takes the place of a failed one. -/
def replaceFailed (s : State) (bad : List Nat) (slot n : Nat) : State :=
  let toward := s.migrating && s.mem.migTo == n
  if toward then (s.changeStack s.mem.migFrom .inService).updMem fun m => { m with migSt := .idle, migNoCopy := false }
  else if 12 ≤ slot then s
  else match firstBelow 13 fun k => ((s.stack k).role == .spare || (s.stack k).role == .target) && !bad.contains k with
    | none => s.loseSlot slot
    | some sp =>
      let s := (s.changeStack sp .inService).updMem fun m => { m with slotMap := m.slotMap.set slot sp }
      if s.pkg.fromLand then
        (s.loseSlot slot).updMem fun m => { m with
          migSt := .nocopyDone, migCause := true, migSlot := slot, migFrom := n, migTo := sp, migNoCopy := false }
      else s

theorem failStack_eq (s : State) (bad : List Nat) (n : Nat) :
    s.failStack bad n = replaceFailed (markFailed s n) bad (s.mem.slotMap.findIdx (· == n)) n := rfl

/-- A failed stack takes its own place from nobody: not as the source of the migration toward it, and not as its own spare. -/
theorem replaceFailed_keeps {s : State} {n : Nat} (apart : s.mem.migFrom ≠ s.mem.migTo) (slot : Nat) :
    StackKept n s (replaceFailed s [n] slot n) := by
  unfold replaceFailed
  dsimp only
  split
  next toward =>
    have target : s.mem.migTo = n := by simpa using (Bool.and_eq_true_iff.mp toward).2
    exact (stackKept_changeStack (target ▸ apart.symm) s _).trans ⟨rfl, rfl⟩
  next =>
    split
    · exact ⟨rfl, rfl⟩
    · split
      · exact ⟨rfl, rfl⟩
      next sp found =>
        have other : n ≠ sp := by
          rintro rfl
          have := firstBelow_holds found
          simp at this
        have takes := stackKept_changeStack other s .inService
        split <;> exact takes.trans ⟨rfl, rfl⟩

theorem failStack_effect {s : State} {n : Nat} (apart : s.mem.migFrom ≠ s.mem.migTo) :
    ((s.failStack [n] n).stack n).role = .retired ∧ ((s.failStack [n] n).stack n).dead = true
    ∧ (s.failStack [n] n).mem.cells = s.mem.cells := by
  obtain ⟨retired, dead, mem⟩ := markFailed_effect s n
  have kept := replaceFailed_keeps (s := markFailed s n) (n := n) (by rw [mem]; exact apart) (s.mem.slotMap.findIdx (· == n))
  rw [failStack_eq, kept.stack, kept.cells]
  exact ⟨retired, dead, by rw [mem]⟩

theorem sequencing_free {s : State} (tripped : s.pkg.tripped = false) (held : s.heldInReset = false) : s.sequencing = true := by
  simp [State.sequencing, tripped, held]

theorem powerOnSelfTestDone_runs {s : State} {train : Bool} (free : s.sequencing = true) (testing : s.pkg.phase = .testing false train)
    (results : List (Nat × TestEnd)) : ∃ u : State,
    exec (.powerOnSelfTestDone results) s = .next { u with pkg := { u.pkg with phase := .testing true train } }
    ∧ u = (results.foldl (fun (s : State) r => s.powerOnTest r.1 r.2) s.zeroise).powerOnSlots := by
  refine ⟨_, ?_, rfl⟩
  show execPowerOnSelfTestDone results s = _
  unfold execPowerOnSelfTestDone
  rw [testing, free]
  rfl

theorem stackTrainingDone_runs {s : State} {done : Bool} (free : s.sequencing = true) (testing : s.pkg.phase = .testing done false)
    (failed : List Nat) : ∃ u : State,
    exec (.stackTrainingDone failed) s = .next { u with pkg := { u.pkg with phase := .testing done true } }
    ∧ u = failed.foldl (fun (s : State) n => s.failStack failed n) s := by
  refine ⟨_, ?_, rfl⟩
  show execStackTrainingDone failed s = _
  unfold execStackTrainingDone
  rw [testing, free]
  rfl

theorem setFwd_high (s : State) : s.setFwd true = { s with
    pkg := { s.pkg with sbFwd := true }, out := s.out ++ (if s.pkg.sbFwd = true then [] else [.sbFwd true]) } := by
  unfold State.setFwd
  cases h : s.pkg.sbFwd with
  | true =>
    rw [if_pos rfl, if_pos rfl, List.append_nil, ← h]
  | false => rfl

theorem managementReady_opens {s : State} (free : s.sequencing = true) (tested : s.pkg.phase = .testing true true) :
    exec .managementReady s = .next { s with
      pkg := { s.pkg with phase := .ready, selfRefresh := false, sbFwd := true }
      out := s.out ++ (if s.pkg.sbFwd = true then [] else [.sbFwd true]) } := by
  show execManagementReady s = _
  unfold execManagementReady
  rw [if_pos ⟨free, tested⟩, setFwd_high]

theorem managementReady_waits {s : State} (tested : s.pkg.phase ≠ .testing true true) : exec .managementReady s = .next s :=
  if_neg fun h => tested h.2

/-! ## The test access port (R484, R485) -/

/-- Between two instructions that do not hold only the instruction register changes. -/
theorem loadTap_quiet {s : State} {code : BitVec 8} (was : tapHolds s.pkg.tap = false) (is_ : tapHolds code = false) :
    s.loadTap code = { s with pkg := { s.pkg with tap := code } } := by
  have other : code ≠ 0x40 := by
    rintro rfl
    exact absurd is_ (by decide)
  unfold State.loadTap
  dsimp only
  rw [was, is_, if_neg other]
  rfl

/-- An instruction that holds resets like RST_N; SCAN_ACCESS zeroises the keys besides. -/
theorem loadTap_holds {s : State} {code : BitVec 8} (was : tapHolds s.pkg.tap = false) (is_ : tapHolds code = true)
    (por : s.pkg.porLow = false) : s.loadTap code = if code = 0x40 then { s with pkg := { s.pkg with tap := code } }.landReset.zeroise
      else { s with pkg := { s.pkg with tap := code } }.landReset := by
  unfold State.loadTap State.holdLand
  dsimp only
  rw [was, is_, por]
  rfl

/-- From an instruction that holds to one that does not the sequence starts with CAUSE 1. -/
theorem loadTap_releases {s : State} {code : BitVec 8} (was : tapHolds s.pkg.tap = true) (is_ : tapHolds code = false)
    (rst : s.pkg.rstLow = false) (por : s.pkg.porLow = false) : s.loadTap code = { s with
      pkg := { s.pkg with tap := code, phase := .fuses, fromLand := s.pkg.rolesTaken }, mgmt := { s.mgmt with cause := 1 } } := by
  have other : code ≠ 0x40 := by
    rintro rfl
    exact absurd is_ (by decide)
  unfold State.loadTap
  dsimp only
  rw [was, is_, if_neg other]
  exact startSequence_free (s := { s with pkg := { s.pkg with tap := code } }) (heldInReset_free por rst is_) true

/-- A code outside the six instructions that have a row of their own selects BYPASS, which does not hold. -/
theorem tapHolds_bypass {code : TapCode} (h : code ∉ [(0x00 : TapCode), 0x01, 0x02, 0x03, 0x04, 0x40]) : tapHolds code = false := by
  simp only [List.mem_cons, List.not_mem_nil, or_false, not_or] at h
  obtain ⟨h0, -, -, h3, h4, h40⟩ := h
  simp only [tapHolds, Bool.or_eq_false_iff, beq_eq_false_iff_ne]
  exact ⟨⟨⟨h0, h3⟩, h4⟩, h40⟩

/-- Settles O54: the sequence's rows under their phases, and the three cases of loading an instruction. -/
theorem powerOnSequenceRuns : Obligations.PowerOnSequenceRuns := by
  refine ⟨fun s tripped held => ?_, fun i code s was => ⟨?_, ?_, ?_⟩, fun code s was is_ rst por => ?_⟩
  · have free := sequencing_free tripped held
    refine ⟨fun fuses => ?_, fun fuses none_ waiting => ?_, fun train results testing => ?_, fun done failed testing => ?_,
      fun tested => ?_, managementReady_waits⟩
    · obtain ⟨t, runs, phase, bist, -⟩ := fuseReadDone_takes free fuses
      obtain ⟨rc, buf, drey, -, -⟩ := withFuseRoles_units s
      refine ⟨t, runs, phase, fun n unit blown => ?_, fun n unit blown => ?_, fun n unit blown => ?_⟩
      · rw [State.rcRole, bist, rc]
        exact fuseRoles_blown 24 24 unit blown
      · rw [State.bufRole, bist, buf]
        exact fuseRoles_blown 128 128 unit blown
      · rw [State.dreyRole, bist, drey]
        exact fuseRoles_blown 96 96 unit blown
    · obtain ⟨t, runs, phase, bist, cells⟩ := fuseReadDone_takes free fuses
      obtain ⟨rc, buf, drey, tx, rx⟩ := withFuseRoles_units s
      rw [none_, waiting, List.append_nil] at rc buf drey
      refine ⟨t, runs, phase, fun n unit => ?_, fun n unit => ?_, fun n unit => ?_, by rw [bist, tx], by rw [bist, rx], cells⟩
      · rw [State.rcRole, bist, rc]
        exact fuseRoles_unblown unit (by decide)
      · rw [State.bufRole, bist, buf]
        exact fuseRoles_unblown unit (by decide)
      · rw [State.dreyRole, bist, drey]
        exact fuseRoles_unblown unit (by decide)
    · obtain ⟨u, runs, result⟩ := powerOnSelfTestDone_runs free testing results
      refine ⟨u, runs, result, rfl, rfl, rfl, ?_⟩
      rintro rfl
      rw [result]
      rfl
    · obtain ⟨u, runs, result⟩ := stackTrainingDone_runs free testing failed
      refine ⟨u, runs, ?_, fun n one apart => ?_⟩
      · rintro rfl
        exact result
      · subst one
        rw [result]
        exact failStack_effect apart
    · refine ⟨_, managementReady_opens free tested, rfl, rfl, ?_, rfl, rfl⟩
      simp only [State.heldInReset, Bool.or_eq_false_iff] at held
      obtain ⟨⟨por, rst⟩, -⟩ := held
      simp [State.live, tripped, por, rst]
  · rintro (⟨rfl, rfl⟩ | ⟨rfl, rfl⟩ | ⟨rfl, rfl⟩ | ⟨rfl, other⟩)
    · exact congrArg Host.Outcome.next (loadTap_quiet was rfl)
    · exact congrArg Host.Outcome.next (loadTap_quiet was rfl)
    · exact congrArg Host.Outcome.next (loadTap_quiet was rfl)
    · have runs : exec (.tapBypass code) s = .next (s.loadTap code) := if_neg (by simpa using other)
      rw [runs, loadTap_quiet was (tapHolds_bypass other)]
  · have plain : ∀ {code : TapCode}, tapHolds code = true → code ≠ 0x40 → s.pkg.porLow = false →
        ∃ t, Host.Outcome.next (s.loadTap code) = (.next t : Out) ∧ t.pkg.tap = code ∧ t.pkg.phase = .rst ∧ t.live = false
          ∧ t.mgmt.keys = [] ∧ t.mem.cells = s.mem.cells ∧ t.bist.zeroised = decide (code = 0x40) := by
      intro code is_ other por
      refine ⟨_, rfl, ?_⟩
      rw [loadTap_holds was is_ por, if_neg other, decide_eq_false other]
      exact ⟨rfl, rfl, rfl, rfl, rfl, rfl⟩
    rintro (⟨rfl, rfl⟩ | ⟨rfl, rfl⟩ | ⟨rfl, rfl⟩ | ⟨rfl, rfl⟩) por
    · exact plain rfl (by decide) por
    · exact plain rfl (by decide) por
    · exact plain rfl (by decide) por
    · refine ⟨s.loadTap 0x40, rfl, ?_⟩
      rw [loadTap_holds was rfl por, if_pos rfl]
      exact ⟨rfl, rfl, rfl, rfl, rfl, rfl⟩
  · exact if_neg (by simp [was])
  · have runs : exec (.tapInstructionRelease code) s = .next (s.loadTap code) := if_pos (by simp [was, is_])
    refine ⟨_, runs, ?_⟩
    rw [loadTap_releases was is_ rst por]
    exact ⟨rfl, rfl, rfl, rfl, rfl, congrArg Host.Outcome.next (loadTap_releases was rfl rst por)⟩

end Sys2Proof.Claims
end

section
/-! PROOFS. RESET, and the start and end of a staged reset (O55). -/

namespace Sys2Proof.Claims
open Sys2Proof.Machine

/-! ## RESET (R118, R119, R452) -/

/-- A scope that covers one unit names it 0. -/
theorem resetUnit_paramError {c : Cmd} {i : Instr} (row : i = .resetSwitch c 0 ∨ i = .resetMemory c 0 ∨ i = .resetCollective c 0
    ∨ i = .resetManagement c 0 ∨ i = .resetModule c 0) (s : State) : s.paramError i = none := by
  rcases row with rfl | rfl | rfl | rfl | rfl <;>
    simp [State.paramError, State.rangeLow, State.rangeMid, State.rangeHigh, firstBad]

/-- The six rows of RESET with their scope and unit. -/
theorem reset_runs {c : Cmd} {i : Instr} {unit : Byte} {scope n : Nat} {s : State} (ho : Open s)
    (row : i = .resetPort c unit ∧ scope = 1 ∧ n = unit.toNat ∧ n < 64 ∨ i = .resetSwitch c unit ∧ scope = 2 ∧ n = 0 ∧ unit = 0
      ∨ i = .resetMemory c unit ∧ scope = 3 ∧ n = 0 ∧ unit = 0 ∨ i = .resetCollective c unit ∧ scope = 4 ∧ n = 0 ∧ unit = 0
      ∨ i = .resetManagement c unit ∧ scope = 5 ∧ n = 0 ∧ unit = 0 ∨ i = .resetModule c unit ∧ scope = 6 ∧ n = 0 ∧ unit = 0) :
    exec i s = .next (s.runReset c scope n) := by
  rcases row with ⟨rfl, rfl, rfl, port⟩ | ⟨rfl, rfl, rfl, rfl⟩ | ⟨rfl, rfl, rfl, rfl⟩ | ⟨rfl, rfl, rfl, rfl⟩ | ⟨rfl, rfl, rfl, rfl⟩
    | ⟨rfl, rfl, rfl, rfl⟩
  case inl =>
    refine opcode_runs ho ?_
    simp [State.paramError, State.rangeLow, State.rangeMid, State.rangeHigh, firstBad, port]
  case inr.inl => exact opcode_runs (i := .resetSwitch c 0) (c := c) (op := 0x0F00) ho (resetUnit_paramError (.inl rfl) s)
  case inr.inr.inl => exact opcode_runs (i := .resetMemory c 0) (c := c) (op := 0x0F00) ho (resetUnit_paramError (.inr (.inl rfl)) s)
  case inr.inr.inr.inl => exact opcode_runs (i := .resetCollective c 0) (c := c) (op := 0x0F00) ho (resetUnit_paramError (.inr (.inr (.inl rfl))) s)
  case inr.inr.inr.inr.inl =>
    exact opcode_runs (i := .resetManagement c 0) (c := c) (op := 0x0F00) ho (resetUnit_paramError (.inr (.inr (.inr (.inl rfl)))) s)
  case inr.inr.inr.inr.inr =>
    exact opcode_runs (i := .resetModule c 0) (c := c) (op := 0x0F00) ho (resetUnit_paramError (.inr (.inr (.inr (.inr rfl)))) s)

section
variable {s : State} {c : Cmd} {scope n : Nat}

theorem runReset_busy (busy : ∃ k ∈ busyParts scope n, s.underTest k = true) :
    s.runReset c scope n = s.deny c 0x0F00 stBusyTest 0 :=
  if_pos (List.any_eq_true.mpr busy)

/-- The oldest running or staged reset that a RESET lies within. -/
def State.outerReset (s : State) (scope n : Nat) : Option ResetReq :=
  (s.mgmt.running ++ s.mgmt.resets).find? fun x => resetWithin scope n x.scope x.unit

/-- A RESET within another answers that one's start beat. -/
theorem runReset_within (free : ∀ k ∈ busyParts scope n, s.underTest k = false) {x : ResetReq}
    (within : State.outerReset s scope n = some x) : s.runReset c scope n = s.ok c 0x0F00 (beatBytes x.start) := by
  unfold State.outerReset at within
  unfold State.runReset
  rw [if_neg (by simpa using free), within]

theorem runReset_apart (free : ∀ k ∈ busyParts scope n, s.underTest k = false) (apart : State.outerReset s scope n = none) :
    s.runReset c scope n = s.stageReset c scope n := by
  unfold State.outerReset at apart
  unfold State.runReset
  rw [if_neg (by simpa using free), apart]

theorem outerReset_none (running : s.mgmt.running = []) (apart : ∀ x ∈ s.mgmt.resets, resetWithin scope n x.scope x.unit = false) :
    State.outerReset s scope n = none := by
  rw [State.outerReset, running, List.nil_append]
  exact List.find?_eq_none.mpr (by simpa using apart)

theorem outerReset_staged {x : ResetReq} (running : s.mgmt.running = []) (staged : s.mgmt.resets = [x])
    (within : resetWithin scope n x.scope x.unit = true) : State.outerReset s scope n = some x := by
  rw [State.outerReset, running, staged]
  exact List.find?_cons_of_pos within

theorem outerReset_running {x : ResetReq} (running : s.mgmt.running = [x]) (staged : s.mgmt.resets = [])
    (apart : resetWithin scope n x.scope x.unit = false) : State.outerReset s scope n = none := by
  rw [State.outerReset, running, staged]
  exact List.find?_eq_none.mpr (by simpa using apart)

/-- With no reset running a RESET is staged for the next boundary. -/
theorem stageReset_next (running : s.mgmt.running = []) : ∃ kept : List ResetReq,
    s.stageReset c scope n = ({ s with mgmt := { s.mgmt with resets := kept ++ [{
      scope := scope, unit := n, setter := BitVec.ofNat 16 (srcCode c.src + 4 * c.origin), start := s.beat.count + 1, waits := false
      since := s.beat.localBeats }] } } : State).ok c 0x0F00 (beatBytes (s.beat.count + 1)) := by
  unfold State.stageReset
  rw [running]
  exact ⟨_, rfl⟩

/-- While one reset runs that is not the engine's, a RESET is staged for the boundary after its end. -/
theorem stageReset_waits {x : ResetReq} (running : s.mgmt.running = [x]) (staged : s.mgmt.resets = []) (plain : x.scope ≠ 4) :
    s.stageReset c scope n = ({ s with mgmt := { s.mgmt with resets := [{
      scope := scope, unit := n, setter := BitVec.ofNat 16 (srcCode c.src + 4 * c.origin), start := s.beatAfter x, waits := true
      since := s.beat.localBeats }] } } : State).ok c 0x0F00 (beatBytes (s.beatAfter x)) := by
  unfold State.stageReset
  rw [running, staged]
  dsimp only [List.getLast?_singleton, List.find?_nil]
  rw [if_neg plain]
  dsimp only
  rw [staged]
  rfl

end

/-! ## The start of a reset (R451, R455) -/

/-- No command is deferred and no partition is under test: a reset has nothing to end. -/
theorem stopForReset_idle {s : State} (active : s.bist.active = []) (restoring : s.bist.restoring = [])
    (deferred : s.mgmt.deferred = []) (l : List Nat) : s.stopForReset l = s := by
  have none_ : l.filter s.underTest = [] := List.filter_eq_nil_iff.mpr fun tp _ => by simp [State.underTest, active, restoring]
  unfold State.stopForReset State.abortCheck
  rw [none_]
  dsimp only [List.foldl_nil]
  rw [deferred]
  rfl

theorem finishAll_none {s : State} (deferred : s.mgmt.deferred = []) (p : Work → Bool) (st : BitVec 8) (d : Nat) :
    s.finishAll p st d = s := by
  unfold State.finishAll
  rw [deferred]
  rfl

theorem resetStart_waits {s : State} (none_ : ∀ r ∈ s.mgmt.resets, r.waits = true ∨ s.beat.localBeats ≤ r.since) :
    exec .resetStart s = .next s := by
  have later : (s.mgmt.resets.find? fun r => !r.waits && decide (r.since < s.beat.localBeats)) = none :=
    List.find?_eq_none.mpr fun r mem => by
      rcases none_ r mem with waits | early
      · simp [waits]
      · simp [Nat.not_lt.mpr early]
  show execResetStart s = _
  unfold execResetStart
  rw [later]
  split <;> rfl

theorem afterReset_keeps (m : FabMem) : m.afterReset.cells = m.cells ∧ m.afterReset.allocs = m.allocs ∧ m.afterReset.slotMap = m.slotMap
    ∧ m.afterReset.eccLog = [] ∧ m.afterReset.poison = m.poison := by
  unfold FabMem.afterReset
  generalize List.foldl _ _ _ = regs
  exact ⟨rfl, rfl, rfl, rfl, rfl⟩

/-- A due reset of the memory scope, with nothing to end, clears the memory's logs and counts. -/
theorem resetStart_memory {s : State} {r : ResetReq} (live : s.live = true) (steps : s.beat.stepsDue = false)
    (staged : s.mgmt.resets = [r]) (ready : r.waits = false) (due : r.since < s.beat.localBeats) (scope : r.scope = 3)
    (deferred : s.mgmt.deferred = []) (active : s.bist.active = []) (restoring : s.bist.restoring = []) :
    exec .resetStart s = .next { s with
      mgmt := { s.mgmt with resets := [], running := s.mgmt.running ++ [{ r with start := s.beat.count }], lastScope := 3
                            cause := 2, setter := r.setter, resetBeat := s.beat.count }
      mem := s.mem.afterReset, pkg := { s.pkg with selfRefresh := true } } := by
  have gone : s.mgmt.resets.filter (· != r) = [] := by simp [staged]
  have found : (s.mgmt.resets.find? fun r => !r.waits && decide (r.since < s.beat.localBeats)) = some r := by
    rw [staged, List.find?_cons_of_pos (by simp [ready, due])]
  have runs : exec .resetStart s = .next (s.startReset r) := by
    show execResetStart s = _
    unfold execResetStart
    rw [live, steps, found]
    rfl
  rw [runs]
  unfold State.startReset
  dsimp only
  rw [stopForReset_idle active restoring deferred, finishAll_none deferred, gone, scope]
  rfl

/-! ## The end of a reset (R451, R452) -/

theorem resetEnd_memory {s : State} {r : ResetReq} (live : s.live = true) (running : s.mgmt.running = [r]) (scope : r.scope = 3) :
    exec .resetEnd s = .next { s with
      mgmt := { s.mgmt with running := [], resets := s.mgmt.resets.map fun x => if x.waits then s.dueReset 3 x else x }
      pkg := { s.pkg with selfRefresh := false } } := by
  have runs : exec .resetEnd s = .next s.endReset := by
    show execResetEnd s = _
    unfold execResetEnd
    rw [live, running, List.head?_cons, Option.map_some, scope]
    rfl
  have wakes : (s.pkg.selfRefresh && r.scope != 3 && r.scope != 6) = false := by simp [scope]
  rw [runs]
  unfold State.endReset
  rw [running]
  dsimp only
  rw [if_neg (by simp [scope]), wakes, scope]
  rfl

theorem markerWait_holds {s : State} {r : ResetReq} (running : s.mgmt.running = [r]) (scope : r.scope = 4)
    (waits : s.mgmt.markerWait = true) (markers : s.markersWait = true) : exec .resetEnd s = .next s := by
  show execResetEnd s = _
  unfold execResetEnd
  rw [running, List.head?_cons, Option.map_some, scope, waits, markers]
  exact if_pos (by simp)

theorem markerWaitExpiry_early {s : State} {r : ResetReq} (running : s.mgmt.running = [r])
    (early : (s.beat.count - r.start).toNat < 16) : exec .resetMarkerWaitExpiry s = .next s := by
  show execResetMarkerWaitExpiry s = _
  unfold execResetMarkerWaitExpiry
  rw [running]
  dsimp only
  rw [List.any_cons, decide_eq_false (Nat.not_le.mpr early)]
  exact if_neg (by simp)

theorem markerWaitExpiry_clears {s : State} {r : ResetReq} (live : s.live = true) (running : s.mgmt.running = [r])
    (scope : r.scope = 4) (waits : s.mgmt.markerWait = true) (late : 16 ≤ (s.beat.count - r.start).toNat)
    (entry : s.coll.entry = []) : exec .resetMarkerWaitExpiry s = .next { s with
      coll := s.coll.emptied, mgmt := { s.mgmt with markerWait := false } } := by
  have clears : s.clearColl = { s with coll := s.coll.emptied, mgmt := { s.mgmt with markerWait := false } } := by
    unfold State.clearColl
    rw [entry]
    rfl
  rw [← clears]
  show execResetMarkerWaitExpiry s = _
  unfold execResetMarkerWaitExpiry
  rw [running]
  dsimp only
  rw [List.any_cons, decide_eq_true late, live, waits, scope]
  rfl

/-- Settles O55: RESET by what is under test, staged and running; the start of a memory reset with nothing to end; the ends. -/
theorem resetsAreStagedRunAndEnd : Obligations.ResetsAreStagedRunAndEnd := by
  refine ⟨fun c i unit scope n s ho row => ?_, fun s live steps => ⟨resetStart_waits, fun r staged ready due scope deferred active
    restoring _ => ?_⟩, fun r s live running => ⟨fun scope => ?_, fun scope waits => ⟨markerWait_holds running scope waits,
    markerWaitExpiry_early running, fun late entry => ?_⟩⟩⟩
  · rw [reset_runs ho row]
    refine ⟨fun busy => by rw [runReset_busy busy], fun free => ⟨fun running apart => ?_, fun x running staged within => ?_,
      fun x running staged plain apart => ?_⟩⟩
    · rw [runReset_apart free (outerReset_none running apart)]
      obtain ⟨kept, stages⟩ := stageReset_next (c := c) (scope := scope) (n := n) running
      exact ⟨_, congrArg Host.Outcome.next stages, ⟨_, List.mem_append_right kept List.mem_cons_self, rfl, rfl, rfl, rfl, rfl⟩, rfl⟩
    · exact congrArg Host.Outcome.next (runReset_within free (outerReset_staged running staged within))
    · rw [runReset_apart free (outerReset_running running staged apart)]
      exact ⟨_, congrArg Host.Outcome.next (stageReset_waits running staged plain), rfl⟩
  · obtain ⟨cells, allocs, slotMap, eccLog, poison⟩ := afterReset_keeps s.mem
    refine ⟨_, resetStart_memory live steps staged ready due scope deferred active restoring, ?_, rfl, rfl, rfl, rfl, rfl, cells, allocs,
      slotMap, eccLog, poison, rfl, rfl, rfl⟩
    simp [State.memInReset, State.scopeRuns, scope]
  · exact ⟨_, resetEnd_memory live running scope, rfl, rfl, rfl, rfl, rfl⟩
  · exact ⟨_, markerWaitExpiry_clears live running scope waits late entry, rfl, rfl, rfl, rfl, rfl, rfl⟩

end Sys2Proof.Claims
end

section
/-! PROOFS. The PCIe registers, the fetch and the TC7 frames (O56). -/

namespace Sys2Proof.Claims
open Sys2Proof.Machine

theorem isOpen_open {s : State} (ho : Open s) : s.isOpen = true := by
  rw [State.isOpen, ho.1, ho.2]
  rfl

section
variable {s : State}

theorem cmdTailWrite_runs (ho : Open s) (v : Word) : exec (.cmdTailWrite v) s = .next { s with ring := { s.ring with
    tail := v.truncate 32, overrun := s.ring.overrun || decide (s.ringSize < ((v.truncate 32 : BitVec 32) - s.ring.done).toNat) } } := by
  show execCmdTailWrite v s = _
  unfold execCmdTailWrite
  rw [isOpen_open ho]
  rfl

theorem pcieCmdFetch_runs (ho : Open s) (may : s.mayFetch = true) {b : Bytes} (whole : b.length = slotBytes s.ring.cmdSlot) :
    exec (.pcieCmdFetch b) s = .next (({ s with ring := { s.ring with head := s.ring.head + 1 } }.writeSlot s.ring.head.toNat
      (packetPending .pcie 0 s.ring.head.toNat (slotPacket b))).arrive {
        pair := 0, index := s.ring.head.toNat, tooLong := decide (b.length < pktLength b), bytes := slotPacket b }) := by
  show execPcieCmdFetch b s = _
  unfold execPcieCmdFetch
  rw [isOpen_open ho, may, whole, beq_self_eq_true]
  rfl

theorem pcieCmdFetch_waits (may : s.mayFetch = false) (b : Bytes) : exec (.pcieCmdFetch b) s = .next s := by
  show execPcieCmdFetch b s = _
  unfold execPcieCmdFetch
  exact if_neg (by simp [may])

/-! ## DONE (R76) -/

/-- A reply slot after DONE has moved: a reply that it passes is marked REPLAYED (R76). -/
def markPassed (s : State) (v : Word) (x : RingSlot) : RingSlot :=
  if s.consumed x.index = false ∧ State.consumed { s with ring := { s.ring with done := v.truncate 32 } } x.index = true
      ∧ x.reply.status ≠ stPending then
    { x with reply := { x.reply with replayed := true } }
  else x

theorem replyDoneWrite_runs (ho : Open s) (v : Word) : exec (.replyDoneWrite v) s = .next { s with ring := { s.ring with
    done := v.truncate 32, slots := s.ring.slots.map fun e => (e.1, markPassed s v e.2) } } := by
  show execReplyDoneWrite v s = _
  unfold execReplyDoneWrite
  rw [isOpen_open ho]
  rfl

/-- A slot that is PENDING is left as it is. -/
theorem markPassed_pending {v : Word} {x : RingSlot} (pending : (markPassed s v x).reply.status = stPending) : markPassed s v x = x := by
  unfold markPassed at pending ⊢
  split
  next h =>
    rw [if_pos h] at pending
    exact absurd pending h.2.2
  next => rfl

theorem replyDoneWrite_effect (ho : Open s) (v : Word) : ∃ t, exec (.replyDoneWrite v) s = .next t ∧ t.ring.done = v.truncate 32
    ∧ (∀ e ∈ t.ring.slots, e.2.reply.status = stPending → e ∈ s.ring.slots)
    ∧ (∀ e ∈ s.ring.slots, s.consumed e.2.index = false → t.consumed e.2.index = true → e.2.reply.status ≠ stPending →
        ∃ e' ∈ t.ring.slots, e'.1 = e.1 ∧ e'.2.reply = { e.2.reply with replayed := true })
    ∧ t = { s with ring := { s.ring with done := t.ring.done, slots := t.ring.slots } } := by
  refine ⟨_, replyDoneWrite_runs ho v, rfl, fun e mem pending => ?_, fun e mem before after done => ?_, rfl⟩
  · obtain ⟨x, slot, rfl⟩ := List.mem_map.mp mem
    rw [markPassed_pending pending]
    exact slot
  · refine ⟨_, List.mem_map_of_mem mem, rfl, ?_⟩
    exact congrArg RingSlot.reply (if_pos ⟨before, after, done⟩)

/-! ## The words of BAR0 (R71, R73) -/

theorem ringCfgWrite_effect (ho : Open s) (v : Word) (off : s.ring.enable = false) : ∃ t, exec (.ringCfgWrite v) s = .next t
    ∧ t.ring.slotsLog2 = (if 4 ≤ wbits v 3 0 ∧ wbits v 3 0 ≤ 12 then wbits v 3 0 else s.ring.slotsLog2)
    ∧ t.ring.cmdSlot = (if wbits v 9 8 = 3 then s.ring.cmdSlot else wbits v 9 8)
    ∧ t.ring.replySlot = (if wbits v 13 12 = 3 then s.ring.replySlot else wbits v 13 12)
    ∧ (wbits v 3 0 < 4 ∨ 12 < wbits v 3 0 ∨ wbits v 9 8 = 3 ∨ wbits v 13 12 = 3 → t.ring.cfgErr = true ∧ t.ring.enable = false)
    ∧ (s.ring.cfgErr = false → 4 ≤ wbits v 3 0 → wbits v 3 0 ≤ 12 → wbits v 9 8 ≠ 3 → wbits v 13 12 ≠ 3 →
        t.ring.enable = wbit v 31 ∧ t.ring.cfgErr = false)
    ∧ t = { s with ring := { s.ring with
        overrun := t.ring.overrun, cfgErr := t.ring.cfgErr, slotsLog2 := t.ring.slotsLog2, cmdSlot := t.ring.cmdSlot
        replySlot := t.ring.replySlot, enable := t.ring.enable } } := by
  have runs : exec (.ringCfgWrite v) s = .next (s.updRing fun r => { r with
      overrun := w1c r.overrun (wbit v 30)
      cfgErr := w1c r.cfgErr (wbit v 29) || (!s.ring.enable && (!(decide (4 ≤ wbits v 3 0) && decide (wbits v 3 0 ≤ 12))
        || wbits v 9 8 == 3 || wbits v 13 12 == 3))
      slotsLog2 := if !r.enable && (decide (4 ≤ wbits v 3 0) && decide (wbits v 3 0 ≤ 12)) then wbits v 3 0 else r.slotsLog2
      cmdSlot := if !r.enable && wbits v 9 8 != 3 then wbits v 9 8 else r.cmdSlot
      replySlot := if !r.enable && wbits v 13 12 != 3 then wbits v 13 12 else r.replySlot
      enable := wbit v 31 && !r.cfgErr && !(!s.ring.enable && (!(decide (4 ≤ wbits v 3 0) && decide (wbits v 3 0 ≤ 12))
        || wbits v 9 8 == 3 || wbits v 13 12 == 3)) }) := by
    show execRingCfgWrite v s = _
    unfold execRingCfgWrite
    rw [isOpen_open ho]
    rfl
  generalize wbits v 3 0 = size at *
  generalize wbits v 9 8 = cmd at *
  generalize wbits v 13 12 = reply at *
  refine ⟨_, runs, ?_, ?_, ?_, fun bad => ?_, fun clear low high cmdOk replyOk => ?_, rfl⟩
  · simp [State.updRing, off]
  · by_cases reserved : cmd = 3 <;> simp [State.updRing, off, reserved]
  · by_cases reserved : reply = 3 <;> simp [State.updRing, off, reserved]
  · have bad : (!(decide (4 ≤ size) && decide (size ≤ 12)) || cmd == 3 || reply == 3) = true := by
      simp only [Bool.or_eq_true, Bool.not_eq_true', Bool.and_eq_false_iff, decide_eq_false_iff_not, beq_iff_eq]
      omega
    constructor
    · show (_ || (!s.ring.enable && _)) = true
      rw [off, bad]
      simp
    · show (wbit v 31 && !s.ring.cfgErr && !(!s.ring.enable && _)) = false
      rw [off, bad]
      simp
  · simp [State.updRing, off, clear, low, high, cmdOk, replyOk, w1c]

theorem ringBaseWrite_effect (ho : Open s) (reply : Bool) (v : Word) : ∃ t, exec (.ringBaseWrite reply v) s = .next t
    ∧ t.ring.cmdBase = (if s.ring.enable = false ∧ reply = false then v &&& ~~~(0xFFF : Word) else s.ring.cmdBase)
    ∧ t.ring.replyBase = (if s.ring.enable = false ∧ reply = true then v &&& ~~~(0xFFF : Word) else s.ring.replyBase)
    ∧ (wbits v 11 0 ≠ 0 → t.ring.cfgErr = true)
    ∧ t = { s with ring := { s.ring with cmdBase := t.ring.cmdBase, replyBase := t.ring.replyBase, cfgErr := t.ring.cfgErr } } := by
  have runs : exec (.ringBaseWrite reply v) s = .next (s.updRing fun r => { r with
      cfgErr := r.cfgErr || decide (wbits v 11 0 ≠ 0)
      cmdBase := if !r.enable && !reply then v &&& ~~~(0xFFF : Word) else r.cmdBase
      replyBase := if !r.enable && reply then v &&& ~~~(0xFFF : Word) else r.replyBase }) := by
    show execRingBaseWrite reply v s = _
    unfold execRingBaseWrite
    rw [isOpen_open ho]
    rfl
  refine ⟨_, runs, ?_, ?_, fun low => ?_, rfl⟩
  · simp [State.updRing]
  · simp [State.updRing]
  · simp [State.updRing, low]

theorem bar0Write_ignores {off : BitVec 12} (other : off ≠ 0x38) (v : Word) : exec (.bar0Write off v) s = .next s := by
  show execBar0Write off v s = _
  unfold execBar0Write
  exact if_neg (by rw [beq_false_of_ne other]; simp)

theorem bar0Write_irqCfg (ho : Open s) (v : Word) : exec (.bar0Write 0x38 v) s = .next { s with ring := { s.ring with
    holdoff := BitVec.ofNat 16 (wbits v 31 16), irqEn := wbit v 0 } } := by
  show execBar0Write 0x38 v s = _
  unfold execBar0Write
  rw [isOpen_open ho]
  rfl

theorem holdoffEnd_idle (gap : s.ring.gapRuns = false) : exec .replyIrqHoldoffEnd s = .next s := by
  show execReplyIrqHoldoffEnd s = _
  unfold execReplyIrqHoldoffEnd
  rw [gap]
  rfl

theorem holdoffEnd_quiet (gap : s.ring.gapRuns = true) (waits : s.ring.irqWaits = false) :
    exec .replyIrqHoldoffEnd s = .next { s with ring := { s.ring with gapRuns := false } } := by
  show execReplyIrqHoldoffEnd s = _
  unfold execReplyIrqHoldoffEnd State.updRing
  rw [gap]
  dsimp only
  rw [waits]
  rfl

theorem holdoffEnd_raises (gap : s.ring.gapRuns = true) (waits : s.ring.irqWaits = true) (enabled : s.ring.irqEn = true) :
    exec .replyIrqHoldoffEnd s = .next { s with
      ring := { s.ring with gapRuns := decide (s.ring.holdoff ≠ 0), irqWaits := false }, out := s.out ++ [.msix 0] } := by
  show execReplyIrqHoldoffEnd s = _
  unfold execReplyIrqHoldoffEnd State.updRing
  rw [gap, waits]
  dsimp only
  unfold State.replyIrq
  dsimp only
  rw [enabled]
  rfl

/-! ## TC7 frames (R77) -/

/-- A CMD frame that has been claimed: its cells are freed, and it arrives when its LP is allowed. -/
def tc7Claimed (lp : Nat) (f : InFrame) (allowed : Bool) (r : State × Option DivFrame) : State :=
  match r with
  | (t, none) => t
  | (t, some _) =>
    let t := t.freeFrame lp f
    if allowed then t.arrive { pair := pairOf .tc7 lp, index := 0, tooLong := false, bytes := frameData f }
    else t.countLp lp 0x0110 none none 1

variable {lp : Lp} {f : InFrame}

theorem tc7CmdFrame_foreign : exec (.tc7CmdFrame lp true f) s = .next s := by
  show execTc7CmdFrame lp true f s = _
  unfold execTc7CmdFrame
  exact if_pos (by simp)

theorem tc7CmdFrame_claims (ho : Open s) (switch : s.switchInReset = false) (ftype : f.hdr.ftype = 7) (tc : f.hdr.tc = 7)
    (given : frameGiven f = true) :
    exec (.tc7CmdFrame lp false f) s = .next (tc7Claimed lp.val f (s.tc7Allowed lp.val) (s.claim lp.val false f)) := by
  show execTc7CmdFrame lp false f s = _
  unfold execTc7CmdFrame
  refine (if_neg (by rw [isOpen_open ho, switch, ftype, tc, given]; decide)).trans ?_
  unfold tc7Claimed
  generalize s.claim lp.val false f = r
  obtain ⟨t, _ | d⟩ := r
  · rfl
  · cases s.tc7Allowed lp.val <;> rfl

theorem SwitchMoved.tc7 {t : State} (h : SwitchMoved s t) : t.mgmt = s.mgmt ∧ t.out = s.out := by
  rw [h]
  exact ⟨rfl, rfl⟩

theorem tc7CmdFrame_arrivesFirst (ho : Open s) (ftype : f.hdr.ftype = 7) (tc : f.hdr.tc = 7) (given : frameGiven f = true) :
    ArrivesFirst (.tc7CmdFrame lp false f) lp.val f s := by
  intro port switch first
  have moved := switchMoved_arriveFrame s lp.val f
  obtain ⟨live', switch', -⟩ := moved.gates
  have open' : Open (s.arriveFrame lp.val f) := ⟨live'.trans ho.1, by rw [State.mgmtInReset, State.scopeRuns, moved.tc7.1]; exact ho.2⟩
  obtain ⟨diverted, gone⟩ := claim_arrives false port switch first
  refine ⟨fun h => ?_, fun h => ?_⟩
  · rw [tc7CmdFrame_claims ho switch ftype tc given, tc7CmdFrame_claims open' (switch'.trans switch) ftype tc given, diverted h,
      State.tc7Allowed, State.tc7Allowed, moved.tc7.1]
  · rw [tc7CmdFrame_claims ho switch ftype tc given, gone h]
    rfl

theorem tc7CmdFrame_allowed (ho : Open s) (switch : s.switchInReset = false) (ftype : f.hdr.ftype = 7) (tc : f.hdr.tc = 7)
    (given : frameGiven f = true) {id : Nat} (head : HeadsFlow s lp.val false f id) (allowed : s.tc7Allowed lp.val = true) :
    ∃ t, exec (.tc7CmdFrame lp false f) s = .next t ∧ t.mgmt = { s.mgmt with arrivals := s.mgmt.arrivals ++ [{
      pair := pairOf .tc7 lp.val, index := 0, tooLong := false, bytes := frameData f }] } ∧ t.out = s.out := by
  have runs := tc7CmdFrame_claims (lp := lp) ho switch ftype tc given
  rw [claim_head head, allowed] at runs
  obtain ⟨mgmt, out⟩ := (switchMoved_freeCells (withoutHead s lp.val f) lp.val f.hdr.tc.toNat f.arrived).tc7
  refine ⟨_, runs, ?_, out⟩
  exact congrArg (fun m : Mgmt => { m with arrivals := m.arrivals ++ [({
    pair := pairOf .tc7 lp.val, index := 0, tooLong := false, bytes := frameData f } : Packet)] }) mgmt

theorem tc7CmdFrame_denied (ho : Open s) (switch : s.switchInReset = false) (ftype : f.hdr.ftype = 7) (tc : f.hdr.tc = 7)
    (given : frameGiven f = true) {id : Nat} (head : HeadsFlow s lp.val false f id) (denied : s.tc7Allowed lp.val = false) :
    ∃ t, exec (.tc7CmdFrame lp false f) s = .next t ∧ t.mgmt = s.mgmt ∧ t.out = s.out := by
  have runs := tc7CmdFrame_claims (lp := lp) ho switch ftype tc given
  rw [claim_head head, denied] at runs
  obtain ⟨mgmt, out⟩ := ((switchMoved_freeCells (withoutHead s lp.val f) lp.val f.hdr.tc.toNat f.arrived).trans
    (onlyCounted_countLp _ lp.val 0x0110 none none 1).switchMoved).tc7
  exact ⟨_, runs, mgmt, out⟩

end

/-- Settles O56: each register's row is its equation, and a TC7 frame is claimed as every frame for an agent. -/
theorem commandsReachTheController : Obligations.CommandsReachTheController := by
  refine fun s ho => ⟨cmdTailWrite_runs ho, fun b may whole => ?_, fun b may => pcieCmdFetch_waits may b, replyDoneWrite_effect ho,
    ringCfgWrite_effect ho, ringBaseWrite_effect ho, fun off v => ⟨fun other => bar0Write_ignores other v, ?_⟩, holdoffEnd_idle,
    holdoffEnd_quiet, fun gap waits enabled => ⟨_, holdoffEnd_raises gap waits enabled, rfl, rfl, rfl⟩,
    fun lp f switch ftype tc given => ⟨tc7CmdFrame_arrivesFirst ho ftype tc given, tc7CmdFrame_foreign, fun id head =>
      ⟨tc7CmdFrame_allowed ho switch ftype tc given head, tc7CmdFrame_denied ho switch ftype tc given head⟩⟩⟩
  · refine ⟨_, pcieCmdFetch_runs ho may whole, rfl, ⟨_, rfl, rfl, rfl, rfl⟩, ?_, rfl⟩
    exact congrArg (fun x : RingSlot => x.reply.status) (sget_sput_same ..)
  · rintro rfl
    exact bar0Write_irqCfg ho v

end Sys2Proof.Claims
end

section
/-! PROOFS. COMMAND_DISPATCH: the rotation finds the one packet, and the checks of R63 in their order (O57). -/

namespace Sys2Proof.Claims
open Sys2Proof.Machine

/-! ## The rotation (R66, R67) -/

/-- A search all of whose hits are one value finds it when there is a hit. -/
theorem findSome?_only {α β : Type} {f : α → Option β} {v : β} {l : List α} (hit : ∃ k ∈ l, f k = some v)
    (only : ∀ k ∈ l, f k = none ∨ f k = some v) : l.findSome? f = some v := by
  induction l with
  | nil =>
    obtain ⟨k, mem, -⟩ := hit
    cases mem
  | cons x xs ih =>
    rcases only x List.mem_cons_self with miss | found
    · rw [List.findSome?_cons, miss]
      refine ih ?_ fun k mem => only k (List.mem_cons_of_mem _ mem)
      obtain ⟨k, mem, found⟩ := hit
      rcases List.mem_cons.mp mem with rfl | later
      · rw [miss] at found
        cases found
      · exact ⟨k, later, found⟩
    · rw [List.findSome?_cons, found]

/-- The rotation turns to every pair. -/
theorem pair_in_turn (s : State) {src : Src} {origin : Nat} (low : origin < 128) (plain : src ≠ .tc7 → origin = 0) (last : Src) :
    (src, origin) ∈ ((sourcesAfter last).map s.pairsInTurn).flatten := by
  have turn : src ∈ sourcesAfter last := by
    cases last <;> cases src <;> simp [sourcesAfter]
  refine List.mem_flatten.mpr ⟨s.pairsInTurn src, List.mem_map_of_mem turn, ?_⟩
  cases src with
  | tc7 =>
    refine List.mem_map.mpr ⟨(origin + 128 - (s.mgmt.lastOrigin + 1) % 128) % 128, List.mem_range.mpr (Nat.mod_lt _ (by decide)), ?_⟩
    refine Prod.ext rfl ?_
    show (s.mgmt.lastOrigin + 1 + (origin + 128 - (s.mgmt.lastOrigin + 1) % 128) % 128) % 128 = origin
    omega
  | sb | i3c | pcie =>
    rw [plain nofun]
    exact List.mem_singleton.mpr rfl

/-- A turn of the rotation is its pair's only one. -/
theorem turn_of_pair (s : State) {src : Src} {origin : Nat} (plain : src ≠ .tc7 → origin = 0) {last : Src} {k : Src × Nat}
    (turn : k ∈ ((sourcesAfter last).map s.pairsInTurn).flatten) (same : pairOf src origin = pairOf k.1 k.2) : k = (src, origin) := by
  obtain ⟨l, mem, inTurn⟩ := List.mem_flatten.mp turn
  obtain ⟨other, -, rfl⟩ := List.mem_map.mp mem
  have kind : k.1 = other ∧ (other ≠ .tc7 → k.2 = 0) := by
    cases other with
    | tc7 =>
      obtain ⟨j, -, rfl⟩ := List.mem_map.mp inTurn
      exact ⟨rfl, fun h => absurd rfl h⟩
    | sb | i3c | pcie =>
      rw [List.mem_singleton.mp inTurn]
      exact ⟨rfl, fun _ => rfl⟩
  obtain ⟨a, b⟩ := k
  obtain ⟨rfl, zero⟩ := kind
  cases a <;> cases src <;> simp [pairOf] at same plain zero ⊢ <;> omega

theorem nextPacket_none {s : State} (none_ : s.mgmt.arrivals = []) : s.nextPacket = none := by
  refine List.findSome?_eq_none_iff.mpr fun k _ => ?_
  unfold State.readyPacket
  rw [none_]
  rfl

theorem readyPacket_one {s : State} {p : Packet} (deferred : s.mgmt.deferred = []) (one : s.mgmt.arrivals = [p]) (pair : Nat) :
    s.readyPacket pair = if p.pair = pair then some p else none := by
  have idle : s.deferredOf pair = 0 := by
    rw [State.deferredOf, deferred]
    rfl
  unfold State.readyPacket
  rw [one, idle]
  by_cases same : p.pair = pair
  · rw [if_pos same, List.find?_cons_of_pos (by simpa using same)]
    simp
  · rw [if_neg same, List.find?_cons_of_neg (by simpa using same)]
    rfl

/-- The one packet that waits, with nothing deferred, is the next one. -/
theorem nextPacket_one {s : State} {src : Src} {origin : Nat} {p : Packet} (deferred : s.mgmt.deferred = [])
    (one : s.mgmt.arrivals = [p]) (pair : p.pair = pairOf src origin) (low : origin < 128) (plain : src ≠ .tc7 → origin = 0) :
    s.nextPacket = some ((src, origin), p) := by
  refine findSome?_only ⟨(src, origin), pair_in_turn s low plain _, ?_⟩ fun k turn => ?_
  · rw [readyPacket_one deferred one, if_pos pair]
    rfl
  · rw [readyPacket_one deferred one]
    by_cases same : p.pair = pairOf k.1 k.2
    · right
      rw [if_pos same, turn_of_pair s plain turn (pair.symm.trans same)]
      rfl
    · left
      rw [if_neg same]
      rfl

/-! ## The checks in order (R63) -/

/-- With no steps due and no reset staged a command boundary does nothing. -/
theorem commandBoundary_idle {s : State} (steps : s.beat.stepsDue = false) (resets : s.mgmt.resets = []) : s.commandBoundary = s := by
  unfold State.commandBoundary State.startResets
  rw [steps]
  show List.foldl _ s s.mgmt.resets = s
  rw [resets]
  rfl

theorem commandDispatch_none {s : State} (ho : Open s) (steps : s.beat.stepsDue = false) (resets : s.mgmt.resets = [])
    (none_ : s.mgmt.arrivals = []) : exec .commandDispatch s = .next s := by
  show execCommandDispatch s = _
  unfold execCommandDispatch
  rw [isOpen_open ho, commandBoundary_idle steps resets]
  dsimp only
  rw [isOpen_open ho, nextPacket_none none_]
  rfl

theorem commandDispatch_takes {s : State} {src : Src} {origin : Nat} {p : Packet} (one : OneArrival s src origin p) :
    exec .commandDispatch s = (s.takePacket (src, origin)).runPacket src origin p := by
  obtain ⟨ho, steps, resets, deferred, arrivals, pair, low, plain⟩ := one
  show execCommandDispatch s = _
  unfold execCommandDispatch
  rw [isOpen_open ho, commandBoundary_idle steps resets]
  dsimp only
  rw [isOpen_open ho, nextPacket_one deferred arrivals pair low plain]
  rfl

theorem takePacket_effect {s : State} {src : Src} {origin : Nat} {p : Packet} (arrivals : s.mgmt.arrivals = [p])
    (pair : p.pair = pairOf src origin) :
    (s.takePacket (src, origin)).mgmt.arrivals = [] ∧ (s.takePacket (src, origin)).mgmt.lastSource = src := by
  refine ⟨?_, rfl⟩
  show dropFirst _ s.mgmt.arrivals = []
  rw [arrivals]
  exact if_pos (by simpa using pair)

section
variable {u : State} {src : Src} {origin : Nat} {p : Packet}

/-- Steps 4 and later of R63, for a packet that has passed the checks before. -/
def runAccepted (u : State) (src : Src) (origin : Nat) (p : Packet) : Out :=
  let b := p.bytes
  let c := parseCmd src origin p.index b
  let op : BitVec 16 := BitVec.ofNat 16 (pktOpcode b)
  let s := u.seeController src
  let pair := pairOf src origin
  if !s.inWindow pair c.seq then .next (s.replay c op)
  else
    let s := { s with mgmt := { s.mgmt with lastSeq := sput s.mgmt.lastSeq pair (some c.seq) none } }
    let params := slice b 32 (b.length - 32 - 16 * b2n c.auth)
    if !sourceMay op.toNat src params then .next (s.complete c op true stBadOpcode 0 [])
    else if !lengthOk op.toNat params then .next (s.complete c op true stBadLength (expectLength op.toNat c.auth) [])
    else s.runParams c op b params

theorem runPacket_accepted (length : u.lengthBad src p = false) (version : byteField p.bytes 0 1 = 1)
    (sender : senderBad src origin p.bytes = false) (auth : u.authBad (parseCmd src origin p.index p.bytes) p.bytes = false) :
    u.runPacket src origin p = runAccepted u src origin p := by
  unfold State.runPacket
  dsimp only
  rw [if_neg (by simp [length]), if_neg (by simp [version]), if_neg (by simp [sender, auth])]
  rfl

end

/-- An accepted packet whose reserved fields are zero runs the row it spells, unless a parameter of it is in error. -/
theorem runParams_row {w : State} {c : Cmd} {op : BitVec 16} {b q : Bytes} {i : Instr} (spells : parseParams c op.toNat q = some (.row i))
    (hdr : hdrReserved b = none) (body : paramReserved op.toNat q = none) : w.runParams c op b q
    = match w.paramError i with
      | some off => .next (w.complete c op true stBadParam off [])
      | none => runOpcode i w := by
  unfold State.runParams
  rewrite [spells, hdr, body]
  dsimp only [Option.map_none]
  cases w.paramError i <;> rfl

/-- Settles O57: the one packet is taken, and each check of R63 is a branch of runPacket. -/
theorem dispatchChecksInOrder : Obligations.DispatchChecksInOrder := by
  refine ⟨fun s => commandDispatch_none, ?_⟩
  rintro src origin p s u c op one rfl rfl rfl
  obtain ⟨empty, last⟩ := takePacket_effect one.2.2.2.2.1 one.2.2.2.2.2.1
  rw [commandDispatch_takes one]
  generalize s.takePacket (src, origin) = u at *
  refine ⟨empty, last, fun bad => if_pos bad, fun length version => ?_, fun length version bad => ?_,
    fun length version sender auth v w q hv hq hw => ?_⟩
  · exact (if_neg (by simp [length])).trans (if_pos version)
  · exact (if_neg (by simp [length])).trans ((if_neg (by simp [version])).trans (if_pos bad))
  · rw [runPacket_accepted length version sender auth]
    subst hv hq hw
    refine ⟨fun old => if_pos (by simp [old]), fun new => ⟨fun denied => ?_, fun may bad => ?_, fun may ok i spells hdr body row => ?_⟩⟩
    · exact (if_neg (by simp [new])).trans (if_pos (by rw [denied]; rfl))
    · exact (if_neg (by simp [new])).trans ((if_neg (by rw [may]; decide)).trans (if_pos (by rw [bad]; rfl)))
    · have runs : runAccepted u src origin p = _ :=
        (if_neg (by simp [new])).trans ((if_neg (by rw [may]; decide)).trans ((if_neg (by rw [ok]; decide)).trans (runParams_row spells hdr body)))
      rw [runs]
      refine ⟨fun fine => ?_, fun off bad => by rw [bad]⟩
      obtain ⟨c', op', spelled⟩ : ∃ c' op', packetOf i = some (c', op') := by
        obtain ⟨x, eq⟩ := Option.ne_none_iff_exists'.mp row
        exact ⟨x.1, x.2, eq⟩
      rw [fine]
      exact runOpcode_of_packet spelled _

end Sys2Proof.Claims
end

section
/-! PROOFS. The I3C target (O58). -/

namespace Sys2Proof.Claims
open Sys2Proof.Machine

/-- The little-endian bytes of a number give it back as far as they hold it (R6). -/
theorem leNat_leBytes (n v : Nat) : leNat (leBytes n v) = v % 256 ^ n := by
  induction n generalizing v with
  | zero => simp [leBytes, leNat, Nat.mod_one]
  | succ n ih =>
    have byte : (BitVec.ofNat 8 (v % 256)).toNat = v % 256 := by simp
    rw [leBytes, leNat, ih, byte, Nat.pow_succ', Nat.mod_mul]

/-! ## Places of a bus store (R70, R78) -/

/-- The reply of an unread place, as its first read returns it. -/
theorem readReply_first {x : Stored} (unread : x.read = false) : readReply x false = x.reply := by
  unfold readReply
  split
  · rfl
  · rw [unread, Bool.or_false, Bool.or_false]

theorem readReply_again {x : Stored} (done : x.reply.status ≠ stPending) : readReply x true = { x.reply with replayed := true } := by
  unfold readReply
  rw [if_neg done, Bool.or_true, Bool.true_or]

/-- One pass of markRead over a place: the first place equal to x, counted from the end, is marked. -/
def markLast (x : Stored) (acc : Bool × List Stored) (e : Stored) : Bool × List Stored :=
  if !acc.1 && e == x then (true, { e with read := true } :: acc.2) else (acc.1, e :: acc.2)

theorem markRead_eq (x : Stored) (l : List Stored) : markRead x l = (l.reverse.foldl (markLast x) (false, [])).2 := rfl

theorem markLast_done (x : Stored) (l r : List Stored) : (l.foldl (markLast x) (true, r)).2 = l.reverse ++ r := by
  induction l generalizing r with
  | nil => rfl
  | cons e l ih =>
    rw [List.foldl_cons, show markLast x (true, r) e = (true, e :: r) from rfl, ih, List.reverse_cons, List.append_assoc]
    rfl

/-- Marking an unread place of a pair takes one from its unread places. -/
theorem markLast_unread {p : Stored → Bool} {x : Stored} (counts : p x = true) (marked : p { x with read := true } = false)
    {l : List Stored} (mem : x ∈ l) (r : List Stored) :
    ((l.foldl (markLast x) (false, r)).2.filter p).length + 1 = (l.filter p).length + (r.filter p).length := by
  induction l generalizing r with
  | nil => cases mem
  | cons e l ih =>
    rw [List.foldl_cons]
    by_cases same : e = x
    · subst same
      rw [show markLast e (false, r) e = (true, { e with read := true } :: r) by simp [markLast], markLast_done, List.filter_append,
        List.filter_cons_of_neg (by simp [marked]), List.filter_cons_of_pos counts, List.length_append, List.length_cons,
        List.filter_reverse, List.length_reverse]
      omega
    · have later : x ∈ l := by
        rcases List.mem_cons.mp mem with rfl | later
        · exact absurd rfl same
        · exact later
      rw [show markLast x (false, r) e = (false, e :: r) by simp [markLast, same], ih later]
      by_cases pe : p e = true
      · rw [List.filter_cons_of_pos pe, List.filter_cons_of_pos pe, List.length_cons, List.length_cons]
        omega
      · rw [List.filter_cons_of_neg pe, List.filter_cons_of_neg pe]

theorem oldestUnread_place {s : State} {pair : Nat} {x : Stored} (oldest : s.oldestUnread pair = some x) :
    x ∈ s.mgmt.stores ∧ x.pair = pair ∧ x.read = false := by
  unfold State.oldestUnread at oldest
  have kept := List.find?_some oldest
  simp only [Bool.and_eq_true, beq_iff_eq, Bool.not_eq_true'] at kept
  exact ⟨List.mem_of_find?_eq_some oldest, kept.1, kept.2⟩

/-- A whole read of the oldest unread place leaves one place fewer unread. -/
theorem unread_markRead {s : State} {pair : Nat} {x : Stored} (oldest : s.oldestUnread pair = some x) :
    State.unread { s with mgmt := { s.mgmt with stores := markRead x s.mgmt.stores } } pair + 1 = s.unread pair := by
  obtain ⟨mem, rfl, unread⟩ := oldestUnread_place oldest
  have counted := markLast_unread (p := fun e => e.pair == x.pair && !e.read) (x := x) (by simp [unread]) (by simp)
    (List.mem_reverse.mpr mem) []
  rw [← markRead_eq, List.filter_reverse, List.length_reverse] at counted
  simpa [State.unread] using counted

/-- A place stands for a packet that a bus has delivered. -/
theorem takePlace_mem (pair : Nat) (r : Reply) (dup : Bool) (l : List Stored) :
    { pair := pair, reply := r, read := false, dup := dup } ∈ takePlace pair r dup l :=
  List.mem_append_right _ (List.mem_singleton.mpr rfl)

section
variable {s : State}

/-! ## Private transfers (R70, R429) -/

theorem i3cWrite_acks (ho : Open s) (room : s.unread 1 < 8) (act : State) : s.i3cWrite act = .next (act.emit .i3cAck) := by
  unfold State.i3cWrite
  rw [isOpen_open ho, decide_eq_false (Nat.not_le.mpr room)]
  rfl

theorem i3cCommand_packet (ho : Open s) (room : s.unread 1 < 8) (b : Bytes) :
    exec (.i3cCommand 1 b) s = .next ((s.takeBus .i3c b).emit .i3cAck) := by
  show execI3cCommand 1 b s = _
  unfold execI3cCommand
  rw [if_neg (by decide), if_pos rfl, i3cWrite_acks ho room]

theorem i3cCommand_full (full : 8 ≤ s.unread 1) (b : Bytes) : exec (.i3cCommand 1 b) s = .next { s with out := s.out ++ [.i3cNack] } := by
  show execI3cCommand 1 b s = _
  unfold execI3cCommand
  rw [if_neg (by decide)]
  exact if_pos (by simp [full])

theorem i3cCommand_reserved (ho : Open s) (room : s.unread 1 < 8) {x : Byte} (b : Bytes) (packet : x ≠ 1) (select : x ≠ 2)
    (query : x ≠ 3) : exec (.i3cCommand x b) s = .next { s with
      side := { s.side with xferErrs := satAdd 0xFF s.side.xferErrs 1 }, out := s.out ++ [.i3cAck] } := by
  show execI3cCommand x b s = _
  unfold execI3cCommand
  rw [if_neg (not_or.mpr ⟨select, query⟩), if_neg packet, i3cWrite_acks ho room]
  rfl

theorem i3cPrivateRead_query (ho : Open s) (query : s.mgmt.i3cQuery = true) (early : Bool) :
    exec (.i3cPrivateRead early) s = .next { s with
      mgmt := { s.mgmt with i3cQuery := false }, out := s.out ++ [.i3cBytes (s.seqState 1)] } := by
  show execI3cPrivateRead early s = _
  unfold execI3cPrivateRead
  rw [isOpen_open ho]
  exact if_pos query

theorem i3cPrivateRead_none (ho : Open s) (query : s.mgmt.i3cQuery = false) (select : s.mgmt.i3cSelect = none)
    (oldest : s.oldestUnread 1 = none) (early : Bool) : exec (.i3cPrivateRead early) s = .next { s with out := s.out ++ [.i3cNack] } := by
  show execI3cPrivateRead early s = _
  unfold execI3cPrivateRead
  rw [isOpen_open ho, query]
  dsimp only
  rw [select, oldest]
  rfl

theorem i3cPrivateRead_oldest (ho : Open s) (query : s.mgmt.i3cQuery = false) (select : s.mgmt.i3cSelect = none) {x : Stored}
    (oldest : s.oldestUnread 1 = some x) (early : Bool) :
    exec (.i3cPrivateRead early) s = .next ((if early then s else s.takeRead x).emit (.i3cReply x.reply)) := by
  have first := readReply_first (oldestUnread_place oldest).2.2
  show execI3cPrivateRead early s = _
  unfold execI3cPrivateRead
  rw [isOpen_open ho, query]
  dsimp only
  rw [select, oldest]
  dsimp only
  rw [first]
  rfl

theorem i3cPrivateRead_selected (ho : Open s) (query : s.mgmt.i3cQuery = false) {q : BitVec 32} (select : s.mgmt.i3cSelect = some q)
    {x : Stored} (found : s.selected 1 q = some x) (done : x.reply.status ≠ stPending) :
    exec (.i3cPrivateRead false) s = .next (({ s with mgmt := { s.mgmt with i3cSelect := none } }.takeRead x).emit
      (.i3cReply { x.reply with replayed := true })) := by
  show execI3cPrivateRead false s = _
  unfold execI3cPrivateRead
  rw [isOpen_open ho, query]
  dsimp only
  rw [select]
  dsimp only
  rw [found]
  dsimp only
  rw [readReply_again done]
  rfl

theorem takeRead_done {x : Stored} (done : x.reply.status ≠ stPending) :
    s.takeRead x = { s with mgmt := { s.mgmt with stores := markRead x s.mgmt.stores } } := if_neg done

/-! ## Common command codes (R428, R430) -/

theorem ccc_open (ho : Open s) (act : State) : s.ccc act = .next act := if_pos (isOpen_open ho)

theorem raiseIbi_waits (waits : s.side.ibiDue = false ∨ s.side.ibiOn = false ∨ s.side.sinceIbi < 16) : s.raiseIbi = s :=
  if_neg (by rcases waits with due | off | soon <;> simp [*])

theorem raiseIbi_goes (due : s.side.ibiDue = true) (on : s.side.ibiOn = true) (passed : 16 ≤ s.side.sinceIbi) : s.raiseIbi = { s with
    side := { s.side with ibiDue := false, sinceIbi := 0 }, out := s.out ++ [.ibi s.side.attn] } :=
  if_pos (by simp [due, on, passed])

/-- The provisional ID of a vendor's half and a serial number (R428). -/
def idOf (high serial : Nat) : Nat := (high <<< 32) + (0x6412 <<< 16) + serial % 65536

theorem provisionalId_eq : provisionalId = idOf Config.i3cPidHigh.toNat Config.serial.toNat := rfl

theorem idOf_fields (high serial : Nat) : leNat (leBytes 6 (idOf high serial)) % 65536 = serial % 65536
    ∧ leNat (leBytes 6 (idOf high serial)) / 65536 % 65536 = 0x6412 := by
  simp only [leNat_leBytes, idOf, Nat.shiftLeft_eq, Nat.reducePow, Nat.reduceMul]
  constructor <;> omega

theorem ibiRaise_runs (ho : Open s) : exec .ibiRaise s = .next s.raiseIbi := if_pos (isOpen_open ho)

theorem bmcAbsent_waits (waits : s.side.wdogBeats = 0 ∨ s.side.wdogCount ≤ s.side.wdogBeats ∨ s.side.bmcAbsent = true) :
    exec .bmcAbsent s = .next s := by
  show execBmcAbsent s = _
  unfold execBmcAbsent
  refine if_neg ?_
  rcases waits with off | soon | known
  · simp [off]
  · simp [Nat.not_lt.mpr soon]
  · simp [known]

theorem bmcAbsent_sets (ho : Open s) (on : s.side.wdogBeats ≠ 0) (late : s.side.wdogBeats < s.side.wdogCount)
    (present : s.side.bmcAbsent = false) : exec .bmcAbsent s = .next { s with
      side := { s.side with bmcAbsent := true, absentSeen := true } } := by
  show execBmcAbsent s = _
  unfold execBmcAbsent
  exact if_pos (by simp [isOpen_open ho, on, late, present])

end

/-- Settles O58: transfers by XFER and by what a read finds, and each common command code as its equation. -/
theorem i3cTransfersAreAnswered : Obligations.I3cTransfersAreAnswered := by
  refine fun s ho => ⟨fun b => ⟨fun room => ?_, fun full => i3cCommand_full full b, fun x packet select query room =>
      i3cCommand_reserved ho room b packet select query⟩,
    fun room => ⟨fun q => i3cWrite_acks ho room _, i3cWrite_acks ho room _⟩, i3cPrivateRead_query ho,
    fun query => ⟨i3cPrivateRead_none ho query, fun x select oldest done => ⟨?_, ?_⟩, fun q x select found done => ?_⟩,
    fun a => ⟨ccc_open ho _, ?_, fun b other => ?_⟩, ccc_open ho _, fun n => ⟨ccc_open ho _, ccc_open ho _⟩, ccc_open ho _, ccc_open ho _,
    ⟨_, ?_, ?_, ?_, ccc_open ho _⟩, ⟨_, ccc_open ho _⟩, ⟨_, ccc_open ho _⟩, ⟨_, ?_, ccc_open ho _⟩, ccc_open ho _, fun waits => ?_,
    fun due passed => ⟨?_, fun off => ?_, fun on => ?_⟩, fun a => ?_, bmcAbsent_waits, bmcAbsent_sets ho⟩
  · exact ⟨_, i3cCommand_packet ho room b, rfl, rfl, ⟨_, takePlace_mem .., rfl, rfl, rfl⟩, rfl⟩
  · refine ⟨_, i3cPrivateRead_oldest ho query select oldest false, ?_⟩
    rw [if_neg (by decide), takeRead_done done]
    exact ⟨rfl, rfl, unread_markRead oldest⟩
  · exact i3cPrivateRead_oldest ho query select oldest true
  · have seq := List.find?_some found
    simp only [Bool.and_eq_true, beq_iff_eq] at seq
    refine ⟨_, i3cPrivateRead_selected ho query select found done, ?_⟩
    rw [takeRead_done done]
    exact ⟨rfl, seq.2, rfl⟩
  · refine (ccc_open ho _).trans (congrArg Host.Outcome.next ?_)
    by_cases fresh : s.side.dynAddr = 0
    · rw [if_pos ⟨fresh, rfl⟩, if_pos fresh]
      rfl
    · rw [if_neg fun h => fresh h.1, if_neg fresh]
  · exact (ccc_open ho _).trans (congrArg Host.Outcome.next (if_neg fun h => other h.2))
  · rw [List.length_reverse, leBytes_length]
  · rw [List.reverse_reverse, provisionalId_eq]
    exact (idOf_fields ..).1
  · rw [List.reverse_reverse, provisionalId_eq]
    exact (idOf_fields ..).2
  · rw [bytes2, List.length_reverse, leBytes_length]
  · have later : s.side.ibiDue = false ∨ s.side.ibiOn = false ∨ s.side.sinceIbi < 16 := waits.imp_right .inr
    refine ⟨(ccc_open ho _).trans (congrArg Host.Outcome.next (raiseIbi_waits ?_)), ?_⟩
    · exact waits.imp_right .inr
    · rw [ibiRaise_runs ho, raiseIbi_waits later]
  · exact (ccc_open ho _).trans (congrArg Host.Outcome.next (raiseIbi_goes due rfl passed))
  · rw [ibiRaise_runs ho, raiseIbi_waits (.inr (.inl off))]
  · rw [ibiRaise_runs ho, raiseIbi_goes due on passed]
  · show execRstact a s = _
    unfold execRstact
    rw [ccc_open ho]
    by_cases whole : a = 2
    · rw [if_pos whole, if_pos whole, if_pos whole]
      rfl
    · rw [if_neg whole, if_neg whole, if_neg whole]

end Sys2Proof.Claims
end

section
/-! PROOFS. The Sideband Chain: the frames on the wire, what the module takes of them, and enumeration (O59). -/

namespace Sys2Proof.Claims
open Sys2Proof.Machine

/-! ## The wire (R421, R422) -/

theorem crcDown_lt {p : Nat} (poly : p < 2 ^ 32) (n : Nat) {r : Nat} (h : r < 2 ^ 32) : crcDown p n r < 2 ^ 32 := by
  induction n generalizing r with
  | zero => exact h
  | succ n ih =>
    have shifted : r >>> 1 < 2 ^ 32 := by
      rw [Nat.shiftRight_eq_div_pow]
      omega
    rw [crcDown]
    split
    · exact ih (Nat.xor_lt_two_pow shifted poly)
    · exact ih shifted

theorem crc32c_lt (b : Bytes) : crc32c b < 2 ^ 32 := by
  refine Nat.xor_lt_two_pow ?_ (by decide)
  generalize hr : 0xFFFFFFFF = r
  have start : r < 2 ^ 32 := by omega
  clear hr
  induction b generalizing r with
  | nil => exact start
  | cons x b ih => exact ih _ (crcDown_lt (by decide) 8 (Nat.xor_lt_two_pow start (by omega)))

theorem sbBytes_length (f : SbFrame) : (sbBytes f).length = 12 + f.payload.length := by
  simp only [sbBytes, List.length_append, leBytes_length]

theorem sbWire_length (f : SbFrame) : (sbWire f).length = 17 + f.payload.length := by
  rw [sbWire, List.cons_append, List.length_cons, List.length_append, sbBytes_length, leBytes_length]
  omega

/-- The header of a frame at its offsets on the wire, after the start byte. -/
theorem sbWire_header (f : SbFrame) : byteField (sbWire f) 0 1 = 0x2A ∧ byteAt (sbWire f) 1 = BitVec.ofNat 8 (f.ftype.toNat % 256)
    ∧ byteAt (sbWire f) 2 = BitVec.ofNat 8 (f.addr.toNat % 256) ∧ byteAt (sbWire f) 3 = BitVec.ofNat 8 (f.flags.toNat % 256)
    ∧ byteAt (sbWire f) 4 = BitVec.ofNat 8 (f.hops.toNat % 256) ∧ byteField (sbWire f) 5 4 = leNat (leBytes 4 f.attnMap.toNat)
    ∧ byteField (sbWire f) 9 2 = leNat (leBytes 2 f.payload.length) ∧ byteField (sbWire f) 11 2 = leNat (leBytes 2 f.rsvd.toNat) :=
  ⟨rfl, rfl, rfl, rfl, rfl, rfl, rfl, rfl⟩

/-- The header and payload, the payload alone, and the CRC on the wire. -/
theorem sbWire_parts (f : SbFrame) : slice (sbWire f) 1 (12 + f.payload.length) = sbBytes f
    ∧ slice (sbWire f) 13 f.payload.length = f.payload ∧ byteField (sbWire f) (13 + f.payload.length) 4 = crc32c (sbBytes f) := by
  have wire : sbWire f = (0x2A :: sbBytes f) ++ leBytes 4 (crc32c (sbBytes f)) := rfl
  refine ⟨?_, ?_, ?_⟩
  · show List.take _ (sbBytes f ++ leBytes 4 (crc32c (sbBytes f))) = _
    exact List.take_left' (sbBytes_length f)
  · show List.take _ (f.payload ++ leBytes 4 (crc32c (sbBytes f))) = _
    exact List.take_left' rfl
  · rw [byteField, slice, wire, List.drop_left' (by rw [List.length_cons, sbBytes_length]; omega),
      List.take_of_length_le (by rw [leBytes_length]), leNat_leBytes]
    exact Nat.mod_eq_of_lt (crc32c_lt _)

/-- A frame is the values of its fields' bytes. -/
theorem sbFrame_fields (f : SbFrame) : ({ ftype := BitVec.ofNat 8 (f.ftype.toNat % 256), addr := BitVec.ofNat 8 (f.addr.toNat % 256)
                                          flags := BitVec.ofNat 8 (f.flags.toNat % 256), hops := BitVec.ofNat 8 (f.hops.toNat % 256)
                                          attnMap := BitVec.ofNat 32 (f.attnMap.toNat % 256 ^ 4), payload := f.payload
                                          rsvd := BitVec.ofNat 16 (f.rsvd.toNat % 256 ^ 2) } : SbFrame) = f := by
  have back {w : Nat} (v : BitVec w) : BitVec.ofNat w (v.toNat % 2 ^ w) = v := by simp
  obtain ⟨ftype, addr, flags, hops, attn, payload, rsvd⟩ := f
  rw [SbFrame.mk.injEq]
  exact ⟨back ftype, back addr, back flags, back hops, back attn, rfl, back rsvd⟩

theorem sbFrame_sbWire (f : SbFrame) (fits : f.payload.length ≤ 512) (idle : Nat) :
    sbFrame { idle := idle, bytes := sbWire f } = if 16 ≤ idle then some f else none := by
  obtain ⟨start, ftype, addr, flags, hops, attn, len, rsvd⟩ := sbWire_header f
  obtain ⟨body, payload, crc⟩ := sbWire_parts f
  rw [leNat_leBytes] at attn len rsvd
  rw [Nat.mod_eq_of_lt (by omega)] at len
  have good : sbGood { idle := idle, bytes := sbWire f } = decide (16 ≤ idle) := by
    unfold sbGood
    dsimp only
    rw [start, len, sbWire_length, crc, body]
    simp
  unfold sbFrame
  dsimp only
  rw [good, ftype, addr, flags, hops, attn, len, rsvd, payload]
  by_cases idles : 16 ≤ idle
  · rw [if_pos (decide_eq_true idles), if_pos idles]
    exact congrArg some (sbFrame_fields f)
  · rw [if_neg (by simp [idles]), if_neg idles]

/-! ## What the module does with a frame (R424) -/

section
variable {s : State} {x : SbWire} {f : SbFrame}

theorem receiveSb_frame (frame : sbFrame x = some f) (act : SbFrame → Out) : s.receiveSb x act = act f := by
  unfold State.receiveSb
  rw [frame]

theorem receiveSb_noise (ho : Open s) (noise : sbFrame x = none) (act : SbFrame → Out) :
    s.receiveSb x act = .next { s with side := { s.side with frameErrs := satAdd 0xFFFF s.side.frameErrs 1 } } := by
  unfold State.receiveSb State.discardSb
  rw [noise, if_pos (isOpen_open ho)]
  rfl

theorem chain_sends (ho : Open s) (hops : f.hops.toNat < 32) (act : SbFrame → State) : s.chain f act = act (hopped s f) := by
  unfold State.chain State.hop
  rw [isOpen_open ho, if_neg (Nat.not_le.mpr hops)]
  rfl

theorem chain_ends (hops : 32 ≤ f.hops.toNat) (act : SbFrame → State) : s.chain f act = s := by
  unfold State.chain State.hop
  rw [if_pos hops]
  split <;> rfl

/-- A row that leaves a frame alone, or takes it along the chain, does nothing with a frame whose hops have run out. -/
theorem chained_ends (hops : 32 ≤ f.hops.toNat) (b : Bool) (act : SbFrame → State) :
    (if b then Host.Outcome.next s else (.next (s.chain f act) : Out)) = .next s := by
  rw [chain_ends hops]
  exact ite_self _

theorem chained_sends (ho : Open s) (hops : f.hops.toNat < 32) {b : Bool} (mine : b = false) (act : SbFrame → State) :
    (if b then Host.Outcome.next s else (.next (s.chain f act) : Out)) = .next (act (hopped s f)) := by
  rw [chain_sends ho hops, mine]
  rfl

theorem sbRows_end (frame : sbFrame x = some f) (hops : 32 ≤ f.hops.toNat) : exec (.sbCmd x) s = .next s ∧ exec (.sbSelect x) s = .next s
    ∧ exec (.sbRead x) s = .next s ∧ exec (.sbSeqQuery x) s = .next s ∧ exec (.sbPoll x) s = .next s
    ∧ exec (.sbFrameForward x) s = .next s ∧ exec (.sbEnumSurvey x) s = .next s ∧ exec (.sbEnumAssign x) s = .next s
    ∧ exec (.sbEnumCommit x) s = .next s ∧ exec (.sbEnumClear x) s = .next s :=
  ⟨(receiveSb_frame frame _).trans (chained_ends hops _ _), (receiveSb_frame frame _).trans (chained_ends hops _ _),
    (receiveSb_frame frame _).trans (chained_ends hops _ _), (receiveSb_frame frame _).trans (chained_ends hops _ _),
    (receiveSb_frame frame _).trans (chained_ends hops _ _), (receiveSb_frame frame _).trans (chained_ends hops _ _),
    (receiveSb_frame frame _).trans (chained_ends hops _ _), (receiveSb_frame frame _).trans (chained_ends hops _ _),
    (receiveSb_frame frame _).trans (chained_ends hops _ _), (receiveSb_frame frame _).trans (chained_ends hops _ _)⟩

/-- What is no frame is counted, whichever row it comes with. -/
theorem sbRows_noise (ho : Open s) (noise : sbFrame x = none) {i : Instr} (row : i = .sbFrameDiscard ∨ i ∈ [.sbCmd x, .sbSelect x,
      .sbRead x, .sbSeqQuery x, .sbPoll x, .sbFrameForward x, .sbEnumSurvey x, .sbEnumAssign x, .sbEnumCommit x, .sbEnumClear x]) :
    exec i s = .next { s with side := { s.side with frameErrs := satAdd 0xFFFF s.side.frameErrs 1 } } := by
  rcases row with rfl | row
  · exact congrArg Host.Outcome.next (if_pos (isOpen_open ho))
  · simp only [List.mem_cons, List.not_mem_nil, or_false] at row
    rcases row with rfl | rfl | rfl | rfl | rfl | rfl | rfl | rfl | rfl | rfl
    all_goals exact receiveSb_noise ho noise _

theorem sbCmd_busy (ho : Open s) (frame : sbFrame x = some f) (hops : f.hops.toNat < 32) (mine : s.cmdMine f = true)
    (busy : 16 ≤ s.deferredOf 2 ∨ 4 ≤ s.unread 2) : exec (.sbCmd x) s = .next { s with
      out := s.out ++ [chainOut { hopped s f with flags := (hopped s f).flags ||| 2 }] } := by
  refine (receiveSb_frame frame _).trans ((chained_sends ho hops (by rw [mine]; rfl) _).trans ?_)
  exact congrArg Host.Outcome.next (if_pos busy)

theorem sbCmd_takes (ho : Open s) (frame : sbFrame x = some f) (hops : f.hops.toNat < 32) (mine : s.cmdMine f = true)
    (deferred : s.deferredOf 2 < 16) (room : s.unread 2 < 4) : exec (.sbCmd x) s = .next ((s.takeBus .sb f.payload).sendSb
      { hopped s f with flags := (hopped s f).flags ||| 1 }) := by
  refine (receiveSb_frame frame _).trans ((chained_sends ho hops (by rw [mine]; rfl) _).trans ?_)
  exact congrArg Host.Outcome.next (if_neg (by omega))

/-- A frame of a type for this module's address is the row's own. -/
theorem addressed_own {ftype : BitVec 8} (type_ : f.ftype = ftype) (mine : s.addressed f = true) :
    (f.ftype != ftype || !s.addressed f) = false := by
  rw [type_, mine]
  simp

theorem sbSelect_runs (ho : Open s) (frame : sbFrame x = some f) (hops : f.hops.toNat < 32) (type_ : f.ftype = 4)
    (mine : s.addressed f = true) {q : BitVec 32} (seq : q = BitVec.ofNat 32 (byteField f.payload 0 4)) :
    exec (.sbSelect x) s = .next { s with
      mgmt := { s.mgmt with sbSelect := if (s.selected 2 q).isSome = true then some q else none }
      out := s.out ++ [chainOut { hopped s f with flags := (hopped s f).flags ||| (if (s.selected 2 q).isSome = true then 1 else 4) }] } := by
  subst seq
  exact (receiveSb_frame frame _).trans (chained_sends ho hops (addressed_own type_ mine) _)

theorem sbRead_empty (ho : Open s) (frame : sbFrame x = some f) (hops : f.hops.toNat < 32) (type_ : f.ftype = 3)
    (mine : s.addressed f = true) (none_ : s.sbNext = none) : exec (.sbRead x) s = .next { s with
      mgmt := { s.mgmt with sbSelect := none }
      out := s.out ++ [chainReply { hopped s f with ftype := 5, flags := 0, payload := [] } none] } := by
  refine (receiveSb_frame frame _).trans ((chained_sends ho hops (addressed_own type_ mine) _).trans ?_)
  dsimp only
  rw [none_]
  rfl

theorem sbRead_place (ho : Open s) (frame : sbFrame x = some f) (hops : f.hops.toNat < 32) (type_ : f.ftype = 3)
    (mine : s.addressed f = true) {y : Stored} {again : Bool} (next : s.sbNext = some (y, again)) :
    exec (.sbRead x) s = .next ((State.takeRead { s with mgmt := { s.mgmt with sbSelect := none } } y).sendSbReply { hopped s f with
      ftype := 5, flags := 0, payload := replyBytes false (readReply y again) } (some (readReply y again))) := by
  refine (receiveSb_frame frame _).trans ((chained_sends ho hops (addressed_own type_ mine) _).trans ?_)
  dsimp only
  rw [next]

theorem takeRead_effect (s : State) (y : Stored) : s.takeRead y = { s with mgmt := { s.mgmt with
    stores := if y.reply.status = stPending then s.mgmt.stores else markRead y s.mgmt.stores } } := by
  unfold State.takeRead
  split <;> rfl

theorem sbForward_passes (ho : Open s) (frame : sbFrame x = some f) (hops : f.hops.toNat < 32) (passes : s.passesOn f = true)
    (known : sbReserved f = false) (enum_ : f.ftype ≠ 1) :
    exec (.sbFrameForward x) s = .next { s with out := s.out ++ [chainOut (hopped s f)] } := by
  refine (receiveSb_frame frame _).trans ((chained_sends ho hops (by rw [passes]; rfl) _).trans ?_)
  rw [known, if_neg (by decide), if_neg enum_]
  rfl

theorem passesOn_others (other : (f.ftype = 2 ∧ s.cmdMine f = false)
      ∨ ((f.ftype = 3 ∨ f.ftype = 4 ∨ f.ftype = 6) ∧ s.addressed f = false) ∨ f.ftype = 5 ∨ f.ftype = 7) :
    s.passesOn f = true ∧ sbReserved f = false ∧ f.ftype ≠ 1 := by
  unfold State.passesOn sbReserved
  rcases other with ⟨type_, other⟩ | ⟨type_ | type_ | type_, other⟩ | type_ | type_ <;> rw [type_] <;> simp [*]

theorem sbForward_reserved (ho : Open s) (frame : sbFrame x = some f) (hops : f.hops.toNat < 32)
    (reserved : f.ftype = 0 ∨ 8 < f.ftype.toNat) : exec (.sbFrameForward x) s = .next { s with
      side := { s.side with frameErrs := satAdd 0xFFFF s.side.frameErrs 1 }, out := s.out ++ [chainOut f] } := by
  have unknown : sbReserved f = true := by
    rcases reserved with zero | high
    · simp [sbReserved, zero]
    · simp [sbReserved, high]
  have passes : s.passesOn f = true := by
    unfold State.passesOn
    rcases reserved with zero | high
    · rw [zero]
      rfl
    · split
      case h_7 => rfl
      all_goals omega
  refine (receiveSb_frame frame _).trans ((chained_sends ho hops (by rw [passes]; rfl) _).trans ?_)
  dsimp only
  rw [unknown]
  rfl

/-! ## Enumeration (R426, R427) -/

/-- The fields of an ENUM frame with this module counted. -/
def counted (f : SbFrame) : EnumFields := { enumFields f.payload with count := ((enumFields f.payload).count + 1) % 256 }

theorem enumerate_runs (ho : Open s) (hops : f.hops.toNat < 32) (type_ : f.ftype = 1) (whole : f.payload.length = 16) {mode : Nat}
    (own : enumMode f = mode) (act : EnumFields → EnumFields × State) : s.enumerate mode f act = .next ((act (counted f)).2.sendSb
      { hopped s f with payload := enumBytes mode (act (counted f)).1 }) :=
  chained_sends ho hops (by rw [type_, own, whole]; simp) _

theorem assignAddr_free {e : EnumFields} {a : Nat} (found : assignAddr e = some a) : a < 32 ∧ bitAt e.used a = false := by
  unfold assignAddr at found
  split at found
  next b lowest =>
    split at found
    · cases found
      exact ⟨List.mem_range.mp (List.mem_of_find?_eq_some lowest), by simpa using firstBelow_holds lowest⟩
    · cases found
  next => cases found

theorem setRoot_beat (s : State) (addr : BitVec 8) : s.setRoot addr = { s with beat := (s.setRoot addr).beat } := by
  unfold State.setRoot
  dsimp only
  split
  · rfl
  · split <;> rfl

/-- What ENUM ASSIGN does of its own: an address for a module that has none. -/
theorem sbEnumAssign_keeps (ho : Open s) (frame : sbFrame x = some f) (hops : f.hops.toNat < 32) (type_ : f.ftype = 1)
    (whole : f.payload.length = 16) (own : enumMode f = 1) (no : s.side.chainAddr ≠ 0xFF ∨ assignAddr (counted f) = none) :
    exec (.sbEnumAssign x) s = .next { s with out := s.out ++ [chainOut { hopped s f with payload := enumBytes 1 (counted f) }] } := by
  refine (receiveSb_frame frame _).trans ((enumerate_runs ho hops type_ whole own _).trans ?_)
  dsimp only
  by_cases given : s.side.chainAddr ≠ 0xFF
  · rw [if_pos given]
    rfl
  · rw [if_neg given, no.resolve_left given]
    rfl

theorem sbEnumAssign_takes (ho : Open s) (frame : sbFrame x = some f) (hops : f.hops.toNat < 32) (type_ : f.ftype = 1)
    (whole : f.payload.length = 16) (own : enumMode f = 1) (none_ : s.side.chainAddr = 0xFF) {a : Nat}
    (found : assignAddr (counted f) = some a) : exec (.sbEnumAssign x) s = .next { s with
      side := { s.side with chainAddr := BitVec.ofNat 8 a, fabricId := BitVec.ofNat 16 ((counted f).base + a) }
      out := s.out ++ [chainOut { hopped s f with payload := enumBytes 1 { counted f with
        used := (counted f).used ||| (1 <<< a), new := (counted f).new ||| (1 <<< a) } }] } := by
  refine (receiveSb_frame frame _).trans ((enumerate_runs ho hops type_ whole own _).trans ?_)
  dsimp only
  rw [if_neg (not_not_intro none_), found]
  rfl

/-- What COMMIT does of its own: the lowest used address is the configured root. -/
def committed (s : State) (e : EnumFields) : State :=
  if s.side.chainAddr = 0xFF ∨ s.beat.rootAddr ≠ 0xFF then s
  else match firstBelow 32 fun a => bitAt e.used a with
    | none => s
    | some a => s.updBeat fun b => { b with rootAddr := BitVec.ofNat 8 a, rootNext := s.side.chainAddr == BitVec.ofNat 8 a }

theorem sbEnumCommit_runs (ho : Open s) (frame : sbFrame x = some f) (hops : f.hops.toNat < 32) (type_ : f.ftype = 1)
    (whole : f.payload.length = 16) (own : enumMode f = 2) : exec (.sbEnumCommit x) s
      = .next ((committed s (counted f)).sendSb { hopped s f with payload := enumBytes 2 (counted f) }) := by
  refine (receiveSb_frame frame _).trans ((enumerate_runs ho hops type_ whole own _).trans ?_)
  unfold committed
  dsimp only
  split
  · rfl
  · generalize (firstBelow 32 fun a => bitAt (counted f).used a) = lowest
    cases lowest <;> rfl

theorem committed_only (s : State) (e : EnumFields) :
    committed s e = { s with beat := { s.beat with rootAddr := (committed s e).beat.rootAddr, rootNext := (committed s e).beat.rootNext } } := by
  unfold committed
  split
  · rfl
  · split <;> rfl

theorem committed_kept {e : EnumFields} (no : s.side.chainAddr = 0xFF ∨ s.beat.rootAddr ≠ 0xFF) : committed s e = s := if_pos no

theorem committed_root {e : EnumFields} (has : s.side.chainAddr ≠ 0xFF) (open_ : s.beat.rootAddr = 0xFF) {a : Nat}
    (lowest : firstBelow 32 (fun a => bitAt e.used a) = some a) : (committed s e).beat.rootAddr = BitVec.ofNat 8 a
    ∧ (committed s e).beat.rootNext = decide (s.side.chainAddr = BitVec.ofNat 8 a) := by
  unfold committed
  rw [if_neg (not_or.mpr ⟨has, not_not_intro open_⟩), lowest]
  exact ⟨rfl, rfl⟩

theorem sbEnumClear_clears (ho : Open s) (frame : sbFrame x = some f) (hops : f.hops.toNat < 32) (type_ : f.ftype = 1)
    (whole : f.payload.length = 16) (own : enumMode f = 3) (disabled : s.allDisabled = true) : exec (.sbEnumClear x) s
      = .next (((s.updSide fun d => { d with chainAddr := 0xFF, fabricId := 0xFFFF }).setRoot 0xFF).sendSb
        { hopped s f with payload := enumBytes 3 (counted f) }) := by
  refine (receiveSb_frame frame _).trans ((enumerate_runs ho hops type_ whole own _).trans ?_)
  dsimp only
  rw [if_pos disabled]

theorem sbEnumClear_refuses (ho : Open s) (frame : sbFrame x = some f) (hops : f.hops.toNat < 32) (type_ : f.ftype = 1)
    (whole : f.payload.length = 16) (own : enumMode f = 3) (enabled : s.allDisabled = false) : exec (.sbEnumClear x) s = .next { s with
      side := { s.side with clearRefused := true }
      out := s.out ++ [chainOut { hopped s f with payload := enumBytes 3 { counted f with
        used := setAddr (counted f).used s.side.chainAddr, refused := setAddr (counted f).refused s.side.chainAddr } }] } := by
  refine (receiveSb_frame frame _).trans ((enumerate_runs ho hops type_ whole own _).trans ?_)
  dsimp only
  rw [if_neg (by simp [enabled])]
  rfl

end

/-- Settles O59: the wire carries a frame back, and each row is its equation for a frame that is its own. -/
theorem chainFramesAreTakenAndSentOn : Obligations.ChainFramesAreTakenAndSentOn := by
  refine ⟨fun s ho => ⟨fun i x noise row => sbRows_noise ho noise row, sbFrame_sbWire, if_pos (isOpen_open ho), fun x f frame =>
      ⟨sbRows_end frame, fun hops => ⟨fun mine => ⟨sbCmd_busy ho frame hops mine, fun deferred room =>
        ⟨_, sbCmd_takes ho frame hops mine deferred room, rfl, rfl, rfl⟩⟩,
      fun type_ mine q seq => sbSelect_runs ho frame hops type_ mine seq,
      fun type_ mine => ⟨sbRead_empty ho frame hops type_ mine, fun y again next => ⟨_, sbRead_place ho frame hops type_ mine next, ?_⟩⟩,
      fun type_ mine => (receiveSb_frame frame _).trans (chained_sends ho hops (addressed_own type_ mine) _),
      fun type_ => (receiveSb_frame frame _).trans (chained_sends ho hops (by rw [type_]; rfl) _),
      fun other => ?_, sbForward_reserved ho frame hops⟩⟩⟩, ?_⟩
  · rw [takeRead_effect]
    exact ⟨rfl, rfl, rfl⟩
  · obtain ⟨passes, known, enum_⟩ := passesOn_others other
    exact sbForward_passes ho frame hops passes known enum_
  · rintro x f e s ho frame hops type_ whole rfl
    refine ⟨fun own => (receiveSb_frame frame _).trans (enumerate_runs ho hops type_ whole own _),
      fun own => ⟨sbEnumAssign_keeps ho frame hops type_ whole own, fun a none_ found => ?_⟩, fun own => ?_, fun own => ?_⟩
    · obtain ⟨low, free⟩ := assignAddr_free found
      exact ⟨low, free, _, sbEnumAssign_takes ho frame hops type_ whole own none_ found, rfl, rfl, rfl, rfl⟩
    · refine ⟨_, sbEnumCommit_runs ho frame hops type_ whole own, ?_, fun no => ?_, fun a has open_ lowest => ?_, ?_⟩
      · show (committed s _).out ++ _ = _
        rw [committed_only]
        rfl
      · show (committed s _).beat = _
        rw [committed_kept no]
      · exact committed_root has open_ lowest
      · show State.emit (committed s _) _ = _
        rw [committed_only]
        rfl
    · cases disabled : s.allDisabled with
      | true =>
        refine ⟨_, sbEnumClear_clears ho frame hops type_ whole own disabled, fun _ => ?_, nofun⟩
        rw [setRoot_beat]
        exact ⟨rfl, rfl, rfl⟩
      | false => exact ⟨_, sbEnumClear_refuses ho frame hops type_ whole own disabled, nofun, fun _ => ⟨rfl, rfl, rfl⟩⟩

end Sys2Proof.Claims
end

section
/-! PROOFS. Cartridge presence, the buses, re-timers and cable identities (O60). -/

namespace Sys2Proof.Claims
open Sys2Proof.Machine

/-! ## What a cartridge bus moves (R433, R435, R440) -/

/-- Besides ports and what has left, only the buses' records and the presence flags with their attention move. -/
def BusMoved (s t : State) : Prop := t = { s with ports := t.ports, out := t.out, side := { s.side with
  mmb := t.side.mmb, presChange := t.side.presChange, attn := t.side.attn, ibiDue := t.side.ibiDue } }

theorem BusMoved.trans {s t u : State} (h : BusMoved s t) (k : BusMoved t u) : BusMoved s u := by
  unfold BusMoved at h k ⊢
  rw [h] at k
  exact k

theorem bitAt_toNat {w : Nat} (v : BitVec w) (k : Nat) : bitAt v.toNat k = v.getLsbD k := by
  rw [BitVec.getLsbD, Nat.testBit_eq_decide_div_mod_eq, bitAt, Nat.shiftRight_eq_div_pow]
  rfl

/-- A flag set in a word of 64 stands beside those that stood. -/
theorem bitAt_setFlag (v : Word) {n k : Nat} (low : k < 64) :
    bitAt (v ||| (1 <<< n)).toNat k = true ↔ bitAt v.toNat k = true ∨ k = n := by
  have one : (((1 <<< n : Nat) : Word)).getLsbD k = decide (n = k) := by
    rw [BitVec.natCast_eq_ofNat, BitVec.getLsbD_ofNat, Nat.one_shiftLeft, Nat.testBit_two_pow, decide_eq_true low, Bool.true_and]
  rw [bitAt_toNat, bitAt_toNat, BitVec.getLsbD_or, one, Bool.or_eq_true, decide_eq_true_iff]
  exact or_congr_right eq_comm

/-! ## Presence (R341, R433) -/

/-- One port of a bus, once the bus tells what it does now. -/
def presenceStep (was : Nat → Bool) (bus : Nat) (t : State) (k : Nat) : State :=
  let n := 8 * bus + k
  if was n = t.present n then t
  else if was n then (t.presenceChanged n).losePresence n
  else t.presenceChanged n

theorem setPresence_eq (s : State) (bus : Nat) (m : Mmb) : s.setPresence bus m
    = (List.range 8).foldl (presenceStep s.present bus) (s.setMmb bus m) := rfl

/-- A port of these numbers, unless it lost presence, is as it was; one that lost it has its pages to be read again. -/
def afterPresence (was now : Nat → Bool) (ns : List Nat) (k : Nat) (p : PortSt) : PortSt :=
  if k ∈ ns ∧ was k = true ∧ now k = false then identityStale p else p

theorem identityStale_twice (p : PortSt) : identityStale (identityStale p) = identityStale p := rfl

/-- From t to u the ports ns have had their presence compared: the flag of each that changed is set, and none of them is enabled. -/
structure PresenceSeen (was now : Nat → Bool) (ns : List Nat) (t u : State) : Prop where
  only : u = { t with ports := u.ports, side := { t.side with
    presChange := u.side.presChange, attn := u.side.attn, ibiDue := u.side.ibiDue } }
  ports : ∀ k, u.port k = afterPresence was now ns k (t.port k)
  flags : ∀ k, k < 64 → (bitAt u.side.presChange.toNat k = true ↔ bitAt t.side.presChange.toNat k = true ∨ k ∈ ns ∧ was k ≠ now k)

theorem losePresence_disabled {t : State} {n : Nat} (off : (t.port n).enabled = false) :
    t.losePresence n = t.updPort n identityStale := by
  unfold State.losePresence
  dsimp only
  rw [State.port_updPort, if_pos (by simp [off])]
  rfl

theorem PresenceSeen.present {was now : Nat → Bool} {ns : List Nat} {t u : State} (h : PresenceSeen was now ns t u) :
    u.present = t.present := by
  rw [h.only]
  rfl

theorem presenceStep_seen {was : Nat → Bool} {bus : Nat} {t : State} {k : Nat} (off : (t.port (8 * bus + k)).enabled = false) :
    PresenceSeen was t.present [8 * bus + k] t (presenceStep was bus t k) := by
  unfold presenceStep
  dsimp only
  generalize t.present = now
  by_cases same : was (8 * bus + k) = now (8 * bus + k)
  · rw [if_pos same]
    refine ⟨rfl, fun j => (if_neg ?_).symm, fun j _ => ?_⟩
    · rintro ⟨mem, w, n⟩
      rw [List.mem_singleton.mp mem] at w n
      rw [w, n] at same
      cases same
    · have quiet : ¬ (j ∈ [8 * bus + k] ∧ was j ≠ now j) := fun h => h.2 (List.mem_singleton.mp h.1 ▸ same)
      rw [or_iff_left quiet]
  · have flagged : ∀ j, j < 64 → (bitAt (t.presenceChanged (8 * bus + k)).side.presChange.toNat j = true
        ↔ bitAt t.side.presChange.toNat j = true ∨ j ∈ [8 * bus + k] ∧ was j ≠ now j) := fun j low => by
      refine (bitAt_setFlag t.side.presChange low).trans (or_congr_right ⟨?_, fun h => List.mem_singleton.mp h.1⟩)
      rintro rfl
      exact ⟨List.mem_singleton.mpr rfl, same⟩
    rw [if_neg same]
    by_cases gone : was (8 * bus + k) = true
    · rw [if_pos gone, losePresence_disabled (t := t.presenceChanged (8 * bus + k)) off]
      refine ⟨rfl, fun j => ?_, flagged⟩
      have lost : now (8 * bus + k) = false := by
        cases h : now (8 * bus + k)
        · rfl
        · exact absurd (gone.trans h.symm) same
      unfold afterPresence
      by_cases this_ : j = 8 * bus + k
      · subst this_
        rw [if_pos ⟨List.mem_singleton.mpr rfl, gone, lost⟩]
        exact State.port_updPort ..
      · rw [if_neg fun h => this_ (List.mem_singleton.mp h.1)]
        exact State.port_setPort_other _ _ this_
    · rw [if_neg gone]
      refine ⟨rfl, fun j => (if_neg ?_).symm, flagged⟩
      rintro ⟨mem, w, -⟩
      exact gone (List.mem_singleton.mp mem ▸ w)

theorem afterPresence_lost {was now : Nat → Bool} {ns : List Nat} {k : Nat} (mem : k ∈ ns) (lost : was k = true ∧ now k = false)
    (p : PortSt) : afterPresence was now ns k p = identityStale p := if_pos ⟨mem, lost⟩

theorem afterPresence_same {was now : Nat → Bool} {ns : List Nat} {k : Nat} (same : k ∈ ns → ¬ (was k = true ∧ now k = false))
    (p : PortSt) : afterPresence was now ns k p = p := if_neg fun h => same h.1 h.2

theorem afterPresence_cons (was now : Nat → Bool) (n : Nat) (ns : List Nat) (k : Nat) (p : PortSt) :
    afterPresence was now ns k (afterPresence was now [n] k p) = afterPresence was now (n :: ns) k p := by
  by_cases lost : was k = true ∧ now k = false
  · by_cases first : k = n
    · rw [afterPresence_lost (List.mem_singleton.mpr first) lost, afterPresence_lost (List.mem_cons.mpr (.inl first)) lost]
      by_cases later : k ∈ ns
      · rw [afterPresence_lost later lost, identityStale_twice]
      · rw [afterPresence_same fun mem => absurd mem later]
    · rw [afterPresence_same fun mem => absurd (List.mem_singleton.mp mem) first]
      by_cases later : k ∈ ns
      · rw [afterPresence_lost later lost, afterPresence_lost (List.mem_cons_of_mem _ later) lost]
      · rw [afterPresence_same fun mem => absurd mem later, afterPresence_same fun mem => absurd mem (by simp [first, later])]
  · rw [afterPresence_same fun _ => lost, afterPresence_same fun _ => lost, afterPresence_same fun _ => lost]

theorem afterPresence_enabled (was now : Nat → Bool) (ns : List Nat) (k : Nat) (p : PortSt) :
    (afterPresence was now ns k p).enabled = p.enabled := by
  unfold afterPresence
  split <;> rfl

theorem PresenceSeen.cons {was now : Nat → Bool} {n : Nat} {ns : List Nat} {t u v : State} (h : PresenceSeen was now [n] t u)
    (g : PresenceSeen was now ns u v) : PresenceSeen was now (n :: ns) t v := by
  refine ⟨?_, fun k => ?_, fun k low => ?_⟩
  · rw [g.only, h.only]
  · rw [g.ports, h.ports, afterPresence_cons]
  · rw [g.flags k low, h.flags k low, List.mem_singleton, List.mem_cons, or_and_right, or_assoc]

theorem presenceSteps_seen {was : Nat → Bool} {bus : Nat} (l : List Nat) (t : State)
    (off : ∀ k ∈ l, (t.port (8 * bus + k)).enabled = false) :
    PresenceSeen was t.present (l.map (8 * bus + ·)) t (l.foldl (presenceStep was bus) t) := by
  induction l generalizing t with
  | nil => exact ⟨rfl, fun _ => (if_neg fun h => nomatch h.1).symm, fun _ _ => by simp⟩
  | cons k l ih =>
    have first := presenceStep_seen (was := was) (off k List.mem_cons_self)
    have later := ih (presenceStep was bus t k) fun j mem => by
      rw [first.ports, afterPresence_enabled]
      exact off j (List.mem_cons_of_mem _ mem)
    rw [first.present] at later
    exact first.cons later

/-- What a bus tells of its eight disabled ports. -/
theorem setPresence_effect {s : State} {bus : Nat} (off : ∀ k, k < 8 → (s.port (8 * bus + k)).enabled = false) (low : bus < 8) (m : Mmb) :
    (s.setPresence bus m).mmb bus = m ∧ OnlyStale s (s.setPresence bus m) ∧ BusMoved s (s.setPresence bus m)
    ∧ (s.setPresence bus m).out = s.out
    ∧ ∀ k, k < 8 → (bitAt (s.setPresence bus m).side.presChange.toNat (8 * bus + k) = true
      ↔ bitAt s.side.presChange.toNat (8 * bus + k) = true ∨ s.present (8 * bus + k) ≠ (s.setPresence bus m).present (8 * bus + k)) := by
  obtain ⟨only, ports, flags⟩ := presenceSteps_seen (was := s.present) (bus := bus) (List.range 8)
    (s.setMmb bus m) fun k mem => off k (List.mem_range.mp mem)
  rw [← setPresence_eq] at only ports flags
  have buses : (s.setPresence bus m).side.mmb = (s.setMmb bus m).side.mmb := by rw [only]
  have seen (k : Nat) : (s.setPresence bus m).present k = (s.setMmb bus m).present k := by
    unfold State.present State.mmb
    rw [buses]
  have elsewhere {k : Nat} (other : k ∉ (List.range 8).map (8 * bus + ·)) : (s.setMmb bus m).present k = s.present k := by
    have away : k / 8 ≠ bus := fun h => other (List.mem_map.mpr ⟨k % 8, List.mem_range.mpr (Nat.mod_lt _ (by decide)), by omega⟩)
    unfold State.present
    rw [State.mmb_setMmb_other s m away]
  refine ⟨?_, fun k => ?_, ?_, by rw [only]; rfl, fun k small => ?_⟩
  · unfold State.mmb
    rw [buses]
    exact State.mmb_setMmb ..
  · rw [ports, seen]
    unfold afterPresence
    by_cases mine : k ∈ (List.range 8).map (8 * bus + ·)
    · simp only [mine, true_and]
      rfl
    · rw [if_neg fun h => mine h.1, if_neg]
      · rfl
      · rintro ⟨was, now⟩
        rw [elsewhere mine, was] at now
        cases now
  · unfold BusMoved
    rw [only]
    rfl
  · rw [flags _ (by omega), seen]
    have mine : 8 * bus + k ∈ (List.range 8).map (8 * bus + ·) := List.mem_map_of_mem (List.mem_range.mpr small)
    simp only [mine, true_and]
    rfl

section
variable {s : State} {bus : Fin 8}

theorem cartPresChange_runs (live : s.live = true) (seated : Bool) :
    exec (.cartPresChange bus seated) s = .next (s.setPresence bus.val { s.mmb bus.val with seated := seated }) := by
  show execCartPresChange bus seated s = _
  unfold execCartPresChange
  rw [live]
  rfl

/-- The three rows that read CABLES of a seated bus. -/
theorem readCables_runs (live : s.live = true) {v : Option Byte} {i : Instr} (seated : (s.mmb bus.val).seated = true)
    (row : (i = .mmbInt bus v ∨ i = .presencePoll bus v) ∧ (s.mmb bus.val).busFault = false
      ∨ i = .mmbRetry bus v ∧ (s.mmb bus.val).busFault = true) : exec i s = .next (s.readCables bus.val v) := by
  rcases row with ⟨rfl | rfl, fault⟩ | ⟨rfl, fault⟩
  all_goals exact if_pos (by rw [live, seated, fault]; rfl)

/-- A bus whose seat, fault and CABLES stand shows the presence it showed. -/
theorem present_setMmb {m : Mmb} {b : Nat} (seated : m.seated = (s.mmb b).seated) (fault : m.busFault = (s.mmb b).busFault)
    (cables : m.cables = (s.mmb b).cables) (k : Nat) : (s.setMmb b m).present k = s.present k := by
  unfold State.present
  by_cases mine : k / 8 = b
  · subst mine
    rw [State.mmb_setMmb]
    dsimp only
    rw [seated, fault, cables]
  · rw [State.mmb_setMmb_other s m mine]

theorem onlyStale_same {t : State} (ports : t.ports = s.ports) (present : ∀ k, t.present k = s.present k) : OnlyStale s t := by
  intro k
  rw [if_neg]
  · unfold State.port
    rw [ports]
  · rintro ⟨was, now⟩
    rw [present, was] at now
    cases now

/-- What a read of CABLES does, with the byte or not acknowledged. -/
theorem readCables_effect (off : ∀ k, k < 8 → (s.port (8 * bus.val + k)).enabled = false) (v : Option Byte) :
    (s.readCables bus.val v).out = s.out ++ [.mmbWrite bus.val 0x50 0x7F 0, .mmbRead bus.val 0x50 0 3 1]
    ∧ (s.readCables bus.val v).mmb bus.val = (match v with
      | some b => { s.mmb bus.val with cables := b, transfers := satAdd 0xFFFF (s.mmb bus.val).transfers 1, timeouts := 0 }
      | none => { s.mmb bus.val with naks := satAdd 0xFFFF (s.mmb bus.val).naks 1, timeouts := 0 })
    ∧ OnlyStale s (s.readCables bus.val v) ∧ BusMoved s (s.readCables bus.val v) := by
  have sent : (s.emit (.mmbWrite bus.val 0x50 0x7F 0)).emit (.mmbRead bus.val 0x50 0 3 1)
      = { s with out := s.out ++ [.mmbWrite bus.val 0x50 0x7F 0, .mmbRead bus.val 0x50 0 3 1] } :=
    congrArg (fun o => { s with out := o }) (List.append_assoc s.out [_] [_])
  unfold State.readCables
  rw [sent]
  cases v with
  | some b =>
    obtain ⟨mmb, stale, moved, out, -⟩ := setPresence_effect (s := { s with out := s.out ++ [.mmbWrite bus.val 0x50 0x7F 0, .mmbRead bus.val 0x50 0 3 1] })
      off bus.isLt { s.mmb bus.val with cables := b, transfers := satAdd 0xFFFF (s.mmb bus.val).transfers 1, timeouts := 0 }
    exact ⟨out, mmb, stale, BusMoved.trans (t := { s with out := s.out ++ _ }) rfl moved⟩
  | none =>
    exact ⟨rfl, State.mmb_setMmb .., onlyStale_same rfl (present_setMmb (s := s) rfl rfl rfl), rfl⟩

theorem mmbRetry_waits (fault : (s.mmb bus.val).busFault = false) (v : Option Byte) : exec (.mmbRetry bus v) s = .next s := by
  show execMmbRetry bus v s = _
  unfold execMmbRetry
  dsimp only
  rw [fault]
  exact if_neg (by simp)

theorem mmbTransferTimeout_runs (live : s.live = true) (off : ∀ k, k < 8 → (s.port (8 * bus.val + k)).enabled = false)
    (deferred : s.mgmt.deferred = []) : exec (.mmbTransferTimeout bus) s = .next ((s.emit (.mmbClear bus.val)).setPresence bus.val
      { s.mmb bus.val with timeouts := satAdd 3 (s.mmb bus.val).timeouts 1
                           busFault := (s.mmb bus.val).busFault || satAdd 3 (s.mmb bus.val).timeouts 1 == 3 }) := by
  obtain ⟨-, -, moved, -⟩ := setPresence_effect (s := s.emit (.mmbClear bus.val)) off bus.isLt
    { s.mmb bus.val with timeouts := satAdd 3 (s.mmb bus.val).timeouts 1
                         busFault := (s.mmb bus.val).busFault || satAdd 3 (s.mmb bus.val).timeouts 1 == 3 }
  show execMmbTransferTimeout bus s = _
  unfold execMmbTransferTimeout
  rw [live]
  dsimp only
  refine congrArg Host.Outcome.next (if_neg ?_)
  rw [moved]
  dsimp only [State.emit]
  rw [deferred]
  exact Bool.false_ne_true

/-! ## Re-timers (R435) -/

theorem retimerPoll_none {port : Port} (none_ : (s.port port.val).anyUp = false ∨ (s.port port.val).retimers = none)
    (l : List (Option Byte)) : exec (.retimerPoll port l) s = .next s := by
  show execRetimerPoll port l s = _
  unfold execRetimerPoll
  dsimp only
  rcases none_ with down | none_
  · exact if_pos (by rw [down]; simp)
  · rw [none_]
    exact ite_self _

theorem retimerPoll_unreachable {port : Port} (live : s.live = true) {page : Bytes} (up : (s.port port.val).anyUp = true)
    (one : (s.port port.val).retimers = some (page, 1)) :
    exec (.retimerPoll port [none]) s = .next (s.pollRetimer (port.val / 8) page 0 none) := by
  show execRetimerPoll port [none] s = _
  unfold execRetimerPoll
  dsimp only
  rw [live, up, one]
  rfl

end

/-! ## Cable identities (R434, R435) -/

/-- The ports, the presence they show and the commands outstanding stand as they were. -/
structure BusKept (s t : State) : Prop where
  deferred : t.mgmt.deferred = s.mgmt.deferred
  ports : t.ports = s.ports
  present : ∀ k, t.present k = s.present k

/-- The commands outstanding stand as they were, and of the ports the pages of those that lost presence are to be read again. -/
structure PagesRead (s t : State) : Prop where
  deferred : t.mgmt.deferred = s.mgmt.deferred
  stale : OnlyStale s t

theorem BusKept.read {s t u : State} (h : BusKept s t) (g : PagesRead t u) : PagesRead s u := by
  refine ⟨g.deferred.trans h.deferred, fun k => ?_⟩
  rw [g.stale k, h.present k, show t.port k = s.port k by unfold State.port; rw [h.ports]]

theorem PagesRead.kept {s t u : State} (h : PagesRead s t) (g : BusKept t u) : PagesRead s u := by
  refine ⟨g.deferred.trans h.deferred, fun k => ?_⟩
  rw [g.present k, ← h.stale k]
  unfold State.port
  rw [g.ports]

theorem PagesRead.port {s t : State} (h : PagesRead s t) (k : Nat) : t.port k = s.port k ∨ t.port k = identityStale (s.port k) := by
  rw [h.stale k]
  split
  · exact .inr rfl
  · exact .inl rfl

theorem present_countTransfer (s : State) (bus : Nat) (acked : Bool) (k : Nat) : (s.countTransfer bus acked).present k = s.present k := by
  refine present_setMmb (s := s) ?_ ?_ ?_ k
  all_goals cases acked <;> rfl

theorem busKept_readPage (s : State) (bus page : Nat) (b : Option Bytes) : BusKept s (s.readPage bus page b) :=
  ⟨rfl, rfl, fun k => present_countTransfer ((s.emit _).emit _) bus b.isSome k⟩

theorem pagesRead_page0Read {s : State} {bus : Nat} (off : ∀ k, k < 8 → (s.port (8 * bus + k)).enabled = false) (low : bus < 8)
    (b : Option Bytes) : PagesRead s (s.page0Read bus b) := by
  cases b with
  | none => exact ⟨rfl, onlyStale_same rfl (present_setMmb (s := s) rfl rfl rfl)⟩
  | some b =>
    obtain ⟨-, stale, moved, -, -⟩ := setPresence_effect off low { s.mmb bus with idValid := page0Crc b, cables := byteAt b 3 }
    have deferred : (s.setPresence bus { s.mmb bus with idValid := page0Crc b, cables := byteAt b 3 }).mgmt.deferred = s.mgmt.deferred := by
      rw [moved]
    exact ⟨deferred, stale⟩

/-- The identity that two pages give, if they are valid (R434). -/
def identityOf (page0 page : Option Bytes) : Option Bytes := match page0, page with
  | some a, some b => if identityValid a b then some b else none
  | _, _ => none

theorem identityOf_valid {a b : Bytes} (valid : identityValid a b = true) : identityOf (some a) (some b) = some b := if_pos valid

theorem identityOf_invalid {page0 page : Option Bytes} (invalid : page0 = none ∨ page = none
    ∨ ∃ a b, page0 = some a ∧ page = some b ∧ identityValid a b = false) : identityOf page0 page = none := by
  rcases invalid with rfl | rfl | ⟨a, b, rfl, rfl, bad⟩
  · cases page <;> rfl
  · cases page0 <;> rfl
  · exact if_neg (by simp [bad])

theorem identityOf_page {page0 page : Option Bytes} {b : Bytes} (some_ : identityOf page0 page = some b) : page = some b := by
  unfold identityOf at some_
  split at some_
  · split at some_
    · exact some_
    · cases some_
  · cases some_

theorem readIdentity_effect {s : State} {n : Nat} (off : ∀ k, k < 8 → (s.port (8 * (n / 8) + k)).enabled = false) (low : n / 8 < 8)
    (page0 page : Option Bytes) : ∃ u, PagesRead s u
    ∧ s.readIdentity n page0 page = u.updPort n fun p => p.identity (identityOf page0 page) := by
  have first := busKept_readPage s (n / 8) 0 page0
  have same (k : Nat) : (s.readPage (n / 8) 0 page0).port k = s.port k := rfl
  have second := pagesRead_page0Read (s := s.readPage (n / 8) 0 page0) (fun k small => by rw [same]; exact off k small) low page0
  refine ⟨_, (first.read second).kept (busKept_readPage _ (n / 8) (n % 8 + 1) page), ?_⟩
  cases page0 <;> cases page <;> rfl

/-- A port whose cable has no re-timers has none restarted. -/
theorem restartRetimers_none {s : State} {n : Nat} (none_ : ∀ b count, (s.port n).retimers = some (b, count) → count = 0)
    (acks : List Bool) : s.restartRetimers n acks = s := by
  unfold State.restartRetimers
  split
  · rfl
  next b count has =>
    rw [none_ b count has]
    rfl

theorem retimers_identity {p : PortSt} {page0 page : Option Bytes} (none_ : ∀ b, page = some b → byteField b 3 1 = 0) (b : Bytes)
    (count : Nat) (has : (p.identity (identityOf page0 page)).retimers = some (b, count)) : count = 0 := by
  unfold PortSt.retimers PortSt.identity at has
  cases found : identityOf page0 page with
  | none =>
    rw [found] at has
    cases has
  | some c =>
    rw [found] at has
    dsimp only at has
    split at has
    · cases has
      rw [none_ b (identityOf_page found)]
      rfl
    · cases has

/-- One stripe that starts an attempt, with the pages read, needs no other read. -/
theorem attemptReady_fresh {s : State} {n : Nat} (read : Bool) (idle : (s.port n).a.st = .disabled) (owed : (s.port n).a.readOwed = false)
    (writes : (s.port n).a.rtOwed = false) : s.attemptReady n read .a = s.updStripe n .a fun x => { x with identFresh := true } := by
  have starts : ((s.port n).stripe .a).starts = true := by
    show Stripe.starts (s.port n).a = true
    rw [Stripe.starts, idle]
    rfl
  unfold State.attemptReady
  dsimp only
  rw [if_neg (by rw [PortSt.stripe, owed, writes]; decide), if_pos starts]

theorem serveCart_none {s : State} (deferred : s.mgmt.deferred = []) (bus : Nat) : s.serveCart bus = s := by
  unfold State.serveCart
  rw [deferred]
  rfl

/-- Before the attempt of a port of one stripe, without re-timers, the pages are read and its identity follows. -/
theorem cartIdentityRead_effect {s : State} {port : Port} {n : Nat} (live : s.live = true) (num : n = port.val)
    (split_ : (s.port n).split = false) (idle : (s.port n).a.st = .disabled) (owed : (s.port n).a.readOwed = false)
    (writes : (s.port n).a.rtOwed = false) (deferred : s.mgmt.deferred = [])
    (off : ∀ k, k < 8 → (s.port (8 * (n / 8) + k)).enabled = false) (seated : (s.mmb (n / 8)).seated = true)
    (page0 : Option Bytes) {page : Option Bytes} (none_ : ∀ b, page = some b → byteField b 3 1 = 0) (acks : List Bool) :
    ∃ (t : State) (p : PortSt), exec (.cartIdentityRead port page0 page acks) s = .next t
      ∧ t.port n = (p.identity (identityOf page0 page)).setStripe .a { (p.identity (identityOf page0 page)).a with identFresh := true }
      ∧ ∀ k, k ≠ n → t.port k = if s.present k = true ∧ t.present k = false then identityStale (s.port k) else s.port k := by
  have low : n / 8 < 8 := by
    have := port.isLt
    omega
  have sides : (s.port n).sides = [.a] := by rw [PortSt.sides, split_]; rfl
  obtain ⟨u, pages, ends⟩ := readIdentity_effect (s := s) off low page0 page
  have read : (s.readIdentity n page0 page).port n = (u.port n).identity (identityOf page0 page) := by rw [ends, State.port_updPort]
  have outstanding : (s.readIdentity n page0 page).mgmt.deferred = [] := by
    rw [ends]
    exact pages.deferred.trans deferred
  have restarts : (s.readIdentity n page0 page).restartRetimers n acks = s.readIdentity n page0 page :=
    restartRetimers_none (fun b count has => retimers_identity none_ b count (read ▸ has)) acks
  have stripe : ((s.readIdentity n page0 page).port n).a.st = .disabled ∧ ((s.readIdentity n page0 page).port n).a.readOwed = false
      ∧ ((s.readIdentity n page0 page).port n).a.rtOwed = false := by
    rw [read]
    rcases pages.port n with from_ | from_ <;> rw [from_] <;> cases identityOf page0 page <;> exact ⟨idle, owed, writes⟩
  obtain ⟨idle', owed', writes'⟩ := stripe
  have runs : exec (.cartIdentityRead port page0 page acks) s
      = .next ((s.readIdentity n page0 page).updStripe n .a fun x => { x with identFresh := true }) := by
    subst num
    have needed : ((s.port port.val).stripe .a).starts = true := by
      show Stripe.starts (s.port port.val).a = true
      rw [Stripe.starts, idle]
      rfl
    show execCartIdentityRead port page0 page acks s = _
    unfold execCartIdentityRead
    dsimp only
    rw [sides, List.any_cons, needed, live, seated, if_neg (by simp), if_pos (by simp), restarts, List.foldl_cons, List.foldl_nil,
      attemptReady_fresh _ idle' owed' writes']
    exact congrArg Host.Outcome.next (serveCart_none (s := (s.readIdentity port.val page0 page).updStripe _ _ _) outstanding _)
  refine ⟨_, u.port n, runs, ?_, fun k other => ?_⟩
  · rw [State.port_updStripe, read]
    rfl
  · rw [ends]
    exact ((State.port_setPort_other _ _ other).trans (State.port_setPort_other _ _ other)).trans (pages.stale k)

/-- Settles O60: presence is compared port by port, and each bus row is its equation under the presence that its record shows. -/
theorem cartridgesAreFollowed : Obligations.CartridgesAreFollowed := by
  refine ⟨fun bus s live off => ⟨fun seated => ?_, fun v i seated row => ?_, mmbRetry_waits, fun deferred => ?_⟩,
    fun port n s live num => ⟨fun l none_ => ?_, fun page up one => ?_,
      fun page0 page acks _ split_ idle owed writes deferred off seated none_ => ?_⟩⟩
  · obtain ⟨mmb, stale, moved, out, flags⟩ := setPresence_effect off bus.isLt { s.mmb bus.val with seated := seated }
    refine ⟨_, cartPresChange_runs live seated, mmb, flags, stale, ?_⟩
    unfold BusMoved at moved
    rw [out] at moved
    exact moved
  · obtain ⟨out, mmb, stale, moved⟩ := readCables_effect off v
    refine ⟨_, readCables_runs live seated row, out, ?_, stale, moved⟩
    rewrite [mmb]
    cases v <;> rfl
  · obtain ⟨mmb, -, -, out, -⟩ := setPresence_effect (s := s.emit (.mmbClear bus.val)) off bus.isLt
      { s.mmb bus.val with timeouts := satAdd 3 (s.mmb bus.val).timeouts 1
                           busFault := (s.mmb bus.val).busFault || satAdd 3 (s.mmb bus.val).timeouts 1 == 3 }
    refine ⟨_, mmbTransferTimeout_runs live off deferred, out, by rw [mmb]; rfl, ?_⟩
    rw [mmb]
    show ((s.mmb bus.val).busFault || min 3 ((s.mmb bus.val).timeouts + 1) == 3) = true ↔ _
    rw [Bool.or_eq_true, beq_iff_eq]
    exact or_congr_right (by omega)
  · subst num
    exact retimerPoll_none none_ l
  · subst num
    refine ⟨_, retimerPoll_unreachable live up one, ?_, ?_, rfl, rfl⟩
    · exact congrArg Mmb.rtFault (State.mmb_setMmb ..)
    · refine (congrArg Mmb.naks (State.mmb_setMmb ..)).trans ?_
      exact congrArg Mmb.naks (State.mmb_setMmb ..)
  · obtain ⟨t, p, runs, after, others⟩ := cartIdentityRead_effect live num split_ idle owed writes deferred off seated page0 none_ acks
    refine ⟨t, runs, fun a b first second valid => ?_, fun invalid => ?_, ?_, others⟩
    · subst first second
      rw [after, identityOf_valid valid]
      exact ⟨rfl, rfl, rfl, rfl⟩
    · rw [after, identityOf_invalid invalid]
      exact ⟨rfl, rfl, rfl⟩
    · rw [after]
      rfl

end Sys2Proof.Claims
end

section
/-! PROOFS. PORT_DOWN and HOLD_EXPIRY: where a hold begins and where it ends (O44). -/

namespace Sys2Proof.Claims
open Sys2Proof.Machine

/-! ## What leaves the holds of the ports alone -/

/-- The hold state of every port stands as it was. -/
def HoldsKept (s t : State) : Prop := t.recov.ports = s.recov.ports

theorem HoldsKept.trans {s t u : State} (h : HoldsKept s t) (g : HoldsKept t u) : HoldsKept s u := Eq.trans g h

theorem HoldsKept.ite {p : Prop} [Decidable p] {s t u : State} (h : HoldsKept s t) (g : HoldsKept s u) :
    HoldsKept s (if p then t else u) := by
  split
  · exact h
  · exact g

theorem holdsKept_foldl {α : Type} {f : State → α → State} (step : ∀ s x, HoldsKept s (f s x)) (l : List α) (s : State) :
    HoldsKept s (l.foldl f s) :=
  foldl_rel (R := HoldsKept) f (fun _ => rfl) .trans step l s

theorem HoldsKept.recovOf {s t : State} (h : HoldsKept s t) (n : Nat) : t.recovOf n = s.recovOf n := by
  unfold State.recovOf
  rw [show t.recov.ports = s.recov.ports from h]

theorem holdsKept_openFence (s : State) (n : Nat) (f : Fence) : HoldsKept s (s.openFence n f) := by
  have counted : HoldsKept s ((s.setFence n f).countGlobal 0x1008 none none 1) := by
    obtain ⟨c, only⟩ := State.countGlobal_only (s.setFence n f) 0x1008 none none 1
    rw [only]
    rfl
  exact counted.trans (sendFenceNotice_recov ..)

theorem holdsKept_foldFences (s : State) (l : List Nat) (f : Fence) : HoldsKept s (s.foldFences l f) := by
  cases l with
  | nil => rfl
  | cons n r => exact (holdsKept_foldl (f := fun (s : State) n => s.setFence n defaultFence) (fun _ _ => rfl) r s).trans (holdsKept_openFence ..)

theorem holdsKept_raiseWildcard (s : State) (lp tc : Nat) (fseq : BitVec 16) (reason : Nat) :
    HoldsKept s (s.raiseWildcard lp tc fseq reason) := by
  unfold State.raiseWildcard
  dsimp only
  split
  · exact holdsKept_foldFences ..
  · split
    · exact holdsKept_openFence ..
    · split
      · exact holdsKept_foldFences ..
      · split
        · exact (holdsKept_foldFences ..).trans (holdsKept_openFence ..)
        · exact holdsKept_foldFences ..

theorem holdsKept_raiseFence (s : State) (lp tc : Nat) (dest : BitVec 16) (target : Option Nat) (fseq : BitVec 16) (reason : Nat) :
    HoldsKept s (s.raiseFence lp tc dest target fseq reason) := by
  unfold State.raiseFence
  dsimp only
  split
  · rfl
  · split
    · refine .ite ?_ (holdsKept_openFence ..)
      exact HoldsKept.trans (t := { s with recov := { s.recov with limitSeen := true } }) rfl (holdsKept_raiseWildcard ..)
    · exact HoldsKept.trans (t := { s with recov := { s.recov with
        fullSeen := true, limitSeen := s.recov.limitSeen || decide (s.recov.fenceLimit.toNat ≤ _) } }) rfl (holdsKept_raiseWildcard ..)

theorem holdsKept_unqueue (s : State) (id : Nat) : HoldsKept s (s.unqueue id) := by
  unfold State.unqueue
  split
  · rfl
  · refine HoldsKept.trans (t := { s with sw := _ }) rfl ?_
    exact congrArg (·.recov.ports) (State.freeCells_keepsQueues ..).rest

theorem holdsKept_dropHeld (s : State) (lp : Nat) : HoldsKept s (s.dropHeld lp) := by
  have voqs (l : List QFrame) : HoldsKept s (l.foldl (fun (s : State) (q : QFrame) => s.unqueue q.id) s) :=
    holdsKept_foldl (fun _ _ => holdsKept_unqueue ..) l s
  unfold State.dropHeld HoldsKept
  simp only [List.foldl_cons, List.foldl_nil, State.setFifo, State.setCurrent, State.setMcFifo, State.dropAgentOut]
  exact voqs _

theorem holdsKept_discardHeld (s : State) (lp reason : Nat) : HoldsKept s (s.discardHeld lp reason).1 := by
  unfold State.discardHeld
  dsimp only
  refine (holdsKept_dropHeld s lp).trans (holdsKept_foldl (fun s x => ?_) _ _)
  exact .ite rfl (holdsKept_raiseFence ..)

/-! ## HOLD_EXPIRY (R166, R168) -/

/-- The end of the hold of the first logical port of a port leaves the second one's as it is. -/
theorem endHold_second (s : State) (n reason : Nat) : (s.endHold (2 * n) reason).1.holdOf (2 * n + 1) = s.holdOf (2 * n + 1) := by
  have first : lpPort (2 * n) = n ∧ lpSide (2 * n) = .a := by
    constructor
    · unfold lpPort
      omega
    · simp [lpSide]
  have second : lpPort (2 * n + 1) = n ∧ lpSide (2 * n + 1) = .b := by
    constructor
    · unfold lpPort
      omega
    · simp [lpSide, Nat.add_mod]
  have kept := (holdsKept_discardHeld s (2 * n) reason).recovOf n
  rw [endHold_eq]
  generalize (s.discardHeld (2 * n) reason).1 = u at kept
  unfold State.holdOf
  rw [second.1, second.2]
  dsimp only
  rw [← kept]
  unfold holdEnded State.setHold
  dsimp only
  rw [first.1, first.2, State.recovOf_setRecov]
  dsimp only
  split <;> exact (congrArg PortRecov.stB (State.recovOf_setRecov u n _)).trans rfl

section
variable {s : State} {port : Port}

theorem holdExpiry_idle (live : s.live = true) (second : s.holdOf (2 * port.val + 1) ≠ .holding)
    (first : s.holdOf (2 * port.val) = .holding → beatReached s.beat.count (s.holdEndOf (2 * port.val)) = false) :
    exec (.holdExpiry port) s = .next s := by
  show execHoldExpiry port s = _
  unfold execHoldExpiry
  rw [live, if_neg (by decide), List.foldl_cons, List.foldl_cons, List.foldl_nil]
  have early : ¬ (s.holdOf (2 * port.val) = .holding ∧ beatReached s.beat.count (s.holdEndOf (2 * port.val)) = true) := by
    rintro ⟨holds, due⟩
    rw [first holds] at due
    cases due
  rw [if_neg early, if_neg fun h => second h.1]

theorem holdExpiry_ends (live : s.live = true) (second : s.holdOf (2 * port.val + 1) ≠ .holding)
    (holds : s.holdOf (2 * port.val) = .holding) (due : beatReached s.beat.count (s.holdEndOf (2 * port.val)) = true) :
    exec (.holdExpiry port) s = .next (s.endHold (2 * port.val) 7).1 := by
  show execHoldExpiry port s = _
  unfold execHoldExpiry
  rw [live, if_neg (by decide), List.foldl_cons, List.foldl_cons, List.foldl_nil]
  have ends : (if s.holdOf (2 * port.val) = .holding ∧ beatReached s.beat.count (s.holdEndOf (2 * port.val)) = true then
      (s.endHold (2 * port.val) 7).1 else s) = (s.endHold (2 * port.val) 7).1 := if_pos ⟨holds, due⟩
  rw [ends, if_neg]
  rw [endHold_second]
  exact fun h => second h.1

end

/-! ## PORT_DOWN (R165, R166, R356) -/

theorem replayValid_enterSend (s : State) (n : Nat) (sd : Side) :
    (((s.enterSend n sd).port n).stripe sd).replayValid = ((s.port n).stripe sd).replayValid := by
  have kept : (((s.port n).stripe sd).into .send).replayValid = ((s.port n).stripe sd).replayValid := by
    unfold Stripe.into
    split <;> rfl
  have stripe := State.stripe_setStripeSt s n sd .send
  rw [port_enterSend, (newAttempt_stripes ..).2, State.latchPreset, State.port_setPort, PortSt.prepare, PortSt.stripe_setStripe]
  dsimp only
  rw [PortSt.stripe_setStripe, ← kept, ← stripe]
  cases sd <;> rfl

/-- A stripe that has left UP with a cause: what its port shows. -/
structure LeftUp (p : PortSt) (code : Nat) (next : StripeSt) : Prop where
  cause : p.lastFail = code
  st : p.a.st = next
  kept : p.a.replayValid = true

theorem LeftUp.of_same {p q : PortSt} {code : Nat} {next : StripeSt} (h : LeftUp p code next) (cause : q.lastFail = p.lastFail)
    (st : q.a.st = p.a.st) (kept : q.a.replayValid = p.a.replayValid) : LeftUp q code next :=
  ⟨cause.trans h.cause, st.trans h.st, kept.trans h.kept⟩

/-- The first steps of a stripe that leaves UP: the cause, its new state, and the replay state that it keeps. -/
def leftUp (s : State) (n code : Nat) (next : StripeSt) : State :=
  ((s.updPort n fun p => { p with lastFail := code }).setStripeSt n .a next).updPort n fun p =>
    p.setStripe .a { p.stripe .a with replayValid := true, txw := 0, rxw := 0 }

theorem leftUp_effect (s : State) (n code : Nat) (next : StripeSt) :
    OnlyPort s (leftUp s n code next) n ∧ LeftUp ((leftUp s n code next).port n) code next := by
  refine ⟨(onlyPort_updPort ..).trans ((onlyPort_setStripeSt ..).trans (onlyPort_updPort ..)), ?_⟩
  unfold leftUp
  rw [State.port_updPort, State.port_setStripeSt, State.port_updPort]
  exact ⟨rfl, Stripe.into_st .., rfl⟩

/-- The commands and jobs that end with it, and the state that it enters. -/
def afterUp (s : State) (n : Nat) (next : StripeSt) : State :=
  let p := s.port n
  let s := s.endPortWork n (stripeLanes p.split .a) (!p.anyUp)
  let s := s.updPort n fun p => { p with laneOut := p.laneOut.filter fun m => m.2.stripeB != decide (Side.a = .b) }
  if next = .send then s.enterSend n .a else s.updPort n fun p => { p with
    txJob := dropJob .a p.txJob, rxJob := dropJob .a p.rxJob }

theorem stripeDown_eq {s : State} {n : Nat} (up : (s.port n).a.st = .up) (code : Nat) (next : StripeSt) :
    s.stripeDown n .a code next = (afterUp (leftUp s n code next) n next).lpDown (lpOf n .a) := by
  have was : decide (((s.port n).stripe .a).st = .up) = true := decide_eq_true up
  unfold State.stripeDown
  dsimp only
  rw [was]
  rfl

theorem endPortWork_effect {s : State} (deferred : s.mgmt.deferred = []) (n : Nat) (lanes : List Nat) (all : Bool) :
    OnlyPort s (s.endPortWork n lanes all) n ∧ ((s.endPortWork n lanes all).port n).lastFail = (s.port n).lastFail
    ∧ ((s.endPortWork n lanes all).port n).a = (s.port n).a := by
  unfold State.endPortWork
  dsimp only
  rw [finishAll_none deferred]
  refine ⟨onlyPort_updPort .., ?_⟩
  rw [State.port_updPort]
  exact ⟨rfl, rfl⟩

theorem afterUp_effect {s : State} {n code : Nat} {next : StripeSt} (deferred : s.mgmt.deferred = []) (left_ : LeftUp (s.port n) code next) :
    OnlyPort s (afterUp s n next) n ∧ LeftUp ((afterUp s n next).port n) code next := by
  obtain ⟨only, cause, stripe⟩ := endPortWork_effect deferred n (stripeLanes (s.port n).split .a) (!(s.port n).anyUp)
  unfold afterUp
  dsimp only
  generalize s.endPortWork n _ _ = u at only cause stripe
  have ended := left_.of_same cause (congrArg Stripe.st stripe) (congrArg Stripe.replayValid stripe)
  have told := only.trans (onlyPort_updPort u n fun p => { p with laneOut := p.laneOut.filter fun m => m.2.stripeB != decide (Side.a = .b) })
  have port := State.port_updPort u n fun p => { p with laneOut := p.laneOut.filter fun m => m.2.stripeB != decide (Side.a = .b) }
  generalize (u.updPort n fun p => { p with laneOut := p.laneOut.filter fun m => m.2.stripeB != decide (Side.a = .b) }) = v at told port
  have ended' : LeftUp (v.port n) code next := by
    rw [port]
    exact ended.of_same rfl rfl rfl
  by_cases send : next = .send
  · rw [if_pos send]
    refine ⟨told.trans (onlyPort_enterSend ..), ?_⟩
    obtain ⟨_, _, _, _, hunts⟩ := stripe_enterSend v n .a
    have only := enterSend_only v n .a
    have kept := replayValid_enterSend v n .a
    generalize (v.enterSend n .a).port n = q at hunts only kept
    exact ⟨(congrArg PortSt.lastFail only).trans ended'.cause, (congrArg Stripe.st hunts).trans send.symm, kept.trans ended'.kept⟩
  · rw [if_neg send]
    refine ⟨told.trans (onlyPort_updPort ..), ?_⟩
    rw [State.port_updPort]
    exact ended'.of_same rfl rfl rfl

/-! ### The hold begins -/

theorem payOwed_only (k : Nat) (s : State) : ∃ o f, payOwed k s = { s with sw := { s.sw with owed := o, sharedFree := f } } := by
  induction k generalizing s with
  | zero => exact ⟨_, _, rfl⟩
  | succ k ih =>
    unfold payOwed
    split
    · exact ⟨_, _, rfl⟩
    · split
      · exact ⟨_, _, rfl⟩
      · obtain ⟨o, f, e⟩ := ih _
        exact ⟨o, f, e⟩

/-- The credits of one class of an LP are cleared. -/
def clearClass (lp : Nat) (s : State) (c : Nat) : State :=
  let k := lpTc lp c
  let s0 := s.sw.sharedFree
  let s := { s with sw := { s.sw with
    credits := sput s.sw.credits k 0 0, pendingCredit := sput s.sw.pendingCredit k 0 0 } }
  let s := s.setCells k (sget s.sw.held k 0) 0
  payOwed (s.sw.sharedFree - s0).toNat s

theorem clearCredits_eq (s : State) (lp : Nat) : s.clearCredits lp
    = (List.range 8).foldl (clearClass lp) { s with sw := { s.sw with initSeen := sput s.sw.initSeen lp false false } } := rfl

/-- From s to t the credits of the listed classes of an LP are cleared, and only the switch core moves. -/
structure CreditsCleared (lp : Nat) (l : List Nat) (s t : State) : Prop where
  only : t = { s with sw := t.sw }
  quiet : t.sw.frames = s.sw.frames ∧ t.sw.arriving = s.sw.arriving ∧ t.sw.initSeen = s.sw.initSeen
  cleared : ∀ c ∈ l, sget t.sw.credits (lpTc lp c) 0 = 0 ∧ sget t.sw.pendingCredit (lpTc lp c) 0 = 0 ∧ sget t.sw.granted (lpTc lp c) 0 = 0
  kept : ∀ c, sget s.sw.credits (lpTc lp c) 0 = 0 ∧ sget s.sw.pendingCredit (lpTc lp c) 0 = 0 ∧ sget s.sw.granted (lpTc lp c) 0 = 0 →
    sget t.sw.credits (lpTc lp c) 0 = 0 ∧ sget t.sw.pendingCredit (lpTc lp c) 0 = 0 ∧ sget t.sw.granted (lpTc lp c) 0 = 0

/-- A value of 0 put at a key leaves a key that held 0 at 0, and is read back. -/
theorem sget_sput_zero {m : SMap Nat} {k j : Nat} (h : k = j ∨ sget m j 0 = 0) : sget (sput m k 0 0) j 0 = 0 := by
  by_cases same : j = k
  · subst same
    exact sget_sput_same ..
  · rw [sget_sput_other m 0 0 0 same]
    exact h.resolve_left (Ne.symm same)

theorem clearClass_cleared (lp : Nat) (s : State) (c : Nat) : CreditsCleared lp [c] s (clearClass lp s c) := by
  unfold clearClass
  dsimp only
  obtain ⟨o, f, only⟩ := payOwed_only _ _
  rw [only]
  refine ⟨rfl, ⟨rfl, rfl, rfl⟩, fun d mem => ?_, fun d zero => ?_⟩
  · rw [List.mem_singleton.mp mem]
    exact ⟨sget_sput_same s.sw.credits _ 0 0, sget_sput_same s.sw.pendingCredit _ 0 0, sget_sput_same s.sw.granted _ 0 0⟩
  · obtain ⟨a, b, g⟩ := zero
    exact ⟨sget_sput_zero (.inr a), sget_sput_zero (.inr b), sget_sput_zero (.inr g)⟩

theorem CreditsCleared.cons {lp c : Nat} {l : List Nat} {s t u : State} (h : CreditsCleared lp [c] s t) (g : CreditsCleared lp l t u) :
    CreditsCleared lp (c :: l) s u := by
  obtain ⟨frames, arriving, init⟩ := h.quiet
  obtain ⟨frames', arriving', init'⟩ := g.quiet
  refine ⟨by rw [g.only, h.only], ⟨frames'.trans frames, arriving'.trans arriving, init'.trans init⟩, fun d mem => ?_,
    fun d zero => g.kept d (h.kept d zero)⟩
  rcases List.mem_cons.mp mem with rfl | later
  · exact g.kept d (h.cleared d (List.mem_singleton.mpr rfl))
  · exact g.cleared d later

theorem clearClasses_cleared (lp : Nat) (l : List Nat) (s : State) : CreditsCleared lp l s (l.foldl (clearClass lp) s) := by
  induction l generalizing s with
  | nil => exact ⟨rfl, ⟨rfl, rfl, rfl⟩, (fun _ mem => nomatch mem), fun _ zero => zero⟩
  | cons c l ih => exact (clearClass_cleared lp s c).cons (ih _)

/-- A hold begins for an LP with no frame arriving, queued or deferred for it and no open session. -/
theorem lpDown_effect {s : State} {n : Nat} (arriving : s.arrivingOf (2 * n) = .none) (frames : s.sw.frames = [])
    (sessions : s.coll.sessions = []) : (s.lpDown (2 * n)).ports = s.ports ∧ (s.lpDown (2 * n)).holdOf (2 * n) = .holding
    ∧ (s.lpDown (2 * n)).holdEndOf (2 * n) = s.beat.count + (s.recovOf n).holdBeats.zeroExtend 48 + 1
    ∧ (∀ c, c < 8 → sget (s.lpDown (2 * n)).sw.credits (lpTc (2 * n) c) 0 = 0 ∧ sget (s.lpDown (2 * n)).sw.pendingCredit (lpTc (2 * n) c) 0 = 0
        ∧ sget (s.lpDown (2 * n)).sw.granted (lpTc (2 * n) c) 0 = 0)
    ∧ sget (s.lpDown (2 * n)).sw.initSeen (2 * n) false = false ∧ ∀ k, k ≠ n → (s.lpDown (2 * n)).recovOf k = s.recovOf k := by
  have first : lpPort (2 * n) = n ∧ lpSide (2 * n) = .a := by
    constructor
    · unfold lpPort
      omega
    · simp [lpSide]
  have credits := clearClasses_cleared (2 * n) (List.range 8) { s with sw := { s.sw with initSeen := sput s.sw.initSeen (2 * n) false false } }
  rw [← clearCredits_eq] at credits
  obtain ⟨only, ⟨frames', arriving', init⟩, cleared, -⟩ := credits
  generalize clears : s.clearCredits (2 * n) = u at only frames' arriving' init cleared
  have none_ : u.loseArriving (2 * n) = u := by
    unfold State.loseArriving State.arrivingOf
    rw [arriving']
    rw [show sget s.sw.arriving (2 * n) .none = .none from arriving]
  have quiet : u.countHolding (2 * n) = u := by
    unfold State.countHolding
    rw [frames', frames]
    rfl
  have recov : u.recovOf n = s.recovOf n := by rw [only]; rfl
  have open_ (r : PortRecov) : (u.setRecov n r).collLost (2 * n) = u.setRecov n r := by
    have none_ : (u.setRecov n r).openSessions = [] := by
      show u.coll.sessions.filter _ = []
      rw [only]
      show s.coll.sessions.filter _ = []
      rw [sessions]
      rfl
    unfold State.collLost
    rw [none_]
    rfl
  have down : s.lpDown (2 * n) = u.setRecov n { s.recovOf n with
      stA := .holding, holdEnd := s.beat.count + (s.recovOf n).holdBeats.zeroExtend 48 + 1
      endA := s.beat.count + (s.recovOf n).holdBeats.zeroExtend 48 + 1 } := by
    unfold State.lpDown
    rw [clears, none_, quiet, first.1, first.2]
    dsimp only
    rw [open_, recov, show u.beat = s.beat by rw [only]]
  rw [down]
  refine ⟨by rw [only]; rfl, ?_, ?_, fun c low => cleared c (List.mem_range.mpr low), ?_, fun k other => ?_⟩
  · unfold State.holdOf
    rw [first.1, first.2, State.recovOf_setRecov]
  · unfold State.holdEndOf
    rw [first.1, first.2, State.recovOf_setRecov]
  · show sget u.sw.initSeen (2 * n) false = false
    rw [init]
    exact sget_sput_same s.sw.initSeen (2 * n) false false
  · rw [State.recovOf_setRecov_other _ _ other, only]
    rfl

/-- What PORT_DOWN does to a stripe that is UP, with nothing deferred or in flight for it. -/
theorem stripeDown_effect {s : State} {n : Nat} (up : (s.port n).a.st = .up) (deferred : s.mgmt.deferred = [])
    (arriving : s.arrivingOf (2 * n) = .none) (frames : s.sw.frames = []) (sessions : s.coll.sessions = []) (code : Nat) (next : StripeSt) :
    ∃ t, s.stripeDown n .a code next = t ∧ LeftUp (t.port n) code next
    ∧ t.holdOf (2 * n) = .holding ∧ t.holdEndOf (2 * n) = s.beat.count + (s.recovOf n).holdBeats.zeroExtend 48 + 1
    ∧ (∀ c, c < 8 → sget t.sw.credits (lpTc (2 * n) c) 0 = 0 ∧ sget t.sw.pendingCredit (lpTc (2 * n) c) 0 = 0
        ∧ sget t.sw.granted (lpTc (2 * n) c) 0 = 0)
    ∧ sget t.sw.initSeen (2 * n) false = false ∧ ∀ k, k ≠ n → t.port k = s.port k ∧ t.recovOf k = s.recovOf k := by
  obtain ⟨only, left_⟩ := leftUp_effect s n code next
  have deferred' : (leftUp s n code next).mgmt.deferred = [] := (congrArg (fun u : State => u.mgmt.deferred) only.1.1).trans deferred
  obtain ⟨only', left'⟩ := afterUp_effect deferred' left_
  have moved := only.trans only'
  rw [stripeDown_eq up, show lpOf n .a = 2 * n from rfl]
  generalize afterUp (leftUp s n code next) n next = u at moved left'
  obtain ⟨⟨links, -⟩, others⟩ := moved
  have beat : u.beat = s.beat := by rw [links]
  have same (k : Nat) : u.recovOf k = s.recovOf k := (congrArg (fun v : State => v.recovOf k) links).trans rfl
  obtain ⟨ports, holds, until_, credits, init, recov⟩ := lpDown_effect (s := u) (n := n)
    ((congrArg (fun v : State => v.arrivingOf (2 * n)) links).trans arriving)
    ((congrArg (fun v : State => v.sw.frames) links).trans frames) ((congrArg (fun v : State => v.coll.sessions) links).trans sessions)
  rw [same, beat] at until_
  generalize u.lpDown (2 * n) = t at ports holds until_ credits init recov
  have port (k : Nat) : t.port k = u.port k := by
    unfold State.port
    rw [ports]
  exact ⟨t, rfl, (port n).symm ▸ left', holds, until_, credits, init, fun k other =>
    ⟨(port k).trans (others k other), (recov k other).trans (same k)⟩⟩

section
variable {s : State} {port : Port} {cause : Fin 16}

theorem portDown_runs (live : s.live = true) (single : (s.port port.val).split = false) (given : cause.val ≠ 0) :
    exec (.portDown port cause) s = .next (if (s.port port.val).a.st = .up then
      s.stripeDown port.val .a cause.val (if cause.val = 7 then .absent else .send) else s) := by
  have sides : (s.port port.val).sides = [.a] := by rw [PortSt.sides, single]; rfl
  show execPortDown port cause s = _
  unfold execPortDown State.portDownAll
  dsimp only
  rw [live, beq_false_of_ne given, sides]
  by_cases presence : cause.val = 7
  · rw [if_neg (by decide), if_pos presence, if_pos presence, presence]
    rfl
  · rw [if_neg (by decide), if_neg presence, if_neg presence]
    rfl

end

/-- Settles O44: PORT_DOWN of the one stripe of a port, and the end of the first logical port's hold. -/
theorem holdsBeginAndEnd : Obligations.HoldsBeginAndEnd := by
  refine ⟨?_, ?_⟩
  · rintro port cause n s live rfl single given
    rw [portDown_runs live single given]
    refine ⟨fun down => congrArg Host.Outcome.next (if_neg down), fun up deferred arriving frames sessions => ?_⟩
    rw [if_pos up]
    obtain ⟨t, down, ⟨fail, st, kept⟩, rest⟩ := stripeDown_effect up deferred arriving frames sessions cause.val
      (if cause.val = 7 then .absent else .send)
    exact ⟨t, congrArg Host.Outcome.next down, fail, st, kept, rest⟩
  · rintro port n s live rfl second
    refine ⟨holdExpiry_idle live second, fun holds due => ⟨holdExpiry_ends live second holds due, fun current frames slots copies agents => ?_⟩⟩
    have first : lpPort (2 * port.val) = port.val := by
      unfold lpPort
      omega
    rw [endHold_none 7 ⟨current, frames, slots, copies, agents⟩]
    obtain ⟨ended, expired, -, fences, lost, stays⟩ := holdEnded_effect { s with sw := (s.dropHeld (2 * port.val)).sw } (2 * port.val)
    rw [first] at expired
    exact ⟨ended, expired, fun down => by rw [lost down]; exact ⟨rfl, rfl⟩, fun up => by rw [stays up]; rfl, fences⟩

end Sys2Proof.Claims
end

section
/-! PROOFS. Frame heads at the ingress (O41): the lookup hold, a failed check, and the queue of an output. -/

namespace Sys2Proof.Claims
open Sys2Proof.Machine

section
variable {s : State} {lp : Lp} {f : InFrame}

/-- What a received frame leaves of the switch core besides its cells. -/
theorem received_switch (s : State) (lp : Nat) (f : InFrame) : (s.received lp f).sw.nextId = s.sw.nextId
    ∧ (s.received lp f).sw.heldAtBoundary = s.sw.heldAtBoundary := by
  rw [State.received, State.rxCounted_sw]
  exact ⟨rfl, rfl⟩

/-- Under a lookup hold a head that arrives waits and is counted. -/
theorem arriveFrame_waits (hold : s.sw.lookupHold ≠ []) (n : Nat) : s.arriveFrame n f
    = ({ s.received n f with sw := { (s.received n f).sw with heads := (s.received n f).sw.heads ++ [(n, true, f)] } }.setArriving n
        (if f.arrived < hdrCount f.hdr then .waiting else .none)).countHeld := by
  obtain ⟨x, m, arrived, -, -, kept⟩ := s.received_only n f
  have held : (!(s.received n f).sw.lookupHold.isEmpty) = true := by
    rw [arrived]
    simpa [kept] using hold
  unfold State.received State.rxCounted at held ⊢
  unfold State.arriveFrame
  dsimp only
  rw [held]
  rfl

/-- A head that waits moves the switch core and a counter. -/
theorem countHeld_only (u : State) : ∃ m, u.countHeld = { u with
    sw := { u.sw with heldAtBoundary := satAdd (2 ^ 48 - 1) u.sw.heldAtBoundary 1 }, ctr := { u.ctr with counters := m } } :=
  State.countGlobal_only { u with sw := { u.sw with heldAtBoundary := satAdd (2 ^ 48 - 1) u.sw.heldAtBoundary 1 } } 0x1006 none none 1

theorem frameHeadIngress_arrives (live : s.live = true) (port : s.portInReset (lpPort lp.val) = false) (switch : s.switchInReset = false)
    (noHead : ∀ x ∈ s.sw.heads, x.1 ≠ lp.val) : exec (.frameHeadIngress lp f) s = .next (s.arriveFrame lp.val f) := by
  have none_waits : s.sw.heads.find? (fun x => x.1 == lp.val) = none := by simpa using noHead
  rw [exec_frameHeadIngress, execFrameHeadIngress]
  simp [live, port, switch, none_waits]

/-- The place that an admitted head takes. -/
theorem ingress_joins {n out : Nat} (check : s.ingressCheck n f = .inr (1, out)) (unfenced : s.recov.fences = [])
    (up : s.holdOf out ≠ .ended) : ∃ saf t, s.ingress n f = t ∧ t.sw.frames = s.sw.frames ++ [{
      id := s.sw.nextId, inLp := n, outLp := out, tc := f.hdr.tc.toNat, hdr := f.hdr, content := f.content, arrived := f.arrived
      crossed := 0, saf := saf, cells := f.cells }]
    ∧ t.sw.nextId = s.sw.nextId + 1 ∧ t = { s with sw := t.sw, ctr := { s.ctr with counters := t.ctr.counters } } := by
  have no_fences : s.fences = [] := by
    unfold State.fences
    rw [unfenced]
    rfl
  unfold State.ingress
  rw [check, no_fences]
  dsimp only
  rw [if_neg (by simp), if_neg (fun h => up h.2), if_neg (by decide)]
  refine ⟨1 == 4 || s.clsMode out f.hdr.tc.toNat == 1 || s.rateSaf n out, _, rfl, ?_⟩
  rw [if_neg (by decide : ¬ (1 = 4))]
  generalize (if (f.arrived == hdrCount f.hdr) = true then Arriving.none else Arriving.admitted s.sw.nextId) = rest
  by_cases holding : s.holdOf out = .holding
  · rw [if_pos ⟨rfl, holding⟩]
    obtain ⟨m, counted⟩ := State.countLp_only _ out 0x010F (some f.hdr.tc.toNat) none 1
    rw [counted]
    exact ⟨rfl, rfl, rfl⟩
  · rw [if_neg (fun h => holding h.2)]
    exact ⟨rfl, rfl, rfl⟩

/-- The release of a lookup hold under which one head waits. -/
theorem ingressHoldRelease_one (live : s.live = true) {n : Nat} {g : InFrame} (one : s.sw.heads = [(n, true, g)]) :
    exec .ingressHoldRelease s = .next (({ s with sw := { s.sw with lookupHold := [], heads := [] } } : State).ingressWaiting n g) := by
  show execIngressHoldRelease s = _
  unfold execIngressHoldRelease
  rw [live, one]
  dsimp only [List.filter_cons, List.filter_nil, if_true, List.foldl_cons, List.foldl_nil]
  rw [one]
  simp [dropFirst]

end

/-- Settles O41: a head waits under a hold, is discarded by its check, or joins the queue that its route names. -/
theorem headsAreAdmittedHeldOrDiscarded : Obligations.HeadsAreAdmittedHeldOrDiscarded := by
  intro lp f s live port switch noHead
  refine ⟨fun hold => ?_, fun free r check low => ?_, fun free out check unfenced up => ?_, fun none_ => ?_,
    fun g one => ingressHoldRelease_one live one⟩
  · refine ⟨_, (frameHeadIngress_arrives live port switch noHead).trans (congrArg Host.Outcome.next (arriveFrame_waits hold lp.val)), ?_⟩
    obtain ⟨x, m, arrived, frames, heads, -⟩ := s.received_only lp.val f
    obtain ⟨-, held⟩ := received_switch s lp.val f
    rw [arrived] at held ⊢
    obtain ⟨m', counted⟩ := countHeld_only _
    rw [counted]
    exact ⟨congrArg (· ++ _) heads, frames, congrArg (fun n => satAdd (2 ^ 48 - 1) n 1) held, rfl⟩
  · obtain ⟨only, frames, heads, diverted, -⟩ := State.ingress_discards check low
    exact ⟨_, exec_frameHeadIngress_eq_ingress live port switch noHead free, frames, heads, diverted, only⟩
  · have passes := (s.ingressCheck_received lp.val f).trans check
    have runs := exec_frameHeadIngress_eq_ingress live port switch noHead free (f := f)
    obtain ⟨next, -⟩ := received_switch s lp.val f
    obtain ⟨x, m, arrived, frames, -⟩ := s.received_only lp.val f
    rw [arrived] at passes next runs
    obtain ⟨saf, t, rfl, joined, id, only⟩ := ingress_joins passes unfenced up
    rw [frames, next] at joined
    rw [next] at id
    exact ⟨_, runs, ⟨saf, joined⟩, id, only⟩
  · show execIngressHoldRelease s = _
    unfold execIngressHoldRelease
    rw [live, none_]
    rfl

end Sys2Proof.Claims
end

section
/-! PROOFS. How frames leave through the merge and the replicator (O43). -/

namespace Sys2Proof.Claims

open Sys2Proof.Machine

/-! ## The pacers (R142) -/

/-- An LP has gained once per entry of its own. -/
def gained (s : State) (j v : Nat) : Nat := min 2048 (v + s.paceGain j)

theorem gainPace_fold (l : SMap Nat) (distinct : l.Pairwise fun a b => a.1 < b.1) (s : State) :
    ∃ p, l.foldl (fun (s : State) e => s.setPace e.1 (e.2 + s.paceGain e.1)) s = { s with sw := { s.sw with pace := p } }
      ∧ ∀ j, sget p j 2048 = if l.any (fun e => e.1 == j) then gained s j (sget l j 2048) else s.paceOf j := by
  induction l generalizing s with
  | nil => exact ⟨s.sw.pace, rfl, fun j => rfl⟩
  | cons e r ih =>
    obtain ⟨above, distinct⟩ := List.pairwise_cons.mp distinct
    obtain ⟨p, moved, pace⟩ := ih distinct (s.setPace e.1 (e.2 + s.paceGain e.1))
    refine ⟨p, moved, fun j => (pace j).trans ?_⟩
    rw [List.any_cons, sget]
    by_cases own : e.1 = j
    · have once : r.any (fun e => e.1 == j) = false := by
        rw [List.any_eq_false]
        intro x mem same
        have less := above x mem
        rw [own, beq_iff_eq.mp same] at less
        exact absurd less (Nat.lt_irrefl _)
      rw [once, if_pos own, beq_iff_eq.mpr own]
      rw [← own]
      exact sget_sput_same ..
    · rw [if_neg own, beq_eq_false_iff_ne.mpr own, Bool.false_or]
      split
      · rfl
      · exact sget_sput_other _ _ _ _ (Ne.symm own)

theorem sget_unlisted {α : Type} {l : SMap α} {j : Nat} (h : l.any (fun e => e.1 == j) = false) (d : α) : sget l j d = d := by
  induction l with
  | nil => rfl
  | cons e r ih =>
    obtain ⟨other, rest⟩ := Bool.or_eq_false_iff.mp h
    rw [sget, if_neg (beq_eq_false_iff_ne.mp other)]
    exact ih rest

theorem gainPace_gains {s : State} (keys : Machine.rising s.sw.pace = true) :
    ∃ p, s.gainPace = { s with sw := { s.sw with pace := p } } ∧ ∀ j, sget p j 2048 = gained s j (s.paceOf j) := by
  obtain ⟨p, moved, pace⟩ := gainPace_fold s.sw.pace ((risingFrom_iff 0 _).mp keys).2 s
  refine ⟨p, moved, fun j => (pace j).trans ?_⟩
  split
  · rfl
  · next unlisted =>
    have full : s.paceOf j = 2048 := sget_unlisted (Bool.eq_false_iff.mpr unlisted) _
    rw [full]
    exact (Nat.min_eq_left (Nat.le_add_right ..)).symm

/-- The gain by the width in force (R142, R352). -/
theorem paceGain_eq (s : State) (j : Nat) : s.paceGain j = if (s.lpStripe j).txw = 8 then 1260 else if (s.lpStripe j).txw = 4 then 630
    else if (s.lpStripe j).txw = 2 then 320 else if (s.port (lpPort j)).split = true then 630 else 1260 := by
  unfold State.paceGain
  split
  · next h => rw [if_pos h]
  · next h => rw [h]; rfl
  · next h => rw [h]; rfl
  · next a b c => rw [if_neg a, if_neg b, if_neg c]

theorem matchOnce_empty {s : State} (empty : s.sw.frames = []) (x : Xbar) (first : Bool) : s.matchOnce x first = (s, x) := by
  have none_ : s.requests x = [] := by
    unfold State.requests
    rw [empty]
    rfl
  unfold State.matchOnce
  rw [none_]
  cases first <;> rfl

theorem lockedPass_unlocked {s : State} (unlocked : s.sw.locks = []) :
    s.lockedPass = (s, { fifoRes := [], inBusy := [], outBusy := [], matched := [] }) := by
  unfold State.lockedPass
  rw [unlocked]
  rfl

theorem superCellTime_empty {s : State} (live : s.live = true) (switch : s.switchInReset = false) (untested : s.underTest 94 = false)
    (empty : s.sw.frames = []) (unlocked : s.sw.locks = []) {p : SMap Nat}
    (gains : ({ s with sw := { s.sw with superCells := s.sw.superCells + 1 } } : State).gainPace
      = { s with sw := { s.sw with superCells := s.sw.superCells + 1, pace := p } }) :
    exec .superCellTime s = .next { s with sw := { s.sw with superCells := s.sw.superCells + 1, pace := p } } := by
  show execSuperCellTime s = _
  unfold execSuperCellTime
  rw [live, switch, untested]
  dsimp only [Bool.not_true, Bool.or_false, Bool.false_eq_true, if_false]
  rw [if_neg (by decide), gains]
  generalize frames : ({ s with sw := { s.sw with superCells := s.sw.superCells + 1, pace := p } } : State) = t
  have empty' : t.sw.frames = [] := by rw [← frames]; exact empty
  have unlocked' : t.sw.locks = [] := by rw [← frames]; exact unlocked
  rw [lockedPass_unlocked unlocked']
  dsimp only
  rw [matchOnce_empty empty', matchOnce_empty empty', matchOnce_empty empty']

/-! ## The merge sends (R137, R146) -/

theorem OnlyCounted.counters {s t : State} (h : OnlyCounted s t) : ∃ c, t = { s with ctr := { s.ctr with counters := c } } := ⟨_, h⟩

theorem onlyCounted_countSlots (s : State) (lp heading : Nat) (a : Option Nat) (n : Nat) : OnlyCounted s (s.countSlots lp heading a n) := by
  unfold State.countSlots
  exact (onlyCounted_countLp ..).trans (onlyCounted_countLp ..)

theorem sentWhole_only (s : State) (lp : Nat) (h : Hdr) (b : Bytes) : ∃ c, s.sentWhole lp h b
    = { s with out := s.out ++ [.frame lp h (b.take (hdrLength h))], ctr := { s.ctr with counters := c } } := by
  unfold State.sentWhole
  generalize sent : s.emit (.frame lp h (b.take (hdrLength h))) = u
  obtain ⟨c, frames⟩ := State.countLp_only u lp 0x0104 (some h.tc.toNat) none 1
  obtain ⟨c', bytes⟩ := State.countLp_only (u.countLp lp 0x0104 (some h.tc.toNat) none 1) lp 0x0106 (some h.tc.toNat) none (hdrLength h)
  obtain ⟨c'', slots⟩ := (onlyCounted_countSlots ((u.countLp lp 0x0104 (some h.tc.toNat) none 1).countLp lp 0x0106 (some h.tc.toNat) none
    (hdrLength h)) lp 0x0201 none (hdrCount h)).counters
  dsimp only
  rw [slots, bytes, frames, ← sent]
  exact ⟨c'', rfl⟩

theorem ctxFlit_only (s : State) (lp : Nat) (rx : Bool) (h : Hdr) : ∃ m, s.ctxFlit lp rx h = { s with ctr := { s.ctr with counters := m } } :=
  State.noteCtx_only ..

/-- The stripe with a new sequenced flit in its replay buffer (R343, R345). -/
def withFlit (x : Stripe) (h : Hdr) (p : Bytes) (stomped : Bool) : Stripe :=
  { x with replay := x.replay ++ [{ seq := x.txNext, hdr := h, payload := p, stomped := stomped }], txNext := (x.txNext + 1) % 4096 }

theorem withFlit_rxNext (x : Stripe) (h : Hdr) (p : Bytes) (stomped : Bool) : (withFlit x h p stomped).rxNext = x.rxNext := rfl

theorem handed_withFlit (x : Stripe) (h : Hdr) (p : Bytes) (stomped : Bool) (f : BitVec 2048) :
    (handed (withFlit x h p stomped) f).replay.length = x.replay.length + 1
    ∧ (handed (withFlit x h p stomped) f).txNext = (x.txNext + 1) % 4096 := ⟨List.length_append, rfl⟩

theorem sendSeq_eq (s : State) (lp : Nat) (h : Hdr) (p : Bytes) (stomped : Bool) :
    s.sendSeq lp h p stomped = (s.setLpStripe lp (withFlit (s.lpStripe lp) h p stomped)).putFlit lp h p stomped := rfl

theorem lpSends_sendSeq (s : State) (lp : Nat) (h : Hdr) (p : Bytes) (stomped : Bool) : LpSends s (s.sendSeq lp h p stomped) lp
    (handed (withFlit (s.lpStripe lp) h p stomped) (wireOf s lp h p stomped)) [.flit lp (wireOf s lp h p stomped)] := by
  have joined := lpSends_setLpStripe s lp (withFlit (s.lpStripe lp) h p stomped)
  have sends := joined.trans (lpSends_putFlit _ lp h p stomped)
  have wire : wireOf (s.setLpStripe lp (withFlit (s.lpStripe lp) h p stomped)) lp = wireOf s lp :=
    wireOf_congr (by rw [joined.lpStripe, withFlit_rxNext])
  rw [wire, joined.lpStripe, List.nil_append] at sends
  rw [sendSeq_eq]
  exact sends

section
variable {s : State} {n : Nat} {c : Current} {p : Bytes} (may : s.canSend n = true) (now : s.currentOf n = some c)
  (own : c.agent = none) (last : c.st.flits = [p]) (ends : c.sent + 1 = hdrCount c.st.hdr)
  (credit : sget s.sw.credits (lpTc n c.st.hdr.tc.toNat) 0 ≠ 0)
include may now own last ends credit

/-- The last flit of a frame in progress leaves with a credit, and the frame is out whole. -/
theorem sendFlits_ends : ∃ u cur m, sendFlits 1 n s = u
    ∧ u = { s.sendSeq n { c.st.hdr with pos := posOf c.sent (hdrCount c.st.hdr) } p false with
      sw := { ((s.sendSeq n { c.st.hdr with pos := posOf c.sent (hdrCount c.st.hdr) } p false).useCredit n c.st.hdr.tc.toNat).sw with
        current := sput cur n none none }
      out := (s.sendSeq n { c.st.hdr with pos := posOf c.sent (hdrCount c.st.hdr) } p false).out
        ++ [.frame n c.st.hdr ((c.bytes ++ p).take (hdrLength c.st.hdr))]
      ctr := { (s.sendSeq n { c.st.hdr with pos := posOf c.sent (hdrCount c.st.hdr) } p false).ctr with counters := m } } := by
  have credit : (sget s.sw.credits (lpTc n c.st.hdr.tc.toNat) 0 == 0) = false := beq_eq_false_iff_ne.mpr credit
  unfold sendFlits
  rw [now]
  dsimp only
  rw [last]
  dsimp only
  rw [may, credit, if_neg (by decide), if_pos ends]
  generalize s.sendSeq n { c.st.hdr with pos := posOf c.sent (hdrCount c.st.hdr) } p false = a
  generalize { c.st.hdr with pos := posOf c.sent (hdrCount c.st.hdr) } = h
  obtain ⟨m, counted⟩ := State.countLp_only (a.useCredit n c.st.hdr.tc.toNat) n 0x0102 (some c.st.hdr.tc.toNat) none 1
  obtain ⟨m', noted⟩ := ctxFlit_only ((a.useCredit n c.st.hdr.tc.toNat).countLp n 0x0102 (some c.st.hdr.tc.toNat) none 1) n false h
  rw [noted, counted]
  unfold State.endFrame
  dsimp only
  rw [own]
  dsimp only
  obtain ⟨m'', whole⟩ := sentWhole_only _ n c.st.hdr (c.bytes ++ p)
  rw [whole]
  exact ⟨_, _, _, rfl, rfl⟩

end

theorem switch_kept {s t : State} {n : Nat} (h : OnlyPort s t n) : t.sw = s.sw := by
  obtain ⟨⟨h, -⟩, -⟩ := h
  rw [h]

/-- EGRESS_MERGE_SELECT of a frame in progress with its last flit. -/
theorem egressMergeSelect_ends {lp : Lp} {c : Current} {p : Bytes} {s : State} (live : s.live = true) (switch : s.switchInReset = false)
    (may : s.canSend lp.val = true) (seen : sget s.sw.initSeen lp.val false = true) (now : s.currentOf lp.val = some c)
    (sound : c.st.fault = none) (last : c.st.flits = [p]) : exec (.egressMergeSelect lp) s = .next (sendFlits 1 lp.val s) := by
  show execEgressMergeSelect lp s = _
  unfold execEgressMergeSelect
  dsimp only
  rw [live, switch, may, seen, now, if_neg (by decide)]
  dsimp only
  rw [sound, last]
  rfl

/-! ## An underrun (R147) -/

section
variable {lp : Lp} {s : State} (live : s.live = true)
include live

theorem underrun_idle (idle : s.currentOf lp.val = none) : exec (.underrun lp) s = .next s := by
  show execUnderrun lp s = _
  unfold execUnderrun
  dsimp only
  rw [live, idle]
  rfl

variable {c : Current} (now : s.currentOf lp.val = some c) (dry : c.st.flits = []) (sound : c.st.fault = none)
include now dry sound

theorem underrun_fences (begun : 0 < c.sent) (more : c.sent < hdrCount c.st.hdr) :
    exec (.underrun lp) s = .next ((s.stompCurrent lp.val 0xA none).lossFence c.st.inLp c.st.hdr 5) := by
  show execUnderrun lp s = _
  unfold execUnderrun
  dsimp only
  rw [live, now]
  dsimp only
  rw [dry, sound, decide_eq_true begun, decide_eq_true more]
  rfl

theorem underrun_unbegun (unbegun : c.sent = 0) : exec (.underrun lp) s = .next s := by
  show execUnderrun lp s = _
  unfold execUnderrun
  dsimp only
  rw [live, now]
  dsimp only
  rw [dry, sound, unbegun]
  rfl

end

/-! ## An agent's frame with a bad cell (R131, R133) -/

theorem joinCells_self (l : List CellErr) : joinCells l l = l := by
  have none_ : l.filter (fun e => !l.contains e) = [] := by
    rw [List.filter_eq_nil_iff]
    intro e mem
    simpa using mem
  rw [joinCells, none_, List.append_nil]

theorem claim_bad {s : State} {lp id : Nat} {foreign : Bool} {f : InFrame} (free : s.coll.entry = []) (bad : cellsBad f.cells = true)
    (found : s.sw.diverted.find? (sameFlow lp f.hdr) = some { lp := lp, foreign := foreign, frame := f, id := id }) :
    s.claim lp foreign f = (((withoutHead s lp f).cellErrors f.cells).discardDiverted lp f, none) := by
  have some_ : s.sw.diverted.any (sameFlow lp f.hdr) = true := by
    rw [List.any_eq_true]
    exact List.find?_isSome.mp (by rw [found]; rfl)
  unfold State.claim
  rw [if_pos some_]
  unfold State.takeDiverted
  rw [found, free]
  dsimp only
  rw [List.any_nil, Bool.and_false, if_neg (by decide), if_pos ⟨rfl, rfl⟩, joinCells_self, bad, if_pos rfl]
  rfl

theorem fenceAckReceived_bad {lp : Lp} {f : InFrame} {id : Nat} {s : State} (live : s.live = true) (switch : s.switchInReset = false)
    (notice : f.hdr.ftype = 8) (given : frameGiven f = true) (bad : cellsBad f.cells = true) (free : s.coll.entry = [])
    (found : s.sw.diverted.find? (sameFlow lp.val f.hdr) = some { lp := lp.val, foreign := false, frame := f, id := id }) :
    exec (.fenceAckReceived lp f) s = .next (((withoutHead s lp.val f).cellErrors f.cells).discardDiverted lp.val f) := by
  show execFenceAckReceived lp f s = _
  unfold execFenceAckReceived
  rw [live, switch, notice, given, if_neg (by decide), claim_bad free bad found]

/-! ## Raising a fence (R173 to R176) -/

/-- From s to t only the fences, the frames of local agents and counters have moved. -/
def FencesMoved (s t : State) : Prop :=
  t = { s with sw := { s.sw with agentOut := t.sw.agentOut }, recov := t.recov, ctr := { s.ctr with counters := t.ctr.counters } }

theorem FencesMoved.refl (s : State) : FencesMoved s s := rfl

theorem FencesMoved.trans {s t u : State} (h : FencesMoved s t) (g : FencesMoved t u) : FencesMoved s u := by
  unfold FencesMoved at *
  rw [g, h]

theorem FencesMoved.ite {p : Prop} [Decidable p] {s t u : State} (h : FencesMoved s t) (g : FencesMoved s u) :
    FencesMoved s (if p then t else u) := by
  split
  · exact h
  · exact g

theorem fencesMoved_foldl {α : Type} (f : State → α → State) (step : ∀ s x, FencesMoved s (f s x)) (l : List α) (s : State) :
    FencesMoved s (l.foldl f s) :=
  foldl_rel (R := FencesMoved) f .refl .trans step l s

theorem OnlyCounted.fencesMoved {s t : State} (h : OnlyCounted s t) : FencesMoved s t := by
  unfold FencesMoved
  rw [h]

theorem fencesMoved_setFence (s : State) (n : Nat) (f : Fence) : FencesMoved s (s.setFence n f) := rfl

theorem fencesMoved_sendFenceNotice (s : State) (n : Nat) (again : Bool) : FencesMoved s (s.sendFenceNotice n again) := by
  have agent (f : AgentFrame) : FencesMoved s (s.sendAgent f) := by
    rw [sendAgent_only]
    rfl
  exact .ite ((agent _).trans (fencesMoved_setFence ..)) (fencesMoved_setFence ..)

theorem fencesMoved_openFence (s : State) (n : Nat) (f : Fence) : FencesMoved s (s.openFence n f) :=
  ((fencesMoved_setFence ..).trans (onlyCounted_countGlobal ..).fencesMoved).trans (fencesMoved_sendFenceNotice ..)

theorem fencesMoved_foldFences (s : State) (l : List Nat) (f : Fence) : FencesMoved s (s.foldFences l f) := by
  cases l with
  | nil => exact .refl s
  | cons n r => exact (fencesMoved_foldl _ (fun _ _ => fencesMoved_setFence ..) r s).trans (fencesMoved_openFence ..)

theorem fencesMoved_raiseWildcard (s : State) (lp tc : Nat) (fseq : BitVec 16) (reason : Nat) :
    FencesMoved s (s.raiseWildcard lp tc fseq reason) := by
  unfold State.raiseWildcard
  dsimp only
  split
  · exact fencesMoved_foldFences ..
  · split
    · exact fencesMoved_openFence ..
    · split
      · exact fencesMoved_foldFences ..
      · split
        · exact (fencesMoved_foldFences ..).trans (fencesMoved_openFence ..)
        · exact fencesMoved_foldFences ..

theorem fencesMoved_raiseFence (s : State) (lp tc : Nat) (dest : BitVec 16) (target : Option Nat) (fseq : BitVec 16) (reason : Nat) :
    FencesMoved s (s.raiseFence lp tc dest target fseq reason) := by
  have noted (r : Recov) : FencesMoved s ({ s with recov := r }.raiseWildcard lp tc fseq reason) :=
    (show FencesMoved s { s with recov := r } from rfl).trans (fencesMoved_raiseWildcard ..)
  unfold State.raiseFence
  dsimp only
  split
  · exact .refl s
  · split
    · exact .ite (noted _) (fencesMoved_openFence ..)
    · exact noted _

theorem fencesMoved_lossFence (s : State) (lp : Nat) (h : Hdr) (reason : Nat) : FencesMoved s (s.lossFence lp h reason) :=
  .ite (.refl s) (.ite (fencesMoved_foldl _ (fun _ _ => fencesMoved_raiseFence ..) _ s) (fencesMoved_raiseFence ..))

/-! ## A group frame is released (R148) -/

theorem copyTargets_nodup (s : State) (q : QFrame) : (s.copyTargets q).Nodup :=
  ((List.nodup_range.filter _).filter _).filter _

/-- A copy for one target. -/
def giveCopy (q : QFrame) (n : Nat) (x : Nat → Staged) (s : State) (t : Nat) : State :=
  (s.setMcFifo t (s.mcFifoOf t ++ [x t])).addReserved t q.tc n

theorem copies_given (q : QFrame) (n : Nat) (x : Nat → Staged) (l : List Nat) (once : l.Nodup) (s : State) :
    ∃ m r, l.foldl (giveCopy q n x) s = { s with sw := { s.sw with mcFifo := m, reserved := r } }
      ∧ (∀ j ∈ l, sget m j [] = s.mcFifoOf j ++ [x j]) ∧ ∀ j, j ∉ l → sget m j [] = s.mcFifoOf j := by
  induction l generalizing s with
  | nil => exact ⟨s.sw.mcFifo, s.sw.reserved, rfl, fun _ h => absurd h List.not_mem_nil, fun _ _ => rfl⟩
  | cons a r ih =>
    obtain ⟨apart, once⟩ := List.nodup_cons.mp once
    obtain ⟨m, res, moved, given, others⟩ := ih once (giveCopy q n x s a)
    have other {j : Nat} (ne : j ≠ a) : (giveCopy q n x s a).mcFifoOf j = s.mcFifoOf j := sget_sput_other _ _ _ _ ne
    refine ⟨m, res, moved, fun j mem => ?_, fun j out => ?_⟩
    · rcases List.mem_cons.mp mem with rfl | mem
      · exact (others j apart).trans (sget_sput_same ..)
      · rw [given j mem, other (fun e => apart (e ▸ mem))]
    · rw [others j (fun mem => out (List.mem_cons_of_mem a mem)), other (fun e => out (e ▸ List.mem_cons_self))]

/-- The targets that get no copy are counted, and fenced where they are up. -/
def missTargets (q : QFrame) (l : List Nat) (s : State) : State :=
  l.foldl (fun s t =>
    if s.lpUp t then s.countLp q.inLp 0x0108 (some q.tc) none 1
    else
      let s := s.countLp t 0x0107 (some q.tc) (some 0xB) 1
      if fenceable q.hdr then s.raiseFence q.inLp q.tc q.hdr.dest (some t) q.hdr.fseq 6 else s) s

theorem fencesMoved_missTargets (q : QFrame) (l : List Nat) (s : State) : FencesMoved s (missTargets q l s) := by
  refine fencesMoved_foldl _ (fun s t => ?_) l s
  refine .ite (onlyCounted_countLp ..).fencesMoved ?_
  exact .trans (onlyCounted_countLp s t 0x0107 (some q.tc) (some 0xB) 1).fencesMoved (.ite (fencesMoved_raiseFence ..) (.refl _))

theorem unqueue_only {s : State} {q : QFrame} (one : s.sw.frames = [q]) : ∃ w, s.unqueue q.id = { s with sw := w }
    ∧ w.frames = [] ∧ w.mcFifo = s.sw.mcFifo := by
  unfold State.unqueue
  have found : s.sw.frames.find? (fun x => x.id == q.id) = some q := by
    rw [one]
    simp
  have gone : s.sw.frames.filter (fun x => x.id != q.id) = [] := by
    rw [one]
    simp
  rw [found, gone]
  dsimp only
  unfold State.freeCells
  dsimp only
  obtain ⟨o, f, paid⟩ := payOwed_only _ ({ s with sw := { s.sw with frames := [], locks := s.sw.locks.filter fun l => l.id != q.id } }.setCells
    (lpTc q.inLp q.tc) (sget s.sw.held (lpTc q.inLp q.tc) 0 - (q.arrived - q.crossed)) (sget s.sw.granted (lpTc q.inLp q.tc) 0))
  rw [paid]
  exact ⟨_, rfl, rfl, rfl⟩

theorem cellErrors_sound {l : List CellErr} (sound : cellsBad l = false) (s : State) : OnlyCounted s (s.cellErrors l) := by
  induction l generalizing s with
  | nil => rfl
  | cons e r ih =>
    obtain ⟨good, rest⟩ := Bool.or_eq_false_iff.mp sound
    refine OnlyCounted.trans ?_ (ih rest _)
    have good : e.uncorrected = false := good
    dsimp only
    rw [good, if_neg (by decide)]
    exact onlyCounted_countGlobal ..

/-- The one waiting group frame leaves its queue, and every target that can take a copy gets one (R148). -/
theorem releaseFrame_gives {s : State} {q : QFrame} (one : s.sw.frames = [q]) : ∃ t, s.releaseFrame q = t ∧ t.sw.frames = [] ∧ t.sw.mcLast = q.inLp
    ∧ (∀ j ∈ s.copyTargets q, t.mcFifoOf j = s.mcFifoOf j ++ [{
        id := q.id, inLp := q.inLp, outLp := j, hdr := q.hdr, flits := flitChunks q.content 0 (hdrCount q.hdr), fault := none, last := [] }])
    ∧ ∀ j, j ∉ s.copyTargets q → t.mcFifoOf j = s.mcFifoOf j := by
  obtain ⟨w, taken, frames, fifos⟩ := unqueue_only one
  obtain ⟨m, r, copied, given, others⟩ := copies_given q (hdrCount q.hdr) (fun j => {
    id := q.id, inLp := q.inLp, outLp := j, hdr := q.hdr, flits := flitChunks q.content 0 (hdrCount q.hdr), fault := none, last := [] })
    (s.copyTargets q) (copyTargets_nodup ..) { s with sw := w }
  have same (j : Nat) : ({ s with sw := w } : State).mcFifoOf j = s.mcFifoOf j := by
    unfold State.mcFifoOf
    rw [← fifos]
  have missed := fencesMoved_missTargets q ((s.groupTargets (destGroup q.hdr.dest) q.inLp).filter fun t => !(s.copyTargets q).contains t)
    ({ s with sw := { w with mcFifo := m, reserved := r } } : State)
  unfold missTargets at missed
  unfold giveCopy at copied
  unfold State.releaseFrame
  dsimp only
  rw [taken, copied]
  generalize List.foldl _ _ _ = u at missed ⊢
  obtain ⟨c, first⟩ := State.countGlobal_only { u with sw := { u.sw with mcLast := q.inLp, mptr := sput u.sw.mptr q.inLp ((q.tc + 1) % 8) 0 } }
    0x1004 none none 1
  obtain ⟨c', second⟩ := State.countGlobal_only ({ u with sw := { u.sw with mcLast := q.inLp, mptr := sput u.sw.mptr q.inLp ((q.tc + 1) % 8) 0 } }.countGlobal
    0x1004 none none 1) 0x1005 none none (s.copyTargets q).length
  refine ⟨_, rfl, ?_⟩
  rw [second, first]
  have fifo : u.sw.mcFifo = m := by rw [missed]
  refine ⟨?_, rfl, fun j mem => ?_, fun j out => ?_⟩
  · show u.sw.frames = []
    rw [missed]
    exact frames
  · show sget u.sw.mcFifo j [] = _
    rw [fifo, given j mem, same]
  · show sget u.sw.mcFifo j [] = _
    rw [fifo, others j out, same]

section
variable {s : State} {q : QFrame} (live : s.live = true) (switch : s.switchInReset = false) (untested : s.underTest 94 = false)
  (one : s.sw.frames = [q]) (group : q.inLp = q.outLp)
include live switch untested one group

theorem multicastRelease_waits (full : s.releasable q = false) : exec .multicastRelease s = .next s := by
  show execMulticastRelease s = _
  unfold execMulticastRelease
  rw [live, switch, untested, if_neg (by decide)]
  dsimp only
  rw [one, List.filter_cons_of_pos (by simpa using group), List.filter_nil, List.filter_cons_of_neg (by rw [full, Bool.and_false]; decide)]
  rfl

theorem multicastRelease_one (may : s.releasable q = true) : exec .multicastRelease s
    = .next (if cellsBad q.cells then (s.cellErrors q.cells).faultFrame q.id 9 0xB none else (s.cellErrors q.cells).releaseFrame q) := by
  have head : (s.voq q.inLp q.inLp q.tc).head?.map (·.id) = some q.id := by
    unfold State.voq
    rw [one, List.filter_cons_of_pos (by simp [← group])]
    rfl
  show execMulticastRelease s = _
  unfold execMulticastRelease
  rw [live, switch, untested, if_neg (by decide)]
  dsimp only
  rw [one, List.filter_cons_of_pos (by simpa using group), List.filter_nil, List.filter_cons_of_pos (by rw [may, head]; simp)]
  rfl

end

/-- Settles O43: the pacers gain, the last flit ends its frame, an underrun stomps and fences, and a group frame is copied whole. -/
theorem framesLeaveThroughTheMerge : Obligations.FramesLeaveThroughTheMerge := by
  refine ⟨fun s live switch untested empty unlocked keys => ?_, fun lp f id s live switch notice given bad free found =>
    fenceAckReceived_bad live switch notice given bad free found,
    fun lp c p s live switch may seen now sound own last ends credit => ?_,
    fun lp s live => ⟨fun idle => underrun_idle live idle, fun c now dry sound =>
      ⟨fun begun more => underrun_fences live now dry sound begun more, fun unbegun => underrun_unbegun live now dry sound unbegun⟩⟩,
    fun q s live switch untested one group => ⟨fun full => multicastRelease_waits live switch untested one group full,
      fun may bad => ?_, fun may sound => ?_⟩⟩
  · obtain ⟨p, gains, pace⟩ := gainPace_gains (s := { s with sw := { s.sw with superCells := s.sw.superCells + 1 } }) keys
    refine ⟨_, superCellTime_empty live switch untested empty unlocked gains, rfl, fun j => ?_, rfl⟩
    have gain := paceGain_eq s j
    generalize (if (s.lpStripe j).txw = 8 then 1260 else _) = w at gain ⊢
    rw [← gain]
    exact pace j
  · obtain ⟨u, cur, m, sent, only⟩ := sendFlits_ends may now own last ends credit
    have sends := lpSends_sendSeq s lp.val { c.st.hdr with pos := posOf c.sent (hdrCount c.st.hdr) } p false
    obtain ⟨buffered, next⟩ := handed_withFlit (s.lpStripe lp.val) { c.st.hdr with pos := posOf c.sent (hdrCount c.st.hdr) } p false
      (wireOf s lp.val { c.st.hdr with pos := posOf c.sent (hdrCount c.st.hdr) } p false)
    have stripe := sends.lpStripe
    obtain ⟨port, -, out⟩ := sends
    have core := switch_kept port
    generalize wireOf s lp.val { c.st.hdr with pos := posOf c.sent (hdrCount c.st.hdr) } p false = wire at *
    generalize s.sendSeq lp.val { c.st.hdr with pos := posOf c.sent (hdrCount c.st.hdr) } p false = a at *
    have same : u.lpStripe lp.val = a.lpStripe lp.val := by rw [only]; rfl
    refine ⟨u, (egressMergeSelect_ends live switch may seen now sound last).trans (congrArg _ sent), ?_, ?_, ?_, ?_, ?_⟩
    · rw [only]
      exact sget_sput_same (α := Option Current) cur lp.val none none
    · rw [only]
      dsimp only
      rw [out, List.append_assoc]
      rfl
    · rw [only, ← core]
      exact sget_sput_same ..
    · rw [same, stripe, buffered]
    · rw [same, stripe, next]
  · rw [multicastRelease_one live switch untested one group may, bad]
    rfl
  · have counted := cellErrors_sound sound s
    obtain ⟨t, released, effect⟩ := releaseFrame_gives (s := s.cellErrors q.cells) (q := q) (by rw [counted]; exact one)
    rw [counted] at effect
    refine ⟨t, ?_, effect⟩
    rw [multicastRelease_one live switch untested one group may, sound, if_neg (by decide), released]

end Sys2Proof.Claims
end

section
/-! PROOFS. How spares take over (O23): the roles of clusters and banks, the end of a copy, and the fuses. -/

namespace Sys2Proof.Claims

open Sys2Proof.Machine

/-! ## Roles (R394) -/

theorem kindOf_cluster {b : Byte} : kindOf b = .cluster ↔ b = 2 := by
  unfold kindOf
  split
  · next h => exact ⟨fun _ => h, fun _ => rfl⟩
  · next h =>
    split
    · exact ⟨(by cases ·), fun e => absurd e h⟩
    · exact ⟨(by cases ·), fun e => absurd e h⟩

theorem bankRole_setBankRole (s : State) (k : SpareKind) (n : Nat) (r : Role) : (s.setBankRole k n r).bankRole k n = r := by
  cases k <;> exact sget_sput_same ..

theorem bankRole_setBankRole_other (s : State) (k : SpareKind) {n m : Nat} (r : Role) (ne : m ≠ n) :
    (s.setBankRole k n r).bankRole k m = s.bankRole k m := by
  cases k <;> exact sget_sput_other _ _ _ _ ne

/-- The roles of every kind, and the copies, as another state has them. -/
def SameRoles (s t : State) : Prop := (∀ k n, t.bankRole k n = s.bankRole k n) ∧ t.bist.copies = s.bist.copies

theorem sameRoles_of {s t : State} (rc : t.bist.rc = s.bist.rc) (buf : t.bist.buf = s.bist.buf) (drey : t.bist.drey = s.bist.drey)
    (copies : t.bist.copies = s.bist.copies) : SameRoles s t := by
  refine ⟨fun k n => ?_, copies⟩
  cases k with
  | cluster => exact congrArg (fun m => sget m n (defaultRole 24 n)) rc
  | buffer => exact congrArg (fun m => sget m n (defaultRole 128 n)) buf
  | drey => exact congrArg (fun m => sget m n (defaultRole 96 n)) drey

theorem copies_setBankRole (s : State) (k : SpareKind) (n : Nat) (r : Role) : (s.setBankRole k n r).bist.copies = s.bist.copies := by
  cases k <;> rfl

theorem changeRole_sets {s : State} {k : SpareKind} {n : Nat} {r : Role} (differs : s.bankRole k n ≠ r) :
    SameRoles (s.setBankRole k n r) (s.changeRole k n r) := by
  unfold State.changeRole
  rw [if_neg differs]
  have noted : SameRoles (s.setBankRole k n r) (s.setBankRole k n r).roleChanged := sameRoles_of rfl rfl rfl rfl
  dsimp only
  split
  · exact sameRoles_of rfl rfl rfl rfl
  · exact sameRoles_of rfl rfl rfl rfl
  · exact noted

/-- A change of role moves that role alone, and leaves the copies. -/
theorem changeRole_roles (s : State) (k : SpareKind) (n : Nat) (r : Role) : (s.changeRole k n r).bankRole k n = r
    ∧ (∀ m, m ≠ n → (s.changeRole k n r).bankRole k m = s.bankRole k m) ∧ (s.changeRole k n r).bist.copies = s.bist.copies := by
  by_cases same : s.bankRole k n = r
  · unfold State.changeRole
    rw [if_pos same]
    exact ⟨same, fun _ _ => rfl, rfl⟩
  · obtain ⟨roles, copies⟩ := changeRole_sets same
    exact ⟨(roles k n).trans (bankRole_setBankRole ..), fun m ne => (roles k m).trans (bankRole_setBankRole_other _ _ _ ne),
      copies.trans (copies_setBankRole ..)⟩

theorem markUnusable_roles (s : State) (k : SpareKind) (n : Nat) : (s.markUnusable k n).bankRole k n = .unusable
    ∧ (∀ m, m ≠ n → (s.markUnusable k n).bankRole k m = s.bankRole k m) ∧ (s.markUnusable k n).bist.copies = s.bist.copies := by
  have kept (u : State) (b : List (Nat × Nat)) (m : Nat) : (u.updBist fun b' => { (b'.flagUntested k n false) with toBlow := b }).bankRole k m
      = u.bankRole k m := by cases k <;> rfl
  obtain ⟨own, others, copies⟩ := changeRole_roles s k n .unusable
  exact ⟨(kept ..).trans own, fun m ne => (kept ..).trans (others m ne), copies⟩

theorem startCopy_roles (s : State) (k : SpareKind) {n sp : Nat} (apart : sp ≠ n) (gone : Bool) :
    (s.startCopy k n sp gone).bankRole k sp = .out ∧ (s.startCopy k n sp gone).bankRole k n = .out
    ∧ (s.startCopy k n sp gone).bist.copies = s.bist.copies ++ [(k, n, sp, gone)] := by
  obtain ⟨bank, -, copies⟩ := changeRole_roles s k n .out
  obtain ⟨spare, others, copies'⟩ := changeRole_roles (s.changeRole k n .out) k sp .out
  have kept (u : State) (m : Nat) (l : List (SpareKind × Nat × Nat × Bool)) : (u.updBist fun b => { b with copies := l }).bankRole k m
      = u.bankRole k m := by cases k <;> rfl
  refine ⟨(kept ..).trans spare, (kept ..).trans ((others n apart.symm).trans bank), ?_⟩
  exact congrArg (· ++ [(k, n, sp, gone)]) (copies'.trans copies)

theorem endCopy_roles (s : State) (k : SpareKind) {n sp : Nat} (apart : n ≠ sp) (gone : Bool) :
    (s.endCopy k n sp gone).bankRole k sp = .inService
    ∧ (s.endCopy k n sp gone).bankRole k n = (if gone = true then .unusable else s.bankRole k n)
    ∧ (s.endCopy k n sp gone).bist.copies = s.bist.copies.filter (· != (k, n, sp, gone)) := by
  have kept (m : Nat) (l : List (SpareKind × Nat × Nat × Bool)) : (s.updBist fun b => { (b.flagUntested k sp false) with
      copies := l }).bankRole k m = s.bankRole k m := by cases k <;> rfl
  obtain ⟨spare, others, copies⟩ := changeRole_roles (s.updBist fun b => { (b.flagUntested k sp false) with
    copies := b.copies.filter fun x => x != (k, n, sp, gone) }) k sp .inService
  unfold State.endCopy
  cases gone with
  | false => exact ⟨spare, (others n apart).trans (kept ..), copies⟩
  | true =>
    obtain ⟨own, others', copies'⟩ := markUnusable_roles ((s.updBist fun b => { (b.flagUntested k sp false) with
      copies := b.copies.filter fun x => x != (k, n, sp, true) }).changeRole k sp .inService) k n
    exact ⟨(others' sp apart.symm).trans spare, own, copies'.trans copies⟩

/-! ## What keeps the roles: a word in error is handled (R147, R277) -/

/-- Self-test and spares stand as they were but for the error counts of the banks. -/
def RolesKept (s t : State) : Prop := t.bist = { s.bist with bufUe := t.bist.bufUe, dreyUe := t.bist.dreyUe }

theorem RolesKept.refl (s : State) : RolesKept s s := rfl

theorem RolesKept.trans {s t u : State} (h : RolesKept s t) (g : RolesKept t u) : RolesKept s u := by
  unfold RolesKept at *
  rw [g, h]

theorem RolesKept.ite {p : Prop} [Decidable p] {s t u : State} (h : RolesKept s t) (g : RolesKept s u) :
    RolesKept s (if p then t else u) := by
  split
  · exact h
  · exact g

theorem rolesKept_foldl {α : Type} (f : State → α → State) (step : ∀ s x, RolesKept s (f s x)) (l : List α) (s : State) :
    RolesKept s (l.foldl f s) :=
  foldl_rel (R := RolesKept) f .refl .trans step l s

theorem rolesKept_of_bist {s t : State} (h : t.bist = s.bist) : RolesKept s t := by
  unfold RolesKept
  rw [h]

theorem SwitchMoved.rolesKept {s t : State} (h : SwitchMoved s t) : RolesKept s t := by
  unfold RolesKept
  rw [h]

theorem OnlyCounted.rolesKept {s t : State} (h : OnlyCounted s t) : RolesKept s t := h.switchMoved.rolesKept

theorem LpSends.rolesKept {s t : State} {lp : Nat} {x : Stripe} {l : List Emission} (h : LpSends s t lp x l) : RolesKept s t := by
  obtain ⟨⟨⟨only, -⟩, -⟩, -⟩ := h
  apply rolesKept_of_bist
  rw [only]

/-- The roles and the copies that run. -/
theorem RolesKept.roles {s t : State} (h : RolesKept s t) : SameRoles s t := by
  unfold RolesKept at h
  exact sameRoles_of (by rw [h]) (by rw [h]) (by rw [h]) (by rw [h])

theorem rolesKept_unqueue (s : State) (id : Nat) : RolesKept s (s.unqueue id) := by
  unfold State.unqueue
  split
  · exact .refl s
  · next q _ =>
    exact RolesKept.trans (t := { s with sw := { s.sw with frames := s.sw.frames.filter (fun q => q.id != id), locks := s.sw.locks.filter fun l => l.id != id } })
      rfl (switchMoved_freeCells ..).rolesKept

theorem rolesKept_sendStomp (s : State) (lp : Nat) : RolesKept s (s.sendStomp lp) := by
  unfold State.sendStomp
  split
  · exact .refl s
  · next c _ =>
    split
    · exact .refl s
    · next code _ =>
      dsimp only
      refine .ite ?_ (.refl s)
      have flit := (lpSends_sendSeq s lp { c.st.hdr with pos := 3, stomp := code } c.st.last true).rolesKept
      generalize s.sendSeq lp { c.st.hdr with pos := 3, stomp := code } c.st.last true = a at flit ⊢
      have used : RolesKept a (a.useCredit lp c.st.hdr.tc.toNat) := .refl _
      generalize a.useCredit lp c.st.hdr.tc.toNat = b at used ⊢
      have counted := (onlyCounted_countLp b lp 0x0102 (some c.st.hdr.tc.toNat) none 1).rolesKept
      generalize b.countLp lp 0x0102 (some c.st.hdr.tc.toNat) none 1 = d at counted ⊢
      have noted : RolesKept d (d.ctxFlit lp false { c.st.hdr with pos := 3, stomp := code }) := by
        obtain ⟨m, only⟩ := ctxFlit_only d lp false { c.st.hdr with pos := 3, stomp := code }
        rw [only]
        exact .refl _
      generalize d.ctxFlit lp false { c.st.hdr with pos := 3, stomp := code } = e at noted ⊢
      refine (((flit.trans used).trans counted).trans noted).trans ?_
      exact .trans (t := { (e.emit (.stomped lp { c.st.hdr with pos := 3, stomp := code } c.bytes code)).setCurrent lp none with
        sw := { ((e.emit (.stomped lp { c.st.hdr with pos := 3, stomp := code } c.bytes code)).setCurrent lp none).sw with
          stomped := satAdd (2 ^ 48 - 1) e.sw.stomped 1 } }) (.refl _)
        ((onlyCounted_countLp ..).trans (onlyCounted_countSlots ..)).rolesKept

theorem rolesKept_stompCurrent (s : State) (lp : Nat) (code : BitVec 4) (p : Option Bytes) : RolesKept s (s.stompCurrent lp code p) := by
  unfold State.stompCurrent
  split
  · exact .refl s
  · next c _ =>
    dsimp only
    refine .ite (.refl s) ?_
    have gone : RolesKept s (if c.agent.isSome then s else s.unqueue c.st.id) := .ite (.refl s) (rolesKept_unqueue ..)
    generalize (if c.agent.isSome then s else s.unqueue c.st.id) = a at gone ⊢
    refine gone.trans ?_
    cases p with
    | none => exact .trans (.refl _) (rolesKept_sendStomp ..)
    | some b => exact .trans (.refl _) (rolesKept_sendStomp ..)

theorem rolesKept_discardFrame (s : State) (q : QFrame) : RolesKept s (s.discardFrame q) := by
  unfold State.discardFrame
  dsimp only
  have gone := rolesKept_unqueue s q.id
  generalize s.unqueue q.id = a at gone ⊢
  refine .ite gone (gone.trans ?_)
  generalize used : a.addReserved q.outLp q.tc (-(hdrCount q.hdr : Int)) = b
  refine .trans (t := b) (by rw [← used]; exact .refl a) (rolesKept_foldl _ (fun u x => ?_) _ b)
  exact rolesKept_of_bist rfl

theorem rolesKept_faultFrame (s : State) (id reason : Nat) (code : BitVec 4) (p : Option Bytes) : RolesKept s (s.faultFrame id reason code p) := by
  unfold State.faultFrame
  split
  · exact .refl s
  · next q _ =>
    dsimp only
    refine .trans ?_ (switchMoved_lossFence ..).rolesKept
    refine .ite (rolesKept_stompCurrent ..) ?_
    refine .trans (.trans (t := _) ?_ (rolesKept_discardFrame ..)) (onlyCounted_countLp ..).rolesKept
    split
    · exact .ite (.refl _) (.refl s)
    · exact .refl s

theorem rolesKept_draw (s : State) : RolesKept s s.draw.2 := .refl _

theorem rolesKept_sendAgent (s : State) (f : AgentFrame) : RolesKept s (s.sendAgent f) := by
  rw [sendAgent_only]
  exact .refl _

theorem rolesKept_marker (s : State) (sid : Nat) (m : Member) (kind aflags arg0 arg1 status detail : Nat) :
    RolesKept s (s.marker sid m kind aflags arg0 arg1 status detail) := by
  have flow : RolesKept s (s.flowOf m).2 := by
    unfold State.flowOf
    split
    · exact .refl s
    · exact rolesKept_draw s
  exact flow.trans (rolesKept_sendAgent ..)

theorem rolesKept_retract (s : State) (sid : Nat) (m : Member) : RolesKept s (s.retract sid m) := by
  unfold State.retract
  dsimp only
  refine .ite (.refl s) ?_
  generalize session : ({ s.session sid with retractions := (s.session sid).retractions + 1 } : Session) = x
  have set : RolesKept s (s.setSession sid x) := .refl s
  exact (set.trans (onlyCounted_countGlobal ..).rolesKept).trans (rolesKept_marker ..)

theorem rolesKept_countAbort (s : State) (reason : Nat) : RolesKept s (s.countAbort reason) := (onlyCounted_countGlobal ..).rolesKept

theorem rolesKept_sentWhole (s : State) (lp : Nat) (h : Hdr) (b : Bytes) : RolesKept s (s.sentWhole lp h b) := by
  obtain ⟨c, only⟩ := sentWhole_only s lp h b
  rw [only]
  exact .refl _

theorem rolesKept_settleChecking (s : State) (sid : Nat) : RolesKept s (s.settleChecking sid) := by
  unfold State.settleChecking
  dsimp only
  refine .trans (t := { s with sw := { s.sw with checking := s.sw.checking.filter fun a =>
    !(a.sid == sid && decide (a.epoch = (s.session sid).epoch)) } }) (.refl s) (rolesKept_foldl _ (fun u a => ?_) _ _)
  exact (rolesKept_sentWhole u a.lp a.hdr a.content).trans (rolesKept_of_bist rfl)

theorem rolesKept_dropResults (s : State) (sid : Nat) : RolesKept s (s.dropResults sid) := by
  unfold State.dropResults
  dsimp only
  refine .trans (t := { s with sw := { s.sw with agentOut := s.sw.agentOut.filter fun a =>
    !(a.result && a.sid == sid && decide (a.epoch = (s.session sid).epoch)) } }) (.refl s) (rolesKept_foldl _ (fun u m => ?_) _ _)
  split
  · exact .refl u
  · split
    · exact .refl u
    · exact .ite (.refl u) (.ite (rolesKept_of_bist rfl) (rolesKept_stompCurrent ..))

theorem rolesKept_dropColl (s : State) (lp : Nat) (f : InFrame) : RolesKept s (s.dropColl lp f) := by
  have freed := (switchMoved_freeCells s lp f.hdr.tc.toNat f.arrived).rolesKept
  refine freed.trans ?_
  exact .trans (t := { s.freeFrame lp f with coll := { (s.freeFrame lp f).coll with
    discarded := satAdd 0xFFFF (s.freeFrame lp f).coll.discarded 1 } }) (rolesKept_of_bist rfl) (onlyCounted_countGlobal ..).rolesKept

theorem rolesKept_dropEntry (s : State) (sid : Nat) : RolesKept s (s.dropEntry sid) := by
  unfold State.dropEntry
  dsimp only
  exact .trans (t := { s with coll := { s.coll with entry := s.coll.entry.filter fun x => !(frameSid x.frame == sid
    && (x.frame.hdr.ftype == 3 || x.frame.hdr.ftype == 4) && !s.isForeign x.foreign x.frame) } }) (.refl s)
    (rolesKept_foldl _ (fun _ _ => rolesKept_dropColl ..) _ _)

theorem rolesKept_closeDone (s : State) (sid : Nat) (st : BitVec 8) (detail : Nat) : RolesKept s (s.closeDone sid st detail) := by
  obtain ⟨_, _, _, _, _, _, _, _, only⟩ := State.finishWork_only s (fun w => decide (w = .close sid)) st detail []
  unfold State.closeDone
  rw [only]
  exact .refl _

theorem rolesKept_abortEpoch (s : State) (sid reason : Nat) (lp : Option Nat) : RolesKept s (s.abortEpoch sid reason lp) := by
  unfold State.abortEpoch
  dsimp only
  refine .ite (.refl s) (.ite (rolesKept_countAbort ..) ?_)
  have counted := rolesKept_countAbort s reason
  generalize s.countAbort reason = a at counted ⊢
  have begun : RolesKept s (if decide ((s.session sid).st = .idle) = true
      then a.setSession sid { s.session sid with epoch := (s.session sid).epoch + 1, low := 0, descSeen := 0, epochFlags := 0 }
      else (a.settleChecking sid).dropResults sid) :=
    counted.trans (.ite (rolesKept_of_bist rfl) ((rolesKept_settleChecking ..).trans (rolesKept_dropResults ..)))
  generalize (if decide ((s.session sid).st = .idle) = true
      then a.setSession sid { s.session sid with epoch := (s.session sid).epoch + 1, low := 0, descSeen := 0, epochFlags := 0 }
      else (a.settleChecking sid).dropResults sid) = b at begun ⊢
  generalize told : List.foldl _ b _ = c
  have told : RolesKept b c := by
    rw [← told]
    exact rolesKept_foldl _ (fun u m => (RolesKept.ite (.refl u) (rolesKept_retract ..)).trans (rolesKept_marker ..)) _ _
  have dropped := rolesKept_dropEntry c sid
  generalize c.dropEntry sid = d at dropped ⊢
  refine (begun.trans (told.trans dropped)).trans (.ite ?_ (rolesKept_of_bist rfl))
  exact .trans (t := d.freeSession sid) (rolesKept_of_bist rfl) (rolesKept_closeDone ..)

theorem rolesKept_countPass (s : State) (code n sid chunk : Nat) : RolesKept s (s.countPass code n sid chunk) := by
  unfold State.countPass
  dsimp only
  refine .ite (.refl s) ?_
  exact (rolesKept_draw s).trans
    (((onlyCounted_countGlobal ..).trans (onlyCounted_countGlobal ..)).trans (onlyCounted_ctxUnit ..)).rolesKept

theorem rolesKept_bankUe (s : State) (k : SpareKind) (n : Nat) : RolesKept s (s.bankUe k n) := by
  cases k <;> exact rfl

/-- A damaged group is recomputed, or its epoch aborts. -/
theorem rolesKept_lost {s t : State} (noted : RolesKept s t) (lost : Bool) (n sid chunk : Nat) : RolesKept s (if !lost then
    { t with coll := { t.coll with recomputes := satAdd 0xFFFF t.coll.recomputes 1 } }.countPass 0x3103 n sid chunk
    else t.abortEpoch sid 7 none) :=
  noted.trans (.ite (.trans (t := { t with coll := { t.coll with recomputes := satAdd 0xFFFF t.coll.recomputes 1 } }) (.refl t)
    (rolesKept_countPass ..)) (rolesKept_abortEpoch ..))

theorem rolesKept_damageGroup (s : State) (sid chunk group : Nat) (kind : DamageKind) : RolesKept s (s.damageGroup sid chunk group kind) := by
  unfold State.damageGroup
  dsimp only
  refine .ite (.refl s) ?_
  split
  · next d _ _ =>
    refine .ite (.refl s) ?_
    have counted (bank : Nat) : RolesKept s { s.bankUe .drey bank with coll := { s.coll with ueSeen := true } } :=
      (rolesKept_bankUe s .drey bank).trans (rolesKept_of_bist rfl)
    have failed (k : Nat) : RolesKept s { s with coll := { s.coll with residueSeen := true, residueBad := addSorted s.coll.residueBad k } } :=
      .refl s
    cases kind with
    | residue k => exact rolesKept_lost (failed k) (!(s.session sid).retain) ((s.session sid).roster.length * d.cpm) sid chunk
    | slotEcc bank => exact rolesKept_lost (counted bank) (!(s.session sid).retain) ((s.session sid).roster.length * d.cpm) sid chunk
    | pageEcc bank => exact rolesKept_lost (counted bank) true ((s.session sid).roster.length * d.cpm) sid chunk
  · exact .refl s

theorem rolesKept_copyErr (s : State) (bank : Nat) (e : CopyErr) : RolesKept s (s.copyErr bank e) := by
  cases e with
  | frame id => exact rolesKept_faultFrame ..
  | group sid chunk group page => exact rolesKept_damageGroup ..

/-! ## The end of a copy (R394) -/

theorem halfKind_unitPart {k : SpareKind} (bank : k ≠ .cluster) (n : Nat) : halfKind (unitPart k n) = k := by
  cases k with
  | cluster => exact absurd rfl bank
  | buffer => unfold unitPart; dsimp only; split <;> rfl
  | drey => unfold unitPart; dsimp only; split <;> rfl

theorem endMarchCopy_ends {s : State} {k : SpareKind} {bank sp : Nat} {gone : Bool} (kind : k ≠ .cluster)
    (copy : s.bist.copies.find? (fun c => c.1 == k && c.2.1 == bank) = some (k, bank, sp, gone)) :
    s.endMarchCopy (unitPart k bank) bank
      = (s.endCopy k bank sp gone).setSeq (unitPart k bank) { s.testSeq (unitPart k bank) with copying := false } := by
  unfold State.endMarchCopy
  rw [halfKind_unitPart kind, copy]

/-- However the copy ends, its spare serves and it is off the list. -/
theorem bankCopyDone_ends {k : SpareKind} {bank sp : Nat} {gone : Bool} {poisoned : List CopyErr} {s : State} (live : s.live = true)
    (apart : bank ≠ sp) (kind : k ≠ .cluster)
    (copy : s.bist.copies.find? (fun c => c.1 == k && c.2.1 == bank) = some (k, bank, sp, gone)) :
    ∃ t : State, exec (.bankCopyDone k { bank := bank, poisoned := poisoned }) s = .next t.resumeHalves ∧ t.bankRole k sp = .inService
      ∧ t.bankRole k bank = (if gone = true then .unusable else s.bankRole k bank)
      ∧ t.bist.copies = s.bist.copies.filter (· != (k, bank, sp, gone)) := by
  have handled : SameRoles s (poisoned.foldl (fun s e => s.copyErr bank e) s) := (rolesKept_foldl _ (fun _ _ => rolesKept_copyErr ..) poisoned s).roles
  generalize errors : poisoned.foldl (fun s e => s.copyErr bank e) s = u at handled
  obtain ⟨roles, copies⟩ := handled
  obtain ⟨spare, own, ended⟩ := endCopy_roles u k apart gone
  have same (tp : Nat) (q : TestSeq) : SameRoles (u.endCopy k bank sp gone) ((u.endCopy k bank sp gone).setSeq tp q) := sameRoles_of rfl rfl rfl rfl
  have noted (w : State) : SameRoles w (w.noteBroughtIn k bank) := sameRoles_of rfl rfl rfl rfl
  have marched := endMarchCopy_ends (s := u) kind (by rw [copies]; exact copy)
  have runs : exec (.bankCopyDone k { bank := bank, poisoned := poisoned }) s = .next (((if (u.testSeq (unitPart k bank)).bank = some bank then
      u.endMarchCopy (unitPart k bank) bank else u.endCopy k bank sp gone).noteBroughtIn k bank).resumeHalves) := by
    show execBankCopyDone k _ s = _
    unfold execBankCopyDone
    dsimp only
    rw [live, copy, ← errors]
    rfl
  refine ⟨_, runs, ?_⟩
  have ends : SameRoles (u.endCopy k bank sp gone) ((if (u.testSeq (unitPart k bank)).bank = some bank then
      u.endMarchCopy (unitPart k bank) bank else u.endCopy k bank sp gone).noteBroughtIn k bank) := by
    split
    · rw [marched]
      exact ⟨fun k' n => ((noted _).1 k' n).trans ((same ..).1 k' n), rfl⟩
    · exact noted _
  obtain ⟨roles', copies'⟩ := ends
  rw [roles', roles', copies', own, roles, ended, copies]
  exact ⟨spare, rfl, rfl⟩

/-! ## The fuses (R395) -/

theorem marks_emitted (l : List (Nat × Nat)) (s : State) :
    l.foldl (fun (s : State) m => s.emit (.fuse m.1 m.2)) s = { s with out := s.out ++ l.map fun m => .fuse m.1 m.2 } := by
  induction l generalizing s with
  | nil => rw [List.foldl_nil, List.map_nil, List.append_nil]
  | cons m r ih =>
    rw [List.foldl_cons, ih, List.map_cons]
    exact congrArg (fun o => { s with out := o }) (List.append_assoc ..)

theorem fuseBlow_blows {s : State} (live : s.live = true) (marks : s.bist.toBlow ≠ []) : exec .fuseBlow s = .next { s with
    bist := { s.bist with toBlow := [], fuses := s.bist.fuses ++ s.bist.toBlow.filter fun m => !s.bist.fuses.contains m }
    out := s.out ++ s.bist.toBlow.map fun m => .fuse m.1 m.2 } := by
  have some_ : s.bist.toBlow.isEmpty = false := by
    rw [← Bool.not_eq_true, List.isEmpty_iff]
    exact marks
  show execFuseBlow s = _
  unfold execFuseBlow
  rw [live, some_, if_neg (by decide)]
  dsimp only
  rw [marks_emitted]
  rfl

/-! ## Bring-ins by command and of themselves (R214, R393, R399) -/

theorem spareBringIn_brings {c : Cmd} {kind : Byte} {unit : BitVec 16} {sp : Nat} {s : State} (ho : Open s)
    (hp : s.paramError (.spareBringIn c kind unit) = none) (reset : s.partInReset (unitPart (kindOf kind) unit.toNat) = false)
    (untested : s.underTest (unitPart (kindOf kind) unit.toNat) = false) (serves : s.bankRole (kindOf kind) unit.toNat = .inService)
    (spare : s.nextSpare (kindOf kind) unit.toNat = some sp) :
    exec (.spareBringIn c kind unit) s = .next ((s.bringOut (kindOf kind) unit.toNat sp).defer c 0x0804
      (.bringIn (kindOf kind) unit.toNat (if kind = 2 then some s.beat.count else none))) := by
  have open_ : firstGate [unitGate (s.partInReset (unitPart (kindOf kind) unit.toNat)) false,
      stateGate (s.bankRole (kindOf kind) unit.toNat != .inService || s.underTest (unitPart (kindOf kind) unit.toNat)),
      roomGate (s.nextSpare (kindOf kind) unit.toNat).isNone] = none := by
    rw [reset, untested, serves, spare]
    rfl
  have done : (if kindOf kind = .cluster then some s.beat.count else none) = if kind = 2 then some s.beat.count else none := by
    simp only [kindOf_cluster]
  refine (gate_passes ho hp open_).trans ?_
  rw [spare, done]
  rfl

theorem spareBringInStack_starts {c : Cmd} {unit : BitVec 16} {sp : Nat} {s : State} (ho : Open s) (small : unit.toNat < 13)
    (runs : s.memInReset = false) (serves : (s.stack unit.toNat).role = .inService) (rests : s.migrating = false) (spare : s.spareStack = some sp) :
    exec (.spareBringInStack c unit) s =
      .next ((s.startMigration unit.toNat sp false).defer c 0x0804 (.stackBringIn unit.toNat none)) := by
  have hp : s.paramError (.spareBringInStack c unit) = none := by
    simp [State.paramError, State.rangeLow, State.rangeMid, State.rangeHigh, firstBad, small]
  have open_ : firstGate [unitGate s.memInReset false, stateGate ((s.stack unit.toNat).role != .inService || s.migrating),
      roomGate s.spareStack.isNone] = none := by
    rw [runs, serves, rests, spare]
    rfl
  refine (gate_passes ho hp open_).trans ?_
  rw [spare]
  rfl

section
variable {k : SpareKind} {n : Nat} {s : State} (live : s.live = true) (auto : s.bist.autoSpare = true) (small : n < kindUnits k)
  (due : s.triggered k n = true)
include live auto small due

theorem spareAutoBringIn_serving (serves : s.bankRole k n = .inService) : exec (.spareAutoBringIn k n) s
    = .next (match s.nextSpare k n with
      | some sp => s.bringOut k n sp
      | none => s.loseBank k n) := by
  show execSpareAutoBringIn k n s = _
  unfold execSpareAutoBringIn
  rewrite [live, auto, due, decide_eq_false (Nat.not_le.mpr small), if_neg (by decide), if_pos serves]
  cases s.nextSpare k n <;> rfl

theorem spareAutoBringIn_copying (leaves : s.bankRole k n ≠ .inService) : exec (.spareAutoBringIn k n) s
    = .next (s.updBist fun b => { b with copies := b.copies.map fun c =>
      if c.1 = k ∧ c.2.1 = n then (c.1, c.2.1, c.2.2.1, true) else c }) := by
  show execSpareAutoBringIn k n s = _
  unfold execSpareAutoBringIn
  rw [live, auto, due, decide_eq_false (Nat.not_le.mpr small), if_neg (by decide), if_neg leaves]

end

theorem dropFirst_append {α : Type} {p : α → Bool} {before : List α} (none_ : ∀ x ∈ before, p x = false) {d : α} (holds : p d = true)
    (rest : List α) : dropFirst p (before ++ d :: rest) = before ++ rest := by
  induction before with
  | nil => rw [List.nil_append, dropFirst, if_pos holds, List.nil_append]
  | cons a r ih =>
    rw [List.cons_append, dropFirst, if_neg (by rw [none_ a List.mem_cons_self]; decide),
      ih fun x mem => none_ x (List.mem_cons_of_mem a mem)]
    rfl

theorem spareBringInComplete_oldest {d : Deferred} {b : Beat} {before rest : List Deferred} {s : State} (live : s.live = true)
    (listed : s.mgmt.deferred = before ++ d :: rest) (done : broughtIn d.work = some b) (older : ∀ x ∈ before, broughtIn x.work = none) :
    exec .spareBringInComplete s = .next (({ s with mgmt := { s.mgmt with deferred := before ++ rest } } : State).complete d.cmd
      d.opcode d.keyKept stOk 0 (leBytes 6 b.toNat)) := by
  have waits (x : Deferred) (mem : x ∈ before) : (broughtIn x.work).isSome = false := by rw [older x mem]; rfl
  have taken : (broughtIn d.work).isSome = true := by rw [done]; rfl
  have found : s.mgmt.deferred.find? (fun d => (broughtIn d.work).isSome) = some d := by
    rw [listed, List.find?_append, List.find?_eq_none.mpr (fun x mem => by rw [waits x mem]; decide), Option.none_or]
    exact List.find?_cons_of_pos (p := fun d : Deferred => (broughtIn d.work).isSome) taken
  have runs : exec .spareBringInComplete s = if !s.live then .next s else
      match s.mgmt.deferred.find? fun d => (broughtIn d.work).isSome with
      | none => .next s
      | some d => .next (s.finishWork (fun w => (broughtIn w).isSome) stOk 0 (leBytes 6 ((broughtIn d.work).getD 0).toNat)) := rfl
  rw [runs, live, found]
  dsimp only
  rw [if_neg (by decide), done]
  unfold State.finishWork
  rw [found, listed]
  dsimp only
  rw [dropFirst_append (p := fun d : Deferred => (broughtIn d.work).isSome) waits taken]
  rfl

/-- Settles O23: a spare takes over at once or after its copy, and the marks that this makes are blown. -/
theorem sparesTakeOver : Obligations.SparesTakeOver := by
  refine ⟨fun c kind unit sp s ho hp reset untested serves spare =>
      ⟨spareBringIn_brings ho hp reset untested serves spare, fun _ apart => ?_, fun bank apart => ?_⟩,
    fun c unit sp s ho small runs serves rests spare => spareBringInStack_starts ho small runs serves rests spare,
    fun kind bank sp gone poisoned s live apart named copy => bankCopyDone_ends live apart named copy,
    fun kind unit s live auto small due serves => ⟨fun sp spare => ?_, fun spare => ?_⟩,
    fun kind unit s live auto small due leaves => ?_,
    fun d b before rest s live listed done older => spareBringInComplete_oldest live listed done older,
    fun s live marks => ?_⟩
  · obtain ⟨spare, -, -⟩ := changeRole_roles s .cluster sp .inService
    obtain ⟨own, others, -⟩ := markUnusable_roles (s.changeRole .cluster sp .inService) .cluster unit.toNat
    exact ⟨(others sp apart).trans spare, own⟩
  · have copies : s.bringOut (kindOf kind) unit.toNat sp = s.startCopy (kindOf kind) unit.toNat sp true := by
      unfold State.bringOut
      cases named : kindOf kind with
      | cluster => exact absurd named bank
      | buffer => rfl
      | drey => rfl
    rw [copies]
    exact startCopy_roles s _ apart true
  · rw [spareAutoBringIn_serving live auto small due serves, spare]
  · rw [spareAutoBringIn_serving live auto small due serves, spare]
  · refine ⟨_, spareAutoBringIn_copying live auto small due leaves, rfl, fun sp gone mem => ?_⟩
    exact List.mem_map.mpr ⟨_, mem, if_pos ⟨rfl, rfl⟩⟩
  · refine ⟨_, fuseBlow_blows live marks, rfl, fun m => ?_, rfl, rfl⟩
    by_cases blown : m ∈ s.bist.fuses <;> simp [blown]

end Sys2Proof.Claims
end

section
/-! PROOFS. How chunks finish, commit, are resent, are damaged and are released (O51). -/

namespace Sys2Proof.Claims

open Sys2Proof.Machine

/-! ## What markers and passes move (R266, R268, R273) -/

/-- From s to t only the frames of local agents, free values and counters have moved. -/
def AgentsMoved (s t : State) : Prop :=
  t = { s with sw := { s.sw with agentOut := t.sw.agentOut }, draws := t.draws, ctr := { s.ctr with counters := t.ctr.counters } }

theorem AgentsMoved.refl (s : State) : AgentsMoved s s := rfl

theorem AgentsMoved.trans {s t u : State} (h : AgentsMoved s t) (g : AgentsMoved t u) : AgentsMoved s u := by
  unfold AgentsMoved at *
  rw [g, h]

theorem AgentsMoved.ite {p : Prop} [Decidable p] {s t u : State} (h : AgentsMoved s t) (g : AgentsMoved s u) :
    AgentsMoved s (if p then t else u) := by
  split
  · exact h
  · exact g

theorem agentsMoved_foldl {α : Type} (f : State → α → State) (step : ∀ s x, AgentsMoved s (f s x)) (l : List α) (s : State) :
    AgentsMoved s (l.foldl f s) :=
  foldl_rel (R := AgentsMoved) f .refl .trans step l s

theorem OnlyCounted.agentsMoved {s t : State} (h : OnlyCounted s t) : AgentsMoved s t := by
  unfold AgentsMoved
  rw [h]

theorem AgentsMoved.engine {s t : State} (h : AgentsMoved s t) : t.coll = s.coll ∧ t.out = s.out ∧ t.bist = s.bist ∧ t.beat = s.beat := by
  rw [h]
  exact ⟨rfl, rfl, rfl, rfl⟩

theorem AgentsMoved.session {s t : State} (h : AgentsMoved s t) (n : Nat) : t.session n = s.session n :=
  congrArg (fun c : Coll => sget c.sessions n defaultSession) h.engine.1

theorem agentsMoved_draw (s : State) : AgentsMoved s s.draw.2 := .refl _

theorem agentsMoved_sendAgent (s : State) (f : AgentFrame) : AgentsMoved s (s.sendAgent f) := by
  rw [sendAgent_only]
  exact .refl _

theorem agentsMoved_marker (s : State) (sid : Nat) (m : Member) (kind aflags arg0 arg1 status detail : Nat) :
    AgentsMoved s (s.marker sid m kind aflags arg0 arg1 status detail) := by
  have flow : AgentsMoved s (s.flowOf m).2 := by
    unfold State.flowOf
    split
    · exact .refl s
    · exact agentsMoved_draw s
  exact flow.trans (agentsMoved_sendAgent ..)

theorem agentsMoved_countPass (s : State) (code n sid chunk : Nat) : AgentsMoved s (s.countPass code n sid chunk) := by
  unfold State.countPass
  dsimp only
  refine .ite (.refl s) ?_
  exact (agentsMoved_draw s).trans
    (((onlyCounted_countGlobal ..).trans (onlyCounted_countGlobal ..)).trans (onlyCounted_ctxUnit ..)).agentsMoved

theorem agentsMoved_countPasses (g : Nat) (s : State) (code n sid chunk : Nat) : AgentsMoved s (countPasses g code n sid chunk s) := by
  induction g generalizing s with
  | zero => exact .refl s
  | succ g ih => exact (agentsMoved_countPass ..).trans (ih _)

/-! ## A chunk finishes, and commits (R237, R271, R272) -/

theorem running_current {x : Session} (running : x.st = .running) : x.current = true := by
  unfold Session.current
  rw [running]
  rfl

/-- A finished chunk leaves the others, and the lowest one, as they are. -/
theorem finishChunk_finishes {s : State} {sid : Nat} {ch : Chunk} {d : Desc} (desc : (s.session sid).desc = some d) :
    ∃ t ch' flags, s.finishChunk sid ch = t ∧ ch'.num = ch.num ∧ ch'.finished = true
      ∧ t.session sid = { s.session sid with epochFlags := flags, chunks := (s.session sid).chunks.map fun y => if y.num == ch.num then ch' else y }
      ∧ ∀ k, k ≠ sid → t.session k = s.session k := by
  unfold State.finishChunk
  dsimp only
  rw [desc]
  dsimp only
  generalize List.filterMap _ _ = outs
  generalize List.map _ outs = parts
  generalize finished : ({ ch with finished := true, flags := orFlags (parts.map fun p => p.2.2), toPass := (parts.map fun p => p.2.1).flatten.length
                                   targets := parts.map fun p => p.1.lp } : Chunk) = ch'
  have queued : AgentsMoved s ((parts.map fun p => p.2.1).flatten.foldl (fun (s : State) f => s.sendAgent f) s) :=
    agentsMoved_foldl _ (fun _ _ => agentsMoved_sendAgent ..) _ s
  generalize List.foldl _ s _ = a at queued ⊢
  generalize set : a.setSession sid _ = b
  have passed : AgentsMoved b (if reduces d = true then countPasses ((chunkHi d ch.num - chunkLo d ch.num + 255) / 256) 0x3102 4 sid ch.num b else b) :=
    .ite (agentsMoved_countPasses ..) (.refl b)
  refine ⟨_, ch', (s.session sid).epochFlags ||| orFlags (parts.map fun p => p.2.2), rfl, by rw [← finished], by rw [← finished], ?_, fun k ne => ?_⟩
  · rw [passed.session, ← set]
    exact State.session_setSession ..
  · rw [passed.session, ← set]
    exact (State.session_setSession_other _ _ ne).trans (queued.session k)

theorem closeCheck_running {s : State} {sid : Nat} (running : (s.session sid).st = .running) : s.closeCheck sid = s := by
  unfold State.closeCheck
  refine if_neg fun h => ?_
  rw [running] at h
  cases h.1

/-- The lowest chunk commits while others are left. -/
theorem commitChunk_commits {s : State} {sid : Nat} {ch : Chunk} {d : Desc} (desc : (s.session sid).desc = some d)
    (running : (s.session sid).st = .running) (more : ch.num + 1 ≠ chunkCount d) : ∃ t r, s.commitChunk sid ch = t
      ∧ t.session sid = { s.session sid with chunks := (s.session sid).chunks.filter fun y => y.num != ch.num, low := ch.num + 1,
                                             committedAll := (s.session sid).committedAll + 1, roster := r }
      ∧ t.out = s.out := by
  unfold State.commitChunk
  dsimp only
  have told : AgentsMoved s (((s.session sid).roster.filter fun m => ch.targets.contains m.lp).foldl
      (fun s m => s.marker sid m 0x10 ch.flags.toNat ch.num 0 0 0) s) := agentsMoved_foldl _ (fun _ _ => agentsMoved_marker ..) _ s
  generalize List.foldl _ s _ = a at told ⊢
  rw [told.session, desc]
  dsimp only
  rw [if_neg more]
  generalize set : a.setSession sid _ = b
  obtain ⟨c, counted⟩ := State.countGlobal_only b 0x3005 none none 1
  have kept : AgentsMoved b (b.countGlobal 0x3005 none none 1) := (onlyCounted_countGlobal ..).agentsMoved
  have session : b.session sid = _ := (congrArg (fun u : State => u.session sid) set.symm).trans (State.session_setSession ..)
  have runs : ((b.countGlobal 0x3005 none none 1).session sid).st = .running := by
    rw [kept.session, session]
    exact running
  rw [closeCheck_running runs]
  refine ⟨_, _, rfl, (kept.session sid).trans session, ?_⟩
  rw [kept.engine.2.1, ← set]
  exact told.engine.2.1

theorem num_of_listed {l : List Chunk} {k : Nat} {ch : Chunk} (listed : l.find? (fun c => c.num == k) = some ch) : ch.num = k := by
  simpa using List.find?_some listed

section
variable {sid : Fin 4096} {n : BitVec 32} {ch : Chunk} {s : State} (runs : s.collRuns = true) (running : (s.session sid.val).st = .running)
  (listed : (s.session sid.val).chunks.find? (fun c => c.num == n.toNat) = some ch)
include runs running listed

theorem chunkFinish_eq : exec (.chunkFinish sid n) s = if (ch.complete && ch.released && !ch.finished
      && (s.session sid.val).descSeen == (s.session sid.val).roster.length
      && (s.session sid.val).chunks.all fun c => n.toNat ≤ c.num || c.finished) = true then .next (s.finishChunk sid.val ch) else .next s := by
  show execChunkFinish sid n s = _
  unfold execChunkFinish
  dsimp only
  rw [runs, running_current running, if_neg (by simp), listed]

theorem chunkCommit_eq : exec (.chunkCommit sid n) s = if (s.session sid.val).low ≠ n.toNat then .next s
    else if (ch.finished && ch.toPass == 0) = true then .next (s.commitChunk sid.val ch) else .next s := by
  show execChunkCommit sid n s = _
  unfold execChunkCommit
  dsimp only
  rw [runs, running_current running, listed]
  by_cases low : (s.session sid.val).low = n.toNat <;> simp [low]

end

/-! ## Damage (R277, R393) -/

/-- What is noted of a damage. -/
def damageNoted (s : State) : DamageKind → State
  | .residue k => { s with coll := { s.coll with residueSeen := true, residueBad := addSorted s.coll.residueBad k } }
  | .slotEcc bank | .pageEcc bank => { s.bankUe .drey bank with coll := { s.coll with ueSeen := true } }

theorem mem_addSorted (l : List Nat) (n : Nat) : n ∈ addSorted l n := by
  induction l with
  | nil => exact List.mem_cons_self
  | cons a r ih =>
    unfold addSorted
    split
    · exact List.mem_cons_self
    · split
      · next same => exact same ▸ List.mem_cons_self
      · exact List.mem_cons_of_mem a ih

theorem damageNoted_effect (s : State) (kind : DamageKind) : (damageNoted s kind).coll.sessions = s.coll.sessions
    ∧ (damageNoted s kind).out = s.out ∧ (damageNoted s kind).coll.recomputes = s.coll.recomputes
    ∧ (∀ b, kind = .slotEcc b → sget (damageNoted s kind).bist.dreyUe b 0 = sget s.bist.dreyUe b 0 + 1 ∧ (damageNoted s kind).coll.ueSeen = true)
    ∧ (∀ k, kind = .residue k → k ∈ (damageNoted s kind).coll.residueBad ∧ (damageNoted s kind).coll.residueSeen = true) := by
  cases kind with
  | residue k => exact ⟨rfl, rfl, rfl, fun _ e => (by cases e), fun _ e => by cases e; exact ⟨mem_addSorted .., rfl⟩⟩
  | slotEcc b => exact ⟨rfl, rfl, rfl, fun _ e => (by cases e; exact ⟨sget_sput_same s.bist.dreyUe b (sget s.bist.dreyUe b 0 + 1) 0, rfl⟩), fun _ e => by cases e⟩
  | pageEcc b => exact ⟨rfl, rfl, rfl, fun _ e => (by cases e), fun _ e => by cases e⟩

section
variable {sid : Fin 4096} {n : BitVec 32} {g : Nat} {kind : DamageKind} {ch : Chunk} {d : Desc} {s : State} (runs : s.collRuns = true)
  (running : (s.session sid.val).st = .running) (desc : (s.session sid.val).desc = some d)
  (listed : (s.session sid.val).chunks.find? (fun c => c.num == n.toNat) = some ch)
  (inside : g < (chunkHi d n.toNat - chunkLo d n.toNat + 255) / 256)
include runs running desc listed inside

theorem slotGroupDamaged_recomputes (retained : (s.session sid.val).retain = true) (slot : ∀ b, kind ≠ .pageEcc b) :
    exec (.slotGroupDamaged sid n g kind) s = .next ({ damageNoted s kind with coll := { (damageNoted s kind).coll with
      recomputes := satAdd 0xFFFF (damageNoted s kind).coll.recomputes 1 } }.countPass 0x3103
        ((s.session sid.val).roster.length * d.cpm) sid.val n.toNat) := by
  show execSlotGroupDamaged sid n g kind s = _
  unfold execSlotGroupDamaged State.damageGroup
  dsimp only
  rw [runs, running_current running, if_neg (by decide), if_neg (by simp), listed, desc]
  dsimp only
  rw [if_neg (Nat.not_le.mpr inside), retained]
  cases kind with
  | residue k => rfl
  | slotEcc b => rfl
  | pageEcc b => exact absurd rfl (slot b)

theorem slotGroupDamaged_aborts (lost : (s.session sid.val).retain = false ∨ ∃ b, kind = .pageEcc b) :
    exec (.slotGroupDamaged sid n g kind) s = .next ((damageNoted s kind).abortEpoch sid.val 7 none) := by
  show execSlotGroupDamaged sid n g kind s = _
  unfold execSlotGroupDamaged State.damageGroup
  dsimp only
  rw [runs, running_current running, if_neg (by decide), if_neg (by simp), listed, desc]
  dsimp only
  rw [if_neg (Nat.not_le.mpr inside)]
  cases kind with
  | pageEcc b => rfl
  | residue k =>
    obtain unkept | ⟨b, page⟩ := lost
    · rw [unkept]
      rfl
    · cases page
  | slotEcc b =>
    obtain unkept | ⟨b, page⟩ := lost
    · rw [unkept]
      rfl
    · cases page

end

/-! ## A stalled epoch (R279, R287) -/

section
variable {sid : Fin 4096} {s : State} (runs : s.collRuns = true) (running : (s.session sid.val).st = .running)
include runs running

theorem stallTimeout_eq : exec (.stallTimeout sid) s = if s.coll.stallBeats = 0 then .next s
    else if (s.session sid.val).lastAccept + s.coll.stallBeats.toNat + 1 ≤ s.beat.localBeats then
      .next (s.abortEpoch sid.val 9 (s.session sid.val).laggard)
    else .next s := by
  show execStallTimeout sid s = _
  unfold execStallTimeout
  dsimp only
  rw [runs, running_current running]
  by_cases never : s.coll.stallBeats = 0 <;> simp [never]

end

/-! ## Result frames that have left (R271, R276) -/

/-- The oldest result frame of an LP is taken from those that wait for their report. -/
theorem takeChecking_one {s : State} {lp : Nat} {a : AgentFrame} (one : s.sw.checking = [a]) (own : a.lp = lp) :
    s.takeChecking lp = some (a, { s with sw := { s.sw with checking := [] } }) := by
  have mine : (a.lp == lp) = true := beq_iff_eq.mpr own
  unfold State.takeChecking
  rw [one, List.find?_cons_of_pos (p := fun a : AgentFrame => a.lp == lp) mine]
  dsimp only
  rw [dropFirst, if_pos mine]

theorem resultChunk_of {s t : State} {a : AgentFrame} {ch : Chunk} (same : t.coll.sessions = s.coll.sessions)
    (running : (s.session a.sid).st = .running) (epoch : a.epoch = (s.session a.sid).epoch)
    (listed : (s.session a.sid).chunks.find? (fun c => c.num == a.chunk) = some ch) : t.resultChunk a = some ch := by
  have session : t.session a.sid = s.session a.sid := by
    unfold State.session
    rw [same]
  unfold State.resultChunk
  dsimp only
  rw [session, running_current running, epoch, decide_eq_true rfl, if_pos (by rfl), listed]

section
variable {lp : Lp} {a : AgentFrame} {ch : Chunk} {s : State} (live : s.live = true) (one : s.sw.checking = [a]) (own : a.lp = lp.val)
  (running : (s.session a.sid).st = .running) (epoch : a.epoch = (s.session a.sid).epoch)
  (listed : (s.session a.sid).chunks.find? (fun c => c.num == a.chunk) = some ch)
include live one own running epoch listed

theorem resultFramePassed_counts : ∃ t, exec (.resultFramePassed lp) s = .next t ∧ t.sw.checking = []
    ∧ t.out = s.out ++ [.frame a.lp a.hdr (a.content.take (hdrLength a.hdr))]
    ∧ t.session a.sid = { s.session a.sid with
        chunks := (s.session a.sid).chunks.map fun c => if c.num == a.chunk then { c with toPass := c.toPass - 1 } else c
        roster := updMember (s.session a.sid).roster lp.val fun m => { m with got := addSorted m.got a.chunk } } := by
  have num := num_of_listed listed
  obtain ⟨c, whole⟩ := sentWhole_only { s with sw := { s.sw with checking := [] } } a.lp a.hdr a.content
  generalize sent : ({ s with sw := { s.sw with checking := [] } } : State).sentWhole a.lp a.hdr a.content = u at whole
  have chunk : u.resultChunk a = some ch := resultChunk_of (by rw [whole]) running epoch listed
  have session : u.session a.sid = s.session a.sid := by rw [whole]; rfl
  have runs : exec (.resultFramePassed lp) s = .next (u.setSession a.sid { u.session a.sid with
      chunks := (u.session a.sid).chunks.map fun c => if c.num == ch.num then { c with toPass := c.toPass - 1 } else c
      roster := updMember (u.session a.sid).roster a.lp fun m => { m with got := addSorted m.got a.chunk } }) := by
    show execResultFramePassed lp s = _
    unfold execResultFramePassed
    rw [live, takeChecking_one one own, if_neg (by decide)]
    dsimp only
    rw [sent, chunk]
  refine ⟨_, runs, ?_, ?_, ?_⟩
  · show u.sw.checking = []
    rw [whole]
  · show u.out = _
    rw [whole]
  · rw [State.session_setSession, session, num, own]

/-- A frame that fails its check goes out stomped, and again before the later ones of its LP, or its epoch aborts. -/
theorem resultResend_eq : ∃ u : State, u.coll = s.coll ∧ u.sw.agentOut = s.sw.agentOut ∧ u.out = s.out ++ [.stomped a.lp a.hdr a.content 0xB]
    ∧ exec (.resultResend lp) s = if 4 ≤ a.fails + 1 then .next (u.abortEpoch a.sid 8 (some lp.val)) else .next { u with
        coll := { u.coll with resends := satAdd 0xFFFF u.coll.resends 1 }
        sw := { u.sw with agentOut := (u.sw.agentOut.takeWhile fun f => !(f.lp == lp.val && f.agent == 1))
          ++ [{ a with fails := a.fails + 1, content := patch a.content 1 [byteAt a.content 1 ||| 2] }]
          ++ u.sw.agentOut.drop (u.sw.agentOut.takeWhile fun f => !(f.lp == lp.val && f.agent == 1)).length } } := by
  generalize stomp : ((({ s with sw := { s.sw with checking := [] } } : State).setLpStripe lp.val
      ((({ s with sw := { s.sw with checking := [] } } : State).lpStripe lp.val).stompResult 0)).emit
        (.stomped a.lp a.hdr a.content 0xB)) = v
  have kept : v.coll = s.coll ∧ v.sw.agentOut = s.sw.agentOut ∧ v.out = s.out ++ [.stomped a.lp a.hdr a.content 0xB] := by
    rw [← stomp]
    exact ⟨rfl, rfl, rfl⟩
  obtain ⟨coll, agents, out⟩ := kept
  have counted : AgentsMoved _ ((({ v with sw := { v.sw with stomped := satAdd (2 ^ 48 - 1) v.sw.stomped 1 } } : State).countLp lp.val 0x0109
      (some a.hdr.tc.toNat) (some 0xB) 1).countSlots lp.val 0x0202 (some 2) (hdrCount a.hdr)) :=
    ((onlyCounted_countLp ..).trans (onlyCounted_countSlots ..)).agentsMoved
  have agents' : ((({ v with sw := { v.sw with stomped := satAdd (2 ^ 48 - 1) v.sw.stomped 1 } } : State).countLp lp.val 0x0109
      (some a.hdr.tc.toNat) (some 0xB) 1).countSlots lp.val 0x0202 (some 2) (hdrCount a.hdr)).sw.agentOut = v.sw.agentOut := by
    rw [((onlyCounted_countLp _ lp.val 0x0109 (some a.hdr.tc.toNat) (some 0xB) 1).trans (onlyCounted_countSlots _ lp.val 0x0202 (some 2) (hdrCount a.hdr)))]
  obtain ⟨coll', out', -, -⟩ := counted.engine
  generalize told : (({ v with sw := { v.sw with stomped := satAdd (2 ^ 48 - 1) v.sw.stomped 1 } } : State).countLp lp.val 0x0109
      (some a.hdr.tc.toNat) (some 0xB) 1).countSlots lp.val 0x0202 (some 2) (hdrCount a.hdr) = u at coll' out' agents'
  have chunk : u.resultChunk a = some ch := resultChunk_of (by rw [coll', coll]) running epoch listed
  refine ⟨u, coll'.trans coll, agents'.trans agents, out'.trans out, ?_⟩
  show execResultResend lp s = _
  unfold execResultResend
  rw [live, takeChecking_one one own, if_neg (by decide)]
  dsimp only [List.filter_nil, List.length_nil]
  rw [stomp, told, chunk]

end

/-! ## Release with the beat (R286) -/

theorem beatSyncRelease_waits {s : State} (runs : s.collRuns = true) (waits : s.beat.stepsDue = false ∨ s.nextStep5 ≠ none
    ∨ s.beat.count.toNat % 2 ^ s.coll.syncLog2.toNat ≠ 0) : exec .beatSyncRelease s = .next s := by
  show execBeatSyncRelease s = _
  unfold execBeatSyncRelease
  rw [runs]
  obtain idle | busy | off := waits
  · rw [idle]
    rfl
  · obtain ⟨step, is⟩ := Option.ne_none_iff_exists'.mp busy
    rw [is, Option.isNone_some, Bool.and_false]
    rfl
  · split
    · exact congrArg Host.Outcome.next (if_pos off)
    · rfl

theorem beatSyncRelease_one {n : Nat} {x : Session} {s : State} (runs : s.collRuns = true) (due : s.beat.stepsDue = true)
    (done : s.nextStep5 = none) (grid : s.beat.count.toNat % 2 ^ s.coll.syncLog2.toNat = 0) (one : s.coll.sessions = [(n, x)])
    (running : x.st = .running) (sync : x.beatSync = true) (open_ : x.barrierWaits = false) : exec .beatSyncRelease s
      = .next (s.setSession n { x with chunks := x.chunks.map fun c => if c.complete then { c with released := true } else c }) := by
  have session : s.session n = x := by
    unfold State.session
    rw [one]
    exact if_pos rfl
  have open' : s.openSessions.filter (fun e => e.2.beatSync) = [(n, x)] := by
    unfold State.openSessions
    rw [one, List.filter_cons_of_pos (by rw [running]; decide), List.filter_nil]
    exact List.filter_cons_of_pos (p := fun e : Nat × Session => e.2.beatSync) (l := []) sync
  show execBeatSyncRelease s = _
  unfold execBeatSyncRelease
  rw [runs, due, done, if_pos (by rfl)]
  unfold State.beatSyncRelease
  rw [if_neg (not_not.mpr grid), open', List.foldl_cons, List.foldl_nil, session]
  dsimp only
  rw [open_]
  rfl

/-- Settles O51: chunks finish, pass and commit in order, and damage, resends and stalls abort their epoch. -/
theorem chunksFinishCommitOrAbort : Obligations.ChunksFinishCommitOrAbort := by
  refine ⟨fun sid n ch d s runs running desc listed => ⟨fun waits => ?_, fun seen complete released unfinished before => ?_, fun waits => ?_,
    fun low finished passed more => ?_, fun g kind inside => ⟨fun retained slot => ?_, fun lost => ?_⟩, fun on => ⟨fun early => ?_, fun late => ?_⟩,
    fun off => ?_, fun lp a one own mine epoch chunk => ?_⟩, fun s runs => ⟨fun waits => beatSyncRelease_waits runs waits,
    fun n x due done grid one running sync open_ => ?_⟩⟩
  · rw [chunkFinish_eq runs running listed, if_neg]
    obtain partly | undone := waits
    · rw [partly]
      simp
    · simp [undone]
  · obtain ⟨t, ch', flags, finishes, num, finished, session, others⟩ := finishChunk_finishes (ch := ch) desc
    have ready : (ch.complete && ch.released && !ch.finished && (s.session sid.val).descSeen == (s.session sid.val).roster.length
        && (s.session sid.val).chunks.all fun c => n.toNat ≤ c.num || c.finished) = true := by
      rw [complete, released, unfinished, seen, beq_self_eq_true]
      simp only [Bool.not_false, Bool.and_self, Bool.true_and, List.all_eq_true]
      intro c mem
      by_cases after : n.toNat ≤ c.num
      · rw [decide_eq_true after, Bool.true_or]
      · rw [before c mem (Nat.lt_of_not_le after), Bool.or_true]
    refine ⟨t, by rw [chunkFinish_eq runs running listed, if_pos ready, finishes], ?_⟩
    have own := num_of_listed listed
    rw [session]
    refine ⟨fun c mem same => ?_, running, List.length_map .., rfl, others⟩
    obtain ⟨y, -, rfl⟩ := List.mem_map.mp mem
    by_cases this : y.num = ch.num
    · rw [if_pos (beq_iff_eq.mpr this)]
      exact finished
    · rw [if_neg (by simpa using this)] at same
      exact absurd (same.trans own.symm) this
  · rw [chunkCommit_eq runs running listed]
    split
    · rfl
    · next low =>
      refine if_neg fun ready => ?_
      obtain ⟨finished, passed⟩ := Bool.and_eq_true_iff.mp ready
      obtain other | unfinished | left := waits
      · exact low other
      · rw [unfinished] at finished
        cases finished
      · exact left (beq_iff_eq.mp passed)
  · have own := num_of_listed listed
    obtain ⟨t, r, commits, session, out⟩ := commitChunk_commits (ch := ch) desc running (by rw [own]; exact more)
    refine ⟨t, ?_, ?_⟩
    · rw [chunkCommit_eq runs running listed, if_neg (not_not.mpr low), finished, passed, if_pos (by rfl), commits]
    · rw [session, own]
      exact ⟨rfl, rfl, running, fun c => by simp, out⟩
  · obtain ⟨sessions, out, count, slotEcc, residue⟩ := damageNoted_effect s kind
    refine ⟨_, slotGroupDamaged_recomputes runs running desc listed inside retained slot, ?_⟩
    obtain ⟨coll, out', bist, -⟩ := (agentsMoved_countPass { damageNoted s kind with coll := { (damageNoted s kind).coll with
      recomputes := satAdd 0xFFFF (damageNoted s kind).coll.recomputes 1 } } 0x3103 ((s.session sid.val).roster.length * d.cpm) sid.val n.toNat).engine
    rw [coll, out', bist, count]
    exact ⟨sessions, rfl, out, slotEcc, residue⟩
  · obtain ⟨sessions, out, -⟩ := damageNoted_effect s kind
    exact ⟨_, slotGroupDamaged_aborts runs running desc listed inside lost, sessions, out⟩
  · rw [stallTimeout_eq runs running, if_neg (Nat.not_le.mpr early), ite_self]
  · have some_ : s.coll.stallBeats ≠ 0 := fun e => by rw [e] at on; exact absurd on (by decide)
    rw [stallTimeout_eq runs running, if_neg some_, if_pos late]
  · rw [stallTimeout_eq runs running, if_pos off]
  · have live : s.live = true := by
      have := runs
      unfold State.collRuns at this
      simp only [Bool.and_eq_true] at this
      exact this.1.1
    rw [← mine] at running epoch listed ⊢
    rw [← chunk] at listed ⊢
    refine ⟨resultFramePassed_counts live one own running epoch listed, fun few => ?_, fun many => ?_⟩
    · obtain ⟨u, coll, agents, out, resends⟩ := resultResend_eq live one own running epoch listed
      rw [if_neg (by omega)] at resends
      refine ⟨_, _, resends, List.mem_append_left _ (List.mem_append_right _ List.mem_cons_self), rfl, rfl, rfl, ?_, ?_, out, ?_⟩
      · show (_ ++ [_] ++ u.sw.agentOut.drop _).length = _
        rw [← agents]
        have whole := congrArg List.length (List.takeWhile_append_dropWhile (p := fun f : AgentFrame => !(f.lp == lp.val && f.agent == 1))
          (l := u.sw.agentOut))
        rw [List.length_append] at whole
        simp only [List.length_append, List.length_cons, List.length_nil, List.length_drop]
        omega
      · show satAdd 0xFFFF u.coll.resends 1 = _
        rw [coll]
      · show u.coll.sessions = _
        rw [coll]
    · obtain ⟨u, coll, -, -, aborts⟩ := resultResend_eq live one own running epoch listed
      rw [if_pos (by omega)] at aborts
      exact ⟨u, aborts, by rw [coll]⟩
  · exact ⟨_, beatSyncRelease_one runs due done grid one running sync open_, State.session_setSession .., rfl⟩

end Sys2Proof.Claims
end

section
/-! PROOFS. A collective frame given to the engine, and an acknowledgement without bytes (O50). -/

namespace Sys2Proof.Claims

open Sys2Proof.Machine

/-- With nothing at the entry, an acknowledgement frame that heads its flow is taken (R224, R283). -/
theorem abortAckReceived_takes {lp : Lp} {f : InFrame} {id : Nat} {s : State} (runs : s.collRuns = true) (given : frameGiven f = true)
    (head : HeadsFlow s lp.val false f id) (ctrl : f.hdr.ftype = 6) :
    exec (.abortAckReceived lp false f) s = .next ((withoutHead s lp.val f).takeAck lp.val f) := by
  have free : (withoutHead s lp.val f).coll.entry = [] := head.2.1
  have taken : s.collGiven lp.val false f = (withoutHead s lp.val f).takeAck lp.val f := by
    unfold State.collGiven State.collArrive State.takeColl
    rw [claim_head head]
    dsimp only
    rw [free, ctrl]
    rfl
  show execAbortAckReceived lp false f s = _
  unfold execAbortAckReceived
  rw [runs, given, ctrl, if_neg (by decide), taken]

/-- A frame of length 0 is no acknowledgement, whatever its flit carries beyond its length (R122, R274). -/
theorem takeAck_empty {f : InFrame} (empty : hdrLength f.hdr = 0) (s : State) (lp : Nat) : s.takeAck lp f = s.dropColl lp f := by
  have none_ : frameBytes f = [] := by
    unfold frameBytes
    rw [empty, List.take_zero]
  unfold State.takeAck
  rw [none_]
  exact if_pos (by decide)

theorem badAcks_dropColl (s : State) (lp : Nat) (f : InFrame) : (s.dropColl lp f).coll.badAcks = s.coll.badAcks := by
  have freed := (State.freeCells_keepsQueues s lp f.hdr.tc.toNat f.arrived).rest
  unfold State.dropColl State.freeFrame State.countDiscard
  obtain ⟨n, counted⟩ := State.countGlobal_only { s.freeCells lp f.hdr.tc.toNat f.arrived with coll :=
    { (s.freeCells lp f.hdr.tc.toNat f.arrived).coll with
      discarded := satAdd 0xFFFF (s.freeCells lp f.hdr.tc.toNat f.arrived).coll.discarded 1 } } 0x3003 none none 1
  rw [counted, freed]
  rfl

/-- A COLL_CTRL frame of one flit with LAST_BYTES 0; its flit carries the bytes of an ABORT_ACK to session 0 of module 1. -/
def emptyAck : InFrame :=
  { hdr := { pos := 0, tc := 0, ftype := 6, flits := 0, thl := 0, stomp := 0, rsvd := 0, lastBytes := 0, dest := 0, src := 0, fseq := 0, link := 0 }
    content := [0x20, 0, 0, 0, 1, 0], arrived := 1, stomp := none, badFormat := false, cells := [] }

/-- Module 1 right after reset, with that frame for the collective engine on logical port 0. -/
def emptyAckState : State :=
  { State.reset with
    sw := { State.reset.sw with diverted := [{ lp := 0, foreign := false, frame := emptyAck, id := 0 }] }
    side := { State.reset.side with fabricId := 1 } }

/-- Refutes O50: an ABORT_ACK kind beyond the LAST_BYTES of its frame does not count in BAD_ACKS, as a frame of length 0 is dropped as
another kind of COLL_CTRL frame. -/
theorem not_collectiveFramesAreTaken : ¬ Obligations.CollectiveFramesAreTaken := by
  intro h
  have runs : emptyAckState.collRuns = true := by decide
  have head : HeadsFlow emptyAckState 0 false emptyAck 0 := ⟨by decide, rfl, rfl⟩
  obtain ⟨-, -, -, -, -, ack, -⟩ := h.2 0 emptyAck 0 emptyAckState _ runs (by decide) head (by decide) (by decide) rfl 0 _ (by decide) rfl
  have counts := (ack rfl (by decide)).1 (by decide)
  rw [abortAckReceived_takes runs (by decide) head rfl, takeAck_empty (by decide)] at counts
  have badAcks := congrArg (fun t : State => t.coll.badAcks) (Host.Outcome.next.inj counts)
  rw [badAcks_dropColl] at badAcks
  exact absurd badAcks (by decide)

end Sys2Proof.Claims
end
